-- ==== Sys2Proof/Word.lean ====
section
/-!
DEFINITION. The word types of the CQ7164 and the index types of its agents (R8, R9).
-/

namespace Sys2Proof

/-- One byte. -/
abbrev Byte := BitVec 8

/-- A 64-bit register word, or the 64-bit payload of a line block as a field in network order (R45). -/
abbrev W64 := BitVec 64

/-- A channel number, CH0 to CH127 (R8). -/
abbrev Ch := Fin 128

/-- A local terminal number, or the number of an emulated terminal of a channel (R8). -/
abbrev Loc := Fin 128

/-- A global terminal index, 128 × channel + local number (R8). -/
abbrev Gidx := Fin 16384

/-- A lane number (R9). -/
abbrev LaneNo := Fin 264

/-- A lane-port number (R9). -/
abbrev LanePort := Fin 128

/-- A pipeline, D0 to D7 then U0 to U7 (R18, R220). -/
abbrev Pipe := Fin 16

/-- A command ring (R559). -/
abbrev RingNo := Fin 64

end Sys2Proof
end

