-- ==== Sys2Proof/Machine/Inputs.lean ====
section
/-!
DEFINITION. The operands of commands that are more than a number: what arrives on a line, a port or a pin.
-/

namespace Sys2Proof

/-- A PTP message received on an uplink port (R442): its messageType, its domain and transport, its sequence,
the two-step flag, its origin or receive timestamp and its correction field in 2^−16 ns, and the dataset bytes of
an Announce. -/
structure PtpIn where
  port : LanePort
  kind : Fin 16
  domain : Fin 256
  transport : Fin 3
  seq : Fin 65536
  twoStep : Bool
  time : Nat
  corr : Int
  body : List Byte
  deriving DecidableEq, Repr

/-- A stacked-memory read that completes (R364, R374): a spill page of a queue, a CXL read of `n + 1` accesses of
64 bytes of the observation region, or the reader of a command ring. -/
inductive MemRead where
  | spill (q : Fin 66560) (slot : Nat)
  | cxl (access : Fin (2 ^ 27)) (n : Fin 4)
  | ring (n : RingNo)
  deriving DecidableEq, Repr

/-- How a request to a stack ended (R373): well, well after one replay, or uncorrectable because the replay failed
too or because the stack's own ECC reported it. -/
inductive MemEnd where
  | good
  | replayed
  | replayFailed
  | eccFailed
  deriving DecidableEq, Repr

/-- The write that a stack acknowledges (R365, R367): one of a pseudo-channel, how it ended, and the time since it came to its port,
ns. -/
structure WrAck where
  pc : Fin 128
  end_ : MemEnd
  ns : Fin (2 ^ 20)
  deriving DecidableEq, Repr

/-- How the read and the write of one block of a migration ended (R373, R375), with the time each took, ns. -/
structure MigEnds where
  rd : MemEnd
  rdNs : Fin (2 ^ 20)
  wr : MemEnd
  wrNs : Fin (2 ^ 20)
  deriving DecidableEq, Repr

/-- What the boot has found out when an image slot has been read (R379, R542): whether the read failed, and the stacks that failed
initialisation. -/
structure SlotIn where
  readErr : Bool
  failed : List (Fin 4)
  deriving DecidableEq, Repr

/-- A frame as a port's PCS hands it to the MAC (R395), FCS included: whether the PCS marked an error within it,
the FEC codewords corrected and not corrected while it arrived, the symbols corrected on each lane, and the
alignment-marker errors (R409). -/
structure MacIn where
  port : LanePort
  bytes : List Byte
  codeErr : Bool
  corrected : Fin 65536
  uncorrected : Fin 65536
  symbols : List (Fin 65536)
  bipErrs : List (Fin 65536)
  deriving DecidableEq, Repr

/-- How a frame's transmission went (R400, R402): whole, with a byte that was not there in time, or ended by an
uncorrectable transfer or a tag failure after it had started. -/
inductive TxEnd where
  | whole
  | underrun
  | aborted
  deriving DecidableEq, Repr

/-- Why a port goes down (R393): alignment lost on a lane, a local fault, or a remote fault. -/
inductive DownCause where
  | alignment (lane : Fin 8)
  | localFault
  | remoteFault
  deriving DecidableEq, Repr

/-- A mean square error of equalized samples (R269), in 2^−40 of the squared spacing of adjacent levels. -/
abbrev MeanSq := Fin (2 ^ 64)

/-- What the adaptation of a receiver does in a span at whose end it is evaluated (R268): the net number of steps of GAIN, PHASE, PEAK
and the 12 taps, and the mean square error of the span's symbols. -/
structure Adapt where
  gain : Int
  phase : Int
  peak : Int
  taps : List Int
  err : MeanSq
  deriving DecidableEq, Repr

/-- A window of a continuous receiver (R269): how it adapts, span by span, and the window's mean square error. -/
structure RxVals where
  spans : List Adapt
  err : MeanSq
  deriving DecidableEq, Repr

/-- A block as it arrives on a line (R5, R44, R45): its two header bits in the order sent, header bit 0 as the more
significant, and its payload as a field in network order, still scrambled. -/
structure LineBlk where
  hdr : Fin 4
  pay : Fin (2 ^ 64)
  deriving DecidableEq, Repr

/-- A codeword at a receiver (R47 to R49, R88): its data positions and its 32 parity blocks as received, the bits that the
decoder's output changes, by position from the first bit of block 0, and whether its syndrome is still not zero after
the last iteration. -/
structure CwIn where
  raw : List LineBlk
  flips : List (Fin 16896)
  bad : Bool
  deriving DecidableEq, Repr

/-- A burst at the burst receiver (R92, R95, R98): where a standby that acquires DELTA sees its energy, as an offset of the
delimiter in bit times (R475); the bits of the 325 symbols sampled from 130 symbols before the expected place (R267), the first
bit the most significant; its scrambled header payload, its codewords, how the receiver adapts through the preamble and after it,
the mean square error from the delimiter to the terminator, and the payload of the block at the terminator's place. -/
structure BurstIn where
  energy : Int
  search : Fin (2 ^ 650)
  hdr : Fin (2 ^ 64)
  words : List CwIn
  pre : List Adapt
  post : List Adapt
  err : MeanSq
  term : Fin (2 ^ 64)
  deriving DecidableEq, Repr

/-- What may be a burst in a discovery or ranging window (R117, R120): its place in symbols sampled from the place where a delimiter
is expected (R267), the 132 line bits received there, the header payload, the codeword of 32 data positions, the adaptation and
mean square error as for any burst, and the payload of the block at the terminator's place. -/
structure WindowIn where
  place : Int
  delim : Fin (2 ^ 132)
  hdr : Fin (2 ^ 64)
  word : CwIn
  pre : List Adapt
  post : List Adapt
  err : MeanSq
  term : Fin (2 ^ 64)
  deriving DecidableEq, Repr

/-- A word of a bus or link at its receiver (R23): the direction in which it went, its 32-bit lanes and the parity bit of
each. -/
structure WordIn where
  dir : Fin 2
  lanes : List (Fin (2 ^ 32))
  parity : List Bool
  deriving DecidableEq, Repr

/-- A rekey that software asks for (R421): the slot, and the key wrapped under the terminal's key-encryption key. -/
structure KeyReq where
  index : Fin 2
  wrap : List Byte
  deriving DecidableEq, Repr

/-- A record of a DELTA or BULK (R467, R472): its table, its index and its data. -/
structure CopyRec where
  table : Fin 256
  index : Fin (2 ^ 32)
  data : List Byte
  deriving DecidableEq, Repr

/-- A partner's bridge update (R326, R330): the BD and address as one number, DEST, and whether the entry goes. -/
structure LearnIn where
  pair : Fin (2 ^ 62)
  dest : Fin (2 ^ 32)
  removed : Bool
  deriving DecidableEq, Repr

/-- The FLAGS of a stitch message (R465). -/
structure StFlags where
  synced : Bool
  ready : Bool
  healthy : Bool
  deriving DecidableEq, Repr

/-- A HELLO (R467). -/
structure HelloIn where
  flags : StFlags
  side : Fin 2
  mode : Fin 6
  epoch : Fin 65536
  pairId : Fin (2 ^ 128)
  digest : Fin (2 ^ 128)
  deriving DecidableEq, Repr

/-- A stamp of the stitch balls (R467): seconds, nanoseconds, and fraction. -/
structure Stamp where
  sec : Fin (2 ^ 48)
  ns : Fin 1000000000
  frac : Fin 65536
  deriving DecidableEq, Repr

/-- What Quill samples every 32 µs (R515): the 24 die sensors, 8 supplies and 4 stacks, and the ADC inputs, none where
the SPI read failed; each a 16-bit value in two's complement. -/
structure QuillIn where
  dies : List (Fin 65536)
  supplies : List (Fin 65536)
  hbm : List (Fin 65536)
  adc : List (Option (Fin 65536))
  deriving DecidableEq, Repr

/-- What an optics module reads (R515): temperature, supply, receive power and flags. -/
structure OptIn where
  temp : Fin 65536
  supply : Fin 65536
  rx : Fin 65536
  flags : Fin 8
  deriving DecidableEq, Repr

/-- What the fuses hold (R545). -/
structure FuseIn where
  rootKey : Fin (2 ^ 256)
  rootPresent : Bool
  hash0 : Fin (2 ^ 384)
  hash1 : Fin (2 ^ 384)
  hashPresent : Fin 4
  revoked : Fin 4
  version : Fin (2 ^ 64)
  deriving DecidableEq, Repr

/-- What a transfer that failed twice carried (R26): the packet at the front of a pipeline's queue, not yet started on any
output; the frame under way on an uplink; a segment toward a tree framer; a control transaction of a block with its
target block's prefix, table and entry, a host register read or a host register write at an address, with how many times
it has now failed. -/
inductive Xfer where
  | packet (pipe : Pipe)
  | frame (port : LanePort)
  | segment (c : Ch)
  | control (base : Fin 65536) (table : Fin 256) (index : Fin (2 ^ 32)) (tries : Fin 4)
  | regRead (tries : Fin 4)
  | regWrite (a : Fin (2 ^ 26)) (tries : Fin 4)
  deriving DecidableEq, Repr

/-- An event that a block raises (R570 to R573): SOURCE, EVENT, INSTANCE and DATA, and whether it is the seventeenth or a
later one of its cycle (R574). -/
structure EvIn where
  source : Fin 65536
  event : Fin 65536
  inst : Fin (2 ^ 32)
  data : Fin (2 ^ 192)
  late : Bool
  deriving DecidableEq, Repr

end Sys2Proof
end

