-- ==== Sys2Proof/Syntax.lean ====
section
/-!
DEFINITION. The commands: one constructor for each row of the table of operations and events.
-/

namespace Sys2Proof

/-- A command: an operation or event of the part. -/
inductive Instr where
  /-- REGISTER_WRITE (R12). A host write to a BAR0 register that has no row of its own stores the value under its field types. -/
  | registerWrite (a : Fin (2 ^ 26)) (size : Fin 65) (v : Fin (2 ^ 64)) (fails : Fin 4)
  /-- COLD_RESET (R536). PORESET_N held low starts a cold reset that keeps only fuses and reruns boot. -/
  | coldReset
  /-- BOOT_RESET (R536). A write of 0xC5 to BOOT_RESET.CODE starts a cold reset. -/
  | bootReset (code : Fin 256)
  /-- POWER_FAIL (R610). VDD_AO below 0.74 V or CLK25_AO stopped for 10 us acts as PORESET_N low. -/
  | powerFail
  /-- FUSES_SENSED (R542). The always-on domain senses the fuses and boot proceeds to reading the slot headers. -/
  | fusesSensed (f : FuseIn)
  /-- SLOT_READ_DONE (R540). An image slot has been read and its header, CRC, key hash, signature, version and bundle are checked. -/
  | slotReadDone (r : SlotIn)
  /-- RECORDS_APPLIED (R541). The accepted image's records are applied in order, failing boot on a refused record. -/
  | recordsApplied
  /-- BOOT_LOCK (R15). Once enabled lanes run, RWL fields lock and the boot mode is entered. -/
  | bootLock (fuseBad : Bool)
  /-- TOD_WAIT_END (R441). The first time sample arrives or TOD_WAIT_MS expires and framing may start. -/
  | todWaitEnd
  /-- FLASH_READ_PAGE (R549). BOOT_FLCTL GO with OP 0 reads a 256-byte flash page into BOOT_FLDATA. -/
  | flashReadPage (a : Fin (2 ^ 27))
  /-- FLASH_PROGRAM_PAGE (R549). BOOT_FLCTL GO with OP 1 programs one flash page unless refused. -/
  | flashProgramPage (a : Fin (2 ^ 27))
  /-- FLASH_ERASE (R549). BOOT_FLCTL GO with OP 2 erases a 64 KiB flash block unless refused. -/
  | flashErase (a : Fin (2 ^ 27))
  /-- FLASH_OP_DONE (R549). A flash operation completes, clearing GO and BUSY and setting FLERR on an error. -/
  | flashOpDone (err : Bool)
  /-- QUAD_MOVE (R21). At a frame boundary a quad starts moving to another pipeline and its new traffic is held in the edge ingress buffer. -/
  | quadMove (q : Fin 64)
  /-- QUAD_DRAIN_END (R21). The old pipeline completes the quad's packets and the new pipeline takes the held traffic. -/
  | quadDrainEnd (q : Fin 64)
  /-- QUAD_MOVE_ABANDONED (R21). A drain not finished in 2 us abandons the move, releases held traffic to the old pipeline and raises an event. -/
  | quadMoveAbandoned (q : Fin 64)
  /-- WORD_FAILED (R25). A receiver sees a word failing odd parity, discards it and later words and requests a replay. -/
  | wordFailed (src : Fin 9) (w : WordIn)
  /-- REPLAYED_WORD (R26). A replayed word arrives; if it fails again its transfer is uncorrectable and handled by its kind. -/
  | replayedWord (src : Fin 9) (dir : Fin 2) (bad : Option Xfer)
  /-- REPLAY_ACK (R24). A group acknowledgement frees replay buffer space so held words may be sent. -/
  | replayAck (src : Fin 9) (dir : Fin 2)
  /-- MODE_TRIGGER (R36). The mode arbiter takes a transition trigger, ordering coinciding ones and refusing illegal ones. -/
  | modeTrigger
  /-- VIGIL_ENTRY (R38). A VIGIL decision sets TRANSITION and stops tree transmit at the next frame boundary. -/
  | vigilEntry
  /-- VIGIL_DRAINED (R38). Pipelines are drained and the final counter sheet and mode event are written. -/
  | vigilDrained
  /-- VIGIL_POWER_DOWN (R38). Stacks enter self-refresh, fast domains are unpowered and CURRENT becomes 4. -/
  | vigilPowerDown
  /-- WAKE (R39). A Quill wake action starts a warm boot from VIGIL. -/
  | wake
  /-- TEST_ENTRY (R35). At the next frame boundary after a host command the device enters TEST. -/
  | testEntry
  /-- LEASE_EXPIRY (R468). At the boundary of frame E the active device squelches tree lanes and moves to STANDBY with cause 0x3. -/
  | leaseExpiry
  /-- FRAME_START (R52). At each 125 us multiple of local time every head-role channel starts a frame with sync words and header. -/
  | frameStart
  /-- SUBFRAME_START (R51). Each subframe the framer sends the subframe header, burst map and circuit regions. -/
  | subframeStart (c : Ch) (sf : Fin 4)
  /-- SEGMENT_TX (R66). The framer takes a selected packet and sends it as segments, fragmenting at subframe ends. -/
  | segmentTx (c : Ch)
  /-- FRAMER_CONFIG_APPLY (R73). A TCH_FRMCFG write takes effect at the next frame boundary for framer and receiver. -/
  | framerConfigApply (c : Ch)
  /-- BLOCK_RECEIVED (R69). A downstream receiver takes a block and advances block lock and sync search. -/
  | blockReceived (c : Ch) (hdr : Fin 4) (pay : Fin (2 ^ 64))
  /-- OOF (R70). MISSES consecutive missed sync matches take the receiver from IN_FRAME to RETAINED. -/
  | oof (c : Ch)
  /-- RETAIN_EXPIRED (R70). RETAIN_FRAMES frames without recovery drop the retained position and return to SEARCH. -/
  | retainExpired (c : Ch)
  /-- LOF (R71). 24 consecutive frames without IN_FRAME set LOF. -/
  | lof (c : Ch)
  /-- CODEWORD_DECODE (R49). A codeword's decoding completes and its data blocks are delivered, marked if uncorrectable. -/
  | codewordDecode (c : Ch) (w : CwIn)
  /-- FRAME_HEADER_RX (R57). A receiver takes a frame header, checks HDR_CRC and BIP32 and takes ERR_COUNT and time. -/
  | frameHeaderRx (c : Ch) (ago : Fin (2 ^ 34))
  /-- SUBFRAME_HEADER_RX (R57). A receiver takes a subframe header and its map, ignoring entries that fail checks. -/
  | subframeHeaderRx (c : Ch)
  /-- SEGMENT_RX (R68). A receiver takes a segment, checks header, label, tag and sequence and accepts or discards it. -/
  | segmentRx (c : Ch)
  /-- PRESET_LOAD (R92). At guard block 4 the burst receiver loads the terminal's preset or the channel default and pulses RXBRST. -/
  | presetLoad (c : Ch) (parityBad : Bool)
  /-- BURST_RECEIVED (R92). A scheduled burst's delimiter is found, its header and codewords decoded and its record written. -/
  | burstReceived (c : Ch) (b : BurstIn)
  /-- BURST_MISSING (R97). No delimiter within the window: the burst is recorded missing and its report absent. -/
  | burstMissing (c : Ch)
  /-- GUARD_INTRUSION (R99). Energy in guard blocks 12 to 15 records a guard intrusion naming both neighbours. -/
  | guardIntrusion (c : Ch)
  /-- PRESET_STALE (R91). PRESET_AGE frames without write-back make a VALID preset STALE. -/
  | presetStale (g : Gidx)
  /-- SUBFRAME_TICK (R505). The Scribe's class-0 routine grants ranging slots, opens discovery and times messages and counts. -/
  | subframeTick (c : Ch)
  /-- DISC_RX (R113). The Scribe handles a discovery response, assigning a local number and sending ASSIGN. -/
  | discRx (c : Ch) (rs : List WindowIn)
  /-- RANGE_RX (R120). The Scribe handles a ranging burst outcome, setting EqD and RTD, retrying or releasing the slot. -/
  | rangeRx (c : Ch) (loc : Loc) (r : Option WindowIn)
  /-- ACTIVATE (R121). The Scribe runs the ACTIVATE and ACTIVATE_ACK exchange and makes the terminal ACTIVE. -/
  | activate (c : Ch) (loc : Loc)
  /-- MSG_RX (R137). The Scribe checks an upstream management message's CMAC and counter and dispatches it. -/
  | msgRx (c : Ch)
  /-- MSG_RETRY (R140). An unanswered downstream message is resent or its exhaustion result applied. -/
  | msgRetry (c : Ch) (loc : Loc) (type : Fin 256)
  /-- TRACK (R122). Ruling acts on a burst's arrival offset by adjustment, resend or re-range. -/
  | track (c : Ch) (loc : Loc)
  /-- LOSS (R126). LOSS_FRAMES granted frames without a found burst put the terminal in HOLD with its recall flag. -/
  | loss (c : Ch) (loc : Loc)
  /-- RECOVERY_END (R127). RECOVERY_FRAMES after the latest HOLD entry the recovery period ends. -/
  | recoveryEnd (c : Ch)
  /-- GASP (R126). A burst with DYING_GASP puts the terminal in HOLD at once. -/
  | gasp (c : Ch) (loc : Loc)
  /-- ROGUE (R125). A rogue mark is placed; at ROGUE_MARKS the terminal is disabled and later evidence raises the alarm. -/
  | rogue (c : Ch) (loc : Loc)
  /-- HOLD_EXPIRED (R126). HOLD_FRAMES after entry into HOLD the terminal becomes FREE and its queues are flushed. -/
  | holdExpired (c : Ch) (loc : Loc)
  /-- RECALL (R129). One step of a recall pass sends ASSIGN with CAUSE 1 to a flagged entry. -/
  | recallStep (c : Ch)
  /-- MOVE_SOURCE (R130). The Scribe checks a side move, reserves the target and sends SIDE_MOVE. -/
  | moveSource (c : Ch) (loc : Loc)
  /-- SIDE_MOVE_EFFECTIVE (R131). At frame F keys and counters are copied to the target and queues re-parented. -/
  | sideMoveEffective (c : Ch) (loc : Loc)
  /-- MOVE_TARGET (R132). The target handles the move's ranging outcome, retrying once or sending the source to HOLD. -/
  | moveTarget (c : Ch) (loc : Loc)
  /-- DOZE (R134). The Scribe grants, ends or refuses doze on request, limit, re-range or host command. -/
  | doze (c : Ch) (loc : Loc)
  /-- KEYS (R421). The Scribe sends KEY_DELIVER and KEY_SWITCH for a rekey. -/
  | keys (c : Ch) (loc : Loc) (req : Option KeyReq)
  /-- ALARM (R135). The Scribe answers a terminal ALARM with ALARM_ACK and a Blotter record. -/
  | alarm (c : Ch) (loc : Loc)
  /-- HOST_CMD (R142). The Scribe checks a host terminal command's legality and refuses or acts. -/
  | hostCmd (c : Ch) (loc : Loc)
  /-- TAKEOVER (R479). The Scribe resumes registry states and pending transactions after takeover. -/
  | takeover (c : Ch)
  /-- TERM_RX (R234). A terminal-role channel hands a downstream management message to its emulated terminals. -/
  | termRx (c : Ch)
  /-- TERM_TICK (R111). The class-0 terminal routine advances the timers of every emulated terminal. -/
  | termTick (c : Ch)
  /-- HOLDOVER_EXPIRED (R111). A ninth missed frame in T_HOLDOVER sends the terminal to T_INIT. -/
  | holdoverExpired (c : Ch) (t : Loc)
  /-- RANGE_WAIT_EXPIRED (R619). RANGE_WAIT frames in T_RANGING without progress return the terminal to T_LISTEN. -/
  | rangeWaitExpired (c : Ch) (t : Loc)
  /-- DEACTIVATE_TIMEOUT (R620). A terminal given DEACTIVATE and no burst in 8 frames enters T_INIT unanswered. -/
  | deactivateTimeout (c : Ch) (t : Loc)
  /-- SNAPSHOT (R159). At subframe boundary B the grant engine takes reports and states, refills credits and builds the map. -/
  | snapshot (c : Ch)
  /-- REPORT_PROCESS (R157). The grant engine processes a burst's report and sets demand per named container. -/
  | reportProcess (c : Ch)
  /-- GNT_IND_READ (R179). GNT_IND_CTL GO with WRITE 0 reads a container configuration or state record. -/
  | gntIndRead (table : Fin 4) (index : Fin 65536)
  /-- GNT_IND_WRITE (R179). GNT_IND_CTL GO with WRITE 1 writes a container record unless refused under R153. -/
  | gntIndWrite (table : Fin 4) (index : Fin 65536)
  /-- PIPELINE_PACKET (R322). A pipeline parses, classifies, meters and forwards a received packet into queues. -/
  | pipelinePacket (pipe : Pipe)
  /-- LEARN_APPLY (R326). The learning station applies a queued learn or move request and sends the update. -/
  | learnApply
  /-- PENDING_FILTER_TIMEOUT (R325). A requested pair leaves a pipeline's pending filter after 10 us. -/
  | pendingFilterTimeout (pipe : Pipe)
  /-- AGING_SWEEP (R328). Every AGE_S / 3 seconds the station ages dynamic bridge entries and removes old ones. -/
  | agingSweep
  /-- FWD_FLUSH (R338). FWD_FLUSH GO removes the dynamic entries of a BD, service, terminal or all. -/
  | fwdFlush (id : Fin (2 ^ 17)) (scope : Fin 4)
  /-- FWD_IND_READ (R340). FWD_IND_CTL GO with WRITE 0 reads a forwarding table record. -/
  | fwdIndRead (table : Fin 8) (index : Fin (2 ^ 20))
  /-- FWD_IND_WRITE (R340). FWD_IND_CTL GO with WRITE 1 writes a record, placing prefixes under R334. -/
  | fwdIndWrite (table : Fin 8) (index : Fin (2 ^ 20))
  /-- FWD_IND_REMOVE (R340). FWD_IND_CTL GO with WRITE and REMOVE removes a prefix or invalidates a record. -/
  | fwdIndRemove (table : Fin 8) (index : Fin (2 ^ 20))
  /-- PREFIX_RELOCATION_DONE (R334). The last write of a prefix insertion completes and BUSY clears. -/
  | prefixRelocationDone
  /-- SCHEDULER_SELECT (R211). Every 4 fabric cycles a channel's scheduler selects a packet and charges its shapers. -/
  | schedulerSelect (c : Ch)
  /-- REFILL (R216). At each refill boundary every present shaper adds rate times REFILL_NS, capped at its size. -/
  | refill
  /-- METER_SWEEP (R219). The background sweep refills each meter at least once a second. -/
  | meterSweep
  /-- QUEUE_REPARENT (R218). A queue's PARENT change takes effect at the next frame boundary. -/
  | queueReparent (q : Fin 65536)
  /-- TMG_IND_READ (R228). TMG_IND_CTL GO with WRITE 0 reads a queue, node, meter or profile record. -/
  | tmgIndRead (table : Fin 8) (index : Fin (2 ^ 17))
  /-- TMG_IND_WRITE (R228). TMG_IND_CTL GO with WRITE 1 writes a traffic management record unless refused. -/
  | tmgIndWrite (table : Fin 8) (index : Fin (2 ^ 17))
  /-- SPILL_STEP (R347). A queue above SPILL_ON moves packets into its open page and writes full pages out. -/
  | spillStep (q : Fin 66560)
  /-- PREFETCH (R347). A queue whose head is below HEAD_KEEP requests its next spill page. -/
  | prefetch (q : Fin 66560)
  /-- PAGE_LAND (R349). A spill page read returns, is checked and joins the head in order or is lost. -/
  | pageLand (q : Fin 66560) (slot : Fin 3670016) (headerBad : Bool)
  /-- BUF_IND_READ (R357). BUF_IND_CTL GO with WRITE 0 reads an owner record. -/
  | bufIndRead (table : Fin 4) (index : Fin 1024)
  /-- BUF_IND_WRITE (R357). BUF_IND_CTL GO with WRITE 1 writes an owner configuration record unless refused. -/
  | bufIndWrite (table : Fin 4) (index : Fin 1024)
  /-- MEM_READ_COMPLETE (R364). A stacked-memory read returns its data and tag, replayed once on parity failure. -/
  | memReadComplete (r : MemRead) (e : MemEnd) (blk : Fin 64) (ns : Fin (2 ^ 20))
  /-- MEM_WRITE_ACK (R365). The stack acknowledges a write and its buffer entry is freed. -/
  | memWriteAck (e : WrAck)
  /-- REFRESH_INTERVAL (R370). A refresh interval passes and the PC's owed count rises, becoming urgent at REF_POSTPONE. -/
  | refreshInterval (pc : Fin 128) (issued : List Bool)
  /-- STACK_TEMP_SAMPLE (R371). A stack temperature sample sets its refresh rate, rescales owed counts or takes it out of use. -/
  | stackTempSample (st : Fin 4) (raw : Fin 256)
  /-- STACK_RETURN (R372). After 1 s at or below 100 C the stack is re-initialised, its region zeroed and returned to use. -/
  | stackReturn (st : Fin 4)
  /-- PAGE_TIMEOUT (R368). An open page closes after PAGE_TIMEOUT. -/
  | pageTimeout (bank : Fin 8192)
  /-- UNIT_RETIRE (R384). MEM_RETIRE GO retires a unit on host command. -/
  | unitRetire (stack : Fin 4) (ch : Fin 16) (psid : Fin 4)
  /-- MIGRATION_STEP (R375). The migration engine copies one 256-byte block to the spare and swaps units at the end. -/
  | migrationStep (e : MigEnds) (access : Fin 4)
  /-- MAC_FRAME_RX (R395). The MAC receives a whole frame and discards, acts on flow control or passes it on. -/
  | macFrameRx (m : MacIn)
  /-- PAUSE_TIMER_EXPIRY (R398). A port or queue pause timer reaches zero and the queue resumes. -/
  | pauseTimerExpiry (port : LanePort) (k : Fin 9)
  /-- PAUSE_STORM (R399). A queue paused STORM_MS clears all pause timers and ignores pause for 1 s. -/
  | pauseStorm (port : LanePort) (k : Fin 8)
  /-- PAUSE_STORM_END (R399). One second after a storm pause frames are honoured again. -/
  | pauseStormEnd (port : LanePort)
  /-- MAC_FRAME_TX (R397). The MAC starts a frame from an egress queue, pushes tags and adds the FCS. -/
  | macFrameTx (port : LanePort) (e : TxEnd)
  /-- LINK_UP (R393). A port aligned without fault for LINK_HOLD_MS goes up. -/
  | linkUp (port : LanePort)
  /-- LINK_DOWN (R394). A port loses alignment or faults, aborting any frame and optionally flushing its queues. -/
  | linkDown (port : LanePort) (c : DownCause) (sending : Bool)
  /-- CIRCUIT_REGION_RX (R188). A receiver decides a circuit region's pointer and takes its carriers. -/
  | circuitRegionRx (n : Fin 1024)
  /-- CIRCUIT_FRAME_RX (R197). The circuit mapper takes a downstream circuit frame into its buffer or discards it. -/
  | circuitFrameRx
  /-- REGION_MISS (R195). An upstream region not received by subframe t + 16 is played out as fill. -/
  | regionMiss (n : Fin 1024)
  /-- BURST_TX (R236). A terminal-role channel sends a granted burst at its transmit instant with TBEN asserted. -/
  | burstTx (c : Ch) (t : Loc)
  /-- EMU_ENABLE (R248). EMU_EN written 0 to 1 puts the emulated terminal in T_INIT then T_LISTEN. -/
  | emuEnable (c : Ch) (t : Loc)
  /-- EMU_DISABLE (R248). EMU_EN written 1 to 0 puts the emulated terminal in T_INIT at once. -/
  | emuDisable (c : Ch) (t : Loc)
  /-- EMU_GASP (R248). GASP written 1 sends DYING_GASP in the next granted burst. -/
  | emuGasp (c : Ch) (t : Loc)
  /-- EMU_GASP_TIMEOUT (R248). After the gasp burst or 8 frames without grant EMU_EN clears. -/
  | emuGaspTimeout (c : Ch) (t : Loc)
  /-- EMU_ALARM (R248). ALARM written 1 raises ALARM in burst headers until ALARM_ACK. -/
  | emuAlarm (c : Ch) (t : Loc)
  /-- EMU_ALARM_RESEND (R248). No ALARM_ACK within 8 frames resends the ALARM message. -/
  | emuAlarmResend (c : Ch) (t : Loc)
  /-- EMU_DOZE (R248). DOZE written 1 sends DOZE_REQ with DOZE_PERIOD. -/
  | emuDoze (c : Ch) (t : Loc)
  /-- EMU_COUNT_APPLY (R245). A new EMU_COUNT takes effect at a frame boundary and sends terminals above it to T_INIT. -/
  | emuCountApply (c : Ch)
  /-- BUCKET_MOVE (R251). At a frame boundary cascade buckets move between trunk members and a queue mark is set. -/
  | bucketMove (b : Fin 256)
  /-- BUCKET_HOLD_END (R251). The old member has sent or flushed past the mark and the held bucket traffic is released. -/
  | bucketHoldEnd (b : Fin 256)
  /-- LANE_ENABLE (R277). SLN_CTL.ENABLE written 1 powers the lane up into POWERUP. -/
  | laneEnable (n : LaneNo)
  /-- LANE_DISABLE (R277). SLN_CTL.ENABLE written 0 squelches the transmitter and takes the lane to OFF. -/
  | laneDisable (n : LaneNo)
  /-- LANE_POWERUP_DONE (R277). The lane's synthesizer locks and the lane enters CAL. -/
  | lanePowerupDone (n : LaneNo)
  /-- LANE_CAL_DONE (R277). Calibration ends and the lane enters ACQUIRE or RUNNING. -/
  | laneCalDone (n : LaneNo)
  /-- LANE_LOCK (R277). CDR locks with FOM at FOM_RETRAIN and the lane enters RUNNING. -/
  | laneLock (n : LaneNo) (v : RxVals)
  /-- LANE_FAULT (R277). 20 ms in ACQUIRE with signal and no lock puts the lane in FAULT. -/
  | laneFault (n : LaneNo)
  /-- FAULT_RETRY (R277). 100 ms in FAULT returns the lane to ACQUIRE. -/
  | faultRetry (n : LaneNo)
  /-- LOS (R277). Loss of signal on a continuous receiver returns it to ACQUIRE and freezes adaptation. -/
  | los (n : LaneNo)
  /-- RETRAIN (R270). A RETRAIN write or RETRAIN_WIN low-FOM windows restart the receiver from its start values. -/
  | retrain (n : LaneNo) (host : Bool) (ws : List RxVals)
  /-- INJ_ONE (R282). A write of INJ_ONE flips INJ_LEN + 1 transmitted bits once. -/
  | injOne (n : LaneNo)
  /-- RATE_INJECTION (R282). Every 2^INJ_RATE bits an error injection falls in rate mode. -/
  | rateInjection (n : LaneNo)
  /-- PRESET_READ (R291). SLN_PRE_CTL GO with OP 0 reads a preset with its state and age. -/
  | presetRead (index : Gidx) (dflt : Bool)
  /-- PRESET_WRITE (R276). SLN_PRE_CTL GO with OP 1 writes a preset and makes it VALID. -/
  | presetWrite (index : Gidx) (dflt : Bool)
  /-- PRESET_ERASE (R276). SLN_PRE_CTL GO with OP 2 zeroes a preset and makes it NONE. -/
  | presetErase (index : Gidx) (dflt : Bool)
  /-- PAR_IND_READ (R315). PAR_IND_CTL GO with WRITE 0 reads a rule, rule state or fragment entry. -/
  | parIndRead (table : Fin 4) (index : Fin 8192)
  /-- PAR_IND_WRITE (R315). PAR_IND_CTL GO with WRITE 1 writes a rule, applied to every pipeline copy at once. -/
  | parIndWrite (table : Fin 4) (index : Fin 8192)
  /-- FRAG_TIMEOUT (R307). A fragment entry without a hit for TIMEOUT_MS is freed. -/
  | fragTimeout (n : Fin 8192)
  /-- KEY_STATUS_READ (R432). CRY_KEY_CTL GO with OP 0 reads a slot's state, WARNED and counters. -/
  | keyStatusRead (index : Fin (2 ^ 17))
  /-- KEY_PORT_IMPORT (R413). CRY_KEY_CTL GO with OP 1 unwraps a key into a slot and resets its counters. -/
  | keyPortImport (index : Fin (2 ^ 17))
  /-- KEY_PORT_ERASE (R414). CRY_KEY_CTL GO with OP 2 sets a slot ERASING. -/
  | keyPortErase (index : Fin (2 ^ 17))
  /-- KEY_ZEROIZE (R414). The last operation using an ERASING slot ends and the slot becomes EMPTY. -/
  | keyZeroize (index : Fin (2 ^ 17))
  /-- JOB_COMPLETE (R429). A cipher job ends and the next most urgent job runs or resumes. -/
  | jobComplete
  /-- JOB_PREEMPT (R429). A more urgent job suspends the running job at an AES block boundary. -/
  | jobPreempt (blocks : Fin (2 ^ 24))
  /-- SERVO_SAMPLE (R439). A phase sample updates the clock addend through the servo. -/
  | servoSample (freqPpb : Int)
  /-- SOURCE_LOSS (R440). No sample in 3 nominal intervals puts the servo in HOLDOVER. -/
  | sourceLoss
  /-- CLOCK_STEP (R441). TIM_SET_NS GO steps the local clock or arms the step, refused while framing. -/
  | clockStep (ns : Fin (2 ^ 30)) (atPps : Bool)
  /-- PPS_IN_EDGE (R438). A PPS_IN rising edge gives a phase sample or applies an armed step. -/
  | ppsInEdge
  /-- PTP_MESSAGE_RX (R442). A PTP event or general message is received and stamped on an uplink port. -/
  | ptpMessageRx (m : PtpIn)
  /-- PTP_MESSAGE_TX (R442). At its interval a Sync, Delay_Req or Announce is sent on a PTP port. -/
  | ptpMessageTx (port : LanePort) (kind : Fin 16)
  /-- TRIGGER_FIRE (R449). A trigger asserts its TRIG pin at its scheduled instant. -/
  | triggerFire (k : Fin 16)
  /-- TRIGGER_END (R449). WIDTH after assertion a trigger deasserts its pin. -/
  | triggerEnd (k : Fin 16)
  /-- PPS_OUT_PULSE (R451). PPS_OUT asserts at each whole local second. -/
  | ppsOutPulse
  /-- CAP_EDGE (R452). A selected CAP edge is stamped into its FIFO or dropped. -/
  | capEdge (k : Fin 4) (rising : Bool)
  /-- CAPTURE_POP (R452). A read of TIM_CAPNS pops the oldest stamp and latches its seconds. -/
  | capturePop (k : Fin 4)
  /-- NOW_READ (R437). A read of TIM_NOW_NS latches the seconds into TIM_NOW_SEC. -/
  | nowRead
  /-- HELLO (R463). A partner's HELLO is checked for pair identity and settles dual activity. -/
  | hello (h : HelloIn)
  /-- RENEW (R469). The standby receives RENEW and acknowledges it, raising E_s. -/
  | renew (f : Fin (2 ^ 48)) (epoch : Fin 65536) (fl : StFlags)
  /-- STITCH_ACK (R468). The active device receives ACK and extends its lease end. -/
  | stitchAck (f : Fin (2 ^ 48)) (fl : StFlags)
  /-- RELEASE (R477). The standby receives RELEASE and takes over if SYNCED. -/
  | release (p : Fin (2 ^ 48))
  /-- RESIGN (R470). The active device receives RESIGN and becomes solo. -/
  | resign (cause : Fin 256)
  /-- DELTA (R472). The standby takes a state delta of the frame. -/
  | delta (f : Fin (2 ^ 48)) (recs : List CopyRec)
  /-- COMMIT (R473). The standby checks a COMMIT and applies the delta or becomes UNSYNCED. -/
  | commit (f : Fin (2 ^ 48)) (count : Fin (2 ^ 32)) (crc : Fin (2 ^ 32))
  /-- STITCH_MAP (R474). The standby schedules its burst receiver from a forwarded map. -/
  | stitchMap (c : Ch) (target : Fin 65536) (entries : List (Fin (2 ^ 64)))
  /-- STITCH_LEARN (R330). The standby writes a partner's bridge update. -/
  | stitchLearn (us : List LearnIn)
  /-- STITCH_KEY (R427). The standby unwraps a key carried under the pair key. -/
  | stitchKey (slot : Fin (2 ^ 32)) (wrapped : List Byte)
  /-- STITCH_CONFIG (R472). The standby applies a forwarded host configuration write at its effective point. -/
  | stitchConfig (a : Fin (2 ^ 64)) (data : List Byte)
  /-- TIME_REQ (R467). The active device answers a TIME_REQ with TIME_RESP. -/
  | timeReq (t1 : Stamp)
  /-- TIME_RESP (R448). The standby computes a time sample from a TIME_RESP. -/
  | timeResp (t1 t2 t3 : Stamp)
  /-- RESYNC_REQ (R484). The active device starts a bulk copy for the standby. -/
  | resyncReq
  /-- BULK (R484). The standby takes bulk copy records. -/
  | bulk (recs : List CopyRec) (last : Bool)
  /-- MSG_LOST (R466). A stitch message failing twice is lost with a per-type outcome. -/
  | msgLost (type : Fin 256) (sent : Bool)
  /-- STITCH_LINK_CHANGE (R464). The number of locked stitch lanes changes the link state. -/
  | stitchLinkChange (hdrs : List (Fin 8 × List (Fin 4)))
  /-- LOSS_TAKEOVER (R478). A SYNCED standby missing RENEW or link takes over at E_s + 2. -/
  | lossTakeover
  /-- TX_SUSPECT (R480). CHECK_FRAMES without bursts after takeover or an optics fault makes a channel TX_SUSPECT. -/
  | txSuspect (c : Ch) (optics : Bool)
  /-- REVIVAL (R482). SILENCE_FRAMES silent frames make an unsynced standby enter HEAD solo. -/
  | revival
  /-- LINK_WAIT_EXPIRED (R483). A paired HEAD device without a link after LINK_WAIT_MS runs the silence test. -/
  | linkWaitExpired
  /-- ROUTINE_RESTART (R499). An abandoned Scribe routine restarts at its restart point. -/
  | routineRestart (c : Ch)
  /-- WATCHDOG (R503). A routine running 65,536 cycles without commit is ended and its event dropped. -/
  | watchdog (c : Ch)
  /-- PATCH_RELOAD_DONE (R502). After a parity failure the Scribe's patch memory is reloaded and the routine restarts. -/
  | patchReloadDone (c : Ch) (addr : Fin 32768)
  /-- SCRIBE_RESTART (R504). Writing RESTART reloads a halted Scribe and returns it to idle. -/
  | scribeRestart (c : Ch)
  /-- TRACE_CONFIG (R513). A write to SCR_TRCCFG empties the trace ring and sets the traced engine. -/
  | traceConfig (v : Fin (2 ^ 64))
  /-- SCR_IND_READ (R514). SCR_IND_CTL GO reads a patch word or trace record. -/
  | scrIndRead (index : Fin 65536) (table : Fin 4)
  /-- QUILL_SAMPLE (R515). Every 32 us Quill samples its channels and filters them. -/
  | quillSample (x : QuillIn)
  /-- OPTICS_POLL (R516). Quill reads an optics module over I2C, marking it FAILED after 3 failures. -/
  | opticsPoll (m : Fin 128) (x : Option OptIn)
  /-- QUILL_PASS (R519). Quill evaluates every rule and applies the actions of raised and cleared rules. -/
  | quillPass
  /-- QUILL_PARITY_RESTART (R507). A Quill word parity failure reloads its patch memory and restarts at RESET. -/
  | quillParityRestart
  /-- THERMAL_TRIP (R522). Two die samples at 160 C or more send a shut-down trigger to the arbiter. -/
  | thermalTrip
  /-- FOLD_WINDOW (R525). At each WIN_US window end the fold controller folds or unfolds pipeline pairs. -/
  | foldWindow
  /-- UNFOLD_LOCKED (R525). The woken pipeline's domain locks and its quads move back at the next frame boundary. -/
  | unfoldLocked (p : Fin 8)
  /-- QUL_IND_READ (R533). QUL_IND_CTL GO with WRITE 0 reads a filter, sample, rule or rule state record. -/
  | qulIndRead (index : Fin 1024) (table : Fin 4)
  /-- QUL_IND_WRITE (R533). QUL_IND_CTL GO with WRITE 1 writes a filter or rule record unless refused. -/
  | qulIndWrite (index : Fin 1024) (table : Fin 4)
  /-- SQ_DOORBELL (R561). A write to HST_SQTAIL publishes submission entries unless it laps the head. -/
  | sqDoorbell (n : RingNo) (tail : Fin 2048)
  /-- CQ_HEAD_WRITE (R578). A write to HST_CQHEAD frees completion entries unless it passes CQ_TAIL. -/
  | cqHeadWrite (n : RingNo) (head : Fin 2048)
  /-- RING_STOP (R567). Writing ENABLE 0 stops the taking of ring entries. -/
  | ringStop (n : RingNo)
  /-- NOP (R564). The NOP command completes OK. -/
  | nop (ring : RingNo)
  /-- ADMIT (R564). The ADMIT command adds a whitelist entry. -/
  | admitEntry (ring : RingNo)
  /-- DISABLE (R564). The DISABLE command blocks a terminal. -/
  | disable (ring : RingNo)
  /-- ENABLE (R564). The ENABLE command frees a blocked terminal. -/
  | enable (ring : RingNo)
  /-- DEACTIVATE (R564). The DEACTIVATE command ends a terminal's registration. -/
  | deactivate (ring : RingNo)
  /-- MOVE_SIDE (R564). The MOVE_SIDE command moves a terminal to the other side. -/
  | moveSide (ring : RingNo)
  /-- RERANGE (R564). The RERANGE command re-ranges an ACTIVE terminal. -/
  | rerange (ring : RingNo)
  /-- DOZE_ALLOW (R564). The DOZE_ALLOW command sets or withdraws a terminal's doze allowance. -/
  | dozeAllow (ring : RingNo)
  /-- RECALL_CLEAR (R564). The RECALL_CLEAR command clears a whitelist entry's recall flag. -/
  | recallClear (ring : RingNo)
  /-- TABLE_WRITE (R564). The TABLE_WRITE command writes a run of records through a block's port. -/
  | tableWrite (ring : RingNo)
  /-- KEY_IMPORT (R564). The KEY_IMPORT command imports a wrapped key into a slot. -/
  | keyImport (ring : RingNo)
  /-- KEY_ERASE (R564). The KEY_ERASE command erases a key slot. -/
  | keyErase (ring : RingNo)
  /-- SET_MODE (R564). The SET_MODE command requests VIGIL or TEST. -/
  | setMode (ring : RingNo)
  /-- SWITCH_OVER (R477). The SWITCH_OVER command starts a planned switch-over. -/
  | switchOver (ring : RingNo)
  /-- JOB (R430). The JOB command queues a cipher job. -/
  | job (ring : RingNo)
  /-- COMMAND_COMPLETE (R562). A command's completion entry is written once it takes effect. -/
  | commandComplete (ring : RingNo)
  /-- BLOTTER_EVENT (R573). An event opens or joins a coalescing entry, or is lost. -/
  | blotterEvent (e : EvIn)
  /-- BLOTTER_ENTRY_CLOSE (R573). COALESCE_US after opening an entry closes and waits for the ring. -/
  | blotterEntryClose
  /-- BLOTTER_WRITE (R575). The writer writes one closed entry or OVERFLOW record at EVT_PROD when space allows. -/
  | blotterWrite
  /-- EVT_CONS_WRITE (R580). The host writes EVT_CONS to consume Blotter records. -/
  | evtConsWrite (cons : Fin 131072)
  /-- MSI_SEND (R568). An interrupt bit set sends its MSI-X message once moderation allows. -/
  | msiSend (v : Fin 66)
  /-- COUNTER_SHEET (R583). At each PERIOD_US multiple every listed counter is latched and a generation written and sealed. -/
  | counterSheet
  /-- HALF_RANGE (R581). A statistics counter's bit 39 rising raises one HALF_RANGE event. -/
  | halfRange (a : Fin (2 ^ 26))
  /-- BW_WINDOW (R588). At each WIN_NS window end every PMU_BW entry and the stamp are loaded. -/
  | bwWindow
  /-- PMU_CLEAR (R593). Writing CLEAR zeroes every programmable counter. -/
  | pmuClear
  /-- SUPPLY_AND_CLOCK_GOOD (R610). VDD_AO and CLK25_AO are both good again after a failure, and a cold reset follows. -/
  | supplyAndClockGood
  /-- MAILBOX_COMMAND (R552). The CXL primary mailbox answers Identify Memory Device and Get Health Info and completes every other command as Unsupported. -/
  | mailboxCommand (op : Fin 65536)
  /-- HOST_MEMORY_WRITE (R555). A CXL.mem host write to the observation region lands in a submission entry or the job buffer area, or is discarded and counted in HOST_WR_DISCARD. -/
  | hostMemoryWrite (off : Fin (2 ^ 33)) (bytes : List Byte)
  /-- REGISTER_READ (R10). A BAR0 read that is narrow or unaligned returns zero and raises an access-error event, and an uncorrectable host register read is retried and returned poisoned. -/
  | registerRead (a : Fin (2 ^ 26)) (size : Fin 65) (fails : Fin 4)
  /-- SIGNAL_RETURNS (R268). The signal returns to a continuous receiver in LOS and its frozen adaptation resumes. -/
  | signalReturns (n : LaneNo)
  /-- CDR_LOCK_LOST (R285). A continuous receiver's CDR loses lock, setting LOL and counting CDR_LOL. -/
  | cdrLockLost (n : LaneNo)
  /-- PAT_SYNC_SET (R281). After 1,024 error-free symbols the pattern checker sets PAT_SYNC and starts counting errors. -/
  | patSyncSet (n : LaneNo)
  /-- PAT_SYNC_CLEARED (R281). One symbol in 8 of a 1,024-symbol span in error clears PAT_SYNC and the checker reseeds. -/
  | patSyncCleared (n : LaneNo) (nbits : Fin (2 ^ 40)) (errs : Fin (2 ^ 40))
  /-- LANE_OFF_REACHED (R277). A lane descending after ENABLE 0 reaches OFF, and an ENABLE 1 written during the descent then takes effect. -/
  | laneOffReached (n : LaneNo)
  /-- BLOTTER_IRQ_AGE (R575). The oldest unconsumed Blotter record grows older than IRQ_AGE_US and HST_IRQSTAT.BLOTTER sets. -/
  | blotterIrqAge
  /-- MIRROR_STATE_REWRITE (R558). Every 1 ms the device rewrites the container, queue, node, meter, rule and owner state records in their observation-region mirrors. -/
  | mirrorStateRewrite
  deriving DecidableEq, Repr

end Sys2Proof
end

