-- ==== Sys2Proof/Decode.lean ====
section
/-!
DEFINITION. Commands spelled by a word. The table of operations gives no row any bits: a command is what arrives on a line, a
port or a pin, or what the part does of itself, and no word spells one.
-/

namespace Sys2Proof

/-- The command that a word of `nbits` bits spells: none, since no row of the table has bits. -/
def decodeTableWord (_nbits _w : Nat) : Option Instr := none

end Sys2Proof
end

