-- ==== Sys2Proof/Config.lean ====
section
/-!
DEFINITION. What an implementation fixes and this manual leaves open: the free values. Nothing in Lean can
evaluate one or prove a value of one, so a claim about the machine holds whatever it is.
-/

namespace Sys2Proof.Config

/-- A fresh free value: the model applies it to the counter `State.free`, which each draw advances
(log entry 4). -/
opaque freeValue : Nat → Nat

/-- The octets of the decoded body of an image record whose byte layout the manual does not give:
record type, then body, to the field values (log entry 9). -/
opaque recordField : (type : Nat) → (body : List Byte) → (field : Nat) → Nat

/-- The number of entries a body of such a record decodes to (log entry 9). -/
opaque recordCount : (type : Nat) → (body : List Byte) → Nat

/-- The servo's proportional-integral gains are not published (R439): the new frequency offset in ppb that
the servo computes before its two limits, from the phase error in ns, the bandwidth in mHz and the present
offset in ppb (log entry 10). -/
opaque servoStep : (phaseNs : Int) → (bwMhz : Nat) → (freqPpb : Int) → Int

/-- The servo's filtered phase after a sample (R439: the filter is not published), from the old filtered
phase and the sample, both in ns (log entry 10). -/
opaque servoFilter : (oldNs : Int) → (sampleNs : Int) → Int

/-- The bytes of a 64-byte command or a 256-byte page a stack returns when it delivers data with an error
that the manual does not describe further (R374, log entry 11). -/
opaque badRead : Nat → Byte

/-- The 32-byte descriptor of a buffered packet (R342), by its buffer: the manual gives no layout (log entry 203). -/
opaque descriptor : (buf : Nat) → BitVec 256

/-- The TPIDs of the tags a pipeline pushes on a tree destination (R319), outer and inner: the manual gives the
TPIDs of the MAC's pushes only (log entry 19). -/
opaque treeTpid : (inner : Bool) → Nat

/-- What a table number of a DELTA or BULK record names (R467, R472): the manual lists what the state copy carries and
gives no numbers. 0 terminal state records, 1 whitelist entries, 2 Ruling results, 3 container configuration, 4 container
state, 5 V of both classes, 6 pending transactions, 7 slot states, 8 circuits; any other number names nothing
(log entry 25). -/
opaque copyKind : (table : Nat) → Nat

/-- A field of a DELTA or BULK record whose layout the manual does not give: what the record is (`copyKind`), its data,
and the field (log entry 25). -/
opaque copyField : (kind : Nat) → (data : List Byte) → (field : Nat) → Nat

/-- The records of a DELTA or BULK that this device sends (R472): the manual gives neither table numbers nor layouts, so their
bytes are free, drawn by the counter of free values (log entry 25). -/
opaque copyOut : Nat → List Byte

/-- The correction of a phase sample over the stitch link for the board's skew between directions, in 2^−16 ns, from
STITCH_ASYM_PS (R448, R467): the manual gives neither its sign nor its factor. It is used where STITCH_ASYM_PS is not 0
(log entry 29). -/
opaque stitchAsym : (ps : Int) → Int

/-- The SHIFT (0) and WINDOW (1) that a Quill filter uses where its record holds a value outside the range of R517, from
which the manual gives no default (log entry 30). -/
opaque filterDefault : (field : Nat) → Nat

/-- The parity of a codeword of the Thrumale LDPC code (R47), whose matrix the manual does not give: from the 224
data-position blocks as sent, each as 66 bits, the 65 bits of parity block `k`: the two header-position bits, which are
equal (R48), as one bit above the 64 payload bits (log entry 12). -/
opaque ldpcParity : (info : List Nat) → (k : Nat) → Nat

/-- The level of symbol `k` of a test pattern that R280 takes from IEEE 802.3: 2 PRBS13Q, 3 PRBS31Q, 4 SSPRQ (log
entry 137). -/
opaque ieeePattern : (pattern k : Nat) → Int

/-- The state from which a lane's pattern generator starts its PRBS (R280), which the manual does not give; it is used where
it is not zero (log entry 137). -/
opaque prbsStart : (pattern : Nat) → Nat

/-- The ALU operations of a Scribe microword are not published (R491): the result of operation `op` on the values of SA and SB and
on IMM, of which the low 64 bits are kept (log entry 169). -/
opaque scribeAlu : (op a b imm : Nat) → Nat

/-- The carry of an ALU operation of a Scribe microword (R491, R493, log entry 169). -/
opaque scribeCarry : (op a b imm : Nat) → Bool

/-- The result of an operation of a Quill microword on SA and IMM, of which the low 32 bits are kept (R506, log entry 170). -/
opaque quillAlu : (op a imm : Nat) → Nat

end Sys2Proof.Config
end

