-- ==== Sys2Proof/Machine/Table.lean ====
section
/-!
DEFINITION. Sparse tables. Every large table of the device is a list of (index, value) pairs with strictly
rising indices; an index that is not listed holds the table's default value, which the reader names.
-/

namespace Sys2Proof

/-- A sparse table: (index, value) pairs, indices strictly rising. -/
abbrev Tbl (α : Type) := List (Nat × α)

namespace Tbl

/-- The listed value of an index, if there is one. -/
def find? {α : Type} : Tbl α → Nat → Option α
  | [], _ => none
  | (k, v) :: r, i => if i = k then some v else find? r i

/-- The value of an index, `d` when it is not listed. -/
def get {α : Type} (d : α) (t : Tbl α) (i : Nat) : α := (find? t i).getD d

/-- Write a value: it takes its place in index order. -/
def set {α : Type} : Tbl α → Nat → α → Tbl α
  | [], i, v => [(i, v)]
  | (k, w) :: r, i, v =>
    if i < k then (i, v) :: (k, w) :: r
    else if i = k then (i, v) :: r
    else (k, w) :: set r i v

/-- Take an index out of the list: it then holds the default. -/
def erase {α : Type} : Tbl α → Nat → Tbl α
  | [], _ => []
  | (k, w) :: r, i => if i = k then r else (k, w) :: erase r i

/-- Write a value of a table in which no listed entry equals the default. -/
def put {α : Type} [DecidableEq α] (d : α) (t : Tbl α) (i : Nat) (v : α) : Tbl α :=
  if v = d then erase t i else set t i v

/-- Change one entry. -/
def upd {α : Type} (d : α) (t : Tbl α) (i : Nat) (f : α → α) : Tbl α := set t i (f (get d t i))

/-- Keep the entries that satisfy `p`. -/
def keep {α : Type} (p : Nat → α → Bool) (t : Tbl α) : Tbl α := List.filter (fun e : Nat × α => p e.1 e.2) t

/-- The first listed index whose value satisfies `p`. -/
def first? {α : Type} (p : Nat → α → Bool) (t : Tbl α) : Option Nat :=
  (List.find? (fun e : Nat × α => p e.1 e.2) t).map (·.1)

/-- How many listed entries satisfy `p`. -/
def count {α : Type} (p : Nat → α → Bool) (t : Tbl α) : Nat := (keep p t).length

/-- Every listed index lies above `n`, and the indices rise strictly. -/
def above {α : Type} : Option Nat → Tbl α → Bool
  | _, [] => true
  | none, (k, _) :: r => above (some k) r
  | some n, (k, _) :: r => decide (n < k) && above (some k) r

/-- The form of a sparse table: strictly rising indices. -/
def sorted {α : Type} (t : Tbl α) : Bool := above none t

end Tbl

/-- A byte memory: (address, byte) pairs of `Host.Cell` form, addresses strictly rising, no entry equal to
zero, which is what an unlisted address reads as. -/
abbrev Mem := List (Nat × BitVec 8)

namespace Mem

/-- Read one byte. -/
def read (m : Mem) (a : Nat) : Byte := Tbl.get 0 m a

/-- Write one byte. Writing zero takes the entry out. -/
def write (m : Mem) (a : Nat) (b : Byte) : Mem := Tbl.put 0 m a b

/-- The canonical form: rising addresses and no zero entry. -/
def wf (m : Mem) : Bool := Tbl.sorted m && m.all fun e => e.2 != 0

/-- Read `n` bytes in ascending address order. -/
def readN (m : Mem) (a : Nat) : Nat → List Byte
  | 0 => []
  | n + 1 => read m a :: readN m (a + 1) n

/-- Write bytes in ascending address order. -/
def writeN (m : Mem) (a : Nat) : List Byte → Mem
  | [] => m
  | b :: r => writeN (write m a b) (a + 1) r

end Mem

end Sys2Proof
end

