-- ==== Sys2Proof/Machine/Bytes.lean ====
section
/-!
DEFINITION. Bit fields, byte orders, signed readings and comparisons shared by every block.
Network order is R6, little-endian order is R7, signed 32-bit differences are R436, R164 and R212.
-/

namespace Sys2Proof

/-- Bits [lo + w - 1 : lo] of a number (R4). -/
def bits (x lo w : Nat) : Nat := (x >>> lo) % 2 ^ w

/-- One bit. -/
def bit (x n : Nat) : Bool := bits x n 1 == 1

/-- `x` with bits [lo + w - 1 : lo] replaced by `v`. -/
def setBits (x lo w v : Nat) : Nat :=
  (x >>> (lo + w)) <<< (lo + w) + (v % 2 ^ w) <<< lo + x % 2 ^ lo

/-- Bytes [o, o + n) of a little-endian record held as a number. -/
def recBytes (r o n : Nat) : Nat := bits r (8 * o) (8 * n)

/-- A record with bytes [o, o + n) replaced. -/
def setRec (r o n v : Nat) : Nat := setBits r (8 * o) (8 * n) v

/-- Number of a Boolean. -/
def b2n (b : Bool) : Nat := if b then 1 else 0

/-- A `w`-bit number read in two's complement. -/
def sgn (w x : Nat) : Int :=
  let y := x % 2 ^ w
  if y < 2 ^ (w - 1) then (y : Int) else (y : Int) - (2 ^ w : Nat)

/-- The `w`-bit two's complement form of an integer. -/
def unsgn (w : Nat) (i : Int) : Nat := (i % ((2 ^ w : Nat) : Int)).toNat

/-- The signed `w`-bit difference a − b (R164, R212, R436). -/
def sdiff (w a b : Nat) : Int := sgn w (a + (2 ^ w - b % 2 ^ w))

/-- The later of two tags or stamps by signed 32-bit difference. -/
def later (a b : Nat) : Nat := if 0 ≤ sdiff 32 a b then a else b

/-- The little-endian bytes of a number. -/
def toLE (x : Nat) : Nat → List Byte
  | 0 => []
  | n + 1 => BitVec.ofNat 8 x :: toLE (x / 256) n

/-- The number a little-endian byte list stands for. -/
def ofLE : List Byte → Nat
  | [] => 0
  | b :: r => b.toNat + 256 * ofLE r

/-- The network-order bytes of a number. -/
def toBE (x n : Nat) : List Byte := (toLE x n).reverse

/-- The number a network-order byte list stands for. -/
def ofBE (l : List Byte) : Nat := l.foldl (fun a b => 256 * a + b.toNat) 0

/-- Bytes [o, o + n) of a byte list, zero beyond its end. -/
def slice (l : List Byte) (o n : Nat) : List Byte :=
  let s := (l.drop o).take n
  s ++ List.replicate (n - s.length) 0

/-- The network-order field at [o, o + n) of a byte list. -/
def be (l : List Byte) (o n : Nat) : Nat := ofBE (slice l o n)

/-- The little-endian field at [o, o + n) of a byte list. -/
def le (l : List Byte) (o n : Nat) : Nat := ofLE (slice l o n)

/-- Ceiling division. -/
def cdiv (a b : Nat) : Nat := (a + (b - 1)) / b

/-- Saturating sum. -/
def satAdd (cap a b : Nat) : Nat := min cap (a + b)

/-- Number of one bits among the low `n` bits. -/
def popcount (x : Nat) : Nat → Nat
  | 0 => 0
  | n + 1 => x % 2 + popcount (x / 2) n

/-- The 64-bit words of a byte list, eight bytes each in network order, the last padded with zeros (R61). -/
def blocksOf (l : List Byte) : Nat → List Nat
  | 0 => []
  | n + 1 => be l 0 8 :: blocksOf (l.drop 8) n

/-- The bytes of payload blocks, in line order (R45). -/
def bytesOfBlocks (l : List Nat) : List Byte := l.flatMap fun b => toBE b 8

/-- Apply a state change for every number below `n`, in ascending order. -/
def foldUpTo {σ : Type} (n : Nat) (f : Nat → σ → σ) (s : σ) : σ :=
  (List.range n).foldl (fun a i => f i a) s

/-- The one's complement sum used to update an IPv4 header checksum incrementally (R222, R303, R331):
`c` is the old checksum, `m` the old 16-bit word and `m'` the new one. -/
def csumUpdate (c m m' : Nat) : Nat :=
  let s := (0xFFFF - c) + (0xFFFF - m) + m'
  let s := s % 65536 + s / 65536
  let s := s % 65536 + s / 65536
  0xFFFF - s

end Sys2Proof
end

