-- ==== Sys2Proof/Machine/Codes.lean ====
section
/-!
DEFINITION. The check codes and sequences the manual names: CRC-32C, CRC-16, CRC-14, the XOR check of a map
entry, the line scrambler, the PRBS generators and the LFSR.
-/

namespace Sys2Proof

/-- One step of a reflected CRC-32C register (Castagnoli polynomial, reflected 0x82F6_3B78). -/
def crc32cBit (c : Nat) : Nat := if c % 2 = 1 then (c / 2) ^^^ 0x82F63B78 else c / 2

/-- CRC-32C, initial 0xFFFF_FFFF and final inversion (R300, R316): the Castagnoli CRC in its usual form
(log entry 12). -/
def crc32c (l : List Byte) : Nat :=
  (l.foldl (fun c b => Nat.repeat crc32cBit 8 (c ^^^ b.toNat)) 0xFFFFFFFF) ^^^ 0xFFFFFFFF

/-- One step of a reflected CRC-32 register (IEEE 802.3). -/
def crc32Bit (c : Nat) : Nat := if c % 2 = 1 then (c / 2) ^^^ 0xEDB88320 else c / 2

/-- The Ethernet FCS of a frame as IEEE 802.3 defines it (log entry 12). -/
def fcs (l : List Byte) : Nat :=
  (l.foldl (fun c b => Nat.repeat crc32Bit 8 (c ^^^ b.toNat)) 0xFFFFFFFF) ^^^ 0xFFFFFFFF

/-- An MSB-first CRC of `w` bits over the low `n` bits of `x`, from bit n − 1 down. -/
def crcMsb (w poly : Nat) (x : Nat) : Nat → Nat → Nat
  | 0, c => c
  | n + 1, c =>
    let top := bit c (w - 1) != bit x n
    let c := (c * 2) % 2 ^ w
    crcMsb w poly x n (if top then c ^^^ poly else c)

/-- HDR_CHECK of a segment header: CRC-14 over bits [63:14] (R62). -/
def crc14 (hdr : Nat) : Nat := crcMsb 14 0x0855 (hdr >>> 14) 50 0x3FFF

/-- HDR_CRC of a burst header: CRC-16 over bits [63:16] (R84). -/
def crc16 (hdr : Nat) : Nat := crcMsb 16 0x1021 (hdr >>> 16) 48 0xFFFF

/-- The XOR of the `n` low 4-bit groups of `x`. -/
def xorNibbles (x : Nat) : Nat → Nat
  | 0 => 0
  | n + 1 => x % 16 ^^^ xorNibbles (x / 16) n

/-- CHECK of a burst map entry: the XOR of the fifteen groups of bits [63:4] (R168). -/
def mapCheck (e : Nat) : Nat := xorNibbles (e >>> 4) 15

/-- The scrambler's start state for frame counter `f` (R50). -/
def scrSeed (f : Nat) : Nat := 0x2D3 * 2 ^ 48 + f % 2 ^ 48

/-- The scrambler's start state for a burst of `local` in upstream frame `f` (R89). -/
def scrBurstSeed (loc f : Nat) : Nat := (0x300 + loc) * 2 ^ 48 + f % 2 ^ 48

/-- One scrambler step: the new state and the output bit (R50). -/
def scrStep (s : Nat) : Nat × Nat :=
  let o := (bits s 57 1) ^^^ (bits s 38 1)
  ((s * 2 + o) % 2 ^ 58, o)

/-- The scrambler's output for the next `n` payload bits, first bit sent as the most significant (R45, R50). -/
def scrWord : Nat → Nat → Nat → Nat × Nat
  | 0, s, a => (s, a)
  | n + 1, s, a => let r := scrStep s; scrWord n r.1 (a * 2 + r.2)

/-- Scramble or descramble a list of 64-bit payloads (R50 is its own inverse). -/
def scramble : Nat → List Nat → Nat × List Nat
  | s, [] => (s, [])
  | s, p :: r =>
    let k := scrWord 64 s 0
    let t := scramble k.1 r
    (t.1, (p ^^^ k.2) :: t.2)

/-- Parity of a 32-bit lane: odd parity, so an all-zero lane carries 1 (R23). -/
def oddParity (lane : Nat) : Nat := (popcount lane 32 + 1) % 2

/-- One step of the 32-bit LFSR with polynomial x^32 + x^22 + x^2 + x + 1 (R221, R246, R590), in Galois form
(log entry 13). -/
def lfsr32 (s : Nat) : Nat := if s % 2 = 1 then (s / 2) ^^^ 0x80200003 else s / 2

/-- One step of PRBS-31, x^31 + x^28 + 1 (R249): the new state and the bit. -/
def prbs31 (s : Nat) : Nat × Nat :=
  let o := (bits s 30 1) ^^^ (bits s 27 1)
  ((s * 2 + o) % 2 ^ 31, o)

/-- The next `n` PRBS-31 bits, the first as the most significant (R249). -/
def prbs31Bits : Nat → Nat → Nat → Nat × Nat
  | 0, s, a => (s, a)
  | n + 1, s, a => let r := prbs31 s; prbs31Bits n r.1 (a * 2 + r.2)

/-- The next `n` PRBS-31 bytes (R249). -/
def prbs31Bytes : Nat → Nat → Nat × List Byte
  | 0, s => (s, [])
  | n + 1, s =>
    let r := prbs31Bits 8 s 0
    let t := prbs31Bytes n r.1
    (t.1, BitVec.ofNat 8 r.2 :: t.2)

/-- BIP32 of one payload: the XOR of its two 32-bit words (R58). -/
def bipWord (p : Nat) : Nat := (bits p 32 32) ^^^ (bits p 0 32)

/-- BIP32 over payloads (R58). -/
def bip32 (l : List Nat) : Nat := l.foldl (fun a p => a ^^^ bipWord p) 0

/-- BIP8 over bytes (R192). -/
def bip8 (l : List Byte) : Nat := l.foldl (fun a b => a ^^^ b.toNat) 0

/-! ### The coded line (R43 to R49, R81 to R89) -/

/-- The PAM4 level of a bit pair, the first bit sent the more significant: Gray code (R43). -/
def pam4 (x : Nat) : Int :=
  match x with
  | 0 => -3
  | 1 => -1
  | 3 => 1
  | _ => 3

/-- The 33 symbols of a block of 66 line bits, in the order sent (R43). -/
def blockSymbols (b : Nat) : List Int := (List.range 33).map fun k => pam4 (bits b (64 - 2 * k) 2)

/-- The symbols of a run of blocks (R43). -/
def lineSymbols (l : List Nat) : List Int := l.flatMap blockSymbols

/-- A block as 66 line bits, the first bit sent the most significant: header 10 marks control, 01 data (R5, R44, R45). -/
def codeBlk (ctl : Bool) (pay : Nat) : Nat := (if ctl then 2 else 1) * 2 ^ 64 + pay % 2 ^ 64

/-- Header bit 1 of a block inverted (R48). -/
def flipHdr (b : Nat) : Nat := b ^^^ 2 ^ 64

/-- Parity block `k` of the codeword with these data positions, before R48's inversion: its header-position bits are equal. -/
def parityBlk (info : List Nat) (k : Nat) : Nat :=
  let v := Config.ldpcParity info k
  bits v 64 1 * 3 * 2 ^ 64 + v % 2 ^ 64

/-- A codeword as sent (R47, R48, R88): its data positions, and 32 parity blocks computed as if zero data blocks filled the
missing positions, each with header bit 1 inverted. -/
def encodeCw (l : List Nat) : List Nat :=
  let info := l ++ List.replicate (224 - l.length) (codeBlk false 0)
  l ++ (List.range 32).map fun k => flipHdr (parityBlk info k)

/-- Data positions as sent, cut into codewords with their parity (R88): `n` bounds their number. -/
def encodeAll : Nat → List Nat → List Nat
  | 0, _ => []
  | n + 1, l => if l.isEmpty then [] else encodeCw (l.take 224) ++ encodeAll n (l.drop 224)

/-- Line bit `i` of a run of blocks flipped. -/
def flipAt (l : List Nat) (i : Nat) : List Nat := l.modify (i / 66) (· ^^^ 2 ^ (65 - i % 66))

/-- Data positions of a received codeword. -/
def CwIn.size (w : CwIn) : Nat := w.raw.length - 32

/-- What the decoder works on: the blocks received, with header bit 1 of each parity block inverted again (R48). -/
def CwIn.input (w : CwIn) : List Nat :=
  let l := w.raw.map fun b => b.hdr.val * 2 ^ 64 + b.pay.val
  l.take w.size ++ (l.drop w.size).map flipHdr

/-- The data positions that the decoder delivers: corrected, unless the codeword is uncorrectable (R49). -/
def CwIn.output (w : CwIn) : List Nat :=
  (if w.bad then w.input else (w.flips.map (·.val)).foldl flipAt w.input).take w.size

/-- The corrected bits of a codeword (R49). -/
def CwIn.corrected (w : CwIn) : Nat := w.flips.length

/-- One step of PRBS-13, x^13 + x^12 + x^2 + x + 1 (R82): the new state and the bit, which is the feedback bit that enters the
register. DESIGN CHOICE (log entry 137): the manual gives the polynomial and the seed, not the form of the register. -/
def prbs13 (s : Nat) : Nat × Nat :=
  let o := bits s 12 1 ^^^ bits s 11 1 ^^^ bits s 1 1 ^^^ bits s 0 1
  ((s * 2 + o) % 2 ^ 13, o)

/-- The next `n` bits of PRBS-13, the first as the most significant. -/
def prbs13Bits : Nat → Nat → Nat → Nat × Nat
  | 0, s, a => (s, a)
  | n + 1, s, a => let r := prbs13 s; prbs13Bits n r.1 (a * 2 + r.2)

/-- `n` preamble blocks of PRBS-13 from state `s` (R82). -/
def prbs13Blks : Nat → Nat → List Nat
  | 0, _ => []
  | n + 1, s => let r := prbs13Bits 64 s 0; codeBlk true r.2 :: prbs13Blks n r.1

/-- A preamble (R82): 64 blocks of PRBS-13 from all ones; before them 448 tone blocks in a cold one. -/
def preamble (cold : Bool) : List Nat :=
  (if cold then List.replicate 448 (codeBlk true 0x3333333333333333) else []) ++ prbs13Blks 64 0x1FFF

/-- The delimiter's first payload; the second is its complement (R83). -/
def delimPay : Nat := 0x6C3A95E10F4DB2C7

/-- The delimiter (R83). -/
def delimiter : List Nat := [codeBlk true delimPay, codeBlk true (2 ^ 64 - 1 - delimPay)]

/-- The terminator's payload (R86). -/
def termPay : Nat := 0x1E1E1E1E1E1E1E1E

/-- Is the terminator found (R86)? -/
def termFound (pay : Nat) : Bool := decide (popcount (pay ^^^ termPay) 64 ≤ 8)

/-- How many delimiter payload bits differ in 132 line bits, where both headers are 10 (R95). -/
def delimDiff (w : Nat) : Option Nat :=
  if bits w 130 2 = 2 ∧ bits w 64 2 = 2 then
    some (popcount (bits w 66 64 ^^^ delimPay) 64 + popcount (bits w 0 64 ^^^ (2 ^ 64 - 1 - delimPay)) 64)
  else none

/-- Scramble data positions from a scrambler state, as 66-bit blocks (R50, R89). -/
def scrambleBlks : Nat → List (Bool × Nat) → List Nat
  | _, [] => []
  | s, b :: r => let k := scrWord 64 s 0; codeBlk b.1 (b.2 ^^^ k.2) :: scrambleBlks k.1 r

/-- A whole burst from its first preamble block to its terminator (R81, R88, R89): header and data positions are scrambled
from the sender's seed, and each codeword carries its parity. -/
def burstLine (cold : Bool) (loc frame hdr : Nat) (l : List (Bool × Nat)) : List Nat :=
  let k := scrWord 64 (scrBurstSeed loc frame) 0
  preamble cold ++ delimiter ++ codeBlk true (hdr ^^^ k.2) :: encodeAll (l.length + 1) (scrambleBlks k.1 l) ++
    [codeBlk true termPay]

/-- One step of a PRBS of `w` bits with taps `w` and `t`, x^w + x^t + 1 (R280). -/
def prbsNext (w t s : Nat) : Nat := (s * 2 + (bits s (w - 1) 1 ^^^ bits s (t - 1) 1)) % 2 ^ w

/-- Symbol `k` of a PRBS mapped by R43: each step's new bit is the next one out, the first of a pair the more significant. -/
def prbsSymbol (w t s k : Nat) : Int :=
  let a := Nat.repeat (prbsNext w t) (2 * k + 1) s
  pam4 (2 * (a % 2) + prbsNext w t a % 2)

/-- The state a pattern starts from: the one that Config gives where it is not zero, else all ones (log entry 137). -/
def patSeed (w pattern : Nat) : Nat :=
  let s := Config.prbsStart pattern % 2 ^ w
  if s = 0 then 2 ^ w - 1 else s

/-- Symbol `k` of PRBS13Q (R280): bits of R82's PRBS-13, in pairs, by Gray code. PRESUMED (log entry 137). -/
def prbs13q (k : Nat) : Int :=
  let a := Nat.repeat (fun r : Nat × Nat => prbs13 r.1) (2 * k + 1) (patSeed 13 2, 0)
  pam4 (2 * a.2 + (prbs13 a.1).2)

/-- Symbol `k` of PRBS31Q (R280): bits of PRBS31, x^31 + x^28 + 1, inverted, in pairs, by Gray code. PRESUMED (log entry 137). -/
def prbs31q (k : Nat) : Int :=
  let a := Nat.repeat (prbsNext 31 28) (2 * k + 1) (patSeed 31 3)
  pam4 (3 - (2 * (a % 2) + prbsNext 31 28 a % 2))

/-- Symbol `k` of test pattern `p` (R280), with SQ_HALF and the user pattern. SSPRQ is what Config gives (log entry 137). -/
def patSymbol (p half user k : Nat) : Int :=
  match p with
  | 0 => prbsSymbol 7 6 (patSeed 7 0) k
  | 1 => prbsSymbol 9 5 (patSeed 9 1) k
  | 2 => prbs13q k
  | 3 => prbs31q k
  | 5 => prbsSymbol 31 28 (patSeed 31 5) k
  | 6 => if k % (2 * half) < half then 3 else -3
  | 7 => pam4 (2 * bits user (2 * k % 64) 1 + bits user (2 * k % 64 + 1) 1)
  | p => Config.ieeePattern p k

/-- Does a word fail (R23)? Some parity bit is not odd parity over its lane. -/
def WordIn.fails (w : WordIn) : Bool := (w.lanes.zip w.parity).any fun e => oddParity e.1 != b2n e.2

/-- Bit times in units of 2^−16 ns: a frame of 14,733,312 bits lasts 125 µs (R51). -/
def bits16 (b : Int) : Int := b * 125000 * 65536 / 14733312

end Sys2Proof
end

