-- ==== Sys2Proof/Machine/Crypto.lean ====
section
/-!
DEFINITION. The published algorithms the manual names: AES-256 (FIPS 197), GCM (SP 800-38D), AES-CMAC
(RFC 4493), the RFC 3394 key wrap, the modes of SP 800-38A, SHA-384 (FIPS 180-4) and ECDSA over P-384
(FIPS 186). The manual gives each by reference only; the text here follows those standards (log entry 12).
-/

namespace Sys2Proof.Crypto

/-- Multiplication by x in GF(2^8) of AES. -/
def xtime (a : Nat) : Nat := if a < 128 then 2 * a else (2 * a) ^^^ 0x11B

/-- Product in GF(2^8), over the low `n` bits of `b`. -/
def gmul8 (a b : Nat) : Nat → Nat
  | 0 => 0
  | n + 1 => (if b % 2 = 1 then a else 0) ^^^ gmul8 (xtime a) (b / 2) n

/-- Product in GF(2^8). -/
def gm (a b : Nat) : Nat := gmul8 a b 8

/-- The inverse in GF(2^8), a^254, with 0 for 0. -/
def ginv (a : Nat) : Nat :=
  let a2 := gm a a; let a4 := gm a2 a2; let a8 := gm a4 a4; let a16 := gm a8 a8
  let a32 := gm a16 a16; let a64 := gm a32 a32; let a128 := gm a64 a64
  gm a128 (gm a64 (gm a32 (gm a16 (gm a8 (gm a4 a2)))))

/-- Rotation of a byte left by `k`. -/
def rotl8 (a k : Nat) : Nat := ((a * 2 ^ k) % 256) ^^^ (a / 2 ^ (8 - k))

/-- The AES S-box. -/
def sbox (a : Nat) : Nat :=
  let b := ginv a
  b ^^^ rotl8 b 1 ^^^ rotl8 b 2 ^^^ rotl8 b 3 ^^^ rotl8 b 4 ^^^ 0x63

/-- The inverse S-box. -/
def invSbox (a : Nat) : Nat := ginv (rotl8 a 1 ^^^ rotl8 a 3 ^^^ rotl8 a 6 ^^^ 0x05)

/-- Byte `i` of a 16-byte state. -/
def at16 (s : List Nat) (i : Nat) : Nat := s.getD i 0

/-- SubWord of a 32-bit word. -/
def subWord (w : Nat) : Nat :=
  sbox (bits w 24 8) * 2 ^ 24 + sbox (bits w 16 8) * 2 ^ 16 + sbox (bits w 8 8) * 2 ^ 8 + sbox (bits w 0 8)

/-- The next words of the AES-256 key schedule, from index `i` on, `n` of them. The list holds the words
made so far, newest first. -/
def expandLoop : Nat → Nat → Nat → List Nat → List Nat
  | 0, _, _, ws => ws
  | n + 1, i, rcon, ws =>
    let prev := ws.getD 0 0
    let back := ws.getD 7 0
    let t := if i % 8 = 0 then subWord ((prev * 256) % 2 ^ 32 + prev / 2 ^ 24) ^^^ (rcon * 2 ^ 24)
      else if i % 8 = 4 then subWord prev else prev
    expandLoop n (i + 1) (if i % 8 = 0 then xtime rcon else rcon) ((back ^^^ t) :: ws)

/-- The 60 round-key words of a 256-bit key. -/
def expand (key : Nat) : List Nat :=
  (expandLoop 52 8 1 ((List.range 8).map fun i => bits key (32 * i) 32)).reverse

/-- The 16 bytes of round key `r`. -/
def roundKey (ws : List Nat) (r : Nat) : List Nat :=
  (List.range 16).map fun i => bits (ws.getD (4 * r + i / 4) 0) (8 * (3 - i % 4)) 8

/-- Byte-wise XOR. -/
def xorL (a b : List Nat) : List Nat := List.zipWith (· ^^^ ·) a b

/-- ShiftRows. -/
def shiftRows (s : List Nat) : List Nat :=
  (List.range 16).map fun i => at16 s ((i + 4 * (i % 4)) % 16)

/-- Inverse ShiftRows. -/
def invShiftRows (s : List Nat) : List Nat :=
  (List.range 16).map fun i => at16 s ((i + 16 - 4 * (i % 4)) % 16)

/-- MixColumns with the first row a b c d. -/
def mixWith (a b c d : Nat) (s : List Nat) : List Nat :=
  (List.range 16).map fun i =>
    let o := 4 * (i / 4)
    let g := fun k => at16 s (o + (i + k) % 4)
    gm (g 0) a ^^^ gm (g 1) b ^^^ gm (g 2) c ^^^ gm (g 3) d

/-- The 16 bytes of a 128-bit block, most significant first. -/
def toBytes16 (x : Nat) : List Nat := (List.range 16).map fun i => bits x (8 * (15 - i)) 8

/-- The 128-bit block of 16 bytes. -/
def ofBytes (l : List Nat) : Nat := l.foldl (fun a b => 256 * a + b) 0

/-- AES-256 encryption of a 128-bit block. -/
def aes (key blk : Nat) : Nat :=
  let ws := expand key
  let s0 := xorL (toBytes16 blk) (roundKey ws 0)
  let s := (List.range 13).foldl
    (fun s r => xorL (mixWith 2 3 1 1 (shiftRows (s.map sbox))) (roundKey ws (r + 1))) s0
  ofBytes (xorL (shiftRows (s.map sbox)) (roundKey ws 14))

/-- AES-256 decryption of a 128-bit block. -/
def aesInv (key blk : Nat) : Nat :=
  let ws := expand key
  let s0 := xorL (toBytes16 blk) (roundKey ws 14)
  let s := (List.range 13).foldl
    (fun s r => mixWith 14 11 13 9 (xorL ((invShiftRows s).map invSbox) (roundKey ws (13 - r)))) s0
  ofBytes (xorL ((invShiftRows s).map invSbox) (roundKey ws 0))

/-- Product in the field of GHASH, `z` gathers the sum while `v` is halved. -/
def ghMul (x : Nat) : Nat → Nat → Nat → Nat
  | 0, _, z => z
  | n + 1, v, z =>
    ghMul x n (if v % 2 = 1 then (v / 2) ^^^ (0xE1 * 2 ^ 120) else v / 2) (if bit x n then z ^^^ v else z)

/-- The 128-bit blocks of a byte list, the last padded with zeros. -/
def blocks16 (l : List Byte) : List Nat := (List.range (cdiv l.length 16)).map fun i => be l (16 * i) 16

/-- GHASH of blocks under the hash key `h`. -/
def ghash (h : Nat) (l : List Nat) : Nat := l.foldl (fun y b => ghMul (y ^^^ b) 128 h 0) 0

/-- `n` bytes of AES-256 keystream, block numbers from `i0` on after the 96-bit nonce. -/
def keystream (key nonce i0 n : Nat) : List Byte :=
  ((List.range (cdiv n 16)).flatMap fun i => toBE (aes key (nonce * 2 ^ 32 + (i0 + i) % 2 ^ 32)) 16).take n

/-- XOR of two byte lists. -/
def xorB (a b : List Byte) : List Byte := List.zipWith (· ^^^ ·) a b

/-- The GCM tag of a ciphertext and its authenticated data, with a 96-bit nonce. -/
def gcmTag (key nonce : Nat) (aad ct : List Byte) : Nat :=
  ghash (aes key 0) (blocks16 aad ++ blocks16 ct ++ [aad.length * 8 * 2 ^ 64 + ct.length * 8])
    ^^^ aes key (nonce * 2 ^ 32 + 1)

/-- GCM encryption: ciphertext and tag (R416). -/
def gcmEnc (key nonce : Nat) (aad pt : List Byte) : List Byte × Nat :=
  let ct := xorB pt (keystream key nonce 2 pt.length)
  (ct, gcmTag key nonce aad ct)

/-- GCM decryption: the plaintext when the tag holds (R416). -/
def gcmDec (key nonce : Nat) (aad ct : List Byte) (tag : Nat) : Option (List Byte) :=
  if gcmTag key nonce aad ct = tag then some (xorB ct (keystream key nonce 2 ct.length)) else none

/-- Doubling in GF(2^128) for the CMAC subkeys. -/
def dbl (x : Nat) : Nat := ((x * 2) % 2 ^ 128) ^^^ (if bit x 127 then 0x87 else 0)

/-- AES-CMAC under a 256-bit key (RFC 4493 with AES-256, R422). -/
def cmac (key : Nat) (m : List Byte) : Nat :=
  let k1 := dbl (aes key 0)
  let n := max 1 (cdiv m.length 16)
  let last := m.drop (16 * (n - 1))
  let lastB := if last.length = 16 then ofBE last ^^^ k1
    else ofBE (slice (last ++ [0x80#8]) 0 16) ^^^ dbl k1
  let y := ((List.range (n - 1)).map fun i => be m (16 * i) 16).foldl (fun y b => aes key (y ^^^ b)) 0
  aes key (y ^^^ lastB)

/-- The CMAC key of a slot holding `k` (R422). -/
def cmacKey (k : Nat) : Nat := aes k (0xC1 * 2 ^ 120) * 2 ^ 128 + aes k (0xC2 * 2 ^ 120)

/-- One round of the RFC 3394 unwrap over the registers, step `t` counting down. -/
def unwrapLoop (kek : Nat) : Nat → Nat → List Nat → Nat × List Nat
  | 0, a, rs => (a, rs)
  | t + 1, a, rs =>
    let i := t % 4
    let b := aesInv kek ((a ^^^ (t + 1)) * 2 ^ 64 + rs.getD i 0)
    unwrapLoop kek t (b / 2 ^ 64) (rs.set i (b % 2 ^ 64))

/-- RFC 3394 unwrap of a 40-byte wrap of a 256-bit key: the key when the integrity check holds (R413). -/
def unwrap (kek : Nat) (w : List Byte) : Option Nat :=
  let r := unwrapLoop kek 24 (be w 0 8) [be w 8 8, be w 16 8, be w 24 8, be w 32 8]
  if r.1 = 0xA6A6A6A6A6A6A6A6 then some (r.2.foldl (fun a x => a * 2 ^ 64 + x) 0) else none

/-- One round of the RFC 3394 wrap. -/
def wrapLoop (kek : Nat) : Nat → Nat → Nat → List Nat → Nat × List Nat
  | 0, _, a, rs => (a, rs)
  | n + 1, t, a, rs =>
    let i := t % 4
    let b := aes kek (a * 2 ^ 64 + rs.getD i 0)
    wrapLoop kek n (t + 1) ((b / 2 ^ 64) ^^^ (t + 1)) (rs.set i (b % 2 ^ 64))

/-- RFC 3394 wrap of a 256-bit key: 40 bytes (R427). -/
def wrap (kek key : Nat) : List Byte :=
  let r := wrapLoop kek 24 0 0xA6A6A6A6A6A6A6A6 ((List.range 4).map fun i => bits key (64 * (3 - i)) 64)
  toBE r.1 8 ++ r.2.flatMap fun x => toBE x 8

/-- One CBC or CFB-128 or CTR block of a host job (R428): chaining value, input block of up to 16 bytes,
output block and new chaining value. -/
def jobBlock (mode key chain : Nat) (inp : List Byte) : List Byte × Nat :=
  let ib := be inp 0 16
  match mode with
  | 1 => let o := aes key (ib ^^^ chain); (toBE o 16, o)
  | 2 => (toBE (aesInv key ib ^^^ chain) 16, ib)
  | 3 =>
    let o := (inp.headD 0).toNat ^^^ (aes key chain / 2 ^ 120)
    ([BitVec.ofNat 8 o], (chain * 256 + o) % 2 ^ 128)
  | 4 =>
    let i := (inp.headD 0).toNat
    ([BitVec.ofNat 8 (i ^^^ (aes key chain / 2 ^ 120))], (chain * 256 + i) % 2 ^ 128)
  | 5 => let o := xorB inp (toBE (aes key chain) 16); (o, be o 0 16)
  | 6 => (xorB inp (toBE (aes key chain) 16), ib)
  | _ => (xorB inp (toBE (aes key chain) 16), (chain + 1) % 2 ^ 128)

/-- The block of a job mode in bytes: one byte in CFB-8, an AES block otherwise (R429). -/
def jobUnit (mode : Nat) : Nat := if mode = 3 ∨ mode = 4 then 1 else 16

/-- The low 64 bits of a sum. -/
def add64 (l : List Nat) : Nat := l.foldl (· + ·) 0 % 2 ^ 64

/-- Rotation of a 64-bit word right. -/
def rotr64 (x k : Nat) : Nat := x / 2 ^ k + (x % 2 ^ k) * 2 ^ (64 - k)

/-- The largest integer whose square is at most `n`, built from bit `b` down. -/
def isqrtLoop (n : Nat) : Nat → Nat → Nat
  | 0, r => r
  | b + 1, r => let t := r + 2 ^ b; isqrtLoop n b (if t * t ≤ n then t else r)

/-- The largest integer whose cube is at most `n`, built from bit `b` down. -/
def icbrtLoop (n : Nat) : Nat → Nat → Nat
  | 0, r => r
  | b + 1, r => let t := r + 2 ^ b; icbrtLoop n b (if t * t * t ≤ n then t else r)

/-- The first `n` primes from `k` on, looking at most `fuel` numbers. -/
def primesFrom : Nat → Nat → Nat → List Nat
  | 0, _, _ => []
  | _ + 1, 0, _ => []
  | fuel + 1, n + 1, k =>
    if (List.range k).all (fun d => d < 2 || k % d != 0) then k :: primesFrom fuel n (k + 1)
    else primesFrom fuel (n + 1) (k + 1)

/-- The 80 round constants of SHA-512 and SHA-384: the first 64 fraction bits of the cube roots of the
first 80 primes. -/
def shaK : List Nat := (primesFrom 420 80 2).map fun p => icbrtLoop (p * 2 ^ 192) 68 0 % 2 ^ 64

/-- The initial hash words of SHA-384: the first 64 fraction bits of the square roots of the ninth to the
sixteenth prime. -/
def shaH : List Nat := ((primesFrom 60 16 2).drop 8).map fun p => isqrtLoop (p * 2 ^ 128) 68 0 % 2 ^ 64

/-- The message schedule, newest word first. -/
def shaSched : Nat → List Nat → List Nat
  | 0, ws => ws
  | n + 1, ws =>
    let s0 := fun x => rotr64 x 1 ^^^ rotr64 x 8 ^^^ x / 2 ^ 7
    let s1 := fun x => rotr64 x 19 ^^^ rotr64 x 61 ^^^ x / 2 ^ 6
    shaSched n (add64 [s1 (ws.getD 1 0), ws.getD 6 0, s0 (ws.getD 14 0), ws.getD 15 0] :: ws)

/-- One round over the working words a to h. -/
def shaRound (v : List Nat) (kw : Nat) : List Nat :=
  let a := v.getD 0 0; let b := v.getD 1 0; let c := v.getD 2 0; let d := v.getD 3 0
  let e := v.getD 4 0; let f := v.getD 5 0; let g := v.getD 6 0; let h := v.getD 7 0
  let t1 := add64 [h, rotr64 e 14 ^^^ rotr64 e 18 ^^^ rotr64 e 41,
    (e &&& f) ^^^ ((2 ^ 64 - 1 - e) &&& g), kw]
  let t2 := add64 [rotr64 a 28 ^^^ rotr64 a 34 ^^^ rotr64 a 39, (a &&& b) ^^^ (a &&& c) ^^^ (b &&& c)]
  [add64 [t1, t2], a, b, c, add64 [d, t1], e, f, g]

/-- One 128-byte message block. -/
def shaBlock (hs : List Nat) (m : List Byte) : List Nat :=
  let ws := (shaSched 64 ((List.range 16).map fun i => be m (8 * (15 - i)) 8)).reverse
  let v := (List.zipWith (fun k w => add64 [k, w]) shaK ws).foldl shaRound hs
  List.zipWith (fun a b => add64 [a, b]) hs v

/-- SHA-384 of a byte list, as a 384-bit number. -/
def sha384 (m : List Byte) : Nat :=
  let z := (128 - (m.length + 17) % 128) % 128
  let p := m ++ [0x80#8] ++ List.replicate z 0 ++ toBE (m.length * 8) 16
  let h := (List.range (p.length / 128)).foldl (fun h i => shaBlock h (slice p (128 * i) 128)) shaH
  (h.take 6).foldl (fun a x => a * 2 ^ 64 + x) 0

/-- The prime of P-384. -/
def pP : Nat := 2 ^ 384 - 2 ^ 128 - 2 ^ 96 + 2 ^ 32 - 1

/-- The order of the base point of P-384. -/
def nP : Nat := 0xFFFFFFFFFFFFFFFFFFFFFFFFFFFFFFFFFFFFFFFFFFFFFFFFC7634D81F4372DDF581A0DB248B0A77AECEC196ACCC52973

/-- The coefficient b of P-384. -/
def bP : Nat := 0xB3312FA7E23EE7E4988E056BE3F82D19181D9C6EFE8141120314088F5013875AC656398D8A2ED19D2A85C8EDD3EC2AEF

/-- The base point of P-384. -/
def gP : Nat × Nat :=
  (0xAA87CA22BE8B05378EB1C71EF320AD746E1D3B628BA79B9859F741E082542A385502F25DBF55296C3A545E3872760AB7,
   0x3617DE4A96262C6F5D9E98BF9292DC29F8F41DBD289A147CE9DA3113B5F0B8C00A60B1CE1D7E819D7A431D7C90EA0E5F)

/-- b^e mod m over the low `n` bits of `e`. -/
def powMod (m : Nat) : Nat → Nat → Nat → Nat → Nat
  | 0, _, _, acc => acc
  | n + 1, b, e, acc => powMod m n (b * b % m) (e / 2) (if e % 2 = 1 then acc * b % m else acc)

/-- The inverse modulo a prime. -/
def invMod (m a : Nat) : Nat := powMod m 384 (a % m) (m - 2) 1

/-- Sum of two points of P-384; `none` is the point at infinity. -/
def padd (p q : Option (Nat × Nat)) : Option (Nat × Nat) :=
  match p, q with
  | none, q => q
  | p, none => p
  | some (x1, y1), some (x2, y2) =>
    if x1 = x2 ∧ (y1 + y2) % pP = 0 then none
    else
      let l := if x1 = x2 then (3 * x1 * x1 + pP - 3) * invMod pP (2 * y1) % pP
        else (y2 + pP - y1) * invMod pP (x2 + pP - x1) % pP
      let x3 := (l * l + 2 * pP - x1 - x2) % pP
      some (x3, (l * (x1 + pP - x3) + pP - y1) % pP)

/-- Multiple of a point over the low `n` bits of `k`. -/
def pmul : Nat → Nat → Option (Nat × Nat) → Option (Nat × Nat) → Option (Nat × Nat)
  | 0, _, _, acc => acc
  | n + 1, k, p, acc => pmul n (k / 2) (padd p p) (if k % 2 = 1 then padd acc p else acc)

/-- ECDSA verification over P-384 of a 384-bit digest (R539, R540). -/
def ecdsaVerify (qx qy digest r s : Nat) : Bool :=
  let onCurve := qx < pP && qy < pP && (qy * qy) % pP == (qx * qx * qx + (pP - 3) * qx + bP) % pP
  let ranges := 0 < r && r < nP && 0 < s && s < nP
  let w := invMod nP s
  let u := padd (pmul 384 (digest * w % nP) (some gP) none) (pmul 384 (r * w % nP) (some (qx, qy)) none)
  onCurve && ranges && (match u with | none => false | some (x, _) => x % nP == r)

end Sys2Proof.Crypto
end

