-- ==== Sys2Proof/Machine/Equalizer.lean ====
section
/-!
DEFINITION. A receiver's equalizer (R266 to R273): its values, the adaptation steps, the figure of merit, and the arrival of a
delimiter on the upstream symbol grid.
-/

namespace Sys2Proof

/-- Hold an integer within a range. -/
def holdIn (lo hi x : Int) : Int := max lo (min hi x)

/-- The figure of merit of a mean square error `m` in 2^−40 of the squared spacing of adjacent levels (R269): with e its root,
floor(256 × (1 − 4e)) is 256 − k for the least k that has (1,024 × k)² ≥ m, and lies within 0 and 255. -/
def fomOf (m : Nat) : Nat :=
  match (List.range 256).find? fun k => decide (m ≤ 1048576 * k * k) with
  | some k => min 255 (256 - k)
  | none => 0

/-- The values of an equalizer in the layout of R272: GAIN, PHASE and the taps. -/
structure EqVals where
  gain : Nat
  phase : Nat
  taps : List Int
  deriving DecidableEq, Repr

/-- Read 16 bytes in the layout of R272. -/
def EqVals.of (v : Nat) : EqVals :=
  { gain := recBytes v 0 1, phase := recBytes v 1 1 % 128, taps := (List.range 12).map fun i => sgn 8 (recBytes v (4 + i) 1) }

/-- The 16 bytes as a little-endian number. -/
def EqVals.num (x : EqVals) : Nat :=
  ofLE (toLE x.gain 1 ++ toLE x.phase 1 ++ toLE 0 2 ++ x.taps.flatMap fun t => toLE (unsgn 8 t) 1)

/-- The range of tap `i`, from 0: tap 1 has 8 bits, the others −32 to 31 (R266). -/
def tapIn (i : Nat) (t : Int) : Int := if i = 0 then holdIn (-128) 127 t else holdIn (-32) 31 t

/-- Move the DFE taps by steps of `unit` (R268). -/
def EqVals.moveTaps (x : EqVals) (unit : Int) (l : List Int) : EqVals :=
  { x with taps := x.taps.mapIdx fun i t => tapIn i (t + unit * l.getD i 0) }

/-- Move gain and phase by steps of `unit` (R267, R268): PHASE wraps modulo 128. Answers how many symbols it has gone past. -/
def EqVals.moveCdr (x : EqVals) (unit gain phase : Int) : EqVals × Int :=
  let p := (x.phase : Int) + unit * phase
  ({ x with gain := (holdIn 0 255 ((x.gain : Int) + unit * gain)).toNat, phase := (p % 128).toNat }, p / 128)

/-- Where a preset preamble that starts from `a` can bring the receiver (R273): at most 16 units of gain (2 dB) and of each tap, and
16/128 of a symbol of phase, of which `turns` says how many symbols it has gone past. -/
def EqVals.reach (a : EqVals) (x : EqVals × Int) : EqVals × Int :=
  let near (lo v : Int) : Int := holdIn (lo - 16) (lo + 16) v
  let p := near a.phase ((x.1.phase : Int) + 128 * x.2)
  ({ gain := (near a.gain x.1.gain).toNat, phase := (p % 128).toNat
     taps := a.taps.mapIdx fun i t => near t (x.1.taps.getD i t) }, p / 128)

/-- The arrival offset of a delimiter that stands `s` symbols from its expected position at sampling phase φ (R267). -/
def arrivalOf (s : Int) (phase : Nat) : Int := 2 * s + (((phase + 32) / 64 : Nat) : Int)

/-- The better of two delimiter positions (R95): the one with fewer bits that differ, the earlier where they tie. -/
def betterDelim (tol : Nat) (best : Option (Int × Nat)) (o : Int) (n : Option Nat) : Option (Int × Nat) :=
  match best, n with
  | _, none => best
  | none, some n => if n ≤ tol then some (o, n) else none
  | some b, some n => if n < b.2 then some (o, n) else some b

/-- The delimiter in the 325 symbols from 130 before the expected place, sampled at `phase` after going past `turns` symbols, within
±`window` bit times (R92, R95, R267): its offset and the bits that differ. -/
def findDelim (search window tol phase : Nat) (turns : Int) : Option (Int × Nat) :=
  (List.range 260).foldl (fun best (k : Nat) =>
    let o := arrivalOf ((k : Int) - 130 + turns) phase
    if o.natAbs ≤ window then betterDelim tol best o (delimDiff (bits search (518 - 2 * k) 132)) else best) none

/-- Inverted polarity turns the more significant bit of each symbol over (R43, R263): `n` bits of which the first is a symbol's more
significant where `even` holds. -/
def invBits (even : Bool) (n v : Nat) : Nat :=
  (List.range n).foldl (fun a i => if (i % 2 == 0) == even then a ^^^ 2 ^ (n - 1 - i) else a) v

/-- A line block as a receiver with inverted polarity takes it. -/
def LineBlk.inv (even : Bool) (b : LineBlk) : LineBlk :=
  { hdr := Fin.ofNat _ (invBits even 2 b.hdr.val), pay := Fin.ofNat _ (invBits even 64 b.pay.val) }

/-- A codeword as a receiver with inverted polarity takes it. -/
def CwIn.inv (even : Bool) (w : CwIn) : CwIn := { w with raw := w.raw.map (LineBlk.inv even) }

/-- A burst as a receiver with inverted polarity takes it (R263): its blocks begin at symbols of the receiver's own sampling. -/
def BurstIn.inv (b : BurstIn) : BurstIn :=
  { b with
    search := Fin.ofNat _ (invBits true 650 b.search.val), hdr := Fin.ofNat _ (invBits true 64 b.hdr.val)
    words := b.words.map (CwIn.inv true), term := Fin.ofNat _ (invBits true 64 b.term.val) }

/-- Precoding with 1/(1 + D) on the levels 0 to 3 (R263), as IEEE 802.3 defines it: each symbol sent is the symbol less the one sent
before, modulo 4. PRESUMED (log entry 187). -/
def precode (prev : Nat) : List Nat → List Nat
  | [] => []
  | x :: r => let y := (x + 4 - prev) % 4; y :: precode y r

/-- What a receiver makes of precoded symbols: each is the sum of two that follow each other, modulo 4. -/
def unprecode (prev : Nat) : List Nat → List Nat
  | [] => []
  | y :: r => (y + prev) % 4 :: unprecode y r

/-- The level 0 to 3 of a symbol, and back. -/
def levelOf (x : Int) : Nat := ((x + 3) / 2).toNat

/-- The symbol of a level. -/
def ofLevel (n : Nat) : Int := 2 * (n : Int) - 3

/-- One state of block lock (R69, R271): locked, candidate offset, consecutive valid headers, and the blocks and invalid headers of
the present window. -/
structure Lock where
  locked : Bool
  offset : Nat
  good : Nat
  window : Nat
  invalid : Nat
  deriving DecidableEq, Repr

/-- A lock machine just enabled (R69): HUNT at offset 0. -/
def Lock.fresh : Lock := { locked := false, offset := 0, good := 0, window := 0, invalid := 0 }

/-- One header at the candidate offset (R69). -/
def Lock.step (hunt loss : Nat) (x : Lock) (hdr : Nat) : Lock :=
  let valid := hdr == 1 || hdr == 2
  if !x.locked then
    if !valid then { x with offset := (x.offset + 1) % 66, good := 0 }
    else if x.good + 1 < hunt then { x with good := x.good + 1 }
    else { x with locked := true, good := 0, window := 0, invalid := 0 }
  else
    let inv := x.invalid + b2n (!valid)
    if loss ≤ inv ∧ valid = false then { x with locked := false, good := 0 }
    else
      let w := (x.window + 1) % 64
      { x with window := w, invalid := if w = 0 then 0 else inv }

end Sys2Proof
end

