-- ==== Sys2Proof/Machine/Parts.lean ====
section
/-!
DEFINITION. The parts of the device state that are no register fields: one structure for each block.
-/

namespace Sys2Proof.Machine

/-- The local clock (R435): 48-bit seconds, 30-bit nanoseconds, 16 visible and 16 hidden fractional bits held
together as 32 bits, the addend in units of 2^−32 ns, and the fabric cycles run since reset. -/
structure Clk where
  sec : Nat
  ns : Nat
  frac : Nat
  addend : Nat
  cyc : Nat
  deriving DecidableEq, Repr

/-- An event for the Blotter (R570, R571): its source, its code, its instance and its 24 DATA bytes as a
little-endian number. -/
structure Ev where
  source : Nat
  event : Nat
  inst : Nat
  data : Nat
  deriving DecidableEq, Repr

/-- An entry of the Blotter's table of 1,024 (R573). `waiting` entries are closed and wait to be written. -/
structure BlotEntry where
  ev : Ev
  count : Nat
  firstSec : Nat
  firstNs : Nat
  last : Nat
  frame : Nat
  openedAt : Nat
  waiting : Bool
  deriving DecidableEq, Repr

/-- The lost count of one source with the instant of the first lost event in ns and the stamp of the last (R574). -/
structure LostRec where
  count : Nat
  first : Nat
  last : Nat
  deriving DecidableEq, Repr

/-- The Blotter (R570 to R575): open and waiting entries in the order they closed, lost counts by source, the
cycle at which each unread record was written, oldest first, the cycle of the last write, and whether the writer has
stopped for VIGIL. -/
structure Blot where
  opened : List BlotEntry
  closed : List BlotEntry
  lost : Tbl LostRec
  ages : List Nat
  lastAt : Nat
  stopped : Bool
  deriving DecidableEq, Repr

/-- A completion that waits to be written (R562). -/
structure Completion where
  tag : Nat
  opcode : Nat
  status : Nat
  result : Nat
  frame : Nat
  detail : Nat
  deriving DecidableEq, Repr

/-- A command taken from a ring and not completed (R561). -/
structure Taken where
  tag : Nat
  opcode : Nat
  flags : Nat
  target : Nat
  args : List Byte
  deriving DecidableEq, Repr

/-- A command ring beside its registers (R559, R561, R562): the phase bit of the next completion, the commands
taken whose effect is still to come, and the completions that wait to be written, in the order they completed. -/
structure Ring where
  phase : Bool
  running : List Taken
  done : List Completion
  deriving DecidableEq, Repr

/-- The host interface (R551 to R569): rings, the last register read with its poison mark, the last mailbox
answer (0 none, 1 done, 2 Unsupported), the vectors whose message is owed, the cycle of each vector's last
message, and the poison mark and bytes of the last host memory read. -/
structure HostIf where
  rings : Tbl Ring
  readData : Nat
  readPoison : Bool
  mailbox : Nat
  msiOwed : List Nat
  msiLast : Tbl Nat
  linkUp : Bool
  deriving DecidableEq, Repr

/-- The fuses (R545): the root key, the two key hashes with the bits that say which are written and revoked, and the
version field. -/
structure Fuses where
  rootKey : Nat
  rootPresent : Bool
  hash0 : Nat
  hash1 : Nat
  hashPresent : Nat
  revoked : Nat
  version : Nat
  deriving DecidableEq, Repr

/-- A flash operation under way (R549): 0 read, 1 program, 2 erase. -/
structure FlashOp where
  op : Nat
  addr : Nat
  deriving DecidableEq, Repr

/-- A record of an image (R539): its type, its flags, its byte offset in the image and its unpadded body. -/
structure ImgRec where
  type : Nat
  flags : Nat
  off : Nat
  body : List Byte
  deriving DecidableEq, Repr

/-- A fuse operation (R546): write KEY_HASH1, revoke a key hash, blow version bits, or what is none of these. -/
inductive FuseOp where
  | hash1 (h : Nat)
  | revoke (i : Nat)
  | version (n : Nat)
  | other
  deriving DecidableEq, Repr

/-- Boot control (R536 to R550) beside its registers: the fuses; the flash, each byte held as its exclusive OR with the
erased value 0xFF; the slots still to try, in order; the accepted image's records, its bundle's keys by ID, its KEY_ID
and its SEC_VERSION; the flash operation under way; the fuse operations that wait for boot lock; whether the supply and
the clock of the always-on domain are good; and whether a boot is under way that began warm. -/
structure Boot where
  fuses : Fuses
  flash : Mem
  slots : List Nat
  records : List ImgRec
  bundle : List (Nat × Nat)
  keyId : Nat
  version : Nat
  flashOp : Option FlashOp
  fuseTodo : List FuseOp
  powerGood : Bool
  resetHeld : Bool
  deriving DecidableEq, Repr

/-- A trigger of the mode arbiter (R35, R36) that has not been taken: Quill's "shut down", a thermal trip, Quill's
"release lease", a planned switch-over with the command that asked for it, SET_MODE with its mode, ring and tag, and
Quill's "wake". -/
inductive Trig_ where
  | shutdown
  | trip
  | release
  | switchOver (cmd : Option (Nat × Nat))
  | setMode (mode ring tag : Nat)
  | wake
  deriving DecidableEq, Repr

/-- A mode transition in progress (R36): its cause, its target, and the command (ring, tag, opcode) that it completes. -/
structure Trans where
  cause : Nat
  target : Nat
  cmd : Option (Nat × Nat × Nat)
  deriving DecidableEq, Repr

/-- The mode arbiter beside GLB_MODE (R36 to R40): the triggers of the present always-on cycle, the transition in
progress, the stage of the entry into VIGIL (0 none, 1 decided, 2 transmit stopped, 3 drained and final sheet written),
the tree squelch (R37), the frame P of a lease release that is due, the frame from which a new active device transmits,
and the commands whose transition was preempted. -/
structure Arb where
  asked : List Trig_
  trans : Option Trans
  vigilStage : Nat
  squelch : Bool
  releaseAt : Option Nat
  startAt : Option Nat
  refused : List (Nat × Nat × Nat)
  deriving DecidableEq, Repr

/-- A quad's move (R21). -/
structure QuadMove where
  target : Nat
  started : Nat
  deriving DecidableEq, Repr


/-- A packet on its way into a pipeline: an Ethernet frame without FCS from lane-port or channel `port`, with the
sending terminal's local number, the segment flow label and the attributed container (U), the PCP of a popped
port tag (R396), and the reassembly buffers it sits in. `de` is the drop-eligible mark of R174. -/
structure InPkt where
  bytes : List Byte
  quad : Nat
  port : Nat
  loc : Nat
  label : Nat
  popPcp : Option Nat
  bufs : List Nat
  de : Bool
  /-- Received by a terminal-role channel on this emulated terminal (128: multicast). -/
  term : Option Nat
  /-- Cut through before a tag that fails (R424): the cycle by which the outcome is known, and the channel. -/
  fails : Option (Nat × Nat) := none
  deriving DecidableEq, Repr

/-- A transfer that a sender has begun or that waits for its replay buffer (R24): the words still to enter it, and the packet
it brings a pipeline, if it is one. -/
structure Sending where
  words : Nat
  pkt : Option InPkt
  deriving DecidableEq, Repr

/-- One direction of a die-to-die link or one die's internal bus (R24, R25): words in the replay buffer, the transfers that
wait for space in it, the packets whose words the receiver has discarded and the sender will resend, and whether the
receiver is discarding until the replayed word. -/
structure Link where
  held : Nat
  waiting : List Sending
  again : List InPkt
  discarding : Bool
  deriving DecidableEq, Repr

/-- Quad placement and word links beside GLB_QUADMAP and GLB_D2DSTAT: moves draining, packets held at the edge
per quad (R21), packets waiting at each pipeline (R526), the links by 2 × source + direction, each pipeline's bits
(2 × pipeline) and packets (2 × pipeline + 1) of the present load window (R525), and for how many windows each fold
pair has been below FOLD_PCT or waits after an abandoned move; the moves due at the next frame boundary; and the
fold pairs by state (R524, R525: 0 open, 1 folding, 2 folded, 3 waking, 4 unfolding, 5 going back); and the fabric cycle at
which the load window began, with its length in µs. -/
structure Fab where
  due : Tbl Nat
  pairs : Tbl Nat
  moves : Tbl QuadMove
  held : Tbl (List InPkt)
  inq : Tbl (List InPkt)
  links : Tbl Link
  load : Tbl Nat
  quiet : Tbl Nat
  wait : Tbl Nat
  winAt : Nat
  winUs : Nat
  deriving DecidableEq, Repr

/-- What a tagged packet carries for its trace records (R590, R591): its TAG_ID, its FLAGS bits 0 and 1, its
pipeline, its DIR and PORT, its flow hash and key bytes 24–55. -/
structure Tag where
  id : Nat
  flags : Nat
  pipe : Nat
  dir : Nat
  port : Nat
  hash : Nat
  key : Nat
  deriving DecidableEq, Repr

/-- The edits that one copy of a packet gets as it leaves its queue, so that the shared bytes are never changed (R346): the new
addresses of a routed packet, the kind of its outermost IP header and its place in the shared bytes, the congestion mark, and the tags
that a tree destination pushes. -/
structure Edit where
  hop : Option (Nat × Nat)
  l3 : Nat
  l3off : Nat
  ce : Bool
  push : Nat
  tci0 : Nat
  tci1 : Nat
  deriving DecidableEq, Repr

/-- A copy of a packet in a queue: its bytes as it leaves, its class, colour and drop-eligible mark, its
destination service, its flow label, its flow hash, its buffer, its tag, and for a packet cut through before a tag that fails
the cycle by which the outcome is known, with the channel (R424, R425). -/
structure Pkt where
  bytes : List Byte
  tc : Nat
  colour : Nat
  de : Bool
  service : Nat
  label : Nat
  hash : Nat
  buf : Nat
  passedMem : Bool
  tag : Option Tag
  fails : Option (Nat × Nat) := none
  edit : Option Edit := none
  deriving DecidableEq, Repr

/-- Where a page of a queue's part M stands (R347). -/
inductive PageAt where
  /-- Written to stacked memory, not yet requested. -/
  | stored
  /-- Its read has been requested into a landing buffer. -/
  | inFlight
  /-- Its read has returned, correct or not; it is still to be checked. -/
  | back (ok : Bool)
  /-- Checked: it joins the head, or is lost (R349), when every earlier page has. -/
  | checked (ok : Bool)
  deriving DecidableEq, Repr

/-- A spill page (R348): its place in the spill space, its sequence number, its header as written, its packets, its landing buffer,
and whether its stack, its unit or a read has lost it (R372 to R374, R377). -/
structure Page where
  slot : Nat
  seq : Nat
  hdr : List Byte
  pkts : List Pkt
  at_ : PageAt
  landing : Nat
  gone : Bool
  deriving DecidableEq, Repr

/-- A queue's state (R221, R229, R347). `joined` says that the queue was eligible at its share's last pick; `out`
counts the packets that have left it, against which the marks of R251 are set; `left` is the cycle of the last dequeue, with
the charged bytes that left in that cycle (R221, R223). -/
structure QSt where
  h : List Pkt
  m : List Page
  opened : Option (List Pkt)
  openBuf : Nat
  t : List Pkt
  avg : Nat
  tag : Nat
  credit : Int
  seq : Nat
  joined : Bool
  out : Nat
  left : Nat × Nat
  deriving DecidableEq, Repr

/-- A node's state (R212, R215, R230). -/
structure NSt where
  creditC : Int
  creditP : Int
  tagC : Nat
  tagE : Nat
  inC : Bool
  inE : Bool
  deriving DecidableEq, Repr

/-- A management message on its way down (R136): bytes 0–59, addressed to a local number or 128 for broadcast. The
framer completes its CMAC when it sends it. -/
structure MgmtMsg where
  bytes : List Byte
  dest : Nat
  buf : Nat := 0
  deriving DecidableEq, Repr

/-- A selection made ahead of the framer (R214). -/
inductive Sel where
  | mgmt (m : MgmtMsg)
  | pkt (q : Nat) (p : Pkt)
  deriving DecidableEq, Repr

/-- Traffic management (R207 to R232): records as they were written, the parts of queue, node and channel
configuration still in force until a boundary, states, virtual times of priority shares by 4 × node + level,
channel shaper credits, management queues, selections ahead, each pipeline's LFSR, and the stamp of the last meter sweep;
`mold` holds, for a meter, the record before its last write, with that write's cycle (R220). -/
structure Tm where
  qcfg : Tbl Nat
  qold : Tbl Nat
  ncfg : Tbl Nat
  nold : Tbl Nat
  mcfg : Tbl Nat
  mold : Tbl (Nat × Nat)
  mst : Tbl Nat
  prof : Tbl Nat
  qst : Tbl QSt
  nst : Tbl NSt
  vprio : Tbl Nat
  chCredit : Tbl Int
  mgmt : Tbl (List MgmtMsg)
  ahead : Tbl (List Sel)
  lfsr : Tbl Nat
  swept : Nat
  deriving DecidableEq, Repr

/-- A fragment entry (R306). -/
structure Frag where
  dir : Nat
  port : Nat
  proto : Nat
  ident : Nat
  sip : Nat
  dip : Nat
  action : Nat
  hash : Nat
  bytes : Nat
  total : Option Nat
  stamp : Nat
  deriving DecidableEq, Repr

/-- The parser's tables (R302, R305, R306). -/
structure Par where
  rules : Tbl Nat
  hits : Tbl Nat
  frags : Tbl Frag
  rold : Tbl (Nat × Nat)
  gold : Tbl (Nat × Nat)
  deriving DecidableEq, Repr

/-- A learn or move request (R326): (BD, address) as one number, the ingress service, the pipeline, and the cycle of its arrival. -/
structure LearnReq where
  pair : Nat
  service : Nat
  pipe : Nat
  at_ : Nat
  deriving DecidableEq, Repr

/-- An update the learning station sends (R326, R330): an entry written or removed. -/
structure LearnUpd where
  pair : Nat
  dest : Nat
  removed : Bool
  deriving DecidableEq, Repr

/-- The forwarding tables (R316 to R334): records by index; each pipeline's pending filter with the cycle of
each request; the pairs each pipeline knows to be excess; the station's queue; the updates for the partner
of the present frame; the slots of each prefix length's region; the insertion whose last write is to come;
the cycle of the station's latest write, with the bridge entries it wrote then as they stood before (R326); and the cycle of the
host's latest write of a bridge entry, with the pairs it wrote then (R329); the cycle of the latest source hits, with their entries
(R328); and the cycle at which the next sweep falls. -/
structure Fwd where
  services : Tbl Nat
  bridge : Tbl Nat
  hosts : Tbl Nat
  prefixes : Tbl Nat
  members : Tbl Nat
  learns : Tbl Nat
  bds : Tbl Nat
  filter : Tbl (List (Nat × Nat))
  excess : Tbl (List Nat)
  queue : List LearnReq
  updates : List LearnUpd
  regions : Tbl Nat
  insert : Option (Nat × Nat)
  seen : Nat × Tbl Nat
  hostPut : Nat × List Nat
  hits : Nat × List Nat
  sweepDue : Nat
  deriving DecidableEq, Repr

/-- A buffer in use (R342, R343, R346): its owner, its pool and its reference count. -/
structure Buffer where
  owner : Nat
  pool : Nat
  refs : Nat
  deriving DecidableEq, Repr

/-- The buffer requests of one fabric cycle that have been served (R345): the cycle, the next place in its order, and the pools to
which a request of it has fallen back. -/
structure Asked where
  cyc : Nat
  next : Nat
  fell : List Nat
  deriving DecidableEq, Repr

/-- The buffer pools (R341 to R358): owner configuration records, drops by owner, buffers in use by number,
buffers used by 4 × owner + pool, spill pages by owner, the next buffer's number, the
spill pages in use, the cycle of the latest release with the buffers released in it by 4 × owner + pool, and the requests of the present cycle (R345). -/
structure Buf where
  ocfg : Tbl Nat
  drops : Tbl Nat
  bufs : Tbl Buffer
  used : Tbl Nat
  pages : Tbl Nat
  next : Nat
  inUse : List Nat
  freed : Nat × Tbl Nat
  asked : Asked
  deriving DecidableEq, Repr

/-- A PTP message sent on a port (R442, R443), or put in its egress queue 7. -/
structure PtpOut where
  port : Nat
  kind : Nat
  seq : Nat
  origin : Nat
  corr : Int
  body : List Byte
  deriving DecidableEq, Repr

/-- The slave port's exchange (R442, R443): times in 2^−16 ns. -/
structure PtpSlave where
  syncSeq : Nat
  t1 : Option Nat
  t2 : Nat
  corr1 : Int
  reqSeq : Nat
  t3 : Option Nat
  deriving DecidableEq, Repr

/-- A trigger beside its registers (R449, R450): the ends of the pulses in progress in units of 125 ps; the
occurrences since those of the last assertion (FRAME, BURST), below 0 where that assertion went ahead of its own; the instants
of assertions to come, in the same units; the nanosecond from which the next assertion of a PERIODIC counts; and whether a
ONE_SHOT is spent. -/
structure Trig where
  pulses : List Nat
  due : Int
  plan : List Int
  after : Nat
  spent : Bool
  deriving DecidableEq, Repr

/-- A stamped edge (R452). -/
structure Cap where
  sec : Nat
  ns : Nat
  frac : Nat
  deriving DecidableEq, Repr

/-- The time block beside its registers (R435 to R461). `filt` is the servo's filtered phase in ns, `run` the
consecutive samples below LOCK_NS, `lastAt` the fabric cycle of the last sample, `sample` a phase sample that waits for the
servo, in 2^−16 ns, and `heardAt` when the last one came; `sentAt` is when each port (16 × port + kind) last sent a PTP message of a
kind; `firstFrame` says that the wait after boot is over, `casReady` that the time member has given a sample (R441). -/
structure Tim where
  filt : Int
  run : Nat
  sampled : Bool
  lastAt : Nat
  heardAt : Nat
  sample : Option Int
  slave : PtpSlave
  seqs : Tbl Nat
  sentAt : Tbl Nat
  gm : List Byte
  dataset : List Byte
  sent : List PtpOut
  trigs : Tbl Trig
  ppsUntil : Nat
  caps : Tbl (List Cap)
  capLast : Tbl Nat
  firstFrame : Bool
  casReady : Bool
  deriving DecidableEq, Repr

/-- The uplink MACs beside their registers (R398, R399): the fabric cycle at which each port's pause timer and each
queue's (8 × lane-port + queue) ends, until when pause frames are ignored after a storm, since when each queue has
held packets while paused, the last frame each port sent, and the cycle in which each port's alignment was last broken (R393). -/
structure Mac where
  portPause : Tbl Nat
  queuePause : Tbl Nat
  ignore : Tbl Nat
  since : Tbl Nat
  last : Tbl (List Byte)
  broken : Tbl Nat
  deriving DecidableEq, Repr

/-- A stored preset (R272): its 16 bytes as a number, its state (R91: 0 NONE, 1 VALID, 2 STALE), and the frame at
which it was last written, from which its age runs. -/
structure Preset where
  value : Nat
  state : Nat
  since : Nat
  deriving DecidableEq, Repr

/-- A preset loaded for the burst being received (R92, R273, R276): the terminal that sends the burst, the values that the receiver
starts from, whether the terminal's own preset was loaded and not the channel default, whether the host has written or erased its
preset since, and whether that was not VALID. -/
structure Loaded where
  term : Nat
  value : Nat
  own : Bool
  beaten : Bool
  stale : Bool
  deriving DecidableEq, Repr

/-- The serial lanes beside their registers (R260 to R291): presets by global terminal index, and at 16,384 + c the
channel defaults; lanes on their way down to OFF; the values each continuous receiver held at the end of its first
ACQUIRE since it was enabled; the last FOMs of each lane, newest first; the cycle at which each lane entered its
state; the preset each burst receiver has loaded; the terminals whose burst record or preset has changed since the
last frame boundary (R558); the lanes whose adaptation takes fine steps (R268); the cycle of the host's last write or erase of each
preset (R276); the channels that the image has enabled (R30); block lock of the stitch lanes (R271); for the test machinery (R280
to R282) the cycle up to which a checker's bits have been counted, the cycle at which each generator started, the place and length
of its last injection in its bits, the cycle from which the next rate injection is measured, the bits that an injection is to
flip in what a framer sends next; and the cycle at which each tree lane was last RUNNING. -/
structure Lanes where
  presets : Tbl Preset
  descending : List Nat
  start : Tbl (Nat × Nat)
  foms : Tbl (List Nat)
  entered : Tbl Nat
  loaded : Tbl Loaded
  dirty : List Nat
  fine : List Nat
  hostAt : Tbl Nat
  imgOn : List Nat
  stLock : Tbl Lock
  patAt : Tbl Nat
  genAt : Tbl Nat
  inj : Tbl (Nat × Nat)
  rateAt : Tbl Nat
  owe : Tbl Nat
  downAt : Tbl Nat
  deriving DecidableEq, Repr

/-- A bank's page state (R368): the open row, the row of the last access, the page counter K, and the consecutive hits. -/
structure Bank where
  openRow : Option Nat
  last : Nat
  k : Nat
  hits : Nat
  deriving DecidableEq, Repr

/-- A write that the buffer holds until the stack acknowledges it (R365): its 256-byte block, its port and its arrival; of each of
its 64-byte accesses the number in the block and the bytes that stood there before, none of a spill page; and whether it has been issued. -/
structure WrEnt where
  block : Nat
  port : Nat
  at_ : Nat
  old : List (Nat × List Byte)
  issued : Bool
  deriving DecidableEq, Repr

/-- A write request that waits at its port (R363, R365): its block, its port and arrival, the place of its first byte in the block,
and its bytes. -/
structure WrReq where
  block : Nat
  port : Nat
  at_ : Nat
  off : Nat
  bytes : List Byte
  deriving DecidableEq, Repr

/-- A read request (R363, R364): its block, its port and arrival; the queue, slot and number of a page's request; whether it has
been issued, whether the write buffer serves all of it, and whether its page has been flushed meanwhile (R351). -/
structure RdReq where
  block : Nat
  port : Nat
  at_ : Nat
  page : Option (Nat × Nat × Nat)
  issued : Bool
  fwd : Bool
  drop : Bool
  deriving DecidableEq, Repr

/-- A unit under or awaiting migration (R375): stack, channel, physical SID. -/
structure MUnit where
  s : Nat
  ch : Nat
  psid : Nat
  deriving DecidableEq, Repr

/-- The stacked memory controller beside its registers (R359 to R389): banks by number, owed refreshes by PC,
PCs that catch up after a rise of rate, tags held by port, the reads that hold a tag and those that wait for one, the write buffer
and the writes waiting at their ports, the migration, the cycle of its last block and the retirements that wait, the poison list,
since when each hot stack has been cool or is re-initialised, the spill bytes of the present 1 µs window, the data of the last host
read, the command rings whose reader holds the mark of R374, and the stacks that read above 105 °C in VIGIL. -/
structure MemC where
  banks : Tbl Bank
  owed : Tbl Nat
  catchUp : Tbl Bool
  tags : Tbl Nat
  reads : List RdReq
  rdWait : List RdReq
  wbuf : List WrEnt
  waiting : List WrReq
  mig : Option MUnit
  migAt : Nat
  migWait : List MUnit
  poison : List Nat
  coolSince : Tbl Nat
  winStart : Nat
  winBytes : Nat
  rdData : List Byte
  rdPoison : Bool
  ringBad : Tbl Bool
  hotInVigil : List Nat
  deriving DecidableEq, Repr

/-- The performance monitor beside its registers (R583 to R591): trace records in the 64-entry queue and the
cycle at which they were counted, each pipeline's tag LFSR, the next TAG_ID, the octets of the bandwidth window in
progress with the cycle of its start and its length in nanoseconds, the next generation, and the header flags it will carry. -/
structure Pmu where
  trQ : Nat
  trAt : Nat
  tagLfsr : Tbl Nat
  tagNext : Nat
  oct : Tbl Nat
  winStart : Nat
  winNs : Nat
  epoch : Nat
  lastT : Nat
  restart : Bool
  gap : Bool
  deriving DecidableEq, Repr

/-- A moved bucket's hold (R251): marks on the old member's queues, as (queue, packets that must have left), and
the packets held at the new member, with the queue each will enter. -/
structure CasHold where
  marks : List (Nat × Nat)
  pkts : List (Nat × Pkt)
  deriving DecidableEq, Repr

/-- The cascade (R250 to R253): moves of buckets due at the next frame boundary, and holds by bucket. -/
structure Cas where
  due : Tbl Nat
  holds : Tbl CasHold
  deriving DecidableEq, Repr

end Sys2Proof.Machine
end

