-- ==== Sys2Proof/Machine/Edits.lean ====
section
/-!
DEFINITION. The edits of a packet: tags, the TOS byte, TTL, and the edits that a copy gets as it leaves its queue (R319, R346).
-/

namespace Sys2Proof.Machine

/-- A frame with `n` outer tags removed. -/
def popTags (l : List Byte) (n : Nat) : List Byte := l.take 12 ++ l.drop (12 + 4 * n)

/-- A tag. -/
def tagBytes (tpid tci : Nat) : List Byte := toBE tpid 2 ++ toBE tci 2

/-- The tags a service pushes (R319, R397): outer TPID and TCI first. -/
def pushTags (l : List Byte) (n tpidOuter tpidInner tci0 tci1 : Nat) : List Byte :=
  if n = 1 then l.take 12 ++ tagBytes tpidInner tci0 ++ l.drop 12
  else if 2 ≤ n then l.take 12 ++ tagBytes tpidOuter tci0 ++ tagBytes tpidInner tci1 ++ l.drop 12
  else l

/-- Replace bytes of a frame. -/
def patch (l : List Byte) (o : Nat) (v : List Byte) : List Byte := l.take o ++ v ++ l.drop (o + v.length)

/-- Rewrite one 16-bit word of an IPv4 header at `o`, with its checksum updated incrementally. -/
def patchV4 (l : List Byte) (o at_ v : Nat) : List Byte :=
  let old := be l (o + at_) 2
  patch (patch l (o + at_) (toBE v 2)) (o + 10) (toBE (csumUpdate (be l (o + 10) 2) old v) 2)

/-- Write the DSCP (6 bits) or ECN (2 bits) of the IP header of kind `l3` at `o` (R222, R303). -/
def setTos (l : List Byte) (l3 o tos : Nat) : List Byte :=
  if l3 = 1 then patchV4 l o 0 (be l o 1 * 256 + tos)
  else if l3 = 2 then
    let w := be l o 4
    patch l o (toBE (setBits w 20 8 tos) 4)
  else l

/-- The traffic class byte of the IP header of kind `l3` at `o`. -/
def getTos (l : List Byte) (l3 o : Nat) : Nat :=
  if l3 = 1 then be l (o + 1) 1 else if l3 = 2 then bits (be l o 4) 20 8 else 0

/-- Decrement the TTL or hop limit (R331). -/
def decTtl (l : List Byte) (l3 o : Nat) : List Byte :=
  if l3 = 1 then patchV4 l o 8 ((be l (o + 8) 1 - 1) * 256 + be l (o + 9) 1)
  else patch l (o + 7) (toBE (be l (o + 7) 1 - 1) 1)

/-- The TTL or hop limit. -/
def getTtl (l : List Byte) (l3 o : Nat) : Nat := if l3 = 1 then be l (o + 8) 1 else be l (o + 7) 1

/-- The bytes of a copy as it leaves its queue (R319, R331, R346): routed addresses and TTL, the congestion mark, then the tags
that a tree destination pushes. -/
def Edit.apply (e : Edit) (l : List Byte) : List Byte :=
  let l := match e.hop with
    | some (dmac, smac) => patch (decTtl l e.l3 e.l3off) 0 (toBE dmac 6 ++ toBE smac 6)
    | none => l
  let l := if e.ce then setTos l e.l3 e.l3off (getTos l e.l3 e.l3off / 4 * 4 + 3) else l
  pushTags l e.push (Config.treeTpid false) (Config.treeTpid true) e.tci0 e.tci1

/-- Bytes that a copy has more as it leaves its queue. -/
def Edit.more (e : Edit) : Nat := 4 * min 2 e.push

/-- A copy's length as it leaves its queue: the payload of R66. -/
def Pkt.len (p : Pkt) : Nat := p.bytes.length + (p.edit.map Edit.more).getD 0

/-- A copy with its edits applied, as it leaves its queue (R346). -/
def Pkt.edited (p : Pkt) : Pkt :=
  match p.edit with
  | some e => { p with bytes := e.apply p.bytes, edit := none }
  | none => p

end Sys2Proof.Machine
end

