-- ==== Sys2Proof/Machine/Chan.lean ====
section
/-!
DEFINITION. The parts of the device state that belong to the channels beside their registers: the line in both
directions, the registry, the Scribes' work, the grant engine, the cipher and the emulated terminals.
-/

namespace Sys2Proof.Machine

/-! ### The cipher (R411, R412, R428 to R433) -/

/-- A key slot (R412): its key, its state (0 EMPTY, 1 LOADED, 2 ERASING, 3 STOPPED), the send counter, the receive
high-water where it is valid, WARNED, and whether it is resyncing (R419). A job key uses the key and the state. -/
structure Slot where
  key : Nat
  state : Nat
  tx : Nat
  rx : Option Nat
  warned : Bool
  resync : Bool
  deriving DecidableEq, Repr

/-- A job (R428 to R430): the ring it came from, its descriptor, the key it loaded at its start, its chaining value
and the bytes processed. -/
structure Job where
  ring : Nat
  mode : Nat
  key : Nat
  length : Nat
  src : Nat
  dst : Nat
  chain : Nat
  id : Nat
  tag : Nat
  loaded : Option Nat
  done : Nat
  deriving DecidableEq, Repr

/-- The cipher: the import and pair keys, the slots (job keys from 98,304), the job queues, each in order, the
queue whose first job runs, and the cycle of the last writes of slots with what those held before (R414). -/
structure Cry where
  importKey : Option Nat
  pairKey : Option Nat
  slots : Tbl Slot
  jobs : Tbl (List Job)
  running : Option Nat
  old : Nat × Tbl Slot
  deriving DecidableEq, Repr

/-! ### The line -/

/-- A block of the line: a control block or a data block, its payload before scrambling, and the uncorrectable mark
of R49. -/
structure Blk where
  ctl : Bool
  pay : Nat
  bad : Bool
  deriving DecidableEq, Repr

/-- A packet that the framer has begun (R66): the queue it came from, the bytes sent so far, its flow label, its key index
and the terminal whose slots it began under (R218). -/
structure PartTx where
  pkt : Pkt
  queue : Nat
  sent : Nat
  label : Nat
  keyIdx : Nat
  owner : Nat
  deriving DecidableEq, Repr

/-- A channel's framer (R51 to R58): the frame counter, how many of its subframes have begun, the data
block index that comes next, the scrambler, BIP32
of this frame and of the last, whether this frame is framed, the packet begun, and the blocks last sent, before
scrambling; the data positions of the codeword in progress, newest first, and the last codeword that left, parity and all,
each block as 66 bits. -/
structure TxLine where
  frame : Nat
  sf : Nat
  d : Nat
  scr : Nat
  bip : Nat
  lastBip : Nat
  framed : Bool
  part : Option PartTx
  sent : List Blk
  word : List Nat
  line : List Nat
  deriving DecidableEq, Repr

/-- A packet in reassembly (R68, R90): its label, key index, last SEQUENCE, bytes and buffers (R352). -/
structure Reasm where
  label : Nat
  keyIdx : Nat
  seq : Nat
  bytes : List Byte
  bufs : List Nat
  deriving DecidableEq, Repr

/-- A candidate position (R70): the position and its confirmations. -/
structure Cand where
  at_ : Nat
  confirms : Nat
  deriving DecidableEq, Repr

/-- A downstream receiver (R69 to R73): the candidate offset in bits; consecutive valid headers in HUNT; blocks and
invalid headers of the LOCK window; blocks taken since it was enabled; the block before this one; the candidates; the
position of the next expected frame; misses; the cycle at which it left IN_FRAME and whether LOF has been set since;
the counter of the frame being decoded, and the one predicted for the next; whether the next counter is the first after SEARCH; the next codeword of the frame;
the scrambler; BIP32 of this frame and the last, and whether the last frame was whole; delivered data blocks that wait,
with the data block index of the first; the subframe whose header was taken, the circuit blocks of it still to come and the number of its next circuit; the last
accepted HEAD_EPOCH; the last frame header taken, with the local time in 2^−16 ns at which its frame's first bit
arrived; the reassemblies, by emulated terminal and 128 for multicast; whether every codeword so far of the frame in hand
was taken IN_FRAME (R59); whether data blocks up to the next control block belong to a discarded header (R68); and
SCR_BYPASS as the receiver has taken it (R73). -/
structure RxLine where
  offset : Nat
  good : Nat
  window : Nat
  invalid : Nat
  count : Nat
  prev : Option (Nat × Nat)
  cands : List Cand
  pos : Nat
  miss : Nat
  leftAt : Nat
  lofSet : Bool
  ctr : Nat
  pred : Nat
  fresh : Bool
  cw : Nat
  scr : Nat
  bip : Nat
  lastBip : Option Nat
  queue : List Blk
  qd : Nat
  circuits : Nat
  nextCir : Nat
  orphan : Bool
  epoch : Option Nat
  arrived : Option (Nat × Nat)
  reasm : Tbl Reasm
  whole : Bool
  skip : Bool
  plain : Bool
  deriving DecidableEq, Repr

/-! ### Timed circuits (R181 to R201) -/

/-- A circuit frame in a circuit's buffer (R197): its sequence number, the playout instant of its first byte in ns of
local time, the bytes carried so far, and the bytes still to carry. -/
structure CFrame where
  seq : Nat
  start : Nat
  sent : Nat
  rest : List Byte
  deriving DecidableEq, Repr

/-- A circuit beside its registers. The mapper: frames in order of playout, the sequence number that comes next, the
instant of the byte due next as (ns, bytes at the nominal rate), the pointer, whether the next region says NDF new,
whether client bytes play, consecutive regions with underrun or overrun, whether a frame overran since the last region,
BIP8 of the last region, and the mismatches that the next REI carries. The receiver: regions filed by subframe number,
the subframe that comes next, the accepted pointer, the last two PTRs, consecutive invalid regions, loss of pointer, the
remote defect it sends, BIP8 of the last region, the instant of the span being taken with the bytes since, and the
circuit frame being filled (newest byte first) with the span instant and place of its first byte, AIS and SEQ. In terminal role, the regions formed and not
sent, and the subframe of the last. -/
structure Cir where
  frames : List CFrame
  nextSeq : Option Nat
  cursor : Option (Nat × Nat)
  p : Nat
  fresh : Bool
  playing : Bool
  bad : Nat
  overran : Bool
  txBip : Nat
  rei : Nat
  filed : List (Nat × List Blk)
  nextSub : Option Nat
  acc : Nat
  ptr1 : Option Nat
  ptr2 : Option Nat
  invalid : Nat
  lop : Bool
  defect : Bool
  rxBip : Option Nat
  spanAt : Option (Nat × Nat)
  out : List Byte
  outN : Nat
  outAt : Nat × Nat
  outAis : Bool
  outSeq : Nat
  formed : List (Nat × List Nat)
  formedTo : Option Nat
  deriving DecidableEq, Repr

/-! ### Upstream schedules (R79 to R100, R160 to R168) -/

/-- Why a burst is owed (R160). -/
inductive Owed where
  | container
  | activation
  | alarm
  | keepalive
  | awake
  | poll
  | answer
  deriving DecidableEq, Repr

/-- A share of a burst (R170): the container it belongs to, its length, and how much of the length is granted. -/
structure Share where
  cont : Nat
  len : Nat
  granted : Nat
  deriving DecidableEq, Repr

/-- A scheduled burst: its upstream subframe number, local number, start offset, preamble, POWER and REPORT bits,
answer positions, shares, and why it was built. -/
structure Burst where
  sub : Nat
  loc : Nat
  start : Nat
  cold : Bool
  power : Bool
  report : Bool
  answers : Nat
  shares : List Share
  why : Owed
  deriving DecidableEq, Repr

/-- A window entry: a discovery window's part in a subframe, or a ranging window of a local number. -/
structure Window where
  sub : Nat
  start : Nat
  len : Nat
  loc : Option Nat
  deriving DecidableEq, Repr

/-- What the burst receiver keeps of the last burst for the guard before the next (R99, R125), with the local time in ns at
which its write-back ends, where it had one (R92, R93). -/
structure LastBurst where
  loc : Nat
  offset : Option Int
  termMissing : Bool
  wrote : Option Nat
  deriving DecidableEq, Repr

/-- A record of a guard intrusion (R99): the terminals of the bursts on both sides of the guard, and the arrival offsets of
both where they were found. -/
structure Intrusion where
  before : Option Nat
  beforeAt : Option Int
  after : Nat
  afterAt : Option Int
  deriving DecidableEq, Repr

/-- The burst receiver: its schedule, the windows to search, the last burst, whether an intrusion has been recorded in the
guard before the next burst, the last intrusion's record, the block after the last of the burst scheduled last, counted
from upstream subframe 0 (R100), the instants at which RXBRST rises and falls for the burst in hand, in 2^−16 ns (R616), and
the local time in ns of the upstream subframe boundary at which configuration written takes effect (R102, R286). -/
structure BurstRx where
  sched : List Burst
  windows : List Window
  last : Option LastBurst
  intruded : Bool
  record : Option Intrusion
  until_ : Option Nat
  pulse : Option (Int × Int)
  cfgAt : Option Nat
  deriving DecidableEq, Repr

/-! ### The registry and the Scribes (R105 to R147, R495) -/

/-- Registry states (R108). -/
inductive Reg_ where
  | free
  | ranging
  | activating
  | active
  | doze
  | moving
  | hold
  | blocked
  deriving DecidableEq, Repr

/-- The code of a registry state. -/
def Reg_.code : Reg_ → Nat
  | .free => 0
  | .ranging => 1
  | .activating => 2
  | .active => 3
  | .doze => 4
  | .moving => 5
  | .hold => 6
  | .blocked => 7

/-- Why a ranging was asked for, in the order in which free slots go (R118). -/
inductive Ask where
  | rerange
  | discovery
  | recalled
  | move
  deriving DecidableEq, Repr

/-- A ranging request of a terminal (R118 to R120): why, the EqD stated, the upstream subframe of its window once one
is reserved, whether the request is now a RANGE_REQ whatever it was first (R120, R132), the first upstream subframe in which
its window may lie (R132), the XID of its RANGE_REQ, and whether the terminal has refused it (R141). -/
structure Ranging where
  ask : Ask
  eqd : Nat
  window : Option Nat
  again : Bool
  after : Nat
  xid : Nat
  refused : Bool
  deriving DecidableEq, Repr

/-- A pending adjustment (R123, R124): its delta, its result, its effective frame, whether it is the resend, and the
found bursts since F that still called for it. -/
structure Adj where
  delta : Int
  result : Nat
  frame : Nat
  resent : Bool
  calls : Nat
  deriving DecidableEq, Repr

/-- A message that expects an answer (R140): its type, XID, body, further attempts made, the downstream subframe it was
sent in once it was, the upstream subframe of the burst that owes its answer, and whether that burst has passed. -/
structure Txn where
  type : Nat
  xid : Nat
  body : List Byte
  tries : Nat
  sent : Option Nat
  granted : Option Nat
  due : Bool
  deriving DecidableEq, Repr

/-- A side move (R130 to R132): the other side's global index, the effective frame, and whether F has come. -/
structure Move where
  peer : Nat
  frame : Nat
  taken : Bool
  deriving DecidableEq, Repr

/-- A rekey in progress (R421). -/
structure Rekey where
  idx : Nat
  wrap : List Byte
  switched : Bool
  deriving DecidableEq, Repr

/-- A terminal of the registry (R143) with what the Scribe and Ruling keep of it. `back` is the state RANGING was
entered from; `held` the frame of the entry into HOLD, `keepFrom` the frame of its first keepalive; `grants` the granted frames, or awake frames, in a row without a
found burst, with the frame last judged; `low` the found bursts in a row with FOM below FOM_MIN; `keyIdx` the downstream
KEY_INDEX in use with a switch to come; `lastBurst` and `lastReport` the subframes of the last burst and the last
report request; `alarm` the subframe by which an alarm burst is owed. -/
structure Term where
  st : Reg_
  cause : Nat
  eqd : Nat
  serial : Nat
  rtd : Nat
  white : Option Nat
  gasp : Bool
  tunable : Bool
  canDoze : Bool
  period : Nat
  phase : Nat
  dozeFrom : Nat
  dozeEnd : Option Nat
  allowed : Nat
  heldKib : Nat
  marks : List Nat
  changed : Nat
  adjusts : Nat
  attempts : Nat
  back : Reg_
  ask : Option Ranging
  adj : Option Adj
  drift : List Int
  challenge : Option Nat
  held : Nat
  keepFrom : Option Nat
  grants : Nat
  judged : Option Nat
  found : Bool
  low : Nat
  txLevel : Nat
  keyIdx : Nat
  keySwitch : Option (Nat × Nat)
  rekey : Option Rekey
  lastBurst : Nat
  lastReport : Nat
  alarm : Option Nat
  actFrom : Nat
  txns : List Txn
  xid : Nat
  move : Option Move
  disables : Nat
  silenced : Nat
  rogueRaised : Bool
  reason : Nat
  deriving DecidableEq, Repr

/-- A whitelist entry (R112). -/
structure White where
  serial : Nat
  pinTree : Option Nat
  pinLoc : Option Nat
  hint : Nat
  flagged : Bool
  lastCh : Option Nat
  wraps : List Byte
  deriving DecidableEq, Repr

/-- A management message in a Scribe's queue of 32: its 64 bytes, the local number and key index of its segment, its
SEQUENCE, the subframe it came in, and its buffer of MG (R343). -/
structure InMsg where
  sub : Nat
  bytes : List Byte
  loc : Nat
  keyIdx : Nat
  seq : Nat
  buf : Nat := 0
  deriving DecidableEq, Repr

/-- Work a Scribe has pending for a local number (R495). -/
inductive Todo where
  /-- Bursts lost (R126). -/
  | loss
  /-- A burst with DYING_GASP. -/
  | gasp
  /-- An arrival offset for Ruling, with its upstream frame (R122). -/
  | track (o : Int) (frame : Nat)
  /-- A rogue mark (R125). -/
  | mark
  /-- Evidence that a blocked terminal continues (R125). -/
  | evidence
  /-- A ranging accepted from FREE or HOLD: ACTIVATE is to be sent (R121). -/
  | activate
  /-- ACTIVATE_ACK has come. -/
  | activated
  /-- A DOZE_REQ with its period and XID. -/
  | doze (period xid : Nat)
  /-- The end of doze by the held limit, a re-range or the host (R134). -/
  | dozeEnd
  /-- An ALARM message: its XID, sequence, code and detail. -/
  | alarm (xid seq code detail : Nat)
  /-- A host command taken from a ring: ring, opcode, tag, arguments. -/
  | host (ring opcode tag : Nat) (args : List Byte)
  /-- The next message of a rekey (R421). -/
  | keys
  /-- A side move whose target ranging ended: accepted or not (R131, R132). -/
  | moved (ok : Bool)
  /-- The device has taken the channel over (R479). -/
  | takeover
  /-- A message of the message-in queue, which holds its place among the events of its terminal (R110). -/
  | msg
  deriving DecidableEq, Repr

/-- An open or coming discovery window (R114, R115): the first upstream subframe, its blocks, its response point, n,
and PRE_EQD. -/
structure Disc where
  sub : Nat
  blocks : Nat
  sSub : Nat
  sOff : Nat
  slots : Nat
  preEqd : Nat
  deriving DecidableEq, Repr

/-- Where a microword stands (R490): in patch memory, or in ROM, and its address there. -/
structure CodeAt where
  patch : Bool
  addr : Nat
  deriving DecidableEq, Repr

/-- A store that waits in a Scribe's staging buffer (R494, R497): its space, its address there, its width in bytes and the value. -/
structure Staged where
  space : Nat
  addr : Nat
  width : Nat
  value : Nat
  deriving DecidableEq, Repr

/-- A Scribe's engine (R489, R493, R497): the working registers that are not zero, the return addresses with the youngest first,
the staging buffer with the oldest store first, the ALU flags of the last word, the shadow set, the restart point, and what
words have stored in spaces whose addresses this manual does not give (log entry 168). -/
structure Eng where
  w : Tbl Nat
  stack : List CodeAt
  staging : List Staged
  zero : Bool
  neg : Bool
  carry : Bool
  shadow : Tbl Nat
  restart : CodeAt
  spaces : Tbl Nat
  deriving DecidableEq, Repr

/-- A channel's Scribe beside its registers: the broadcast counter (R65), the message-in queue, the work pending, the
slots of the ranging queue in order of request, discovery windows, the frames of the latest HOLD entries, the end of the
recovery period, the serial the recall pass last visited, how often a routine has been abandoned
without a commit and which (its entry point and local number), the subframe of its last tick, unicast messages held for dozing terminals, its patch words, the
last parity failure (address, cycle), and its engine. -/
structure Scribe where
  bcast : Nat
  inbox : List InMsg
  todo : List (Nat × Todo)
  slots : List Nat
  windows : List Disc
  holds : List Nat
  recoverTo : Option Nat
  recallAt : Option Nat
  abandons : Nat
  abandoned : Option (Nat × Nat)
  lastTick : Option Nat
  held : List MgmtMsg
  patches : Tbl Nat
  parityAt : List (Nat × Nat)
  eng : Eng
  deriving DecidableEq, Repr

/-- The microcode engines' trace ring (R509, R513): its records of 16 bytes, oldest first, and under FILTER_EN whether the routine
of FILTER_ENTRY runs, and whether it has ended. -/
structure Micro where
  trace : List Nat
  running : Bool
  ended : Bool
  deriving DecidableEq, Repr

/-- The registry of all channels. -/
structure Registry where
  terms : Tbl Term
  white : Tbl White
  scribes : Tbl Scribe
  errs : Tbl Nat
  bursts : Tbl Nat
  deriving DecidableEq, Repr

/-! ### The grant engine (R148 to R180) -/

/-- A container's state (R180), with FLAGS bits as Booleans; `bare` is what grants of the last map, of a container without a ceiling,
found no max credit to draw on (R165, log entry 144). -/
structure ContSt where
  demand : Nat
  inflight : Nat
  assured : Nat
  na : Nat
  max : Nat
  tagNa : Nat
  tagBe : Nat
  arrears : Nat
  age : Nat
  granted : Bool
  wantNa : Bool
  wantBe : Bool
  bare : Nat
  deriving DecidableEq, Repr

/-- A grant in a built map whose burst has not been dealt with (R180): its slot, the local number that holds it, the upstream subframe
and the positions. -/
structure Flight where
  slot : Nat
  loc : Nat
  sub : Nat
  n : Nat
  deriving DecidableEq, Repr

/-- A report that waits for the report processor: its upstream subframe, its local number and its body. -/
structure Report where
  sub : Nat
  loc : Nat
  body : Nat
  deriving DecidableEq, Repr

/-- The grant engines: configuration records by device index and the ones in force until the next snapshot, state
records, reports that wait by channel, built maps that the framer will send by channel (entries in order, with the
target), the grants in built maps, the subframe of each channel's last snapshot plus 1, the owed
bursts that a full subframe has moved on (R160), the slots whose state records start afresh at the next snapshot (R173), and
the state records as the last completed map left them (R179). -/
structure Gnt where
  cfg : Tbl Nat
  old : Tbl Nat
  st : Tbl ContSt
  reports : Tbl (List Report)
  maps : Tbl (List (Nat × List Nat))
  flight : List Flight
  done : Tbl Nat
  moved : Tbl (List (Nat × Owed))
  renew : List Nat
  shown : Tbl Nat
  deriving DecidableEq, Repr

/-- The standby's measurement of a channel's DELTA (R475): consecutive found bursts, the offsets of the present frame's
found bursts, and the frame of the last found burst. -/
structure Shadow where
  run : Nat
  offs : List Int
  frame : Nat
  deriving DecidableEq, Repr

/-- The channels' lines: the local time in ns of the frame boundary last begun, framers, downstream receivers and burst receivers; and reassemblies of upstream packets by
container device key (16 × global index + container index); and the standby's measurements of DELTA. -/
structure Lines where
  started : Option Nat
  shadow : Tbl Shadow
  tx : Tbl TxLine
  rx : Tbl RxLine
  brx : Tbl BurstRx
  reasm : Tbl Reasm
  deriving DecidableEq, Repr

/-! ### Emulated terminals (R233 to R258) -/

/-- A binding's synthetic source (R249) and the packet it has begun. -/
structure Bind where
  prbs : Nat
  seq : Nat
  part : Option PartTx
  deriving DecidableEq, Repr

/-- A discovery burst that a terminal will send (R116): S_TARGET, the block at which its guard begins counted from
that subframe's start, its DELAY, and the EqD. -/
structure DiscTx where
  sub : Nat
  start : Nat
  delay : Nat
  eqd : Nat
  deriving DecidableEq, Repr

/-- An emulated terminal beside its registers (R111, R234, R243, R246, R248): the state before T_HOLDOVER and the frames
missed; the frame that RANGE_WAIT counts from, and whether the ranging is a returning one; the EqD, subframe and place of
its ranging window, whether its entry asks for full power, and whether its burst has gone; the adjustment to come, as (frame, EqD); the skip count and span, and
whether a discovery burst is unanswered; LFSR; REI; the answers that wait, the subframes of the messages whose answer
positions have not come, and unsolicited messages; the last request of each type, as (type, XID, answer); the discovery
burst to send; granted bursts; the next report's BASE; the frame of GASP and whether its burst has gone; the sequence of
the last alarm and the frame it was sent in; the discovery responses sent since T_LISTEN; the instant in 2^−16 ns at which a TCH_EMUDLY
written takes effect (R247); doze period, phase, and the frames at which doze begins and ends; the frame
of DEACTIVATE; the upstream KEY_INDEX and the switch to come; the level, and the change to come; the key-encryption key;
ERR_COUNT; the next upstream XID; the last local number held (R139); and the bindings. -/
structure Emu where
  prev : Nat
  missed : Nat
  since : Nat
  returning : Bool
  rangeEqd : Nat
  rangeSub : Option Nat
  rangeAt : Option Nat
  rangePower : Bool
  rangeSent : Bool
  eqdNext : Option (Nat × Nat)
  skip : Option Nat
  span : Nat
  tried : Bool
  lfsr : Nat
  rei : Nat
  answers : List (Nat × List Byte)
  owed : List Nat
  unsol : List (List Byte)
  seen : List (Nat × Nat × List Byte)
  disc : Option DiscTx
  bursts : List Burst
  base : Nat
  gaspAt : Option Nat
  gaspBurst : Bool
  alarmSeq : Nat
  alarmAt : Option Nat
  attempts : Nat
  dlyAt : Option Int
  period : Nat
  phase : Nat
  dozeAt : Option Nat
  wakeAt : Option Nat
  deactAt : Option Nat
  keyUp : Nat
  keySwitch : Option (Nat × Nat)
  level : Nat
  levelAt : Option (Nat × Nat)
  kek : Option Nat
  errs : Nat
  upXid : Nat
  lastLocal : Option Nat
  binds : Tbl Bind
  deriving DecidableEq, Repr

/-- The emulated terminals by global index; for each channel the last burst it sent, from its first preamble block to its
terminator, each block as 66 bits (R81); the instant at which it ended; and the instants at which TBEN rises and falls for
it (R238), all in 2^−16 ns. -/
structure Emus where
  terms : Tbl Emu
  sent : Tbl (List Nat)
  lastEnd : Tbl Nat
  tben : Tbl (Int × Int)
  deriving DecidableEq, Repr

/-! ### The pair (R462 to R488) -/

/-- A stitch message sent (R465): its type, its SEQ and its body. -/
structure StMsg where
  type : Nat
  seq : Nat
  body : List Byte
  deriving DecidableEq, Repr

/-- The stitch link and the pair beside their registers: the pair record (R462); whether HELLO did not match; the lease
end E (R468) and E_s (R469); the frame in which the last RENEW came; the partner's mode and HEAD_EPOCH of its last HELLO,
and whether its last HELLO or ACK showed HEALTHY; the copy (0 not under way, 1 a bulk copy awaited, 2 ended), the records
since the last COMMIT in order, with a mark on those of BULK, and the records to apply at the next frame boundary;
messages to send again in each frame (R466); the next SEQ, and the messages sent since the last frame boundary; the
instant of the last hand-back; whether the device has been active since boot (R482); whether it waits for its first ACK
(R483), and whether its silence test runs; the first frame as a new active device, and the channels on which a burst has
been found since (R480); the frame by which a bulk copy is to be sent (R484); a SWITCH_OVER that a standby has
forwarded, as (ring, tag); the cause of the last RESIGN; and the cycle of boot lock, from which LINK_WAIT_MS counts (R483). -/
structure Stl where
  pairId : Nat
  digest : Nat
  mismatch : Bool
  lease : Nat
  promise : Nat
  heard : Option Nat
  partnerMode : Option Nat
  partnerEpoch : Nat
  healthy : Bool
  copy : Nat
  recs : List (Bool × CopyRec)
  apply : List CopyRec
  again : List (Nat × List Byte)
  seq : Nat
  sent : List StMsg
  handback : Option Nat
  wasActive : Bool
  waiting : Bool
  alone : Option Nat
  begun : Option Nat
  found : List Nat
  bulkBy : Option Nat
  forwarded : Option (Nat × Nat)
  resigned : Nat
  waitFrom : Nat
  deriving DecidableEq, Repr

/-! ### Quill (R515 to R534) -/

/-- A sample channel (R515 to R517): raw and filtered values, status (0 OK, 1 ABSENT, 2 FAILED), failures in a row, the
samples of the filter's window, newest first, and whether the filter restarts at the next raw value. -/
structure QSample where
  raw : Int
  filt : Int
  status : Nat
  fails : Nat
  hist : List Int
  restart : Bool
  deriving DecidableEq, Repr

/-- A rule's state (R519, R533): raised, the passes of the condition in progress, and the same for each member under
EACH. -/
structure QState where
  raised : Bool
  hold : Nat
  up : List Nat
  holds : Tbl Nat
  deriving DecidableEq, Repr

/-- An optics module slot (R516). -/
structure OptSlot where
  bus : Nat
  seg : Nat
  first : Nat
  lanes : Nat
  deriving DecidableEq, Repr

/-- Quill: filter and rule records, samples, rule states, the optics slots, the slots whose transmitters are off, the die
sensors at or above the trip level at the last sample, whether one of them was so at the sample before too, the samples in a row
with every sensor below it, whether the trip is armed (R522), whether the present VIGIL was
entered by Quill or the trip, the fabric cycle of the entry into VIGIL, the cycle of the last parity failure (R507), the
throttle level that the host last wrote, the cycle in which an action last set the level (R378), the patch words, the registers
Q1 to Q15 that are not zero, the call stack (R489), the rule records written since the last pass (R519), and for each optics slot how
often it has been polled, and when last (R516). -/
structure Quill where
  filters : Tbl Nat
  rules : Tbl Nat
  samples : Tbl QSample
  states : Tbl QState
  slots : Tbl OptSlot
  laserOff : List Nat
  hot : Nat
  hotTwice : Bool
  cool : Nat
  armed : Bool
  bySelf : Bool
  vigilAt : Nat
  parityAt : Option Nat
  hostLevel : Nat
  levelAt : Option Nat
  patches : Tbl Nat
  regs : Tbl Nat
  stack : List CodeAt
  held : Tbl Nat
  polls : Tbl Nat
  polledAt : Tbl Nat
  deriving DecidableEq, Repr

end Sys2Proof.Machine
end

