-- ==== Sys2Proof/Machine/Regs.lean ====
section
/-!
DEFINITION. The BAR0 registers: every field of every register of the manual, with its place, its access type
(R12), its reset value (R14), the range outside which it is used at its default, and the companion event count
of a W1C flag (R13). Written from the register tables of the manual; each register's docstring names its rule.
-/

namespace Sys2Proof

/-- Access types of R12. -/
inductive Acc where
  | rw | ro | wo | w1c | w1s | rwl
  deriving DecidableEq, Repr

/-- Reset values and defaults (R14). -/
inductive Dflt where
  /-- One number for every instance. -/
  | const (n : Nat)
  /-- HOME and PIPE of GLB_QUADMAP (R22): q div 4 within its letter. -/
  | quad
  /-- MEM_MAP defaults of R362. -/
  | memMap
  /-- MEM_QOS TARGET_NS defaults (R386). -/
  | qosTarget
  /-- MEM_QOS TAG_RESERVE defaults (R386). -/
  | qosReserve
  deriving DecidableEq, Repr

/-- The default of instance (i, j). -/
def Dflt.val : Dflt → Nat → Nat → Nat
  | .const n, _, _ => n
  | .quad, i, _ => i % 32 / 4
  | .memMap, i, _ => 2 ^ (10 + i) + 2 ^ (21 + i)
  | .qosTarget, i, _ => [4000, 1000, 20000, 800, 4000, 100000].getD i 0
  | .qosReserve, i, _ => [0, 512, 0, 256, 0, 64].getD i 0

/-- One field of a register: the address of its first instance, the strides of its two indices, its lowest bit
and its width, its access type, its default and whether that default is an IMG one, the range a used value must
lie in (a signed range when `sg`), its step, and the address and stride of its companion count. -/
structure Fld where
  addr : Nat
  s1 : Nat := 0
  s2 : Nat := 0
  lo : Nat
  w : Nat
  acc : Acc
  dflt : Dflt := .const 0
  img : Bool := false
  mn : Nat := 0
  mx : Nat := 0
  ranged : Bool := false
  mult : Nat := 1
  sg : Bool := false
  cntAddr : Nat := 0
  cntStride : Nat := 0
  deriving DecidableEq, Repr

/-- Where a field of instance (i, j) lives in the register file. -/
def Fld.key (f : Fld) (i j : Nat) : Nat := (f.addr + i * f.s1 + j * f.s2) * 64 + f.lo

/-- A register: its address, its two index counts and strides, and its fields. -/
structure Reg where
  addr : Nat
  n1 : Nat := 1
  s1 : Nat := 0
  n2 : Nat := 1
  s2 : Nat := 0
  fields : List Fld
  deriving Repr

namespace F

/-- VENDOR of GLB_ID (R2). -/
def GLB_ID_VENDOR : Fld :=
  { addr := 0x0, lo := 0, w := 16, acc := .ro, dflt := .const 20049 }
/-- DEVICE of GLB_ID (R2). -/
def GLB_ID_DEVICE : Fld :=
  { addr := 0x0, lo := 16, w := 16, acc := .ro, dflt := .const 29028 }
/-- REVISION of GLB_ID (R2). -/
def GLB_ID_REVISION : Fld :=
  { addr := 0x0, lo := 32, w := 8, acc := .ro, dflt := .const 176 }
/-- GRADE of GLB_ID (R2). -/
def GLB_ID_GRADE : Fld :=
  { addr := 0x0, lo := 40, w := 8, acc := .ro, dflt := .const 1 }
/-- CURRENT of GLB_MODE (R33). -/
def GLB_MODE_CURRENT : Fld :=
  { addr := 0x10, lo := 0, w := 3, acc := .ro, img := true }
/-- BOOT_MODE of GLB_MODE (R33). -/
def GLB_MODE_BOOT_MODE : Fld :=
  { addr := 0x10, lo := 4, w := 3, acc := .ro, img := true }
/-- PAIRED of GLB_MODE (R33). -/
def GLB_MODE_PAIRED : Fld :=
  { addr := 0x10, lo := 7, w := 1, acc := .ro, img := true }
/-- TRANSITION of GLB_MODE (R33). -/
def GLB_MODE_TRANSITION : Fld :=
  { addr := 0x10, lo := 8, w := 1, acc := .ro }
/-- TARGET of GLB_MODE (R33). -/
def GLB_MODE_TARGET : Fld :=
  { addr := 0x10, lo := 9, w := 3, acc := .ro }
/-- LAST_CAUSE of GLB_MODE (R33). -/
def GLB_MODE_LAST_CAUSE : Fld :=
  { addr := 0x10, lo := 16, w := 4, acc := .ro }
/-- TRANSITIONS of GLB_MODE (R33). -/
def GLB_MODE_TRANSITIONS : Fld :=
  { addr := 0x10, lo := 24, w := 40, acc := .ro }
/-- REPLAYED of GLB_D2DSTAT (R27). -/
def GLB_D2DSTAT_REPLAYED : Fld :=
  { addr := 0x100, s1 := 0x20, lo := 0, w := 1, acc := .w1c, cntAddr := 0x108, cntStride := 0x20 }
/-- UNCORR of GLB_D2DSTAT (R27). -/
def GLB_D2DSTAT_UNCORR : Fld :=
  { addr := 0x100, s1 := 0x20, lo := 1, w := 1, acc := .w1c, cntAddr := 0x110, cntStride := 0x20 }
/-- LINK_UP of GLB_D2DSTAT (R27). -/
def GLB_D2DSTAT_LINK_UP : Fld :=
  { addr := 0x100, s1 := 0x20, lo := 8, w := 1, acc := .ro }
/-- COUNT of GLB_D2DREPLAY (R27). -/
def GLB_D2DREPLAY_COUNT : Fld :=
  { addr := 0x108, s1 := 0x20, lo := 0, w := 40, acc := .ro }
/-- COUNT of GLB_D2DUNCOR (R27). -/
def GLB_D2DUNCOR_COUNT : Fld :=
  { addr := 0x110, s1 := 0x20, lo := 0, w := 40, acc := .ro }
/-- HOME of GLB_QUADMAP (R22). -/
def GLB_QUADMAP_HOME : Fld :=
  { addr := 0x400, s1 := 0x8, lo := 0, w := 3, acc := .ro, dflt := .quad }
/-- PIPE of GLB_QUADMAP (R22). -/
def GLB_QUADMAP_PIPE : Fld :=
  { addr := 0x400, s1 := 0x8, lo := 8, w := 3, acc := .ro, dflt := .quad }
/-- DRAINING of GLB_QUADMAP (R22). -/
def GLB_QUADMAP_DRAINING : Fld :=
  { addr := 0x400, s1 := 0x8, lo := 16, w := 1, acc := .ro }
/-- ABANDONED of GLB_QUADMAP (R22). -/
def GLB_QUADMAP_ABANDONED : Fld :=
  { addr := 0x400, s1 := 0x8, lo := 17, w := 1, acc := .w1c }
/-- MOVES of GLB_QUADMAP (R22). -/
def GLB_QUADMAP_MOVES : Fld :=
  { addr := 0x400, s1 := 0x8, lo := 24, w := 40, acc := .ro }
/-- NO_TRUNK of GLB_CASCNT (R259). -/
def GLB_CASCNT_NO_TRUNK : Fld :=
  { addr := 0x780, lo := 0, w := 40, acc := .ro }
/-- TIME_MEMBER of GLB_CASSTAT (R259). -/
def GLB_CASSTAT_TIME_MEMBER : Fld :=
  { addr := 0x788, lo := 0, w := 7, acc := .ro }
/-- TIME_VALID of GLB_CASSTAT (R259). -/
def GLB_CASSTAT_TIME_VALID : Fld :=
  { addr := 0x788, lo := 7, w := 1, acc := .ro }
/-- REFUSED of GLB_CASSTAT (R259). -/
def GLB_CASSTAT_REFUSED : Fld :=
  { addr := 0x788, lo := 8, w := 1, acc := .w1c, cntAddr := 0x790 }
/-- CAS_REFUSALS of GLB_CASREF (R259). -/
def GLB_CASREF_CAS_REFUSALS : Fld :=
  { addr := 0x790, lo := 0, w := 40, acc := .ro }
/-- HOME of GLB_CASBKT (R259). -/
def GLB_CASBKT_HOME : Fld :=
  { addr := 0x800, s1 := 0x8, lo := 0, w := 7, acc := .rw, img := true }
/-- CUR of GLB_CASBKT (R259). -/
def GLB_CASBKT_CUR : Fld :=
  { addr := 0x800, s1 := 0x8, lo := 8, w := 7, acc := .ro }
/-- MOVING of GLB_CASBKT (R259). -/
def GLB_CASBKT_MOVING : Fld :=
  { addr := 0x800, s1 := 0x8, lo := 15, w := 1, acc := .ro }
/-- MOVES of GLB_CASBKT (R259). -/
def GLB_CASBKT_MOVES : Fld :=
  { addr := 0x800, s1 := 0x8, lo := 16, w := 40, acc := .ro }
/-- PHASE of BOOT_STAT (R548). -/
def BOOT_STAT_PHASE : Fld :=
  { addr := 0x10000, lo := 0, w := 4, acc := .ro }
/-- SLOT of BOOT_STAT (R548). -/
def BOOT_STAT_SLOT : Fld :=
  { addr := 0x10000, lo := 4, w := 1, acc := .ro }
/-- FALLBACK of BOOT_STAT (R548). -/
def BOOT_STAT_FALLBACK : Fld :=
  { addr := 0x10000, lo := 5, w := 1, acc := .ro }
/-- LOCKED of BOOT_STAT (R548). -/
def BOOT_STAT_LOCKED : Fld :=
  { addr := 0x10000, lo := 6, w := 1, acc := .ro }
/-- WARM of BOOT_STAT (R548). -/
def BOOT_STAT_WARM : Fld :=
  { addr := 0x10000, lo := 7, w := 1, acc := .ro }
/-- REFUSED of BOOT_STAT (R548). -/
def BOOT_STAT_REFUSED : Fld :=
  { addr := 0x10000, lo := 8, w := 1, acc := .w1c, cntAddr := 0x10230 }
/-- FLERR of BOOT_STAT (R548). -/
def BOOT_STAT_FLERR : Fld :=
  { addr := 0x10000, lo := 9, w := 1, acc := .w1c, cntAddr := 0x10228 }
/-- IMAGE_SEQ of BOOT_STAT (R548). -/
def BOOT_STAT_IMAGE_SEQ : Fld :=
  { addr := 0x10000, lo := 32, w := 32, acc := .ro }
/-- CODE of BOOT_FAIL (R548). -/
def BOOT_FAIL_CODE : Fld :=
  { addr := 0x10008, s1 := 0x8, lo := 0, w := 8, acc := .ro }
/-- RECORD of BOOT_FAIL (R548). -/
def BOOT_FAIL_RECORD : Fld :=
  { addr := 0x10008, s1 := 0x8, lo := 8, w := 24, acc := .ro }
/-- OFFSET of BOOT_FAIL (R548). -/
def BOOT_FAIL_OFFSET : Fld :=
  { addr := 0x10008, s1 := 0x8, lo := 32, w := 32, acc := .ro }
/-- BUILD_ID of BOOT_BUILD (R548). -/
def BOOT_BUILD_BUILD_ID : Fld :=
  { addr := 0x10018, lo := 0, w := 64, acc := .ro }
/-- HASH_PRESENT of BOOT_FUSE (R548). -/
def BOOT_FUSE_HASH_PRESENT : Fld :=
  { addr := 0x10020, lo := 0, w := 2, acc := .ro }
/-- REVOKED of BOOT_FUSE (R548). -/
def BOOT_FUSE_REVOKED : Fld :=
  { addr := 0x10020, lo := 2, w := 2, acc := .ro }
/-- SEC_MIN of BOOT_FUSE (R548). -/
def BOOT_FUSE_SEC_MIN : Fld :=
  { addr := 0x10020, lo := 4, w := 7, acc := .ro }
/-- ROOT_PRESENT of BOOT_FUSE (R548). -/
def BOOT_FUSE_ROOT_PRESENT : Fld :=
  { addr := 0x10020, lo := 11, w := 1, acc := .ro }
/-- CODE of BOOT_RESET (R548). -/
def BOOT_RESET_CODE : Fld :=
  { addr := 0x10028, lo := 0, w := 8, acc := .wo }
/-- ADDR of BOOT_FLCTL (R549). -/
def BOOT_FLCTL_ADDR : Fld :=
  { addr := 0x10040, lo := 0, w := 27, acc := .rw }
/-- OP of BOOT_FLCTL (R549). -/
def BOOT_FLCTL_OP : Fld :=
  { addr := 0x10040, lo := 28, w := 2, acc := .rw }
/-- GO of BOOT_FLCTL (R549). -/
def BOOT_FLCTL_GO : Fld :=
  { addr := 0x10040, lo := 32, w := 1, acc := .w1s }
/-- BUSY of BOOT_FLCTL (R549). -/
def BOOT_FLCTL_BUSY : Fld :=
  { addr := 0x10040, lo := 33, w := 1, acc := .ro }
/-- DATA of BOOT_FLDATA (R549). -/
def BOOT_FLDATA_DATA : Fld :=
  { addr := 0x10048, s1 := 0x8, lo := 0, w := 64, acc := .rw }
/-- COUNT of BOOT_CNT (R550). -/
def BOOT_CNT_COUNT : Fld :=
  { addr := 0x10200, s1 := 0x8, lo := 0, w := 40, acc := .ro }
/-- FOLD_EN of PWR_FOLDCFG (R534). -/
def PWR_FOLDCFG_FOLD_EN : Fld :=
  { addr := 0x20000, lo := 0, w := 1, acc := .rw, dflt := .const 1, img := true }
/-- FOLD_PCT of PWR_FOLDCFG (R534). -/
def PWR_FOLDCFG_FOLD_PCT : Fld :=
  { addr := 0x20000, lo := 8, w := 8, acc := .rw, dflt := .const 40, img := true, ranged := true, mn := 5, mx := 90 }
/-- UNFOLD_PCT of PWR_FOLDCFG (R534). -/
def PWR_FOLDCFG_UNFOLD_PCT : Fld :=
  { addr := 0x20000, lo := 16, w := 8, acc := .rw, dflt := .const 70, img := true, ranged := true, mn := 10, mx := 95 }
/-- WIN_US of PWR_FOLDCFG (R534). -/
def PWR_FOLDCFG_WIN_US : Fld :=
  { addr := 0x20000, lo := 24, w := 12, acc := .rw, dflt := .const 100, img := true, ranged := true, mn := 10, mx := 4000 }
/-- FOLD_HOLD of PWR_FOLDCFG (R534). -/
def PWR_FOLDCFG_FOLD_HOLD : Fld :=
  { addr := 0x20000, lo := 36, w := 12, acc := .rw, dflt := .const 100, img := true, ranged := true, mn := 1, mx := 4095 }
/-- PARKED of PWR_STAT (R535). -/
def PWR_STAT_PARKED : Fld :=
  { addr := 0x20008, lo := 0, w := 16, acc := .ro }
/-- FORCED of PWR_STAT (R535). -/
def PWR_STAT_FORCED : Fld :=
  { addr := 0x20008, lo := 16, w := 1, acc := .ro }
/-- HELD of PWR_STAT (R535). -/
def PWR_STAT_HELD : Fld :=
  { addr := 0x20008, lo := 17, w := 1, acc := .ro }
/-- OVERFLOW of PWR_STAT (R535). -/
def PWR_STAT_OVERFLOW : Fld :=
  { addr := 0x20008, lo := 24, w := 1, acc := .w1c, cntAddr := 0x20218 }
/-- ABANDON of PWR_STAT (R535). -/
def PWR_STAT_ABANDON : Fld :=
  { addr := 0x20008, lo := 25, w := 1, acc := .w1c, cntAddr := 0x20210 }
/-- BITS of PWR_LOAD (R535). -/
def PWR_LOAD_BITS : Fld :=
  { addr := 0x20100, s1 := 0x8, lo := 0, w := 8, acc := .ro }
/-- PKTS of PWR_LOAD (R535). -/
def PWR_LOAD_PKTS : Fld :=
  { addr := 0x20100, s1 := 0x8, lo := 8, w := 8, acc := .ro }
/-- COUNT of PWR_CNT (R535). -/
def PWR_CNT_COUNT : Fld :=
  { addr := 0x20200, s1 := 0x8, lo := 0, w := 40, acc := .ro }
/-- OPT_POLL_MS of QUL_CFG (R529). -/
def QUL_CFG_OPT_POLL_MS : Fld :=
  { addr := 0x30000, lo := 0, w := 8, acc := .rw, dflt := .const 10, img := true, ranged := true, mn := 1, mx := 255 }
/-- ADC_COUNT of QUL_CFG (R529). -/
def QUL_CFG_ADC_COUNT : Fld :=
  { addr := 0x30000, lo := 8, w := 5, acc := .rw, img := true, ranged := true, mn := 0, mx := 16 }
/-- SEQ of QUL_STAT (R530). -/
def QUL_STAT_SEQ : Fld :=
  { addr := 0x30008, lo := 0, w := 2, acc := .ro }
/-- PATCH_OFF of QUL_STAT (R530). -/
def QUL_STAT_PATCH_OFF : Fld :=
  { addr := 0x30008, lo := 2, w := 1, acc := .ro }
/-- RAISED of QUL_STAT (R530). -/
def QUL_STAT_RAISED : Fld :=
  { addr := 0x30008, lo := 8, w := 1, acc := .w1c, cntAddr := 0x30208 }
/-- SAMPFAIL of QUL_STAT (R530). -/
def QUL_STAT_SAMPFAIL : Fld :=
  { addr := 0x30008, lo := 9, w := 1, acc := .w1c, cntAddr := 0x30218 }
/-- TRIP of QUL_STAT (R530). -/
def QUL_STAT_TRIP : Fld :=
  { addr := 0x30008, lo := 10, w := 1, acc := .w1c, cntAddr := 0x30230 }
/-- REFUSED of QUL_STAT (R530). -/
def QUL_STAT_REFUSED : Fld :=
  { addr := 0x30008, lo := 11, w := 1, acc := .w1c, cntAddr := 0x30258 }
/-- PC of QUL_STAT (R530). -/
def QUL_STAT_PC : Fld :=
  { addr := 0x30008, lo := 16, w := 12, acc := .ro }
/-- PC_PATCH of QUL_STAT (R530). -/
def QUL_STAT_PC_PATCH : Fld :=
  { addr := 0x30008, lo := 28, w := 1, acc := .ro }
/-- ACTIVE of QUL_ALARM (R530). -/
def QUL_ALARM_ACTIVE : Fld :=
  { addr := 0x30010, lo := 0, w := 32, acc := .ro }
/-- LATCHED of QUL_ALARM (R530). -/
def QUL_ALARM_LATCHED : Fld :=
  { addr := 0x30010, lo := 32, w := 32, acc := .w1c }
/-- ROM_ADDR of QUL_MATCH (R531). -/
def QUL_MATCH_ROM_ADDR : Fld :=
  { addr := 0x30100, s1 := 0x8, lo := 0, w := 12, acc := .rwl, img := true }
/-- PATCH_ADDR of QUL_MATCH (R531). -/
def QUL_MATCH_PATCH_ADDR : Fld :=
  { addr := 0x30100, s1 := 0x8, lo := 16, w := 6, acc := .rwl, img := true }
/-- VALID of QUL_MATCH (R531). -/
def QUL_MATCH_VALID : Fld :=
  { addr := 0x30100, s1 := 0x8, lo := 31, w := 1, acc := .rwl, img := true }
/-- COUNT of QUL_CNT (R532). -/
def QUL_CNT_COUNT : Fld :=
  { addr := 0x30200, s1 := 0x8, lo := 0, w := 40, acc := .ro }
/-- COUNT of QUL_ALMCNT (R530). -/
def QUL_ALMCNT_COUNT : Fld :=
  { addr := 0x30400, s1 := 0x8, lo := 0, w := 40, acc := .ro }
/-- INDEX of QUL_IND_CTL (R533). -/
def QUL_IND_CTL_INDEX : Fld :=
  { addr := 0x31000, lo := 0, w := 10, acc := .rw }
/-- TABLE of QUL_IND_CTL (R533). -/
def QUL_IND_CTL_TABLE : Fld :=
  { addr := 0x31000, lo := 10, w := 2, acc := .rw }
/-- WRITE of QUL_IND_CTL (R533). -/
def QUL_IND_CTL_WRITE : Fld :=
  { addr := 0x31000, lo := 24, w := 1, acc := .rw }
/-- GO of QUL_IND_CTL (R533). -/
def QUL_IND_CTL_GO : Fld :=
  { addr := 0x31000, lo := 32, w := 1, acc := .w1s }
/-- BUSY of QUL_IND_CTL (R533). -/
def QUL_IND_CTL_BUSY : Fld :=
  { addr := 0x31000, lo := 33, w := 1, acc := .ro }
/-- REFUSED of QUL_IND_CTL (R533). -/
def QUL_IND_CTL_REFUSED : Fld :=
  { addr := 0x31000, lo := 34, w := 1, acc := .w1c, cntAddr := 0x30258 }
/-- DATA of QUL_IND_DATA (R533). -/
def QUL_IND_DATA_DATA : Fld :=
  { addr := 0x31008, s1 := 0x8, lo := 0, w := 64, acc := .rw }
/-- SRC of TIM_CFG (R453). -/
def TIM_CFG_SRC : Fld :=
  { addr := 0x40000, lo := 0, w := 3, acc := .rw, img := true }
/-- SYNCE_EN of TIM_CFG (R453). -/
def TIM_CFG_SYNCE_EN : Fld :=
  { addr := 0x40000, lo := 3, w := 1, acc := .rw, img := true }
/-- CLK10_EN of TIM_CFG (R453). -/
def TIM_CFG_CLK10_EN : Fld :=
  { addr := 0x40000, lo := 4, w := 1, acc := .rw, img := true }
/-- STEP_FIRST of TIM_CFG (R453). -/
def TIM_CFG_STEP_FIRST : Fld :=
  { addr := 0x40000, lo := 5, w := 1, acc := .rwl, dflt := .const 1, img := true }
/-- CAS_WAIT of TIM_CFG (R453). -/
def TIM_CFG_CAS_WAIT : Fld :=
  { addr := 0x40000, lo := 6, w := 1, acc := .rwl, dflt := .const 1, img := true }
/-- PPS_OUT_EN of TIM_CFG (R453). -/
def TIM_CFG_PPS_OUT_EN : Fld :=
  { addr := 0x40000, lo := 7, w := 1, acc := .rw, dflt := .const 1, img := true }
/-- TOD_WAIT_MS of TIM_CFG (R453). -/
def TIM_CFG_TOD_WAIT_MS : Fld :=
  { addr := 0x40000, lo := 8, w := 11, acc := .rwl, dflt := .const 1500, img := true, ranged := true, mn := 0, mx := 2000 }
/-- SYNCE_PORT of TIM_CFG (R453). -/
def TIM_CFG_SYNCE_PORT : Fld :=
  { addr := 0x40000, lo := 19, w := 7, acc := .rw, img := true }
/-- TREE_CH of TIM_CFG (R453). -/
def TIM_CFG_TREE_CH : Fld :=
  { addr := 0x40000, lo := 26, w := 7, acc := .rw, img := true }
/-- PPS_WIDTH_MS of TIM_CFG (R453). -/
def TIM_CFG_PPS_WIDTH_MS : Fld :=
  { addr := 0x40000, lo := 33, w := 10, acc := .rw, dflt := .const 100, img := true, ranged := true, mn := 1, mx := 999 }
/-- FRAC of TIM_NOW_NS (R454). -/
def TIM_NOW_NS_FRAC : Fld :=
  { addr := 0x40008, lo := 0, w := 16, acc := .ro }
/-- NS of TIM_NOW_NS (R454). -/
def TIM_NOW_NS_NS : Fld :=
  { addr := 0x40008, lo := 16, w := 30, acc := .ro }
/-- SEC of TIM_NOW_SEC (R454). -/
def TIM_NOW_SEC_SEC : Fld :=
  { addr := 0x40010, lo := 0, w := 48, acc := .ro }
/-- SEC of TIM_SET_SEC (R454). -/
def TIM_SET_SEC_SEC : Fld :=
  { addr := 0x40018, lo := 0, w := 48, acc := .rw }
/-- NS of TIM_SET_NS (R454). -/
def TIM_SET_NS_NS : Fld :=
  { addr := 0x40020, lo := 0, w := 30, acc := .rw }
/-- GO of TIM_SET_NS (R454). -/
def TIM_SET_NS_GO : Fld :=
  { addr := 0x40020, lo := 32, w := 1, acc := .w1s }
/-- AT_PPS of TIM_SET_NS (R454). -/
def TIM_SET_NS_AT_PPS : Fld :=
  { addr := 0x40020, lo := 33, w := 1, acc := .rw }
/-- BW_MHZ of TIM_SERVO (R455). -/
def TIM_SERVO_BW_MHZ : Fld :=
  { addr := 0x40028, lo := 0, w := 14, acc := .rw, dflt := .const 100, img := true, ranged := true, mn := 1, mx := 10000 }
/-- FREQ_MAX_PPB of TIM_SERVO (R455). -/
def TIM_SERVO_FREQ_MAX_PPB : Fld :=
  { addr := 0x40028, lo := 14, w := 18, acc := .rw, dflt := .const 200000, img := true, ranged := true, mn := 1000, mx := 200000 }
/-- SLEW_PPB_S of TIM_SERVO (R455). -/
def TIM_SERVO_SLEW_PPB_S : Fld :=
  { addr := 0x40028, lo := 32, w := 15, acc := .rw, dflt := .const 10000, img := true, ranged := true, mn := 1, mx := 20000 }
/-- LOCK_NS of TIM_SERVO (R455). -/
def TIM_SERVO_LOCK_NS : Fld :=
  { addr := 0x40028, lo := 47, w := 9, acc := .rw, dflt := .const 100, img := true, ranged := true, mn := 1, mx := 511 }
/-- OUTLIER_NS of TIM_SERVO (R455). -/
def TIM_SERVO_OUTLIER_NS : Fld :=
  { addr := 0x40028, lo := 56, w := 8, acc := .rw, dflt := .const 200, img := true }
/-- PHASE_ALARM_NS of TIM_LIMITS (R455). -/
def TIM_LIMITS_PHASE_ALARM_NS : Fld :=
  { addr := 0x40030, lo := 0, w := 32, acc := .rw, dflt := .const 1000, img := true }
/-- STITCH_ASYM_PS of TIM_LIMITS (R455). -/
def TIM_LIMITS_STITCH_ASYM_PS : Fld :=
  { addr := 0x40030, lo := 32, w := 16, acc := .rw, img := true }
/-- OFFSET_PPB of TIM_FREQ (R455). -/
def TIM_FREQ_OFFSET_PPB : Fld :=
  { addr := 0x40038, lo := 0, w := 32, acc := .ro }
/-- PHASE_NS of TIM_FREQ (R455). -/
def TIM_FREQ_PHASE_NS : Fld :=
  { addr := 0x40038, lo := 32, w := 32, acc := .ro }
/-- STATE of TIM_STAT (R456). -/
def TIM_STAT_STATE : Fld :=
  { addr := 0x40040, lo := 0, w := 2, acc := .ro }
/-- LOST of TIM_STAT (R456). -/
def TIM_STAT_LOST : Fld :=
  { addr := 0x40040, lo := 2, w := 1, acc := .w1c, cntAddr := 0x43000 }
/-- BIGOFF of TIM_STAT (R456). -/
def TIM_STAT_BIGOFF : Fld :=
  { addr := 0x40040, lo := 3, w := 1, acc := .w1c, cntAddr := 0x43008 }
/-- STEPREF of TIM_STAT (R456). -/
def TIM_STAT_STEPREF : Fld :=
  { addr := 0x40040, lo := 4, w := 1, acc := .w1c, cntAddr := 0x43010 }
/-- OUTLIER of TIM_STAT (R456). -/
def TIM_STAT_OUTLIER : Fld :=
  { addr := 0x40040, lo := 5, w := 1, acc := .w1c, cntAddr := 0x43018 }
/-- CAPOVF of TIM_STAT (R456). -/
def TIM_STAT_CAPOVF : Fld :=
  { addr := 0x40040, lo := 6, w := 1, acc := .w1c, cntAddr := 0x43020 }
/-- MISSED of TIM_STAT (R456). -/
def TIM_STAT_MISSED : Fld :=
  { addr := 0x40040, lo := 7, w := 1, acc := .w1c, cntAddr := 0x43028 }
/-- REFUSED of TIM_STAT (R456). -/
def TIM_STAT_REFUSED : Fld :=
  { addr := 0x40040, lo := 8, w := 1, acc := .w1c, cntAddr := 0x43058 }
/-- DOMAIN of TIM_PTPCFG (R457). -/
def TIM_PTPCFG_DOMAIN : Fld :=
  { addr := 0x40048, lo := 0, w := 8, acc := .rw, img := true }
/-- TRANSPORT of TIM_PTPCFG (R457). -/
def TIM_PTPCFG_TRANSPORT : Fld :=
  { addr := 0x40048, lo := 8, w := 2, acc := .rw, img := true }
/-- SLAVE_PORT of TIM_PTPCFG (R457). -/
def TIM_PTPCFG_SLAVE_PORT : Fld :=
  { addr := 0x40048, lo := 10, w := 7, acc := .rw, img := true }
/-- SLAVE_EN of TIM_PTPCFG (R457). -/
def TIM_PTPCFG_SLAVE_EN : Fld :=
  { addr := 0x40048, lo := 17, w := 1, acc := .rw, img := true }
/-- SYNC_LOG of TIM_PTPCFG (R457). -/
def TIM_PTPCFG_SYNC_LOG : Fld :=
  { addr := 0x40048, lo := 18, w := 3, acc := .rw, dflt := .const 4, img := true, ranged := true, mn := 0, mx := 4 }
/-- DELAY_LOG of TIM_PTPCFG (R457). -/
def TIM_PTPCFG_DELAY_LOG : Fld :=
  { addr := 0x40048, lo := 21, w := 3, acc := .rw, dflt := .const 4, img := true, ranged := true, mn := 0, mx := 4 }
/-- PORTS of TIM_PTPMASTER (R457). -/
def TIM_PTPMASTER_PORTS : Fld :=
  { addr := 0x40050, s1 := 0x8, lo := 0, w := 64, acc := .rw, img := true }
/-- PEER_EQRT of TIM_TRMCFG (R458). -/
def TIM_TRMCFG_PEER_EQRT : Fld :=
  { addr := 0x40400, s1 := 0x8, lo := 0, w := 32, acc := .rw, dflt := .const 84863877, img := true }
/-- ASYM_PPM of TIM_TRMCFG (R458). -/
def TIM_TRMCFG_ASYM_PPM : Fld :=
  { addr := 0x40400, s1 := 0x8, lo := 32, w := 16, acc := .rw, img := true, ranged := true, sg := true, mx := 5000 }
/-- OFFSET_NS of TIM_TRMCFG (R458). -/
def TIM_TRMCFG_OFFSET_NS : Fld :=
  { addr := 0x40400, s1 := 0x8, lo := 48, w := 16, acc := .rw, img := true }
/-- MODE of TIM_TRIG_CTL (R459). -/
def TIM_TRIG_CTL_MODE : Fld :=
  { addr := 0x41000, s1 := 0x40, lo := 0, w := 3, acc := .rw, img := true }
/-- ENABLE of TIM_TRIG_CTL (R459). -/
def TIM_TRIG_CTL_ENABLE : Fld :=
  { addr := 0x41000, s1 := 0x40, lo := 3, w := 1, acc := .rw, img := true }
/-- EVT of TIM_TRIG_CTL (R459). -/
def TIM_TRIG_CTL_EVT : Fld :=
  { addr := 0x41000, s1 := 0x40, lo := 4, w := 1, acc := .rw, img := true }
/-- CH of TIM_TRIG_CTL (R459). -/
def TIM_TRIG_CTL_CH : Fld :=
  { addr := 0x41000, s1 := 0x40, lo := 8, w := 7, acc := .rw, img := true }
/-- LOCAL of TIM_TRIG_CTL (R459). -/
def TIM_TRIG_CTL_LOCAL : Fld :=
  { addr := 0x41000, s1 := 0x40, lo := 16, w := 7, acc := .rw, img := true }
/-- EVERY of TIM_TRIG_CTL (R459). -/
def TIM_TRIG_CTL_EVERY : Fld :=
  { addr := 0x41000, s1 := 0x40, lo := 24, w := 8, acc := .rw, dflt := .const 1, img := true, ranged := true, mn := 1, mx := 255 }
/-- OFFSET of TIM_TRIG_CTL (R459). -/
def TIM_TRIG_CTL_OFFSET : Fld :=
  { addr := 0x41000, s1 := 0x40, lo := 32, w := 32, acc := .rw, img := true }
/-- SEC of TIM_TRIG_START (R459). -/
def TIM_TRIG_START_SEC : Fld :=
  { addr := 0x41008, s1 := 0x40, lo := 0, w := 48, acc := .rw, img := true }
/-- START_NS of TIM_TRIG_TIME (R459). -/
def TIM_TRIG_TIME_START_NS : Fld :=
  { addr := 0x41010, s1 := 0x40, lo := 0, w := 30, acc := .rw, img := true }
/-- PERIOD of TIM_TRIG_TIME (R459). -/
def TIM_TRIG_TIME_PERIOD : Fld :=
  { addr := 0x41010, s1 := 0x40, lo := 32, w := 32, acc := .rw, img := true }
/-- WIDTH of TIM_TRIG_WIDTH (R459). -/
def TIM_TRIG_WIDTH_WIDTH : Fld :=
  { addr := 0x41018, s1 := 0x40, lo := 0, w := 32, acc := .rw, dflt := .const 100, img := true }
/-- PULSES of TIM_TRIG_STAT (R459). -/
def TIM_TRIG_STAT_PULSES : Fld :=
  { addr := 0x41020, s1 := 0x40, lo := 0, w := 40, acc := .ro }
/-- EDGE of TIM_CAPCTL (R460). -/
def TIM_CAPCTL_EDGE : Fld :=
  { addr := 0x42000, s1 := 0x20, lo := 0, w := 2, acc := .rw, dflt := .const 1, img := true }
/-- FRAC of TIM_CAPNS (R460). -/
def TIM_CAPNS_FRAC : Fld :=
  { addr := 0x42008, s1 := 0x20, lo := 0, w := 16, acc := .ro }
/-- NS of TIM_CAPNS (R460). -/
def TIM_CAPNS_NS : Fld :=
  { addr := 0x42008, s1 := 0x20, lo := 16, w := 30, acc := .ro }
/-- EMPTY of TIM_CAPNS (R460). -/
def TIM_CAPNS_EMPTY : Fld :=
  { addr := 0x42008, s1 := 0x20, lo := 63, w := 1, acc := .ro }
/-- SEC of TIM_CAPSEC (R460). -/
def TIM_CAPSEC_SEC : Fld :=
  { addr := 0x42010, s1 := 0x20, lo := 0, w := 48, acc := .ro }
/-- DEPTH of TIM_CAPSTAT (R460). -/
def TIM_CAPSTAT_DEPTH : Fld :=
  { addr := 0x42018, s1 := 0x20, lo := 0, w := 5, acc := .ro }
/-- COUNT of TIM_CNT (R461). -/
def TIM_CNT_COUNT : Fld :=
  { addr := 0x43000, s1 := 0x8, lo := 0, w := 40, acc := .ro }
/-- SIDE of STL_CFG (R485). -/
def STL_CFG_SIDE : Fld :=
  { addr := 0x50000, lo := 0, w := 1, acc := .rwl, img := true }
/-- REVIVE_EN of STL_CFG (R485). -/
def STL_CFG_REVIVE_EN : Fld :=
  { addr := 0x50000, lo := 1, w := 1, acc := .rw, dflt := .const 1, img := true }
/-- HANDBACK_EN of STL_CFG (R485). -/
def STL_CFG_HANDBACK_EN : Fld :=
  { addr := 0x50000, lo := 2, w := 1, acc := .rw, dflt := .const 1, img := true }
/-- SILENCE_FRAMES of STL_CFG (R485). -/
def STL_CFG_SILENCE_FRAMES : Fld :=
  { addr := 0x50000, lo := 8, w := 8, acc := .rw, dflt := .const 16, img := true, ranged := true, mn := 8, mx := 255 }
/-- CHECK_FRAMES of STL_CFG (R485). -/
def STL_CFG_CHECK_FRAMES : Fld :=
  { addr := 0x50000, lo := 16, w := 8, acc := .rw, dflt := .const 16, img := true, ranged := true, mn := 8, mx := 255 }
/-- LINK_WAIT_MS of STL_CFG (R485). -/
def STL_CFG_LINK_WAIT_MS : Fld :=
  { addr := 0x50000, lo := 24, w := 11, acc := .rw, dflt := .const 200, img := true, ranged := true, mn := 1, mx := 2000 }
/-- FAULT_LIMIT of STL_CFG (R485). -/
def STL_CFG_FAULT_LIMIT : Fld :=
  { addr := 0x50000, lo := 40, w := 8, acc := .rw, dflt := .const 1, img := true, ranged := true, mn := 1, mx := 128 }
/-- HANDBACK_HOLD_MS of STL_CFG (R485). -/
def STL_CFG_HANDBACK_HOLD_MS : Fld :=
  { addr := 0x50000, lo := 48, w := 16, acc := .rw, dflt := .const 1000, img := true, ranged := true, mn := 100, mx := 65535 }
/-- LINK of STL_STAT (R486). -/
def STL_STAT_LINK : Fld :=
  { addr := 0x50008, lo := 0, w := 2, acc := .ro }
/-- ROLE of STL_STAT (R486). -/
def STL_STAT_ROLE : Fld :=
  { addr := 0x50008, lo := 2, w := 2, acc := .ro }
/-- SYNCED of STL_STAT (R486). -/
def STL_STAT_SYNCED : Fld :=
  { addr := 0x50008, lo := 4, w := 1, acc := .ro }
/-- READY of STL_STAT (R486). -/
def STL_STAT_READY : Fld :=
  { addr := 0x50008, lo := 5, w := 1, acc := .ro }
/-- LEASE of STL_STAT (R486). -/
def STL_STAT_LEASE : Fld :=
  { addr := 0x50008, lo := 6, w := 1, acc := .ro }
/-- PARTNER_READY of STL_STAT (R486). -/
def STL_STAT_PARTNER_READY : Fld :=
  { addr := 0x50008, lo := 7, w := 1, acc := .ro }
/-- LEASELOST of STL_STAT (R486). -/
def STL_STAT_LEASELOST : Fld :=
  { addr := 0x50008, lo := 8, w := 1, acc := .w1c, cntAddr := 0x50110 }
/-- LOSS of STL_STAT (R486). -/
def STL_STAT_LOSS : Fld :=
  { addr := 0x50008, lo := 9, w := 1, acc := .w1c, cntAddr := 0x50118 }
/-- UNSYNC of STL_STAT (R486). -/
def STL_STAT_UNSYNC : Fld :=
  { addr := 0x50008, lo := 10, w := 1, acc := .w1c, cntAddr := 0x50120 }
/-- TXFAULT of STL_STAT (R486). -/
def STL_STAT_TXFAULT : Fld :=
  { addr := 0x50008, lo := 11, w := 1, acc := .w1c, cntAddr := 0x50128 }
/-- DUALACT of STL_STAT (R486). -/
def STL_STAT_DUALACT : Fld :=
  { addr := 0x50008, lo := 12, w := 1, acc := .w1c, cntAddr := 0x50130 }
/-- MISMATCH of STL_STAT (R486). -/
def STL_STAT_MISMATCH : Fld :=
  { addr := 0x50008, lo := 13, w := 1, acc := .w1c, cntAddr := 0x50138 }
/-- MSGLOST of STL_STAT (R486). -/
def STL_STAT_MSGLOST : Fld :=
  { addr := 0x50008, lo := 14, w := 1, acc := .w1c, cntAddr := 0x50140 }
/-- LANES_UP of STL_STAT (R486). -/
def STL_STAT_LANES_UP : Fld :=
  { addr := 0x50008, lo := 16, w := 8, acc := .ro }
/-- LEASE_END of STL_STAT (R486). -/
def STL_STAT_LEASE_END : Fld :=
  { addr := 0x50008, lo := 24, w := 24, acc := .ro }
/-- COUNT of STL_CNT (R488). -/
def STL_CNT_COUNT : Fld :=
  { addr := 0x50100, s1 := 0x8, lo := 0, w := 40, acc := .ro }
/-- DELTA_HINT of STL_CHCFG (R487). -/
def STL_CHCFG_DELTA_HINT : Fld :=
  { addr := 0x51000, s1 := 0x10, lo := 0, w := 32, acc := .rw, img := true, ranged := true, sg := true, mx := 2000000 }
/-- HINT_VALID of STL_CHCFG (R487). -/
def STL_CHCFG_HINT_VALID : Fld :=
  { addr := 0x51000, s1 := 0x10, lo := 32, w := 1, acc := .rw, img := true }
/-- DELTA of STL_CHSTAT (R487). -/
def STL_CHSTAT_DELTA : Fld :=
  { addr := 0x51008, s1 := 0x10, lo := 0, w := 32, acc := .ro }
/-- DSTATE of STL_CHSTAT (R487). -/
def STL_CHSTAT_DSTATE : Fld :=
  { addr := 0x51008, s1 := 0x10, lo := 32, w := 2, acc := .ro }
/-- TX_SUSPECT of STL_CHSTAT (R487). -/
def STL_CHSTAT_TX_SUSPECT : Fld :=
  { addr := 0x51008, s1 := 0x10, lo := 34, w := 1, acc := .ro }
/-- ENABLE of EVT_CFG (R580). -/
def EVT_CFG_ENABLE : Fld :=
  { addr := 0x60000, lo := 0, w := 1, acc := .rw, dflt := .const 1, img := true }
/-- COALESCE_US of EVT_CFG (R580). -/
def EVT_CFG_COALESCE_US : Fld :=
  { addr := 0x60000, lo := 8, w := 16, acc := .rw, dflt := .const 100, img := true, ranged := true, mn := 0, mx := 10000 }
/-- IRQ_LEVEL of EVT_CFG (R580). -/
def EVT_CFG_IRQ_LEVEL : Fld :=
  { addr := 0x60000, lo := 24, w := 18, acc := .rw, dflt := .const 1024, img := true, ranged := true, mn := 1, mx := 131071 }
/-- IRQ_AGE_US of EVT_CFG (R580). -/
def EVT_CFG_IRQ_AGE_US : Fld :=
  { addr := 0x60000, lo := 42, w := 16, acc := .rw, dflt := .const 1000, img := true, ranged := true, mn := 1, mx := 65535 }
/-- PROD of EVT_PROD (R580). -/
def EVT_PROD_PROD : Fld :=
  { addr := 0x60008, lo := 0, w := 17, acc := .ro }
/-- SEQ of EVT_PROD (R580). -/
def EVT_PROD_SEQ : Fld :=
  { addr := 0x60008, lo := 32, w := 32, acc := .ro }
/-- CONS of EVT_CONS (R580). -/
def EVT_CONS_CONS : Fld :=
  { addr := 0x60010, lo := 0, w := 17, acc := .rw }
/-- OVERFLOW of EVT_STAT (R580). -/
def EVT_STAT_OVERFLOW : Fld :=
  { addr := 0x60018, lo := 0, w := 1, acc := .w1c, cntAddr := 0x60118 }
/-- REFUSED of EVT_STAT (R580). -/
def EVT_STAT_REFUSED : Fld :=
  { addr := 0x60018, lo := 1, w := 1, acc := .w1c, cntAddr := 0x60130 }
/-- OPEN of EVT_STAT (R580). -/
def EVT_STAT_OPEN : Fld :=
  { addr := 0x60018, lo := 16, w := 11, acc := .ro }
/-- UNREAD of EVT_STAT (R580). -/
def EVT_STAT_UNREAD : Fld :=
  { addr := 0x60018, lo := 32, w := 18, acc := .ro }
/-- COUNT of EVT_CNT (R580). -/
def EVT_CNT_COUNT : Fld :=
  { addr := 0x60100, s1 := 0x8, lo := 0, w := 40, acc := .ro }
/-- FREEZE of PMU_GCTL (R593). -/
def PMU_GCTL_FREEZE : Fld :=
  { addr := 0x70000, lo := 0, w := 1, acc := .rw }
/-- CLEAR of PMU_GCTL (R593). -/
def PMU_GCTL_CLEAR : Fld :=
  { addr := 0x70000, lo := 1, w := 1, acc := .w1s }
/-- USER_EN of PMU_GCTL (R593). -/
def PMU_GCTL_USER_EN : Fld :=
  { addr := 0x70000, lo := 2, w := 1, acc := .rw, img := true }
/-- UNSEALED of PMU_STAT (R594). -/
def PMU_STAT_UNSEALED : Fld :=
  { addr := 0x70008, lo := 0, w := 1, acc := .w1c, cntAddr := 0x70108 }
/-- TRLOST of PMU_STAT (R594). -/
def PMU_STAT_TRLOST : Fld :=
  { addr := 0x70008, lo := 1, w := 1, acc := .w1c, cntAddr := 0x70120 }
/-- REFUSED of PMU_STAT (R594). -/
def PMU_STAT_REFUSED : Fld :=
  { addr := 0x70008, lo := 2, w := 1, acc := .w1c, cntAddr := 0x70128 }
/-- EN of PMU_SHEETCFG (R595). -/
def PMU_SHEETCFG_EN : Fld :=
  { addr := 0x70010, lo := 0, w := 1, acc := .rw, dflt := .const 1, img := true }
/-- PERIOD_US of PMU_SHEETCFG (R595). -/
def PMU_SHEETCFG_PERIOD_US : Fld :=
  { addr := 0x70010, lo := 12, w := 20, acc := .rw, dflt := .const 1000, img := true, ranged := true, mn := 250, mx := 1000000 }
/-- LAST of PMU_SHEETSTAT (R595). -/
def PMU_SHEETSTAT_LAST : Fld :=
  { addr := 0x70018, lo := 0, w := 48, acc := .ro }
/-- WRITING of PMU_SHEETSTAT (R595). -/
def PMU_SHEETSTAT_WRITING : Fld :=
  { addr := 0x70018, lo := 48, w := 1, acc := .ro }
/-- WIN_NS of PMU_BWCFG (R596). -/
def PMU_BWCFG_WIN_NS : Fld :=
  { addr := 0x70020, lo := 0, w := 30, acc := .rw, dflt := .const 1000000, img := true, ranged := true, mn := 1000, mx := 1000000000 }
/-- K of PMU_TAGCFG (R597). -/
def PMU_TAGCFG_K : Fld :=
  { addr := 0x70028, lo := 0, w := 5, acc := .rw, dflt := .const 16, img := true, ranged := true, mn := 4, mx := 24 }
/-- EN of PMU_TAGCFG (R597). -/
def PMU_TAGCFG_EN : Fld :=
  { addr := 0x70028, lo := 5, w := 1, acc := .rw, img := true }
/-- PIPES of PMU_TAGCFG (R597). -/
def PMU_TAGCFG_PIPES : Fld :=
  { addr := 0x70028, lo := 16, w := 16, acc := .rw, dflt := .const 65535, img := true }
/-- SLOT of PMU_TRCSTAT (R597). -/
def PMU_TRCSTAT_SLOT : Fld :=
  { addr := 0x70030, lo := 0, w := 13, acc := .ro }
/-- SEQ of PMU_TRCSTAT (R597). -/
def PMU_TRCSTAT_SEQ : Fld :=
  { addr := 0x70030, lo := 32, w := 32, acc := .ro }
/-- STAMP of PMU_BWSTAMP (R596). -/
def PMU_BWSTAMP_STAMP : Fld :=
  { addr := 0x70038, lo := 0, w := 32, acc := .ro }
/-- WINDOWS of PMU_BWSTAMP (R596). -/
def PMU_BWSTAMP_WINDOWS : Fld :=
  { addr := 0x70038, lo := 32, w := 32, acc := .ro }
/-- COUNT of PMU_GCNT (R599). -/
def PMU_GCNT_COUNT : Fld :=
  { addr := 0x70100, s1 := 0x8, lo := 0, w := 40, acc := .ro }
/-- CYCLES of PMU_CYC (R598). -/
def PMU_CYC_CYCLES : Fld :=
  { addr := 0x71000, s1 := 0x100, lo := 0, w := 64, acc := .ro }
/-- EN of PMU_CTL (R598). -/
def PMU_CTL_EN : Fld :=
  { addr := 0x71010, s1 := 0x100, s2 := 0x8, lo := 0, w := 1, acc := .rw }
/-- LEVEL of PMU_CTL (R598). -/
def PMU_CTL_LEVEL : Fld :=
  { addr := 0x71010, s1 := 0x100, s2 := 0x8, lo := 1, w := 1, acc := .rw }
/-- USER of PMU_CTL (R598). -/
def PMU_CTL_USER : Fld :=
  { addr := 0x71010, s1 := 0x100, s2 := 0x8, lo := 2, w := 1, acc := .rw }
/-- BIT of PMU_CTL (R598). -/
def PMU_CTL_BIT : Fld :=
  { addr := 0x71010, s1 := 0x100, s2 := 0x8, lo := 8, w := 6, acc := .rw }
/-- OFFSET of PMU_CTL (R598). -/
def PMU_CTL_OFFSET : Fld :=
  { addr := 0x71010, s1 := 0x100, s2 := 0x8, lo := 16, w := 24, acc := .rw }
/-- COUNT of PMU_PCNT (R598). -/
def PMU_PCNT_COUNT : Fld :=
  { addr := 0x71050, s1 := 0x100, s2 := 0x8, lo := 0, w := 48, acc := .ro }
/-- WRAPS of PMU_PCNT (R598). -/
def PMU_PCNT_WRAPS : Fld :=
  { addr := 0x71050, s1 := 0x100, s2 := 0x8, lo := 48, w := 16, acc := .ro }
/-- OCTETS of PMU_BW (R596). -/
def PMU_BW_OCTETS : Fld :=
  { addr := 0x74000, s1 := 0x8, lo := 0, w := 40, acc := .ro }
/-- MBPS of PMU_BW (R596). -/
def PMU_BW_MBPS : Fld :=
  { addr := 0x74000, s1 := 0x8, lo := 40, w := 24, acc := .ro }
/-- IRQ_MOD_US of HST_CFG (R576). -/
def HST_CFG_IRQ_MOD_US : Fld :=
  { addr := 0x80000, lo := 0, w := 16, acc := .rw, dflt := .const 10, img := true }
/-- ALERT of HST_IRQSTAT (R576). -/
def HST_IRQSTAT_ALERT : Fld :=
  { addr := 0x80008, lo := 0, w := 1, acc := .w1c, cntAddr := 0x80130 }
/-- BLOTTER of HST_IRQSTAT (R576). -/
def HST_IRQSTAT_BLOTTER : Fld :=
  { addr := 0x80008, lo := 1, w := 1, acc := .w1c, cntAddr := 0x80138 }
/-- MASK of HST_IRQMASK (R576). -/
def HST_IRQMASK_MASK : Fld :=
  { addr := 0x80010, lo := 0, w := 2, acc := .rw }
/-- RING of HST_RINGIRQ (R576). -/
def HST_RINGIRQ_RING : Fld :=
  { addr := 0x80018, lo := 0, w := 64, acc := .w1c }
/-- MASK of HST_RINGMASK (R576). -/
def HST_RINGMASK_MASK : Fld :=
  { addr := 0x80020, lo := 0, w := 64, acc := .rw }
/-- ACTIVE of HST_ALERT (R577). -/
def HST_ALERT_ACTIVE : Fld :=
  { addr := 0x80040, lo := 0, w := 16, acc := .ro }
/-- LATCHED of HST_ALERT (R577). -/
def HST_ALERT_LATCHED : Fld :=
  { addr := 0x80040, lo := 32, w := 16, acc := .w1c }
/-- MASK of HST_ALERTMASK (R577). -/
def HST_ALERTMASK_MASK : Fld :=
  { addr := 0x80048, lo := 0, w := 16, acc := .rw, img := true }
/-- COUNT of HST_ALERTCNT (R577). -/
def HST_ALERTCNT_COUNT : Fld :=
  { addr := 0x80080, s1 := 0x8, lo := 0, w := 40, acc := .ro }
/-- COUNT of HST_CNT (R579). -/
def HST_CNT_COUNT : Fld :=
  { addr := 0x80100, s1 := 0x8, lo := 0, w := 40, acc := .ro }
/-- ENABLE of HST_RINGCFG (R578). -/
def HST_RINGCFG_ENABLE : Fld :=
  { addr := 0x81000, s1 := 0x20, lo := 0, w := 1, acc := .rw }
/-- LOG2_ENTRIES of HST_RINGCFG (R578). -/
def HST_RINGCFG_LOG2_ENTRIES : Fld :=
  { addr := 0x81000, s1 := 0x20, lo := 1, w := 4, acc := .rw, dflt := .const 4, ranged := true, mn := 4, mx := 11 }
/-- IRQ_EN of HST_RINGCFG (R578). -/
def HST_RINGCFG_IRQ_EN : Fld :=
  { addr := 0x81000, s1 := 0x20, lo := 5, w := 1, acc := .rw }
/-- TAIL of HST_SQTAIL (R578). -/
def HST_SQTAIL_TAIL : Fld :=
  { addr := 0x81008, s1 := 0x20, lo := 0, w := 11, acc := .rw }
/-- HEAD of HST_CQHEAD (R578). -/
def HST_CQHEAD_HEAD : Fld :=
  { addr := 0x81010, s1 := 0x20, lo := 0, w := 11, acc := .rw }
/-- SQ_HEAD of HST_RINGSTAT (R578). -/
def HST_RINGSTAT_SQ_HEAD : Fld :=
  { addr := 0x81018, s1 := 0x20, lo := 0, w := 11, acc := .ro }
/-- CQ_TAIL of HST_RINGSTAT (R578). -/
def HST_RINGSTAT_CQ_TAIL : Fld :=
  { addr := 0x81018, s1 := 0x20, lo := 16, w := 11, acc := .ro }
/-- BUSY of HST_RINGSTAT (R578). -/
def HST_RINGSTAT_BUSY : Fld :=
  { addr := 0x81018, s1 := 0x20, lo := 32, w := 1, acc := .ro }
/-- REFUSED of HST_RINGSTAT (R578). -/
def HST_RINGSTAT_REFUSED : Fld :=
  { addr := 0x81018, s1 := 0x20, lo := 33, w := 1, acc := .w1c, cntAddr := 0x80118 }
/-- COUNT of HST_RINGCNT (R578). -/
def HST_RINGCNT_COUNT : Fld :=
  { addr := 0x82000, s1 := 0x8, lo := 0, w := 40, acc := .ro }
/-- ENABLE of SLN_CTL (R284). -/
def SLN_CTL_ENABLE : Fld :=
  { addr := 0x100000, s1 := 0x1000, lo := 0, w := 1, acc := .rw, img := true }
/-- RETRAIN of SLN_CTL (R284). -/
def SLN_CTL_RETRAIN : Fld :=
  { addr := 0x100000, s1 := 0x1000, lo := 1, w := 1, acc := .w1s }
/-- TX_INV of SLN_CTL (R284). -/
def SLN_CTL_TX_INV : Fld :=
  { addr := 0x100000, s1 := 0x1000, lo := 2, w := 1, acc := .rw, img := true }
/-- RX_INV of SLN_CTL (R284). -/
def SLN_CTL_RX_INV : Fld :=
  { addr := 0x100000, s1 := 0x1000, lo := 3, w := 1, acc := .rw, img := true }
/-- TX_PRECODE of SLN_CTL (R284). -/
def SLN_CTL_TX_PRECODE : Fld :=
  { addr := 0x100000, s1 := 0x1000, lo := 4, w := 1, acc := .rw, img := true }
/-- RX_PRECODE of SLN_CTL (R284). -/
def SLN_CTL_RX_PRECODE : Fld :=
  { addr := 0x100000, s1 := 0x1000, lo := 5, w := 1, acc := .rw, img := true }
/-- LOOP of SLN_CTL (R284). -/
def SLN_CTL_LOOP : Fld :=
  { addr := 0x100000, s1 := 0x1000, lo := 8, w := 2, acc := .rw }
/-- STATE of SLN_STAT (R285). -/
def SLN_STAT_STATE : Fld :=
  { addr := 0x100008, s1 := 0x1000, lo := 0, w := 3, acc := .ro }
/-- SIG_DET of SLN_STAT (R285). -/
def SLN_STAT_SIG_DET : Fld :=
  { addr := 0x100008, s1 := 0x1000, lo := 3, w := 1, acc := .ro }
/-- CDR_LOCK of SLN_STAT (R285). -/
def SLN_STAT_CDR_LOCK : Fld :=
  { addr := 0x100008, s1 := 0x1000, lo := 4, w := 1, acc := .ro }
/-- PAT_SYNC of SLN_STAT (R285). -/
def SLN_STAT_PAT_SYNC : Fld :=
  { addr := 0x100008, s1 := 0x1000, lo := 5, w := 1, acc := .ro }
/-- LOS of SLN_STAT (R285). -/
def SLN_STAT_LOS : Fld :=
  { addr := 0x100008, s1 := 0x1000, lo := 8, w := 1, acc := .w1c, cntAddr := 0x100100, cntStride := 0x1000 }
/-- LOL of SLN_STAT (R285). -/
def SLN_STAT_LOL : Fld :=
  { addr := 0x100008, s1 := 0x1000, lo := 9, w := 1, acc := .w1c, cntAddr := 0x100108, cntStride := 0x1000 }
/-- RETRAINED of SLN_STAT (R285). -/
def SLN_STAT_RETRAINED : Fld :=
  { addr := 0x100008, s1 := 0x1000, lo := 10, w := 1, acc := .w1c, cntAddr := 0x100110, cntStride := 0x1000 }
/-- FAULT of SLN_STAT (R285). -/
def SLN_STAT_FAULT : Fld :=
  { addr := 0x100008, s1 := 0x1000, lo := 11, w := 1, acc := .w1c, cntAddr := 0x100118, cntStride := 0x1000 }
/-- REFUSED of SLN_STAT (R285). -/
def SLN_STAT_REFUSED : Fld :=
  { addr := 0x100008, s1 := 0x1000, lo := 12, w := 1, acc := .w1c, cntAddr := 0x100120, cntStride := 0x1000 }
/-- PRESETPAR of SLN_STAT (R285). -/
def SLN_STAT_PRESETPAR : Fld :=
  { addr := 0x100008, s1 := 0x1000, lo := 13, w := 1, acc := .w1c, cntAddr := 0x100128, cntStride := 0x1000 }
/-- PRE3 of SLN_TXCFG (R286). -/
def SLN_TXCFG_PRE3 : Fld :=
  { addr := 0x100010, s1 := 0x1000, lo := 0, w := 7, acc := .rw, img := true }
/-- PRE2 of SLN_TXCFG (R286). -/
def SLN_TXCFG_PRE2 : Fld :=
  { addr := 0x100010, s1 := 0x1000, lo := 8, w := 7, acc := .rw, img := true }
/-- PRE1 of SLN_TXCFG (R286). -/
def SLN_TXCFG_PRE1 : Fld :=
  { addr := 0x100010, s1 := 0x1000, lo := 16, w := 7, acc := .rw, dflt := .const 124, img := true }
/-- MAIN of SLN_TXCFG (R286). -/
def SLN_TXCFG_MAIN : Fld :=
  { addr := 0x100010, s1 := 0x1000, lo := 24, w := 7, acc := .rw, dflt := .const 52, img := true, ranged := true, mn := 16, mx := 64 }
/-- POST1 of SLN_TXCFG (R286). -/
def SLN_TXCFG_POST1 : Fld :=
  { addr := 0x100010, s1 := 0x1000, lo := 32, w := 7, acc := .rw, dflt := .const 120, img := true }
/-- SWING of SLN_TXCFG (R286). -/
def SLN_TXCFG_SWING : Fld :=
  { addr := 0x100010, s1 := 0x1000, lo := 40, w := 6, acc := .rw, dflt := .const 48, img := true }
/-- LEVEL_TRIM of SLN_TXCFG (R286). -/
def SLN_TXCFG_LEVEL_TRIM : Fld :=
  { addr := 0x100010, s1 := 0x1000, lo := 48, w := 4, acc := .rw, img := true }
/-- PEAK of SLN_RXCFG (R287). -/
def SLN_RXCFG_PEAK : Fld :=
  { addr := 0x100018, s1 := 0x1000, lo := 0, w := 4, acc := .rw, dflt := .const 6, img := true }
/-- PEAK_ADAPT of SLN_RXCFG (R287). -/
def SLN_RXCFG_PEAK_ADAPT : Fld :=
  { addr := 0x100018, s1 := 0x1000, lo := 4, w := 1, acc := .rw, dflt := .const 1, img := true }
/-- ADAPT_FREEZE of SLN_RXCFG (R287). -/
def SLN_RXCFG_ADAPT_FREEZE : Fld :=
  { addr := 0x100018, s1 := 0x1000, lo := 5, w := 1, acc := .rw }
/-- FOM_FINE of SLN_RXCFG (R287). -/
def SLN_RXCFG_FOM_FINE : Fld :=
  { addr := 0x100018, s1 := 0x1000, lo := 8, w := 8, acc := .rw, dflt := .const 160, img := true }
/-- FOM_RETRAIN of SLN_RXCFG (R287). -/
def SLN_RXCFG_FOM_RETRAIN : Fld :=
  { addr := 0x100018, s1 := 0x1000, lo := 16, w := 8, acc := .rw, dflt := .const 48, img := true }
/-- RETRAIN_WIN of SLN_RXCFG (R287). -/
def SLN_RXCFG_RETRAIN_WIN : Fld :=
  { addr := 0x100018, s1 := 0x1000, lo := 24, w := 4, acc := .rw, dflt := .const 4, img := true, ranged := true, mn := 1, mx := 15 }
/-- LOS_MV of SLN_RXCFG (R287). -/
def SLN_RXCFG_LOS_MV : Fld :=
  { addr := 0x100018, s1 := 0x1000, lo := 32, w := 6, acc := .rw, dflt := .const 8, img := true, ranged := true, mn := 2, mx := 50 }
/-- FOM of SLN_RXSTAT (R288). -/
def SLN_RXSTAT_FOM : Fld :=
  { addr := 0x100020, s1 := 0x1000, lo := 0, w := 8, acc := .ro }
/-- FOM_LOW of SLN_RXSTAT (R288). -/
def SLN_RXSTAT_FOM_LOW : Fld :=
  { addr := 0x100020, s1 := 0x1000, lo := 8, w := 8, acc := .ro }
/-- PEAK of SLN_RXSTAT (R288). -/
def SLN_RXSTAT_PEAK : Fld :=
  { addr := 0x100020, s1 := 0x1000, lo := 16, w := 4, acc := .ro }
/-- EQ of SLN_EQ (R288). -/
def SLN_EQ_EQ : Fld :=
  { addr := 0x100028, s1 := 0x1000, s2 := 0x8, lo := 0, w := 64, acc := .ro }
/-- GEN_EN of SLN_PATCFG (R289). -/
def SLN_PATCFG_GEN_EN : Fld :=
  { addr := 0x100040, s1 := 0x1000, lo := 0, w := 1, acc := .rw }
/-- CHK_EN of SLN_PATCFG (R289). -/
def SLN_PATCFG_CHK_EN : Fld :=
  { addr := 0x100040, s1 := 0x1000, lo := 1, w := 1, acc := .rw }
/-- PATTERN of SLN_PATCFG (R289). -/
def SLN_PATCFG_PATTERN : Fld :=
  { addr := 0x100040, s1 := 0x1000, lo := 4, w := 4, acc := .rw }
/-- SQ_HALF of SLN_PATCFG (R289). -/
def SLN_PATCFG_SQ_HALF : Fld :=
  { addr := 0x100040, s1 := 0x1000, lo := 8, w := 8, acc := .rw, dflt := .const 1, ranged := true, mn := 1, mx := 255 }
/-- INJ_MODE of SLN_PATCFG (R289). -/
def SLN_PATCFG_INJ_MODE : Fld :=
  { addr := 0x100040, s1 := 0x1000, lo := 16, w := 2, acc := .rw }
/-- INJ_ONE of SLN_PATCFG (R289). -/
def SLN_PATCFG_INJ_ONE : Fld :=
  { addr := 0x100040, s1 := 0x1000, lo := 18, w := 1, acc := .w1s }
/-- INJ_RATE of SLN_PATCFG (R289). -/
def SLN_PATCFG_INJ_RATE : Fld :=
  { addr := 0x100040, s1 := 0x1000, lo := 24, w := 6, acc := .rw, dflt := .const 20, ranged := true, mn := 10, mx := 40 }
/-- INJ_LEN of SLN_PATCFG (R289). -/
def SLN_PATCFG_INJ_LEN : Fld :=
  { addr := 0x100040, s1 := 0x1000, lo := 32, w := 6, acc := .rw }
/-- PATTERN of SLN_USER (R289). -/
def SLN_USER_PATTERN : Fld :=
  { addr := 0x100048, s1 := 0x1000, lo := 0, w := 64, acc := .rw }
/-- ERRORS of SLN_PATERR (R289). -/
def SLN_PATERR_ERRORS : Fld :=
  { addr := 0x100050, s1 := 0x1000, lo := 0, w := 40, acc := .ro }
/-- BITS of SLN_PATBITS (R289). -/
def SLN_PATBITS_BITS : Fld :=
  { addr := 0x100058, s1 := 0x1000, lo := 0, w := 64, acc := .ro }
/-- COUNT of SLN_CNT (R290). -/
def SLN_CNT_COUNT : Fld :=
  { addr := 0x100100, s1 := 0x1000, s2 := 0x8, lo := 0, w := 40, acc := .ro }
/-- INDEX of SLN_PRE_CTL (R291). -/
def SLN_PRE_CTL_INDEX : Fld :=
  { addr := 0x210000, lo := 0, w := 14, acc := .rw }
/-- DEFAULT of SLN_PRE_CTL (R291). -/
def SLN_PRE_CTL_DEFAULT : Fld :=
  { addr := 0x210000, lo := 14, w := 1, acc := .rw }
/-- OP of SLN_PRE_CTL (R291). -/
def SLN_PRE_CTL_OP : Fld :=
  { addr := 0x210000, lo := 16, w := 2, acc := .rw }
/-- GO of SLN_PRE_CTL (R291). -/
def SLN_PRE_CTL_GO : Fld :=
  { addr := 0x210000, lo := 32, w := 1, acc := .w1s }
/-- BUSY of SLN_PRE_CTL (R291). -/
def SLN_PRE_CTL_BUSY : Fld :=
  { addr := 0x210000, lo := 33, w := 1, acc := .ro }
/-- REFUSED of SLN_PRE_CTL (R291). -/
def SLN_PRE_CTL_REFUSED : Fld :=
  { addr := 0x210000, lo := 34, w := 1, acc := .w1c }
/-- STATE of SLN_PRE_CTL (R291). -/
def SLN_PRE_CTL_STATE : Fld :=
  { addr := 0x210000, lo := 40, w := 2, acc := .ro }
/-- AGE of SLN_PRE_CTL (R291). -/
def SLN_PRE_CTL_AGE : Fld :=
  { addr := 0x210000, lo := 48, w := 8, acc := .ro }
/-- DATA of SLN_PRE_DATA (R291). -/
def SLN_PRE_DATA_DATA : Fld :=
  { addr := 0x210008, s1 := 0x8, lo := 0, w := 64, acc := .rw }
/-- TX_EN of TCH_FRMCFG (R74). -/
def TCH_FRMCFG_TX_EN : Fld :=
  { addr := 0x400000, s1 := 0x10000, lo := 0, w := 1, acc := .rw, img := true }
/-- RX_EN of TCH_FRMCFG (R74). -/
def TCH_FRMCFG_RX_EN : Fld :=
  { addr := 0x400000, s1 := 0x10000, lo := 1, w := 1, acc := .rw, img := true }
/-- SCR_BYPASS of TCH_FRMCFG (R74). -/
def TCH_FRMCFG_SCR_BYPASS : Fld :=
  { addr := 0x400000, s1 := 0x10000, lo := 2, w := 1, acc := .rw }
/-- HUNT_BLOCKS of TCH_FRMCFG (R74). -/
def TCH_FRMCFG_HUNT_BLOCKS : Fld :=
  { addr := 0x400000, s1 := 0x10000, lo := 8, w := 8, acc := .rw, dflt := .const 64, img := true, ranged := true, mn := 64, mx := 255 }
/-- LOSS_INVALID of TCH_FRMCFG (R74). -/
def TCH_FRMCFG_LOSS_INVALID : Fld :=
  { addr := 0x400000, s1 := 0x10000, lo := 16, w := 6, acc := .rw, dflt := .const 16, img := true, ranged := true, mn := 1, mx := 63 }
/-- SYNC_TOL of TCH_FRMCFG (R74). -/
def TCH_FRMCFG_SYNC_TOL : Fld :=
  { addr := 0x400000, s1 := 0x10000, lo := 24, w := 3, acc := .rw, dflt := .const 3, img := true }
/-- CONFIRMS of TCH_FRMCFG (R74). -/
def TCH_FRMCFG_CONFIRMS : Fld :=
  { addr := 0x400000, s1 := 0x10000, lo := 28, w := 2, acc := .rw, dflt := .const 2, img := true, ranged := true, mn := 1, mx := 3 }
/-- MISSES of TCH_FRMCFG (R74). -/
def TCH_FRMCFG_MISSES : Fld :=
  { addr := 0x400000, s1 := 0x10000, lo := 32, w := 4, acc := .rw, dflt := .const 4, img := true, ranged := true, mn := 1, mx := 15 }
/-- RETAIN_FRAMES of TCH_FRMCFG (R74). -/
def TCH_FRMCFG_RETAIN_FRAMES : Fld :=
  { addr := 0x400000, s1 := 0x10000, lo := 40, w := 8, acc := .rw, dflt := .const 16, img := true }
/-- RETAIN_SLACK of TCH_FRMCFG (R74). -/
def TCH_FRMCFG_RETAIN_SLACK : Fld :=
  { addr := 0x400000, s1 := 0x10000, lo := 48, w := 4, acc := .rw, dflt := .const 8, img := true }
/-- TREE_ID of TCH_FRMID (R75). -/
def TCH_FRMID_TREE_ID : Fld :=
  { addr := 0x400008, s1 := 0x10000, lo := 0, w := 16, acc := .rwl, img := true }
/-- RX_TREE_ID of TCH_FRMID (R75). -/
def TCH_FRMID_RX_TREE_ID : Fld :=
  { addr := 0x400008, s1 := 0x10000, lo := 16, w := 16, acc := .ro }
/-- HEAD_EPOCH of TCH_FRMID (R75). -/
def TCH_FRMID_HEAD_EPOCH : Fld :=
  { addr := 0x400008, s1 := 0x10000, lo := 32, w := 16, acc := .ro }
/-- BLOCK_LOCK of TCH_FRMSTAT (R76). -/
def TCH_FRMSTAT_BLOCK_LOCK : Fld :=
  { addr := 0x400010, s1 := 0x10000, lo := 0, w := 1, acc := .ro }
/-- ALIGN of TCH_FRMSTAT (R76). -/
def TCH_FRMSTAT_ALIGN : Fld :=
  { addr := 0x400010, s1 := 0x10000, lo := 1, w := 2, acc := .ro }
/-- LOB of TCH_FRMSTAT (R76). -/
def TCH_FRMSTAT_LOB : Fld :=
  { addr := 0x400010, s1 := 0x10000, lo := 4, w := 1, acc := .w1c, cntAddr := 0x400120, cntStride := 0x10000 }
/-- OOF of TCH_FRMSTAT (R76). -/
def TCH_FRMSTAT_OOF : Fld :=
  { addr := 0x400010, s1 := 0x10000, lo := 5, w := 1, acc := .w1c, cntAddr := 0x400128, cntStride := 0x10000 }
/-- LOF of TCH_FRMSTAT (R76). -/
def TCH_FRMSTAT_LOF : Fld :=
  { addr := 0x400010, s1 := 0x10000, lo := 6, w := 1, acc := .w1c, cntAddr := 0x400130, cntStride := 0x10000 }
/-- UNCORR of TCH_FRMSTAT (R76). -/
def TCH_FRMSTAT_UNCORR : Fld :=
  { addr := 0x400010, s1 := 0x10000, lo := 7, w := 1, acc := .w1c, cntAddr := 0x400108, cntStride := 0x10000 }
/-- BIPERR of TCH_FRMSTAT (R76). -/
def TCH_FRMSTAT_BIPERR : Fld :=
  { addr := 0x400010, s1 := 0x10000, lo := 8, w := 1, acc := .w1c, cntAddr := 0x400118, cntStride := 0x10000 }
/-- HDRERR of TCH_FRMSTAT (R76). -/
def TCH_FRMSTAT_HDRERR : Fld :=
  { addr := 0x400010, s1 := 0x10000, lo := 9, w := 1, acc := .w1c, cntAddr := 0x400138, cntStride := 0x10000 }
/-- FCJUMP of TCH_FRMSTAT (R76). -/
def TCH_FRMSTAT_FCJUMP : Fld :=
  { addr := 0x400010, s1 := 0x10000, lo := 10, w := 1, acc := .w1c, cntAddr := 0x400140, cntStride := 0x10000 }
/-- FC of TCH_TXFC (R77). -/
def TCH_TXFC_FC : Fld :=
  { addr := 0x400018, s1 := 0x10000, lo := 0, w := 48, acc := .ro }
/-- FC of TCH_RXFC (R77). -/
def TCH_RXFC_FC : Fld :=
  { addr := 0x400020, s1 := 0x10000, lo := 0, w := 48, acc := .ro }
/-- SHIFT of TCH_RXFC (R77). -/
def TCH_RXFC_SHIFT : Fld :=
  { addr := 0x400020, s1 := 0x10000, lo := 48, w := 8, acc := .ro }
/-- COUNT of TCH_RXCNT (R78). -/
def TCH_RXCNT_COUNT : Fld :=
  { addr := 0x400100, s1 := 0x10000, s2 := 0x8, lo := 0, w := 40, acc := .ro }
/-- COUNT of TCH_TXCNT (R78). -/
def TCH_TXCNT_COUNT : Fld :=
  { addr := 0x400180, s1 := 0x10000, s2 := 0x8, lo := 0, w := 40, acc := .ro }
/-- RX_EN of TCH_BRXCFG (R102). -/
def TCH_BRXCFG_RX_EN : Fld :=
  { addr := 0x400200, s1 := 0x10000, lo := 0, w := 1, acc := .rw, img := true }
/-- DELIM_TOL of TCH_BRXCFG (R102). -/
def TCH_BRXCFG_DELIM_TOL : Fld :=
  { addr := 0x400200, s1 := 0x10000, lo := 8, w := 7, acc := .rw, dflt := .const 8, img := true, ranged := true, mn := 0, mx := 31 }
/-- WINDOW of TCH_BRXCFG (R102). -/
def TCH_BRXCFG_WINDOW : Fld :=
  { addr := 0x400200, s1 := 0x10000, lo := 16, w := 8, acc := .rw, dflt := .const 96, img := true, ranged := true, mn := 4, mx := 255 }
/-- RXBRST_START of TCH_BRXCFG (R102). -/
def TCH_BRXCFG_RXBRST_START : Fld :=
  { addr := 0x400200, s1 := 0x10000, lo := 24, w := 4, acc := .rw, dflt := .const 4, img := true, ranged := true, mn := 0, mx := 10 }
/-- RXBRST_WIDTH of TCH_BRXCFG (R102). -/
def TCH_BRXCFG_RXBRST_WIDTH : Fld :=
  { addr := 0x400200, s1 := 0x10000, lo := 28, w := 4, acc := .rw, dflt := .const 6, img := true, ranged := true, mn := 1, mx := 12 }
/-- FOM_MIN of TCH_BRXCFG (R102). -/
def TCH_BRXCFG_FOM_MIN : Fld :=
  { addr := 0x400200, s1 := 0x10000, lo := 32, w := 8, acc := .rw, dflt := .const 96, img := true }
/-- PRESET_AGE of TCH_BRXCFG (R102). -/
def TCH_BRXCFG_PRESET_AGE : Fld :=
  { addr := 0x400200, s1 := 0x10000, lo := 40, w := 8, acc := .rw, dflt := .const 64, img := true, ranged := true, mn := 1, mx := 255 }
/-- MISS_STALE of TCH_BRXCFG (R102). -/
def TCH_BRXCFG_MISS_STALE : Fld :=
  { addr := 0x400200, s1 := 0x10000, lo := 48, w := 4, acc := .rw, dflt := .const 2, img := true, ranged := true, mn := 1, mx := 15 }
/-- MISSING of TCH_BRXSTAT (R103). -/
def TCH_BRXSTAT_MISSING : Fld :=
  { addr := 0x400208, s1 := 0x10000, lo := 0, w := 1, acc := .w1c, cntAddr := 0x400310, cntStride := 0x10000 }
/-- MISTIMED of TCH_BRXSTAT (R103). -/
def TCH_BRXSTAT_MISTIMED : Fld :=
  { addr := 0x400208, s1 := 0x10000, lo := 1, w := 1, acc := .w1c, cntAddr := 0x400318, cntStride := 0x10000 }
/-- HDRBAD of TCH_BRXSTAT (R103). -/
def TCH_BRXSTAT_HDRBAD : Fld :=
  { addr := 0x400208, s1 := 0x10000, lo := 2, w := 1, acc := .w1c, cntAddr := 0x400328, cntStride := 0x10000 }
/-- HDRMIS of TCH_BRXSTAT (R103). -/
def TCH_BRXSTAT_HDRMIS : Fld :=
  { addr := 0x400208, s1 := 0x10000, lo := 3, w := 1, acc := .w1c, cntAddr := 0x400330, cntStride := 0x10000 }
/-- TERMMISS of TCH_BRXSTAT (R103). -/
def TCH_BRXSTAT_TERMMISS : Fld :=
  { addr := 0x400208, s1 := 0x10000, lo := 4, w := 1, acc := .w1c, cntAddr := 0x400338, cntStride := 0x10000 }
/-- UNCORR of TCH_BRXSTAT (R103). -/
def TCH_BRXSTAT_UNCORR : Fld :=
  { addr := 0x400208, s1 := 0x10000, lo := 5, w := 1, acc := .w1c, cntAddr := 0x400348, cntStride := 0x10000 }
/-- GUARD of TCH_BRXSTAT (R103). -/
def TCH_BRXSTAT_GUARD : Fld :=
  { addr := 0x400208, s1 := 0x10000, lo := 6, w := 1, acc := .w1c, cntAddr := 0x400320, cntStride := 0x10000 }
/-- CONFLICT of TCH_BRXSTAT (R103). -/
def TCH_BRXSTAT_CONFLICT : Fld :=
  { addr := 0x400208, s1 := 0x10000, lo := 7, w := 1, acc := .w1c, cntAddr := 0x400370, cntStride := 0x10000 }
/-- STALELOAD of TCH_BRXSTAT (R103). -/
def TCH_BRXSTAT_STALELOAD : Fld :=
  { addr := 0x400208, s1 := 0x10000, lo := 8, w := 1, acc := .w1c, cntAddr := 0x400360, cntStride := 0x10000 }
/-- REPBAD of TCH_BRXSTAT (R103). -/
def TCH_BRXSTAT_REPBAD : Fld :=
  { addr := 0x400208, s1 := 0x10000, lo := 9, w := 1, acc := .w1c, cntAddr := 0x400378, cntStride := 0x10000 }
/-- COUNT of TCH_BRXCNT (R104). -/
def TCH_BRXCNT_COUNT : Fld :=
  { addr := 0x400300, s1 := 0x10000, s2 := 0x8, lo := 0, w := 40, acc := .ro }
/-- LOSS_FRAMES of TCH_LCCFG (R145). -/
def TCH_LCCFG_LOSS_FRAMES : Fld :=
  { addr := 0x400400, s1 := 0x10000, lo := 0, w := 8, acc := .rw, dflt := .const 16, img := true, ranged := true, mn := 1, mx := 255 }
/-- HOLD_POLL of TCH_LCCFG (R145). -/
def TCH_LCCFG_HOLD_POLL : Fld :=
  { addr := 0x400400, s1 := 0x10000, lo := 8, w := 8, acc := .rw, dflt := .const 8, img := true, ranged := true, mn := 1, mx := 255 }
/-- HOLD_FRAMES of TCH_LCCFG (R145). -/
def TCH_LCCFG_HOLD_FRAMES : Fld :=
  { addr := 0x400400, s1 := 0x10000, lo := 16, w := 16, acc := .rw, dflt := .const 8000, img := true, ranged := true, mn := 1, mx := 65535 }
/-- RETRIES of TCH_LCCFG (R145). -/
def TCH_LCCFG_RETRIES : Fld :=
  { addr := 0x400400, s1 := 0x10000, lo := 32, w := 4, acc := .rw, dflt := .const 3, img := true }
/-- DRIFT_CONFIRM of TCH_LCCFG (R145). -/
def TCH_LCCFG_DRIFT_CONFIRM : Fld :=
  { addr := 0x400400, s1 := 0x10000, lo := 36, w := 4, acc := .rw, dflt := .const 2, img := true, ranged := true, mn := 1, mx := 15 }
/-- ADJ_MAX of TCH_LCCFG (R145). -/
def TCH_LCCFG_ADJ_MAX : Fld :=
  { addr := 0x400400, s1 := 0x10000, lo := 40, w := 8, acc := .rw, dflt := .const 64, img := true, ranged := true, mn := 8, mx := 255 }
/-- ROGUE_MARKS of TCH_LCCFG (R145). -/
def TCH_LCCFG_ROGUE_MARKS : Fld :=
  { addr := 0x400400, s1 := 0x10000, lo := 48, w := 4, acc := .rw, dflt := .const 4, img := true, ranged := true, mn := 1, mx := 15 }
/-- MOVE_TUNE of TCH_LCCFG (R145). -/
def TCH_LCCFG_MOVE_TUNE : Fld :=
  { addr := 0x400400, s1 := 0x10000, lo := 52, w := 4, acc := .rw, dflt := .const 8, img := true, ranged := true, mn := 1, mx := 15 }
/-- DISC_EN of TCH_DISCCFG (R145). -/
def TCH_DISCCFG_DISC_EN : Fld :=
  { addr := 0x400408, s1 := 0x10000, lo := 0, w := 1, acc := .rw, dflt := .const 1, img := true }
/-- ADMIT_UNKNOWN of TCH_DISCCFG (R145). -/
def TCH_DISCCFG_ADMIT_UNKNOWN : Fld :=
  { addr := 0x400408, s1 := 0x10000, lo := 1, w := 1, acc := .rw, dflt := .const 1, img := true }
/-- DIST_MIN_KM of TCH_DISCCFG (R145). -/
def TCH_DISCCFG_DIST_MIN_KM : Fld :=
  { addr := 0x400408, s1 := 0x10000, lo := 8, w := 6, acc := .rw, img := true, ranged := true, mn := 0, mx := 60 }
/-- DIST_MAX_KM of TCH_DISCCFG (R145). -/
def TCH_DISCCFG_DIST_MAX_KM : Fld :=
  { addr := 0x400408, s1 := 0x10000, lo := 16, w := 6, acc := .rw, dflt := .const 20, img := true, ranged := true, mn := 0, mx := 60 }
/-- BACKOFF_SLOTS of TCH_DISCCFG (R145). -/
def TCH_DISCCFG_BACKOFF_SLOTS : Fld :=
  { addr := 0x400408, s1 := 0x10000, lo := 24, w := 10, acc := .rw, dflt := .const 256, img := true, ranged := true, mn := 1, mx := 1023 }
/-- SKIP_INIT of TCH_DISCCFG (R145). -/
def TCH_DISCCFG_SKIP_INIT : Fld :=
  { addr := 0x400408, s1 := 0x10000, lo := 40, w := 7, acc := .rw, dflt := .const 8, img := true, ranged := true, mn := 1, mx := 64 }
/-- SKIP_MAX of TCH_DISCCFG (R145). -/
def TCH_DISCCFG_SKIP_MAX : Fld :=
  { addr := 0x400408, s1 := 0x10000, lo := 48, w := 7, acc := .rw, dflt := .const 64, img := true, ranged := true, mn := 1, mx := 64 }
/-- DISC_PERIOD of TCH_DISCCFG (R145). -/
def TCH_DISCCFG_DISC_PERIOD : Fld :=
  { addr := 0x400408, s1 := 0x10000, lo := 56, w := 8, acc := .rw, dflt := .const 64, img := true, ranged := true, mn := 8, mx := 255 }
/-- RECOVERY_TRIGGER of TCH_RCVCFG (R145). -/
def TCH_RCVCFG_RECOVERY_TRIGGER : Fld :=
  { addr := 0x400410, s1 := 0x10000, lo := 0, w := 8, acc := .rw, dflt := .const 16, img := true, ranged := true, mn := 1, mx := 128 }
/-- RECOVERY_FRAMES of TCH_RCVCFG (R145). -/
def TCH_RCVCFG_RECOVERY_FRAMES : Fld :=
  { addr := 0x400410, s1 := 0x10000, lo := 8, w := 24, acc := .rw, dflt := .const 80000, img := true, ranged := true, mn := 1, mx := 16777215 }
/-- RANGE_PER_SF of TCH_RCVCFG (R145). -/
def TCH_RCVCFG_RANGE_PER_SF : Fld :=
  { addr := 0x400410, s1 := 0x10000, lo := 32, w := 3, acc := .rw, dflt := .const 4, img := true, ranged := true, mn := 1, mx := 7 }
/-- RANGE_SLACK of TCH_RCVCFG (R145). -/
def TCH_RCVCFG_RANGE_SLACK : Fld :=
  { addr := 0x400410, s1 := 0x10000, lo := 40, w := 5, acc := .rw, dflt := .const 16, img := true, ranged := true, mn := 4, mx := 31 }
/-- RECOVERY of TCH_LCSTAT (R146). -/
def TCH_LCSTAT_RECOVERY : Fld :=
  { addr := 0x400418, s1 := 0x10000, lo := 0, w := 1, acc := .ro }
/-- DISCBAD of TCH_LCSTAT (R146). -/
def TCH_LCSTAT_DISCBAD : Fld :=
  { addr := 0x400418, s1 := 0x10000, lo := 1, w := 1, acc := .w1c, cntAddr := 0x400510, cntStride := 0x10000 }
/-- UNKNOWN of TCH_LCSTAT (R146). -/
def TCH_LCSTAT_UNKNOWN : Fld :=
  { addr := 0x400418, s1 := 0x10000, lo := 2, w := 1, acc := .w1c, cntAddr := 0x400518, cntStride := 0x10000 }
/-- DUP of TCH_LCSTAT (R146). -/
def TCH_LCSTAT_DUP : Fld :=
  { addr := 0x400418, s1 := 0x10000, lo := 3, w := 1, acc := .w1c, cntAddr := 0x400520, cntStride := 0x10000 }
/-- FULL of TCH_LCSTAT (R146). -/
def TCH_LCSTAT_FULL : Fld :=
  { addr := 0x400418, s1 := 0x10000, lo := 4, w := 1, acc := .w1c, cntAddr := 0x400528, cntStride := 0x10000 }
/-- TOOFAR of TCH_LCSTAT (R146). -/
def TCH_LCSTAT_TOOFAR : Fld :=
  { addr := 0x400418, s1 := 0x10000, lo := 5, w := 1, acc := .w1c, cntAddr := 0x400548, cntStride := 0x10000 }
/-- ROGUE of TCH_LCSTAT (R146). -/
def TCH_LCSTAT_ROGUE : Fld :=
  { addr := 0x400418, s1 := 0x10000, lo := 6, w := 1, acc := .w1c, cntAddr := 0x400590, cntStride := 0x10000 }
/-- CMACFAIL of TCH_LCSTAT (R146). -/
def TCH_LCSTAT_CMACFAIL : Fld :=
  { addr := 0x400418, s1 := 0x10000, lo := 7, w := 1, acc := .w1c, cntAddr := 0x4005A0, cntStride := 0x10000 }
/-- REFUSED of TCH_LCSTAT (R146). -/
def TCH_LCSTAT_REFUSED : Fld :=
  { addr := 0x400418, s1 := 0x10000, lo := 8, w := 1, acc := .w1c, cntAddr := 0x4005B0, cntStride := 0x10000 }
/-- RQ_USED of TCH_LCSTAT (R146). -/
def TCH_LCSTAT_RQ_USED : Fld :=
  { addr := 0x400418, s1 := 0x10000, lo := 16, w := 5, acc := .ro }
/-- ACTIVE_TERMS of TCH_LCSTAT (R146). -/
def TCH_LCSTAT_ACTIVE_TERMS : Fld :=
  { addr := 0x400418, s1 := 0x10000, lo := 24, w := 8, acc := .ro }
/-- COUNT of TCH_LCCNT (R147). -/
def TCH_LCCNT_COUNT : Fld :=
  { addr := 0x400500, s1 := 0x10000, s2 := 0x8, lo := 0, w := 40, acc := .ro }
/-- EMU_COUNT of TCH_TRMCFG (R254). -/
def TCH_TRMCFG_EMU_COUNT : Fld :=
  { addr := 0x400800, s1 := 0x10000, lo := 0, w := 8, acc := .rw, dflt := .const 1, img := true, ranged := true, mn := 1, mx := 128 }
/-- TRUNK of TCH_TRMCFG (R254). -/
def TCH_TRMCFG_TRUNK : Fld :=
  { addr := 0x400800, s1 := 0x10000, lo := 8, w := 1, acc := .rwl, img := true }
/-- TBEN_LEAD of TCH_TRMCFG (R254). -/
def TCH_TRMCFG_TBEN_LEAD : Fld :=
  { addr := 0x400800, s1 := 0x10000, lo := 16, w := 4, acc := .rw, dflt := .const 8, img := true }
/-- TBEN_LAG of TCH_TRMCFG (R254). -/
def TCH_TRMCFG_TBEN_LAG : Fld :=
  { addr := 0x400800, s1 := 0x10000, lo := 20, w := 4, acc := .rw, dflt := .const 2, img := true }
/-- SEED_FIXED of TCH_TRMCFG (R254). -/
def TCH_TRMCFG_SEED_FIXED : Fld :=
  { addr := 0x400800, s1 := 0x10000, lo := 24, w := 1, acc := .rw, img := true }
/-- RANGE_WAIT of TCH_TRMCFG (R254). -/
def TCH_TRMCFG_RANGE_WAIT : Fld :=
  { addr := 0x400800, s1 := 0x10000, lo := 25, w := 7, acc := .rw, dflt := .const 8, img := true, ranged := true, mn := 1, mx := 127 }
/-- PEER_CHANNEL of TCH_TRMCFG (R254). -/
def TCH_TRMCFG_PEER_CHANNEL : Fld :=
  { addr := 0x400800, s1 := 0x10000, lo := 32, w := 7, acc := .rw, img := true }
/-- SEED of TCH_TRMCFG (R254). -/
def TCH_TRMCFG_SEED : Fld :=
  { addr := 0x400800, s1 := 0x10000, lo := 40, w := 24, acc := .rw, dflt := .const 1, img := true }
/-- RX_LAT of TCH_TRMCAL (R254). -/
def TCH_TRMCAL_RX_LAT : Fld :=
  { addr := 0x400808, s1 := 0x10000, lo := 0, w := 16, acc := .ro }
/-- TX_LAT of TCH_TRMCAL (R254). -/
def TCH_TRMCAL_TX_LAT : Fld :=
  { addr := 0x400808, s1 := 0x10000, lo := 16, w := 16, acc := .ro }
/-- CAL_OK of TCH_TRMCAL (R254). -/
def TCH_TRMCAL_CAL_OK : Fld :=
  { addr := 0x400808, s1 := 0x10000, lo := 32, w := 1, acc := .ro }
/-- HOLDOVER of TCH_TRMSTAT (R257). -/
def TCH_TRMSTAT_HOLDOVER : Fld :=
  { addr := 0x400810, s1 := 0x10000, lo := 1, w := 1, acc := .w1c, cntAddr := 0x4008C0, cntStride := 0x10000 }
/-- TXOVL of TCH_TRMSTAT (R257). -/
def TCH_TRMSTAT_TXOVL : Fld :=
  { addr := 0x400810, s1 := 0x10000, lo := 2, w := 1, acc := .w1c, cntAddr := 0x4008A0, cntStride := 0x10000 }
/-- MAPIGN of TCH_TRMSTAT (R257). -/
def TCH_TRMSTAT_MAPIGN : Fld :=
  { addr := 0x400810, s1 := 0x10000, lo := 3, w := 1, acc := .w1c, cntAddr := 0x4008A8, cntStride := 0x10000 }
/-- ANSWAIT of TCH_TRMSTAT (R257). -/
def TCH_TRMSTAT_ANSWAIT : Fld :=
  { addr := 0x400810, s1 := 0x10000, lo := 4, w := 1, acc := .w1c, cntAddr := 0x4008B0, cntStride := 0x10000 }
/-- TAGFAIL of TCH_TRMSTAT (R257). -/
def TCH_TRMSTAT_TAGFAIL : Fld :=
  { addr := 0x400810, s1 := 0x10000, lo := 5, w := 1, acc := .w1c, cntAddr := 0x4008B8, cntStride := 0x10000 }
/-- REFUSED of TCH_TRMSTAT (R257). -/
def TCH_TRMSTAT_REFUSED : Fld :=
  { addr := 0x400810, s1 := 0x10000, lo := 6, w := 1, acc := .w1c, cntAddr := 0x4008C8, cntStride := 0x10000 }
/-- OPERATING of TCH_TRMSTAT (R257). -/
def TCH_TRMSTAT_OPERATING : Fld :=
  { addr := 0x400810, s1 := 0x10000, lo := 16, w := 8, acc := .ro }
/-- COUNT of TCH_TRMCNT (R258). -/
def TCH_TRMCNT_COUNT : Fld :=
  { addr := 0x400880, s1 := 0x10000, s2 := 0x8, lo := 0, w := 40, acc := .ro }
/-- SERIAL of TCH_EMUSER (R255). -/
def TCH_EMUSER_SERIAL : Fld :=
  { addr := 0x402000, s1 := 0x10000, s2 := 0x40, lo := 0, w := 64, acc := .rw, img := true }
/-- EMU_EN of TCH_EMUCTL (R255). -/
def TCH_EMUCTL_EMU_EN : Fld :=
  { addr := 0x402008, s1 := 0x10000, s2 := 0x40, lo := 0, w := 1, acc := .rw, img := true }
/-- CAP_DOZE of TCH_EMUCTL (R255). -/
def TCH_EMUCTL_CAP_DOZE : Fld :=
  { addr := 0x402008, s1 := 0x10000, s2 := 0x40, lo := 1, w := 1, acc := .rw, img := true }
/-- GASP of TCH_EMUCTL (R255). -/
def TCH_EMUCTL_GASP : Fld :=
  { addr := 0x402008, s1 := 0x10000, s2 := 0x40, lo := 2, w := 1, acc := .w1s }
/-- ALARM of TCH_EMUCTL (R255). -/
def TCH_EMUCTL_ALARM : Fld :=
  { addr := 0x402008, s1 := 0x10000, s2 := 0x40, lo := 3, w := 1, acc := .w1s }
/-- DOZE of TCH_EMUCTL (R255). -/
def TCH_EMUCTL_DOZE : Fld :=
  { addr := 0x402008, s1 := 0x10000, s2 := 0x40, lo := 4, w := 1, acc := .w1s }
/-- ALARM_CODE of TCH_EMUCTL (R255). -/
def TCH_EMUCTL_ALARM_CODE : Fld :=
  { addr := 0x402008, s1 := 0x10000, s2 := 0x40, lo := 8, w := 8, acc := .rw }
/-- DOZE_PERIOD of TCH_EMUCTL (R255). -/
def TCH_EMUCTL_DOZE_PERIOD : Fld :=
  { addr := 0x402008, s1 := 0x10000, s2 := 0x40, lo := 16, w := 16, acc := .rw, ranged := true, mn := 0, mx := 1024 }
/-- ALARM_DETAIL of TCH_EMUCTL (R255). -/
def TCH_EMUCTL_ALARM_DETAIL : Fld :=
  { addr := 0x402008, s1 := 0x10000, s2 := 0x40, lo := 32, w := 16, acc := .rw }
/-- EXTRA of TCH_EMUDLY (R256). -/
def TCH_EMUDLY_EXTRA : Fld :=
  { addr := 0x402010, s1 := 0x10000, s2 := 0x40, lo := 0, w := 32, acc := .rw, img := true, ranged := true, mn := 0, mx := 69234780 }
/-- SKEW of TCH_EMUDLY (R256). -/
def TCH_EMUDLY_SKEW : Fld :=
  { addr := 0x402010, s1 := 0x10000, s2 := 0x40, lo := 32, w := 16, acc := .rw, ranged := true, sg := true, mx := 255 }
/-- INDEX0 of TCH_EMUCONT (R256). -/
def TCH_EMUCONT_INDEX0 : Fld :=
  { addr := 0x402018, s1 := 0x10000, s2 := 0x40, lo := 0, w := 4, acc := .rw, img := true }
/-- BIND0 of TCH_EMUCONT (R256). -/
def TCH_EMUCONT_BIND0 : Fld :=
  { addr := 0x402018, s1 := 0x10000, s2 := 0x40, lo := 4, w := 1, acc := .rw, img := true }
/-- SRC0 of TCH_EMUCONT (R256). -/
def TCH_EMUCONT_SRC0 : Fld :=
  { addr := 0x402018, s1 := 0x10000, s2 := 0x40, lo := 5, w := 2, acc := .rw, img := true }
/-- INDEX1 of TCH_EMUCONT (R256). -/
def TCH_EMUCONT_INDEX1 : Fld :=
  { addr := 0x402018, s1 := 0x10000, s2 := 0x40, lo := 8, w := 4, acc := .rw, dflt := .const 1, img := true }
/-- BIND1 of TCH_EMUCONT (R256). -/
def TCH_EMUCONT_BIND1 : Fld :=
  { addr := 0x402018, s1 := 0x10000, s2 := 0x40, lo := 12, w := 1, acc := .rw, img := true }
/-- SRC1 of TCH_EMUCONT (R256). -/
def TCH_EMUCONT_SRC1 : Fld :=
  { addr := 0x402018, s1 := 0x10000, s2 := 0x40, lo := 13, w := 2, acc := .rw, img := true }
/-- INDEX2 of TCH_EMUCONT (R256). -/
def TCH_EMUCONT_INDEX2 : Fld :=
  { addr := 0x402018, s1 := 0x10000, s2 := 0x40, lo := 16, w := 4, acc := .rw, dflt := .const 2, img := true }
/-- BIND2 of TCH_EMUCONT (R256). -/
def TCH_EMUCONT_BIND2 : Fld :=
  { addr := 0x402018, s1 := 0x10000, s2 := 0x40, lo := 20, w := 1, acc := .rw, img := true }
/-- SRC2 of TCH_EMUCONT (R256). -/
def TCH_EMUCONT_SRC2 : Fld :=
  { addr := 0x402018, s1 := 0x10000, s2 := 0x40, lo := 21, w := 2, acc := .rw, img := true }
/-- INDEX3 of TCH_EMUCONT (R256). -/
def TCH_EMUCONT_INDEX3 : Fld :=
  { addr := 0x402018, s1 := 0x10000, s2 := 0x40, lo := 24, w := 4, acc := .rw, dflt := .const 3, img := true }
/-- BIND3 of TCH_EMUCONT (R256). -/
def TCH_EMUCONT_BIND3 : Fld :=
  { addr := 0x402018, s1 := 0x10000, s2 := 0x40, lo := 28, w := 1, acc := .rw, img := true }
/-- SRC3 of TCH_EMUCONT (R256). -/
def TCH_EMUCONT_SRC3 : Fld :=
  { addr := 0x402018, s1 := 0x10000, s2 := 0x40, lo := 29, w := 2, acc := .rw, img := true }
/-- SYN_DEMAND of TCH_EMUCONT (R256). -/
def TCH_EMUCONT_SYN_DEMAND : Fld :=
  { addr := 0x402018, s1 := 0x10000, s2 := 0x40, lo := 32, w := 16, acc := .rw, img := true }
/-- SYN_LEN of TCH_EMUCONT (R256). -/
def TCH_EMUCONT_SYN_LEN : Fld :=
  { addr := 0x402018, s1 := 0x10000, s2 := 0x40, lo := 48, w := 14, acc := .rw, dflt := .const 1500, img := true, ranged := true, mn := 60, mx := 16000 }
/-- STATE of TCH_EMUSTAT (R256). -/
def TCH_EMUSTAT_STATE : Fld :=
  { addr := 0x402020, s1 := 0x10000, s2 := 0x40, lo := 0, w := 3, acc := .ro }
/-- LOCAL of TCH_EMUSTAT (R256). -/
def TCH_EMUSTAT_LOCAL : Fld :=
  { addr := 0x402020, s1 := 0x10000, s2 := 0x40, lo := 4, w := 7, acc := .ro }
/-- LOCAL_VALID of TCH_EMUSTAT (R256). -/
def TCH_EMUSTAT_LOCAL_VALID : Fld :=
  { addr := 0x402020, s1 := 0x10000, s2 := 0x40, lo := 11, w := 1, acc := .ro }
/-- TX_LEVEL of TCH_EMUSTAT (R256). -/
def TCH_EMUSTAT_TX_LEVEL : Fld :=
  { addr := 0x402020, s1 := 0x10000, s2 := 0x40, lo := 12, w := 3, acc := .ro }
/-- EQD of TCH_EMUSTAT (R256). -/
def TCH_EMUSTAT_EQD : Fld :=
  { addr := 0x402020, s1 := 0x10000, s2 := 0x40, lo := 16, w := 32, acc := .ro }
/-- HOLD_FRAMES of TCH_EMUSTAT (R256). -/
def TCH_EMUSTAT_HOLD_FRAMES : Fld :=
  { addr := 0x402020, s1 := 0x10000, s2 := 0x40, lo := 48, w := 8, acc := .ro }
/-- DISC_ATTEMPTS of TCH_EMUSTAT (R256). -/
def TCH_EMUSTAT_DISC_ATTEMPTS : Fld :=
  { addr := 0x402020, s1 := 0x10000, s2 := 0x40, lo := 56, w := 8, acc := .ro }
/-- EQRT of RUL_CHCFG (R144). -/
def RUL_CHCFG_EQRT : Fld :=
  { addr := 0xC00000, s1 := 0x40, lo := 0, w := 32, acc := .rwl, dflt := .const 84863877, img := true }
/-- RTD_MIN of RUL_CHSTAT (R144). -/
def RUL_CHSTAT_RTD_MIN : Fld :=
  { addr := 0xC00008, s1 := 0x40, lo := 0, w := 32, acc := .ro, dflt := .const 4294967295 }
/-- RTD_MAX of RUL_CHSTAT (R144). -/
def RUL_CHSTAT_RTD_MAX : Fld :=
  { addr := 0xC00008, s1 := 0x40, lo := 32, w := 32, acc := .ro }
/-- GUAR_LIMIT of GNT_CHCFG (R175). -/
def GNT_CHCFG_GUAR_LIMIT : Fld :=
  { addr := 0xD00000, s1 := 0x100, lo := 0, w := 16, acc := .rw, dflt := .const 27904, img := true, ranged := true, mn := 0, mx := 48000 }
/-- GRAIN of GNT_CHCFG (R175). -/
def GNT_CHCFG_GRAIN : Fld :=
  { addr := 0xD00000, s1 := 0x100, lo := 16, w := 8, acc := .rw, dflt := .const 224, img := true, ranged := true, mn := 32, mx := 224 }
/-- POLL_SF of GNT_CHCFG (R175). -/
def GNT_CHCFG_POLL_SF : Fld :=
  { addr := 0xD00000, s1 := 0x100, lo := 24, w := 8, acc := .rw, dflt := .const 4, img := true, ranged := true, mn := 1, mx := 255 }
/-- MAP_LIMIT of GNT_CHCFG (R175). -/
def GNT_CHCFG_MAP_LIMIT : Fld :=
  { addr := 0xD00000, s1 := 0x100, lo := 32, w := 9, acc := .rw, dflt := .const 256, img := true, ranged := true, mn := 16, mx := 256 }
/-- REPORT_SF of GNT_CHCFG (R175). -/
def GNT_CHCFG_REPORT_SF : Fld :=
  { addr := 0xD00000, s1 := 0x100, lo := 48, w := 8, acc := .rw, dflt := .const 4, img := true, ranged := true, mn := 1, mx := 255 }
/-- GNT_EN of GNT_CHCFG (R175). -/
def GNT_CHCFG_GNT_EN : Fld :=
  { addr := 0xD00000, s1 := 0x100, lo := 56, w := 1, acc := .rw, img := true }
/-- SHORT of GNT_CHSTAT (R176). -/
def GNT_CHSTAT_SHORT : Fld :=
  { addr := 0xD00008, s1 := 0x100, lo := 0, w := 1, acc := .w1c, cntAddr := 0xD000D0, cntStride := 0x100 }
/-- DEFER of GNT_CHSTAT (R176). -/
def GNT_CHSTAT_DEFER : Fld :=
  { addr := 0xD00008, s1 := 0x100, lo := 1, w := 1, acc := .w1c, cntAddr := 0xD000D8, cntStride := 0x100 }
/-- ARRDROP of GNT_CHSTAT (R176). -/
def GNT_CHSTAT_ARRDROP : Fld :=
  { addr := 0xD00008, s1 := 0x100, lo := 2, w := 1, acc := .w1c, cntAddr := 0xD000E0, cntStride := 0x100 }
/-- REFUSED of GNT_CHSTAT (R176). -/
def GNT_CHSTAT_REFUSED : Fld :=
  { addr := 0xD00008, s1 := 0x100, lo := 3, w := 1, acc := .w1c, cntAddr := 0xD000E8, cntStride := 0x100 }
/-- RPTIGN of GNT_CHSTAT (R176). -/
def GNT_CHSTAT_RPTIGN : Fld :=
  { addr := 0xD00008, s1 := 0x100, lo := 4, w := 1, acc := .w1c, cntAddr := 0xD000C8, cntStride := 0x100 }
/-- G_LOAD of GNT_CHSTAT (R176). -/
def GNT_CHSTAT_G_LOAD : Fld :=
  { addr := 0xD00008, s1 := 0x100, lo := 16, w := 16, acc := .ro }
/-- LAST_ENTRIES of GNT_CHSTAT (R176). -/
def GNT_CHSTAT_LAST_ENTRIES : Fld :=
  { addr := 0xD00008, s1 := 0x100, lo := 32, w := 9, acc := .ro }
/-- V_NA of GNT_CHVT (R177). -/
def GNT_CHVT_V_NA : Fld :=
  { addr := 0xD00010, s1 := 0x100, lo := 0, w := 32, acc := .ro }
/-- V_BE of GNT_CHVT (R177). -/
def GNT_CHVT_V_BE : Fld :=
  { addr := 0xD00010, s1 := 0x100, lo := 32, w := 32, acc := .ro }
/-- LAST_TARGET of GNT_CHLAST (R177). -/
def GNT_CHLAST_LAST_TARGET : Fld :=
  { addr := 0xD00018, s1 := 0x100, lo := 0, w := 16, acc := .ro }
/-- LAST_IDLE of GNT_CHLAST (R177). -/
def GNT_CHLAST_LAST_IDLE : Fld :=
  { addr := 0xD00018, s1 := 0x100, lo := 16, w := 16, acc := .ro }
/-- LAST_BURSTS of GNT_CHLAST (R177). -/
def GNT_CHLAST_LAST_BURSTS : Fld :=
  { addr := 0xD00018, s1 := 0x100, lo := 32, w := 16, acc := .ro }
/-- COMPUTE_NS of GNT_CHLAST (R177). -/
def GNT_CHLAST_COMPUTE_NS : Fld :=
  { addr := 0xD00018, s1 := 0x100, lo := 48, w := 16, acc := .ro }
/-- COUNT of GNT_CNT (R178). -/
def GNT_CNT_COUNT : Fld :=
  { addr := 0xD00040, s1 := 0x100, s2 := 0x8, lo := 0, w := 40, acc := .ro }
/-- INDEX of GNT_IND_CTL (R179). -/
def GNT_IND_CTL_INDEX : Fld :=
  { addr := 0xD10000, lo := 0, w := 16, acc := .rw }
/-- TABLE of GNT_IND_CTL (R179). -/
def GNT_IND_CTL_TABLE : Fld :=
  { addr := 0xD10000, lo := 16, w := 2, acc := .rw }
/-- WRITE of GNT_IND_CTL (R179). -/
def GNT_IND_CTL_WRITE : Fld :=
  { addr := 0xD10000, lo := 24, w := 1, acc := .rw }
/-- GO of GNT_IND_CTL (R179). -/
def GNT_IND_CTL_GO : Fld :=
  { addr := 0xD10000, lo := 32, w := 1, acc := .w1s }
/-- BUSY of GNT_IND_CTL (R179). -/
def GNT_IND_CTL_BUSY : Fld :=
  { addr := 0xD10000, lo := 33, w := 1, acc := .ro }
/-- REFUSED of GNT_IND_CTL (R179). -/
def GNT_IND_CTL_REFUSED : Fld :=
  { addr := 0xD10000, lo := 34, w := 1, acc := .w1c }
/-- DATA of GNT_IND_DATA (R179). -/
def GNT_IND_DATA_DATA : Fld :=
  { addr := 0xD10008, s1 := 0x8, lo := 0, w := 64, acc := .rw }
/-- DN_EN of CIR_CFG (R202). -/
def CIR_CFG_DN_EN : Fld :=
  { addr := 0xE00000, s1 := 0x100, lo := 0, w := 1, acc := .rw, img := true }
/-- UP_EN of CIR_CFG (R202). -/
def CIR_CFG_UP_EN : Fld :=
  { addr := 0xE00000, s1 := 0x100, lo := 1, w := 1, acc := .rw, img := true }
/-- ENC of CIR_CFG (R202). -/
def CIR_CFG_ENC : Fld :=
  { addr := 0xE00000, s1 := 0x100, lo := 2, w := 1, acc := .rw, dflt := .const 1, img := true }
/-- FILL of CIR_CFG (R202). -/
def CIR_CFG_FILL : Fld :=
  { addr := 0xE00000, s1 := 0x100, lo := 3, w := 1, acc := .rw, dflt := .const 1, img := true }
/-- LOCAL of CIR_CFG (R202). -/
def CIR_CFG_LOCAL : Fld :=
  { addr := 0xE00000, s1 := 0x100, lo := 8, w := 7, acc := .rw, img := true }
/-- N of CIR_CFG (R202). -/
def CIR_CFG_N : Fld :=
  { addr := 0xE00000, s1 := 0x100, lo := 16, w := 16, acc := .rw, dflt := .const 8, img := true, ranged := true, mn := 8, mx := 39062 }
/-- UP_INDEX of CIR_CFG (R202). -/
def CIR_CFG_UP_INDEX : Fld :=
  { addr := 0xE00000, s1 := 0x100, lo := 32, w := 4, acc := .rw, img := true }
/-- DELAY_NS of CIR_TIMING (R203). -/
def CIR_TIMING_DELAY_NS : Fld :=
  { addr := 0xE00008, s1 := 0x100, lo := 0, w := 32, acc := .rw, dflt := .const 2000000, img := true, ranged := true, mn := 62500, mx := 16000000 }
/-- CF_BYTES of CIR_CF (R203). -/
def CIR_CF_CF_BYTES : Fld :=
  { addr := 0xE00010, s1 := 0x100, lo := 0, w := 16, acc := .rw, dflt := .const 1024, img := true, ranged := true, mn := 64, mx := 8192, mult := 8 }
/-- SERVICE of CIR_CF (R203). -/
def CIR_CF_SERVICE : Fld :=
  { addr := 0xE00010, s1 := 0x100, lo := 16, w := 17, acc := .rw, img := true }
/-- LOP of CIR_STAT (R204). -/
def CIR_STAT_LOP : Fld :=
  { addr := 0xE00018, s1 := 0x100, lo := 0, w := 1, acc := .w1c, cntAddr := 0xE000B8, cntStride := 0x100 }
/-- AISRX of CIR_STAT (R204). -/
def CIR_STAT_AISRX : Fld :=
  { addr := 0xE00018, s1 := 0x100, lo := 1, w := 1, acc := .w1c, cntAddr := 0xE000C0, cntStride := 0x100 }
/-- UNDERRUN of CIR_STAT (R204). -/
def CIR_STAT_UNDERRUN : Fld :=
  { addr := 0xE00018, s1 := 0x100, lo := 2, w := 1, acc := .w1c, cntAddr := 0xE000C8, cntStride := 0x100 }
/-- OVERRUN of CIR_STAT (R204). -/
def CIR_STAT_OVERRUN : Fld :=
  { addr := 0xE00018, s1 := 0x100, lo := 3, w := 1, acc := .w1c, cntAddr := 0xE000D0, cntStride := 0x100 }
/-- LATE of CIR_STAT (R204). -/
def CIR_STAT_LATE : Fld :=
  { addr := 0xE00018, s1 := 0x100, lo := 4, w := 1, acc := .w1c, cntAddr := 0xE000D8, cntStride := 0x100 }
/-- SEQGAP of CIR_STAT (R204). -/
def CIR_STAT_SEQGAP : Fld :=
  { addr := 0xE00018, s1 := 0x100, lo := 5, w := 1, acc := .w1c, cntAddr := 0xE000E0, cntStride := 0x100 }
/-- BIPERR of CIR_STAT (R204). -/
def CIR_STAT_BIPERR : Fld :=
  { addr := 0xE00018, s1 := 0x100, lo := 6, w := 1, acc := .w1c, cntAddr := 0xE000E8, cntStride := 0x100 }
/-- REFUSED of CIR_STAT (R204). -/
def CIR_STAT_REFUSED : Fld :=
  { addr := 0xE00018, s1 := 0x100, lo := 7, w := 1, acc := .w1c, cntAddr := 0xE000F0, cntStride := 0x100 }
/-- REGMISS of CIR_STAT (R204). -/
def CIR_STAT_REGMISS : Fld :=
  { addr := 0xE00018, s1 := 0x100, lo := 8, w := 1, acc := .w1c, cntAddr := 0xE000F8, cntStride := 0x100 }
/-- TX_PTR of CIR_STAT (R204). -/
def CIR_STAT_TX_PTR : Fld :=
  { addr := 0xE00018, s1 := 0x100, lo := 16, w := 16, acc := .ro }
/-- RX_PTR of CIR_STAT (R204). -/
def CIR_STAT_RX_PTR : Fld :=
  { addr := 0xE00018, s1 := 0x100, lo := 32, w := 16, acc := .ro }
/-- BYTES of CIR_FILL (R204). -/
def CIR_FILL_BYTES : Fld :=
  { addr := 0xE00020, s1 := 0x100, lo := 0, w := 32, acc := .ro }
/-- COUNT of CIR_CNT (R205). -/
def CIR_CNT_COUNT : Fld :=
  { addr := 0xE00080, s1 := 0x100, s2 := 0x8, lo := 0, w := 40, acc := .ro }
/-- ETHERTYPE of CIR_GLB (R206). -/
def CIR_GLB_ETHERTYPE : Fld :=
  { addr := 0xE40000, lo := 0, w := 16, acc := .rwl, dflt := .const 34997, img := true }
/-- BUF_MIB of CIR_GLB (R206). -/
def CIR_GLB_BUF_MIB : Fld :=
  { addr := 0xE40000, lo := 16, w := 8, acc := .rwl, dflt := .const 64, img := true, ranged := true, mn := 0, mx := 128 }
/-- BUF_USED of CIR_GLBSTAT (R206). -/
def CIR_GLBSTAT_BUF_USED : Fld :=
  { addr := 0xE40008, lo := 0, w := 32, acc := .ro }
/-- UNKNOWN_CF of CIR_GLBCNT (R206). -/
def CIR_GLBCNT_UNKNOWN_CF : Fld :=
  { addr := 0xE40010, lo := 0, w := 40, acc := .ro }
/-- REFILL_NS of TMG_GLB (R225). -/
def TMG_GLB_REFILL_NS : Fld :=
  { addr := 0x1000000, lo := 0, w := 12, acc := .rwl, dflt := .const 1000, img := true, ranged := true, mn := 250, mx := 4000 }
/-- CH_RATE of TMG_CHCFG (R226). -/
def TMG_CHCFG_CH_RATE : Fld :=
  { addr := 0x1001000, s1 := 0x20, lo := 0, w := 24, acc := .rw, img := true }
/-- CH_BURST of TMG_CHCFG (R226). -/
def TMG_CHCFG_CH_BURST : Fld :=
  { addr := 0x1001000, s1 := 0x20, lo := 24, w := 24, acc := .rw, dflt := .const 65536, img := true }
/-- SCHED_EN of TMG_CHCFG (R226). -/
def TMG_CHCFG_SCHED_EN : Fld :=
  { addr := 0x1001000, s1 := 0x20, lo := 48, w := 1, acc := .rw, dflt := .const 1, img := true }
/-- V_COM of TMG_CHVT (R226). -/
def TMG_CHVT_V_COM : Fld :=
  { addr := 0x1001008, s1 := 0x20, lo := 0, w := 32, acc := .ro }
/-- V_EXC of TMG_CHVT (R226). -/
def TMG_CHVT_V_EXC : Fld :=
  { addr := 0x1001008, s1 := 0x20, lo := 32, w := 32, acc := .ro }
/-- TAIL of TMG_CHSTAT (R226). -/
def TMG_CHSTAT_TAIL : Fld :=
  { addr := 0x1001010, s1 := 0x20, lo := 0, w := 1, acc := .w1c, cntAddr := 0x1008020, cntStride := 0x100 }
/-- DE of TMG_CHSTAT (R226). -/
def TMG_CHSTAT_DE : Fld :=
  { addr := 0x1001010, s1 := 0x20, lo := 1, w := 1, acc := .w1c, cntAddr := 0x1008028, cntStride := 0x100 }
/-- EARLY of TMG_CHSTAT (R226). -/
def TMG_CHSTAT_EARLY : Fld :=
  { addr := 0x1001010, s1 := 0x20, lo := 2, w := 1, acc := .w1c, cntAddr := 0x1008030, cntStride := 0x100 }
/-- ECN of TMG_CHSTAT (R226). -/
def TMG_CHSTAT_ECN : Fld :=
  { addr := 0x1001010, s1 := 0x20, lo := 3, w := 1, acc := .w1c, cntAddr := 0x1008038, cntStride := 0x100 }
/-- FLUSH of TMG_CHSTAT (R226). -/
def TMG_CHSTAT_FLUSH : Fld :=
  { addr := 0x1001010, s1 := 0x20, lo := 4, w := 1, acc := .w1c, cntAddr := 0x1008040, cntStride := 0x100 }
/-- REFUSED of TMG_CHSTAT (R226). -/
def TMG_CHSTAT_REFUSED : Fld :=
  { addr := 0x1001010, s1 := 0x20, lo := 5, w := 1, acc := .w1c, cntAddr := 0x1008048, cntStride := 0x100 }
/-- MGMT_DEPTH of TMG_CHSTAT (R226). -/
def TMG_CHSTAT_MGMT_DEPTH : Fld :=
  { addr := 0x1001010, s1 := 0x20, lo := 16, w := 7, acc := .ro }
/-- COUNT of TMG_CHCNT (R227). -/
def TMG_CHCNT_COUNT : Fld :=
  { addr := 0x1008000, s1 := 0x100, s2 := 0x8, lo := 0, w := 40, acc := .ro }
/-- COUNT of TMG_EGCNT (R227). -/
def TMG_EGCNT_COUNT : Fld :=
  { addr := 0x1020000, s1 := 0x40, s2 := 0x8, lo := 0, w := 40, acc := .ro }
/-- INDEX of TMG_IND_CTL (R228). -/
def TMG_IND_CTL_INDEX : Fld :=
  { addr := 0x1040000, lo := 0, w := 17, acc := .rw }
/-- TABLE of TMG_IND_CTL (R228). -/
def TMG_IND_CTL_TABLE : Fld :=
  { addr := 0x1040000, lo := 17, w := 3, acc := .rw }
/-- WRITE of TMG_IND_CTL (R228). -/
def TMG_IND_CTL_WRITE : Fld :=
  { addr := 0x1040000, lo := 24, w := 1, acc := .rw }
/-- GO of TMG_IND_CTL (R228). -/
def TMG_IND_CTL_GO : Fld :=
  { addr := 0x1040000, lo := 32, w := 1, acc := .w1s }
/-- BUSY of TMG_IND_CTL (R228). -/
def TMG_IND_CTL_BUSY : Fld :=
  { addr := 0x1040000, lo := 33, w := 1, acc := .ro }
/-- REFUSED of TMG_IND_CTL (R228). -/
def TMG_IND_CTL_REFUSED : Fld :=
  { addr := 0x1040000, lo := 34, w := 1, acc := .w1c }
/-- DATA of TMG_IND_DATA (R228). -/
def TMG_IND_DATA_DATA : Fld :=
  { addr := 0x1040008, s1 := 0x8, lo := 0, w := 64, acc := .rw }
/-- DEPTH_D of PAR_CFG (R309). -/
def PAR_CFG_DEPTH_D : Fld :=
  { addr := 0x1400000, lo := 0, w := 6, acc := .rw, dflt := .const 16, img := true, ranged := true, mn := 8, mx := 32 }
/-- DEPTH_U of PAR_CFG (R309). -/
def PAR_CFG_DEPTH_U : Fld :=
  { addr := 0x1400000, lo := 8, w := 6, acc := .rw, dflt := .const 16, img := true, ranged := true, mn := 8, mx := 32 }
/-- KEY_INNER_D of PAR_CFG (R309). -/
def PAR_CFG_KEY_INNER_D : Fld :=
  { addr := 0x1400000, lo := 16, w := 1, acc := .rw, img := true }
/-- KEY_INNER_U of PAR_CFG (R309). -/
def PAR_CFG_KEY_INNER_U : Fld :=
  { addr := 0x1400000, lo := 17, w := 1, acc := .rw, img := true }
/-- L3ERR_DROP of PAR_CFG (R309). -/
def PAR_CFG_L3ERR_DROP : Fld :=
  { addr := 0x1400000, lo := 18, w := 1, acc := .rw, dflt := .const 1, img := true }
/-- TPID_X of PAR_TPID (R310). -/
def PAR_TPID_TPID_X : Fld :=
  { addr := 0x1400008, lo := 0, w := 16, acc := .rw, dflt := .const 37120, img := true }
/-- TPID_Y of PAR_TPID (R310). -/
def PAR_TPID_TPID_Y : Fld :=
  { addr := 0x1400008, lo := 16, w := 16, acc := .rw, img := true }
/-- X_EN of PAR_TPID (R310). -/
def PAR_TPID_X_EN : Fld :=
  { addr := 0x1400008, lo := 32, w := 1, acc := .rw, dflt := .const 1, img := true }
/-- Y_EN of PAR_TPID (R310). -/
def PAR_TPID_Y_EN : Fld :=
  { addr := 0x1400008, lo := 33, w := 1, acc := .rw, img := true }
/-- VXLAN_PORT of PAR_TUN (R310). -/
def PAR_TUN_VXLAN_PORT : Fld :=
  { addr := 0x1400010, lo := 0, w := 16, acc := .rw, dflt := .const 4789, img := true }
/-- GTP_PORT of PAR_TUN (R310). -/
def PAR_TUN_GTP_PORT : Fld :=
  { addr := 0x1400010, lo := 16, w := 16, acc := .rw, dflt := .const 2152, img := true }
/-- VXLAN_EN of PAR_TUN (R310). -/
def PAR_TUN_VXLAN_EN : Fld :=
  { addr := 0x1400010, lo := 32, w := 1, acc := .rw, dflt := .const 1, img := true }
/-- GRE_EN of PAR_TUN (R310). -/
def PAR_TUN_GRE_EN : Fld :=
  { addr := 0x1400010, lo := 33, w := 1, acc := .rw, dflt := .const 1, img := true }
/-- GTP_EN of PAR_TUN (R310). -/
def PAR_TUN_GTP_EN : Fld :=
  { addr := 0x1400010, lo := 34, w := 1, acc := .rw, dflt := .const 1, img := true }
/-- TIMEOUT_MS of PAR_FRAGCFG (R311). -/
def PAR_FRAGCFG_TIMEOUT_MS : Fld :=
  { addr := 0x1400018, lo := 0, w := 8, acc := .rw, dflt := .const 16, img := true, ranged := true, mn := 1, mx := 255 }
/-- MISS_ACT of PAR_FRAGCFG (R311). -/
def PAR_FRAGCFG_MISS_ACT : Fld :=
  { addr := 0x1400018, lo := 8, w := 1, acc := .rw, img := true }
/-- FRAG_EN of PAR_FRAGCFG (R311). -/
def PAR_FRAGCFG_FRAG_EN : Fld :=
  { addr := 0x1400018, lo := 9, w := 1, acc := .rw, dflt := .const 1, img := true }
/-- TRUNC of PAR_STAT (R312). -/
def PAR_STAT_TRUNC : Fld :=
  { addr := 0x1400020, lo := 0, w := 1, acc := .w1c }
/-- L3ERR of PAR_STAT (R312). -/
def PAR_STAT_L3ERR : Fld :=
  { addr := 0x1400020, lo := 1, w := 1, acc := .w1c }
/-- FRAGOVF of PAR_STAT (R312). -/
def PAR_STAT_FRAGOVF : Fld :=
  { addr := 0x1400020, lo := 2, w := 1, acc := .w1c }
/-- FRAGTO of PAR_STAT (R312). -/
def PAR_STAT_FRAGTO : Fld :=
  { addr := 0x1400020, lo := 3, w := 1, acc := .w1c }
/-- FRAGMISS of PAR_STAT (R312). -/
def PAR_STAT_FRAGMISS : Fld :=
  { addr := 0x1400020, lo := 4, w := 1, acc := .w1c }
/-- REFUSED of PAR_STAT (R312). -/
def PAR_STAT_REFUSED : Fld :=
  { addr := 0x1400020, lo := 5, w := 1, acc := .w1c }
/-- IN_USE of PAR_FRAGSTAT (R311). -/
def PAR_FRAGSTAT_IN_USE : Fld :=
  { addr := 0x1400028, lo := 0, w := 14, acc := .ro }
/-- ACT of PAR_DEFACT (R313). -/
def PAR_DEFACT_ACT : Fld :=
  { addr := 0x1400040, s1 := 0x10, s2 := 0x8, lo := 0, w := 64, acc := .rw, img := true }
/-- LOW of PAR_RANGE (R313). -/
def PAR_RANGE_LOW : Fld :=
  { addr := 0x1400100, s1 := 0x8, lo := 0, w := 16, acc := .rw, img := true }
/-- HIGH of PAR_RANGE (R313). -/
def PAR_RANGE_HIGH : Fld :=
  { addr := 0x1400100, s1 := 0x8, lo := 16, w := 16, acc := .rw, img := true }
/-- SRC of PAR_RANGE (R313). -/
def PAR_RANGE_SRC : Fld :=
  { addr := 0x1400100, s1 := 0x8, lo := 32, w := 4, acc := .rw, img := true }
/-- DIR of PAR_RANGE (R313). -/
def PAR_RANGE_DIR : Fld :=
  { addr := 0x1400100, s1 := 0x8, lo := 36, w := 2, acc := .rw, img := true }
/-- COUNT of PAR_CNT (R314). -/
def PAR_CNT_COUNT : Fld :=
  { addr := 0x1400400, s1 := 0x100, s2 := 0x8, lo := 0, w := 40, acc := .ro }
/-- INDEX of PAR_IND_CTL (R315). -/
def PAR_IND_CTL_INDEX : Fld :=
  { addr := 0x1410000, lo := 0, w := 13, acc := .rw }
/-- TABLE of PAR_IND_CTL (R315). -/
def PAR_IND_CTL_TABLE : Fld :=
  { addr := 0x1410000, lo := 13, w := 2, acc := .rw }
/-- WRITE of PAR_IND_CTL (R315). -/
def PAR_IND_CTL_WRITE : Fld :=
  { addr := 0x1410000, lo := 24, w := 1, acc := .rw }
/-- GO of PAR_IND_CTL (R315). -/
def PAR_IND_CTL_GO : Fld :=
  { addr := 0x1410000, lo := 32, w := 1, acc := .w1s }
/-- BUSY of PAR_IND_CTL (R315). -/
def PAR_IND_CTL_BUSY : Fld :=
  { addr := 0x1410000, lo := 33, w := 1, acc := .ro }
/-- REFUSED of PAR_IND_CTL (R315). -/
def PAR_IND_CTL_REFUSED : Fld :=
  { addr := 0x1410000, lo := 34, w := 1, acc := .w1c }
/-- DATA of PAR_IND_DATA (R315). -/
def PAR_IND_DATA_DATA : Fld :=
  { addr := 0x1410008, s1 := 0x8, lo := 0, w := 64, acc := .rw }
/-- AGE_S of FWD_CFG (R335). -/
def FWD_CFG_AGE_S : Fld :=
  { addr := 0x1500000, lo := 0, w := 16, acc := .rw, dflt := .const 300, img := true, ranged := true, mn := 3, mx := 65535 }
/-- LEARN_EN of FWD_CFG (R335). -/
def FWD_CFG_LEARN_EN : Fld :=
  { addr := 0x1500000, lo := 16, w := 1, acc := .rw, dflt := .const 1, img := true }
/-- PARTNER_LEARN of FWD_CFG (R335). -/
def FWD_CFG_PARTNER_LEARN : Fld :=
  { addr := 0x1500000, lo := 17, w := 1, acc := .rw, dflt := .const 1, img := true }
/-- FULL of FWD_STAT (R336). -/
def FWD_STAT_FULL : Fld :=
  { addr := 0x1500008, lo := 0, w := 1, acc := .w1c, cntAddr := 0x1500140 }
/-- LDROP of FWD_STAT (R336). -/
def FWD_STAT_LDROP : Fld :=
  { addr := 0x1500008, lo := 1, w := 1, acc := .w1c, cntAddr := 0x1500148 }
/-- EXCESS of FWD_STAT (R336). -/
def FWD_STAT_EXCESS : Fld :=
  { addr := 0x1500008, lo := 2, w := 1, acc := .w1c, cntAddr := 0x1500138 }
/-- STATICV of FWD_STAT (R336). -/
def FWD_STAT_STATICV : Fld :=
  { addr := 0x1500008, lo := 3, w := 1, acc := .w1c, cntAddr := 0x1500158 }
/-- NOSVC of FWD_STAT (R336). -/
def FWD_STAT_NOSVC : Fld :=
  { addr := 0x1500008, lo := 4, w := 1, acc := .w1c, cntAddr := 0x1500150 }
/-- TRUNC of FWD_STAT (R336). -/
def FWD_STAT_TRUNC : Fld :=
  { addr := 0x1500008, lo := 5, w := 1, acc := .w1c, cntAddr := 0x1500188 }
/-- REFUSED of FWD_STAT (R336). -/
def FWD_STAT_REFUSED : Fld :=
  { addr := 0x1500008, lo := 6, w := 1, acc := .w1c, cntAddr := 0x1500190 }
/-- LEARN_QUEUE of FWD_STAT (R336). -/
def FWD_STAT_LEARN_QUEUE : Fld :=
  { addr := 0x1500008, lo := 16, w := 13, acc := .ro }
/-- BRIDGE_USED of FWD_USE (R337). -/
def FWD_USE_BRIDGE_USED : Fld :=
  { addr := 0x1500010, lo := 0, w := 21, acc := .ro }
/-- PREFIX_USED of FWD_USE (R337). -/
def FWD_USE_PREFIX_USED : Fld :=
  { addr := 0x1500010, lo := 24, w := 17, acc := .ro }
/-- HOST_USED of FWD_USE (R337). -/
def FWD_USE_HOST_USED : Fld :=
  { addr := 0x1500010, lo := 41, w := 19, acc := .ro }
/-- ID of FWD_FLUSH (R338). -/
def FWD_FLUSH_ID : Fld :=
  { addr := 0x1500018, lo := 0, w := 17, acc := .rw }
/-- SCOPE of FWD_FLUSH (R338). -/
def FWD_FLUSH_SCOPE : Fld :=
  { addr := 0x1500018, lo := 17, w := 2, acc := .rw }
/-- GO of FWD_FLUSH (R338). -/
def FWD_FLUSH_GO : Fld :=
  { addr := 0x1500018, lo := 32, w := 1, acc := .w1s }
/-- BUSY of FWD_FLUSH (R338). -/
def FWD_FLUSH_BUSY : Fld :=
  { addr := 0x1500018, lo := 33, w := 1, acc := .ro }
/-- COUNT of FWD_CNT (R339). -/
def FWD_CNT_COUNT : Fld :=
  { addr := 0x1500100, s1 := 0x8, lo := 0, w := 40, acc := .ro }
/-- INDEX of FWD_IND_CTL (R340). -/
def FWD_IND_CTL_INDEX : Fld :=
  { addr := 0x1510000, lo := 0, w := 20, acc := .rw }
/-- TABLE of FWD_IND_CTL (R340). -/
def FWD_IND_CTL_TABLE : Fld :=
  { addr := 0x1510000, lo := 20, w := 3, acc := .rw }
/-- WRITE of FWD_IND_CTL (R340). -/
def FWD_IND_CTL_WRITE : Fld :=
  { addr := 0x1510000, lo := 24, w := 1, acc := .rw }
/-- REMOVE of FWD_IND_CTL (R340). -/
def FWD_IND_CTL_REMOVE : Fld :=
  { addr := 0x1510000, lo := 25, w := 1, acc := .rw }
/-- GO of FWD_IND_CTL (R340). -/
def FWD_IND_CTL_GO : Fld :=
  { addr := 0x1510000, lo := 32, w := 1, acc := .w1s }
/-- BUSY of FWD_IND_CTL (R340). -/
def FWD_IND_CTL_BUSY : Fld :=
  { addr := 0x1510000, lo := 33, w := 1, acc := .ro }
/-- REFUSED of FWD_IND_CTL (R340). -/
def FWD_IND_CTL_REFUSED : Fld :=
  { addr := 0x1510000, lo := 34, w := 1, acc := .w1c, cntAddr := 0x1500190 }
/-- DATA of FWD_IND_DATA (R340). -/
def FWD_IND_DATA_DATA : Fld :=
  { addr := 0x1510008, s1 := 0x8, lo := 0, w := 64, acc := .rw }
/-- POOL0_MIB of BUF_CFG (R353). -/
def BUF_CFG_POOL0_MIB : Fld :=
  { addr := 0x1800000, lo := 0, w := 8, acc := .rwl, dflt := .const 16, img := true }
/-- POOL1_MIB of BUF_CFG (R353). -/
def BUF_CFG_POOL1_MIB : Fld :=
  { addr := 0x1800000, lo := 8, w := 8, acc := .rwl, dflt := .const 48, img := true }
/-- POOL2_MIB of BUF_CFG (R353). -/
def BUF_CFG_POOL2_MIB : Fld :=
  { addr := 0x1800000, lo := 16, w := 8, acc := .rwl, dflt := .const 64, img := true }
/-- POOL3_MIB of BUF_CFG (R353). -/
def BUF_CFG_POOL3_MIB : Fld :=
  { addr := 0x1800000, lo := 24, w := 8, acc := .rwl, dflt := .const 64, img := true }
/-- SPILL_EN of BUF_CFG (R353). -/
def BUF_CFG_SPILL_EN : Fld :=
  { addr := 0x1800000, lo := 32, w := 1, acc := .rw, dflt := .const 1, img := true }
/-- NOBUF of BUF_STAT (R354). -/
def BUF_STAT_NOBUF : Fld :=
  { addr := 0x1800008, lo := 0, w := 1, acc := .w1c, cntAddr := 0x1800200 }
/-- FALLBACK of BUF_STAT (R354). -/
def BUF_STAT_FALLBACK : Fld :=
  { addr := 0x1800008, lo := 1, w := 1, acc := .w1c, cntAddr := 0x1800208 }
/-- SPILLFULL of BUF_STAT (R354). -/
def BUF_STAT_SPILLFULL : Fld :=
  { addr := 0x1800008, lo := 2, w := 1, acc := .w1c, cntAddr := 0x1800210 }
/-- SPILLLOST of BUF_STAT (R354). -/
def BUF_STAT_SPILLLOST : Fld :=
  { addr := 0x1800008, lo := 3, w := 1, acc := .w1c, cntAddr := 0x1800218 }
/-- HEADWAIT of BUF_STAT (R354). -/
def BUF_STAT_HEADWAIT : Fld :=
  { addr := 0x1800008, lo := 4, w := 1, acc := .w1c, cntAddr := 0x1800220 }
/-- REFUSED of BUF_STAT (R354). -/
def BUF_STAT_REFUSED : Fld :=
  { addr := 0x1800008, lo := 5, w := 1, acc := .w1c, cntAddr := 0x1800248 }
/-- PAGES_USED of BUF_SPILLSTAT (R355). -/
def BUF_SPILLSTAT_PAGES_USED : Fld :=
  { addr := 0x1800010, lo := 0, w := 22, acc := .ro }
/-- PAGES_TOTAL of BUF_SPILLSTAT (R355). -/
def BUF_SPILLSTAT_PAGES_TOTAL : Fld :=
  { addr := 0x1800010, lo := 24, w := 22, acc := .ro }
/-- FREE of BUF_POOLSTAT (R355). -/
def BUF_POOLSTAT_FREE : Fld :=
  { addr := 0x1800100, s1 := 0x8, lo := 0, w := 20, acc := .ro }
/-- LOW of BUF_POOLSTAT (R355). -/
def BUF_POOLSTAT_LOW : Fld :=
  { addr := 0x1800100, s1 := 0x8, lo := 20, w := 20, acc := .ro }
/-- COUNT of BUF_CNT (R356). -/
def BUF_CNT_COUNT : Fld :=
  { addr := 0x1800200, s1 := 0x8, lo := 0, w := 40, acc := .ro }
/-- INDEX of BUF_IND_CTL (R357). -/
def BUF_IND_CTL_INDEX : Fld :=
  { addr := 0x1810000, lo := 0, w := 10, acc := .rw }
/-- TABLE of BUF_IND_CTL (R357). -/
def BUF_IND_CTL_TABLE : Fld :=
  { addr := 0x1810000, lo := 10, w := 2, acc := .rw }
/-- WRITE of BUF_IND_CTL (R357). -/
def BUF_IND_CTL_WRITE : Fld :=
  { addr := 0x1810000, lo := 24, w := 1, acc := .rw }
/-- GO of BUF_IND_CTL (R357). -/
def BUF_IND_CTL_GO : Fld :=
  { addr := 0x1810000, lo := 32, w := 1, acc := .w1s }
/-- BUSY of BUF_IND_CTL (R357). -/
def BUF_IND_CTL_BUSY : Fld :=
  { addr := 0x1810000, lo := 33, w := 1, acc := .ro }
/-- REFUSED of BUF_IND_CTL (R357). -/
def BUF_IND_CTL_REFUSED : Fld :=
  { addr := 0x1810000, lo := 34, w := 1, acc := .w1c, cntAddr := 0x1800248 }
/-- DATA of BUF_IND_DATA (R357). -/
def BUF_IND_DATA_DATA : Fld :=
  { addr := 0x1810008, s1 := 0x8, lo := 0, w := 64, acc := .rw }
/-- SPARE_EN of MEM_CFG (R380). -/
def MEM_CFG_SPARE_EN : Fld :=
  { addr := 0x1900000, lo := 0, w := 1, acc := .rwl, dflt := .const 1, img := true }
/-- RETIRE_UNCORR of MEM_CFG (R380). -/
def MEM_CFG_RETIRE_UNCORR : Fld :=
  { addr := 0x1900000, lo := 4, w := 4, acc := .rw, dflt := .const 1, img := true, ranged := true, mn := 1, mx := 15 }
/-- MIGRATE_SHARE of MEM_CFG (R380). -/
def MEM_CFG_MIGRATE_SHARE : Fld :=
  { addr := 0x1900000, lo := 8, w := 8, acc := .rw, dflt := .const 50, img := true, ranged := true, mn := 10, mx := 100 }
/-- PRED_THRESH of MEM_CFG (R380). -/
def MEM_CFG_PRED_THRESH : Fld :=
  { addr := 0x1900000, lo := 16, w := 2, acc := .rw, dflt := .const 2, img := true }
/-- ROW_HIT_MAX of MEM_CFG (R380). -/
def MEM_CFG_ROW_HIT_MAX : Fld :=
  { addr := 0x1900000, lo := 24, w := 8, acc := .rw, dflt := .const 16, img := true, ranged := true, mn := 1, mx := 255 }
/-- WB_SPILL_STOP of MEM_CFG (R380). -/
def MEM_CFG_WB_SPILL_STOP : Fld :=
  { addr := 0x1900000, lo := 32, w := 10, acc := .rw, dflt := .const 768, img := true, ranged := true, mn := 256, mx := 1000 }
/-- PAGE_TIMEOUT of MEM_CFG (R380). -/
def MEM_CFG_PAGE_TIMEOUT : Fld :=
  { addr := 0x1900000, lo := 48, w := 8, acc := .rw, dflt := .const 50, img := true, ranged := true, mn := 1, mx := 255 }
/-- REF_POSTPONE of MEM_CFG (R380). -/
def MEM_CFG_REF_POSTPONE : Fld :=
  { addr := 0x1900000, lo := 56, w := 4, acc := .rw, dflt := .const 8, img := true, ranged := true, mn := 1, mx := 8 }
/-- LEVEL of MEM_THROTTLE (R381). -/
def MEM_THROTTLE_LEVEL : Fld :=
  { addr := 0x1900008, lo := 0, w := 2, acc := .rw }
/-- BY_QUILL of MEM_THROTTLE (R381). -/
def MEM_THROTTLE_BY_QUILL : Fld :=
  { addr := 0x1900008, lo := 2, w := 1, acc := .ro }
/-- REPLAY of MEM_STAT (R382). -/
def MEM_STAT_REPLAY : Fld :=
  { addr := 0x1900010, lo := 0, w := 1, acc := .w1c, cntAddr := 0x1900448 }
/-- UNCORR of MEM_STAT (R382). -/
def MEM_STAT_UNCORR : Fld :=
  { addr := 0x1900010, lo := 1, w := 1, acc := .w1c, cntAddr := 0x1900450 }
/-- RETIRED of MEM_STAT (R382). -/
def MEM_STAT_RETIRED : Fld :=
  { addr := 0x1900010, lo := 2, w := 1, acc := .w1c, cntAddr := 0x1900458 }
/-- DEAD of MEM_STAT (R382). -/
def MEM_STAT_DEAD : Fld :=
  { addr := 0x1900010, lo := 3, w := 1, acc := .w1c, cntAddr := 0x1900460 }
/-- HOT of MEM_STAT (R382). -/
def MEM_STAT_HOT : Fld :=
  { addr := 0x1900010, lo := 4, w := 1, acc := .w1c, cntAddr := 0x1900470 }
/-- REFURG of MEM_STAT (R382). -/
def MEM_STAT_REFURG : Fld :=
  { addr := 0x1900010, lo := 5, w := 1, acc := .w1c, cntAddr := 0x1900430 }
/-- SPILLSTOP of MEM_STAT (R382). -/
def MEM_STAT_SPILLSTOP : Fld :=
  { addr := 0x1900010, lo := 6, w := 1, acc := .w1c, cntAddr := 0x1900490 }
/-- POISONOVF of MEM_STAT (R382). -/
def MEM_STAT_POISONOVF : Fld :=
  { addr := 0x1900010, lo := 7, w := 1, acc := .w1c, cntAddr := 0x1900480 }
/-- REFUSED of MEM_STAT (R382). -/
def MEM_STAT_REFUSED : Fld :=
  { addr := 0x1900010, lo := 8, w := 1, acc := .w1c, cntAddr := 0x1900498 }
/-- FAILED of MEM_STAT (R382). -/
def MEM_STAT_FAILED : Fld :=
  { addr := 0x1900010, lo := 9, w := 1, acc := .w1c, cntAddr := 0x1900478 }
/-- ACTIVE of MEM_MIGSTAT (R383). -/
def MEM_MIGSTAT_ACTIVE : Fld :=
  { addr := 0x1900018, lo := 0, w := 1, acc := .ro }
/-- STACK of MEM_MIGSTAT (R383). -/
def MEM_MIGSTAT_STACK : Fld :=
  { addr := 0x1900018, lo := 1, w := 2, acc := .ro }
/-- CHANNEL of MEM_MIGSTAT (R383). -/
def MEM_MIGSTAT_CHANNEL : Fld :=
  { addr := 0x1900018, lo := 3, w := 4, acc := .ro }
/-- PSID of MEM_MIGSTAT (R383). -/
def MEM_MIGSTAT_PSID : Fld :=
  { addr := 0x1900018, lo := 7, w := 2, acc := .ro }
/-- CURSOR of MEM_MIGSTAT (R383). -/
def MEM_MIGSTAT_CURSOR : Fld :=
  { addr := 0x1900018, lo := 32, w := 21, acc := .ro }
/-- QUEUED of MEM_MIGSTAT (R383). -/
def MEM_MIGSTAT_QUEUED : Fld :=
  { addr := 0x1900018, lo := 53, w := 5, acc := .ro }
/-- STACK of MEM_RETIRE (R384). -/
def MEM_RETIRE_STACK : Fld :=
  { addr := 0x1900020, lo := 0, w := 2, acc := .rw }
/-- CHANNEL of MEM_RETIRE (R384). -/
def MEM_RETIRE_CHANNEL : Fld :=
  { addr := 0x1900020, lo := 2, w := 4, acc := .rw }
/-- PSID of MEM_RETIRE (R384). -/
def MEM_RETIRE_PSID : Fld :=
  { addr := 0x1900020, lo := 6, w := 2, acc := .rw }
/-- GO of MEM_RETIRE (R384). -/
def MEM_RETIRE_GO : Fld :=
  { addr := 0x1900020, lo := 32, w := 1, acc := .w1s }
/-- REFUSED of MEM_RETIRE (R384). -/
def MEM_RETIRE_REFUSED : Fld :=
  { addr := 0x1900020, lo := 33, w := 1, acc := .w1c, cntAddr := 0x1900498 }
/-- MASK of MEM_MAP (R385). -/
def MEM_MAP_MASK : Fld :=
  { addr := 0x1900100, s1 := 0x8, lo := 0, w := 34, acc := .rwl, dflt := .memMap, img := true }
/-- TARGET_NS of MEM_QOS (R386). -/
def MEM_QOS_TARGET_NS : Fld :=
  { addr := 0x1900200, s1 := 0x8, lo := 0, w := 20, acc := .rw, dflt := .qosTarget, img := true, ranged := true, mn := 100, mx := 1000000 }
/-- TAG_RESERVE of MEM_QOS (R386). -/
def MEM_QOS_TAG_RESERVE : Fld :=
  { addr := 0x1900200, s1 := 0x8, lo := 20, w := 12, acc := .rw, dflt := .qosReserve, img := true }
/-- LATE of MEM_QOSCNT (R386). -/
def MEM_QOSCNT_LATE : Fld :=
  { addr := 0x1900280, s1 := 0x8, lo := 0, w := 40, acc := .ro }
/-- STATE of MEM_STACK (R387). -/
def MEM_STACK_STATE : Fld :=
  { addr := 0x1900300, s1 := 0x8, lo := 0, w := 3, acc := .ro }
/-- TEMP of MEM_STACK (R387). -/
def MEM_STACK_TEMP : Fld :=
  { addr := 0x1900300, s1 := 0x8, lo := 8, w := 8, acc := .ro }
/-- RATE of MEM_STACK (R387). -/
def MEM_STACK_RATE : Fld :=
  { addr := 0x1900300, s1 := 0x8, lo := 16, w := 2, acc := .ro }
/-- OWED_MAX of MEM_STACK (R387). -/
def MEM_STACK_OWED_MAX : Fld :=
  { addr := 0x1900300, s1 := 0x8, lo := 24, w := 6, acc := .ro }
/-- COUNT of MEM_CNT (R389). -/
def MEM_CNT_COUNT : Fld :=
  { addr := 0x1900400, s1 := 0x8, lo := 0, w := 40, acc := .ro }
/-- MAP of MEM_UNIT (R388). -/
def MEM_UNIT_MAP : Fld :=
  { addr := 0x1901000, s1 := 0x80, s2 := 0x8, lo := 0, w := 8, acc := .ro, dflt := .const 228 }
/-- SPARE of MEM_UNIT (R388). -/
def MEM_UNIT_SPARE : Fld :=
  { addr := 0x1901000, s1 := 0x80, s2 := 0x8, lo := 8, w := 2, acc := .ro, dflt := .const 3 }
/-- SPARE_USED of MEM_UNIT (R388). -/
def MEM_UNIT_SPARE_USED : Fld :=
  { addr := 0x1901000, s1 := 0x80, s2 := 0x8, lo := 10, w := 1, acc := .ro }
/-- MIGRATING of MEM_UNIT (R388). -/
def MEM_UNIT_MIGRATING : Fld :=
  { addr := 0x1901000, s1 := 0x80, s2 := 0x8, lo := 11, w := 1, acc := .ro }
/-- DEAD of MEM_UNIT (R388). -/
def MEM_UNIT_DEAD : Fld :=
  { addr := 0x1901000, s1 := 0x80, s2 := 0x8, lo := 12, w := 4, acc := .ro }
/-- UNCORR of MEM_UNIT (R388). -/
def MEM_UNIT_UNCORR : Fld :=
  { addr := 0x1901000, s1 := 0x80, s2 := 0x8, lo := 16, w := 16, acc := .ro }
/-- MODE of UPL_QUADCFG (R404). -/
def UPL_QUADCFG_MODE : Fld :=
  { addr := 0x1A00000, s1 := 0x4000, lo := 0, w := 2, acc := .rwl, dflt := .const 2, img := true }
/-- RX_EN of UPL_MACCFG (R405). -/
def UPL_MACCFG_RX_EN : Fld :=
  { addr := 0x1A00008, s1 := 0x1000, lo := 0, w := 1, acc := .rw, dflt := .const 1, img := true }
/-- TX_EN of UPL_MACCFG (R405). -/
def UPL_MACCFG_TX_EN : Fld :=
  { addr := 0x1A00008, s1 := 0x1000, lo := 1, w := 1, acc := .rw, dflt := .const 1, img := true }
/-- POP_EN of UPL_MACCFG (R405). -/
def UPL_MACCFG_POP_EN : Fld :=
  { addr := 0x1A00008, s1 := 0x1000, lo := 2, w := 1, acc := .rw, img := true }
/-- PAUSE_RX_EN of UPL_MACCFG (R405). -/
def UPL_MACCFG_PAUSE_RX_EN : Fld :=
  { addr := 0x1A00008, s1 := 0x1000, lo := 3, w := 1, acc := .rw, dflt := .const 1, img := true }
/-- PFC_RX_EN of UPL_MACCFG (R405). -/
def UPL_MACCFG_PFC_RX_EN : Fld :=
  { addr := 0x1A00008, s1 := 0x1000, lo := 4, w := 1, acc := .rw, dflt := .const 1, img := true }
/-- PCP_FROM_TC of UPL_MACCFG (R405). -/
def UPL_MACCFG_PCP_FROM_TC : Fld :=
  { addr := 0x1A00008, s1 := 0x1000, lo := 5, w := 1, acc := .rw, img := true }
/-- DEI_MARK of UPL_MACCFG (R405). -/
def UPL_MACCFG_DEI_MARK : Fld :=
  { addr := 0x1A00008, s1 := 0x1000, lo := 6, w := 1, acc := .rw, img := true }
/-- DOWN_FLUSH of UPL_MACCFG (R405). -/
def UPL_MACCFG_DOWN_FLUSH : Fld :=
  { addr := 0x1A00008, s1 := 0x1000, lo := 7, w := 1, acc := .rw, img := true }
/-- MAC_LOOP of UPL_MACCFG (R405). -/
def UPL_MACCFG_MAC_LOOP : Fld :=
  { addr := 0x1A00008, s1 := 0x1000, lo := 8, w := 1, acc := .rw }
/-- RX_MAX_FRAME of UPL_MACCFG (R405). -/
def UPL_MACCFG_RX_MAX_FRAME : Fld :=
  { addr := 0x1A00008, s1 := 0x1000, lo := 16, w := 14, acc := .rw, dflt := .const 16012, img := true, ranged := true, mn := 1518, mx := 16012 }
/-- START_BASE of UPL_MACCFG (R405). -/
def UPL_MACCFG_START_BASE : Fld :=
  { addr := 0x1A00008, s1 := 0x1000, lo := 32, w := 7, acc := .rw, dflt := .const 1, img := true, ranged := true, mn := 1, mx := 64 }
/-- STORM_MS of UPL_MACCFG (R405). -/
def UPL_MACCFG_STORM_MS : Fld :=
  { addr := 0x1A00008, s1 := 0x1000, lo := 40, w := 8, acc := .rw, dflt := .const 100, img := true }
/-- LINK_HOLD_MS of UPL_MACCFG (R405). -/
def UPL_MACCFG_LINK_HOLD_MS : Fld :=
  { addr := 0x1A00008, s1 := 0x1000, lo := 48, w := 8, acc := .rw, dflt := .const 10, img := true, ranged := true, mn := 1, mx := 255 }
/-- POP_TPID of UPL_TAGCFG (R406). -/
def UPL_TAGCFG_POP_TPID : Fld :=
  { addr := 0x1A00010, s1 := 0x1000, lo := 0, w := 16, acc := .rw, dflt := .const 34984, img := true }
/-- PUSH_TPID_OUTER of UPL_TAGCFG (R406). -/
def UPL_TAGCFG_PUSH_TPID_OUTER : Fld :=
  { addr := 0x1A00010, s1 := 0x1000, lo := 16, w := 16, acc := .rw, dflt := .const 34984, img := true }
/-- PUSH_TPID_INNER of UPL_TAGCFG (R406). -/
def UPL_TAGCFG_PUSH_TPID_INNER : Fld :=
  { addr := 0x1A00010, s1 := 0x1000, lo := 32, w := 16, acc := .rw, dflt := .const 33024, img := true }
/-- LINK_UP of UPL_STAT (R407). -/
def UPL_STAT_LINK_UP : Fld :=
  { addr := 0x1A00018, s1 := 0x1000, lo := 0, w := 1, acc := .ro }
/-- ALIGNED of UPL_STAT (R407). -/
def UPL_STAT_ALIGNED : Fld :=
  { addr := 0x1A00018, s1 := 0x1000, lo := 1, w := 1, acc := .ro }
/-- LOCAL_FAULT of UPL_STAT (R407). -/
def UPL_STAT_LOCAL_FAULT : Fld :=
  { addr := 0x1A00018, s1 := 0x1000, lo := 2, w := 1, acc := .ro }
/-- REMOTE_FAULT of UPL_STAT (R407). -/
def UPL_STAT_REMOTE_FAULT : Fld :=
  { addr := 0x1A00018, s1 := 0x1000, lo := 3, w := 1, acc := .ro }
/-- LINKDOWN of UPL_STAT (R407). -/
def UPL_STAT_LINKDOWN : Fld :=
  { addr := 0x1A00018, s1 := 0x1000, lo := 4, w := 1, acc := .w1c, cntAddr := 0x1A00268, cntStride := 0x1000 }
/-- UNDERRUN of UPL_STAT (R407). -/
def UPL_STAT_UNDERRUN : Fld :=
  { addr := 0x1A00018, s1 := 0x1000, lo := 5, w := 1, acc := .w1c, cntAddr := 0x1A001E0, cntStride := 0x1000 }
/-- ABORT of UPL_STAT (R407). -/
def UPL_STAT_ABORT : Fld :=
  { addr := 0x1A00018, s1 := 0x1000, lo := 6, w := 1, acc := .w1c, cntAddr := 0x1A001E8, cntStride := 0x1000 }
/-- FCSERR of UPL_STAT (R407). -/
def UPL_STAT_FCSERR : Fld :=
  { addr := 0x1A00018, s1 := 0x1000, lo := 7, w := 1, acc := .w1c, cntAddr := 0x1A00138, cntStride := 0x1000 }
/-- FECUNC of UPL_STAT (R407). -/
def UPL_STAT_FECUNC : Fld :=
  { addr := 0x1A00018, s1 := 0x1000, lo := 8, w := 1, acc := .w1c, cntAddr := 0x1A00258, cntStride := 0x1000 }
/-- STORM of UPL_STAT (R407). -/
def UPL_STAT_STORM : Fld :=
  { addr := 0x1A00018, s1 := 0x1000, lo := 9, w := 1, acc := .w1c, cntAddr := 0x1A00280, cntStride := 0x1000 }
/-- PAUSED of UPL_STAT (R407). -/
def UPL_STAT_PAUSED : Fld :=
  { addr := 0x1A00018, s1 := 0x1000, lo := 16, w := 8, acc := .ro }
/-- LANES_DOWN of UPL_STAT (R407). -/
def UPL_STAT_LANES_DOWN : Fld :=
  { addr := 0x1A00018, s1 := 0x1000, lo := 24, w := 8, acc := .ro }
/-- STEP of UPL_TXSTAT (R408). -/
def UPL_TXSTAT_STEP : Fld :=
  { addr := 0x1A00020, s1 := 0x1000, lo := 0, w := 7, acc := .ro, dflt := .const 1, img := true }
/-- CLEAN of UPL_TXSTAT (R408). -/
def UPL_TXSTAT_CLEAN : Fld :=
  { addr := 0x1A00020, s1 := 0x1000, lo := 8, w := 20, acc := .ro }
/-- COUNT of UPL_CNT (R409). -/
def UPL_CNT_COUNT : Fld :=
  { addr := 0x1A00100, s1 := 0x1000, s2 := 0x8, lo := 0, w := 40, acc := .ro }
/-- COUNT of UPL_LANECNT (R409). -/
def UPL_LANECNT_COUNT : Fld :=
  { addr := 0x1A00300, s1 := 0x1000, s2 := 0x8, lo := 0, w := 40, acc := .ro }
/-- RX_SF of CRY_CFG (R431). -/
def CRY_CFG_RX_SF : Fld :=
  { addr := 0x1C00000, lo := 0, w := 1, acc := .rw, img := true }
/-- JOB_EN of CRY_CFG (R431). -/
def CRY_CFG_JOB_EN : Fld :=
  { addr := 0x1C00000, lo := 1, w := 1, acc := .rw, dflt := .const 1, img := true }
/-- IK_VALID of CRY_CFG (R431). -/
def CRY_CFG_IK_VALID : Fld :=
  { addr := 0x1C00000, lo := 2, w := 1, acc := .ro }
/-- TAGFAIL of CRY_STAT (R431). -/
def CRY_STAT_TAGFAIL : Fld :=
  { addr := 0x1C00008, lo := 0, w := 1, acc := .w1c, cntAddr := 0x1C00400 }
/-- TAGLATE of CRY_STAT (R431). -/
def CRY_STAT_TAGLATE : Fld :=
  { addr := 0x1C00008, lo := 1, w := 1, acc := .w1c, cntAddr := 0x1C00408 }
/-- NOKEY of CRY_STAT (R431). -/
def CRY_STAT_NOKEY : Fld :=
  { addr := 0x1C00008, lo := 2, w := 1, acc := .w1c, cntAddr := 0x1C00410 }
/-- WARN of CRY_STAT (R431). -/
def CRY_STAT_WARN : Fld :=
  { addr := 0x1C00008, lo := 3, w := 1, acc := .w1c, cntAddr := 0x1C00418 }
/-- STOP of CRY_STAT (R431). -/
def CRY_STAT_STOP : Fld :=
  { addr := 0x1C00008, lo := 4, w := 1, acc := .w1c, cntAddr := 0x1C00420 }
/-- UNWRAP of CRY_STAT (R431). -/
def CRY_STAT_UNWRAP : Fld :=
  { addr := 0x1C00008, lo := 5, w := 1, acc := .w1c, cntAddr := 0x1C00428 }
/-- REFUSED of CRY_STAT (R431). -/
def CRY_STAT_REFUSED : Fld :=
  { addr := 0x1C00008, lo := 6, w := 1, acc := .w1c, cntAddr := 0x1C00430 }
/-- JOBERR of CRY_STAT (R431). -/
def CRY_STAT_JOBERR : Fld :=
  { addr := 0x1C00008, lo := 7, w := 1, acc := .w1c, cntAddr := 0x1C00440 }
/-- INDEX of CRY_KEY_CTL (R432). -/
def CRY_KEY_CTL_INDEX : Fld :=
  { addr := 0x1C00100, lo := 0, w := 17, acc := .rw }
/-- OP of CRY_KEY_CTL (R432). -/
def CRY_KEY_CTL_OP : Fld :=
  { addr := 0x1C00100, lo := 17, w := 2, acc := .rw }
/-- GO of CRY_KEY_CTL (R432). -/
def CRY_KEY_CTL_GO : Fld :=
  { addr := 0x1C00100, lo := 32, w := 1, acc := .w1s }
/-- BUSY of CRY_KEY_CTL (R432). -/
def CRY_KEY_CTL_BUSY : Fld :=
  { addr := 0x1C00100, lo := 33, w := 1, acc := .ro }
/-- REFUSED of CRY_KEY_CTL (R432). -/
def CRY_KEY_CTL_REFUSED : Fld :=
  { addr := 0x1C00100, lo := 34, w := 1, acc := .w1c, cntAddr := 0x1C00430 }
/-- STATE of CRY_KEY_CTL (R432). -/
def CRY_KEY_CTL_STATE : Fld :=
  { addr := 0x1C00100, lo := 40, w := 2, acc := .ro }
/-- WARNED of CRY_KEY_CTL (R432). -/
def CRY_KEY_CTL_WARNED : Fld :=
  { addr := 0x1C00100, lo := 42, w := 1, acc := .ro }
/-- WRAP of CRY_KEY_DATA (R432). -/
def CRY_KEY_DATA_WRAP : Fld :=
  { addr := 0x1C00108, s1 := 0x8, lo := 0, w := 64, acc := .wo }
/-- CTR of CRY_KEY_TXCTR (R432). -/
def CRY_KEY_TXCTR_CTR : Fld :=
  { addr := 0x1C00130, lo := 0, w := 48, acc := .ro }
/-- CTR of CRY_KEY_RXCTR (R432). -/
def CRY_KEY_RXCTR_CTR : Fld :=
  { addr := 0x1C00138, lo := 0, w := 48, acc := .ro }
/-- RX_VALID of CRY_KEY_RXCTR (R432). -/
def CRY_KEY_RXCTR_RX_VALID : Fld :=
  { addr := 0x1C00138, lo := 48, w := 1, acc := .ro }
/-- STATE of CRY_JOBSTAT (R433). -/
def CRY_JOBSTAT_STATE : Fld :=
  { addr := 0x1C00200, s1 := 0x8, lo := 0, w := 2, acc := .ro }
/-- DONE of CRY_JOBSTAT (R433). -/
def CRY_JOBSTAT_DONE : Fld :=
  { addr := 0x1C00200, s1 := 0x8, lo := 32, w := 25, acc := .ro }
/-- COUNT of CRY_GCNT (R434). -/
def CRY_GCNT_COUNT : Fld :=
  { addr := 0x1C00400, s1 := 0x8, lo := 0, w := 40, acc := .ro }
/-- COUNT of CRY_CNT (R434). -/
def CRY_CNT_COUNT : Fld :=
  { addr := 0x1C01000, s1 := 0x80, s2 := 0x8, lo := 0, w := 40, acc := .ro }
/-- STATE of SCR_STAT (R510). -/
def SCR_STAT_STATE : Fld :=
  { addr := 0x1E00000, s1 := 0x1000, lo := 0, w := 2, acc := .ro }
/-- PROTECT of SCR_STAT (R510). -/
def SCR_STAT_PROTECT : Fld :=
  { addr := 0x1E00000, s1 := 0x1000, lo := 2, w := 1, acc := .ro }
/-- RESTART of SCR_STAT (R510). -/
def SCR_STAT_RESTART : Fld :=
  { addr := 0x1E00000, s1 := 0x1000, lo := 3, w := 1, acc := .w1s }
/-- ABANDON of SCR_STAT (R510). -/
def SCR_STAT_ABANDON : Fld :=
  { addr := 0x1E00000, s1 := 0x1000, lo := 4, w := 1, acc := .w1c, cntAddr := 0x1E00110, cntStride := 0x1000 }
/-- STAGEOVF of SCR_STAT (R510). -/
def SCR_STAT_STAGEOVF : Fld :=
  { addr := 0x1E00000, s1 := 0x1000, lo := 5, w := 1, acc := .w1c, cntAddr := 0x1E00120, cntStride := 0x1000 }
/-- PARITY of SCR_STAT (R510). -/
def SCR_STAT_PARITY : Fld :=
  { addr := 0x1E00000, s1 := 0x1000, lo := 6, w := 1, acc := .w1c, cntAddr := 0x1E00150, cntStride := 0x1000 }
/-- WDOG of SCR_STAT (R510). -/
def SCR_STAT_WDOG : Fld :=
  { addr := 0x1E00000, s1 := 0x1000, lo := 7, w := 1, acc := .w1c, cntAddr := 0x1E00128, cntStride := 0x1000 }
/-- FAULT of SCR_STAT (R510). -/
def SCR_STAT_FAULT : Fld :=
  { addr := 0x1E00000, s1 := 0x1000, lo := 8, w := 1, acc := .w1c, cntAddr := 0x1E00130, cntStride := 0x1000 }
/-- REFUSED of SCR_STAT (R510). -/
def SCR_STAT_REFUSED : Fld :=
  { addr := 0x1E00000, s1 := 0x1000, lo := 9, w := 1, acc := .w1c, cntAddr := 0x1E00138, cntStride := 0x1000 }
/-- ENTRY of SCR_STAT (R510). -/
def SCR_STAT_ENTRY : Fld :=
  { addr := 0x1E00000, s1 := 0x1000, lo := 16, w := 14, acc := .ro }
/-- PC of SCR_STAT (R510). -/
def SCR_STAT_PC : Fld :=
  { addr := 0x1E00000, s1 := 0x1000, lo := 32, w := 15, acc := .ro }
/-- COUNT of SCR_CNT (R512). -/
def SCR_CNT_COUNT : Fld :=
  { addr := 0x1E00100, s1 := 0x1000, s2 := 0x8, lo := 0, w := 40, acc := .ro }
/-- ROM_ADDR of SCR_MATCH (R511). -/
def SCR_MATCH_ROM_ADDR : Fld :=
  { addr := 0x1E00200, s1 := 0x1000, s2 := 0x8, lo := 0, w := 14, acc := .rwl, img := true }
/-- PATCH_ADDR of SCR_MATCH (R511). -/
def SCR_MATCH_PATCH_ADDR : Fld :=
  { addr := 0x1E00200, s1 := 0x1000, s2 := 0x8, lo := 16, w := 9, acc := .rwl, img := true }
/-- COMPAT of SCR_MATCH (R511). -/
def SCR_MATCH_COMPAT : Fld :=
  { addr := 0x1E00200, s1 := 0x1000, s2 := 0x8, lo := 30, w := 1, acc := .rwl, img := true }
/-- VALID of SCR_MATCH (R511). -/
def SCR_MATCH_VALID : Fld :=
  { addr := 0x1E00200, s1 := 0x1000, s2 := 0x8, lo := 31, w := 1, acc := .rwl, img := true }
/-- ENABLE of SCR_TRCCFG (R513). -/
def SCR_TRCCFG_ENABLE : Fld :=
  { addr := 0x1F00000, lo := 0, w := 1, acc := .rw }
/-- WRAP of SCR_TRCCFG (R513). -/
def SCR_TRCCFG_WRAP : Fld :=
  { addr := 0x1F00000, lo := 1, w := 1, acc := .rw }
/-- FILTER_EN of SCR_TRCCFG (R513). -/
def SCR_TRCCFG_FILTER_EN : Fld :=
  { addr := 0x1F00000, lo := 2, w := 1, acc := .rw }
/-- TARGET of SCR_TRCCFG (R513). -/
def SCR_TRCCFG_TARGET : Fld :=
  { addr := 0x1F00000, lo := 8, w := 8, acc := .rw }
/-- FILTER_ENTRY of SCR_TRCCFG (R513). -/
def SCR_TRCCFG_FILTER_ENTRY : Fld :=
  { addr := 0x1F00000, lo := 16, w := 14, acc := .rw }
/-- COUNT of SCR_TRCCFG (R513). -/
def SCR_TRCCFG_COUNT : Fld :=
  { addr := 0x1F00000, lo := 32, w := 11, acc := .ro }
/-- WRAPPED of SCR_TRCCFG (R513). -/
def SCR_TRCCFG_WRAPPED : Fld :=
  { addr := 0x1F00000, lo := 43, w := 1, acc := .ro }
/-- INDEX of SCR_IND_CTL (R514). -/
def SCR_IND_CTL_INDEX : Fld :=
  { addr := 0x1F00100, lo := 0, w := 16, acc := .rw }
/-- TABLE of SCR_IND_CTL (R514). -/
def SCR_IND_CTL_TABLE : Fld :=
  { addr := 0x1F00100, lo := 16, w := 2, acc := .rw }
/-- GO of SCR_IND_CTL (R514). -/
def SCR_IND_CTL_GO : Fld :=
  { addr := 0x1F00100, lo := 32, w := 1, acc := .w1s }
/-- BUSY of SCR_IND_CTL (R514). -/
def SCR_IND_CTL_BUSY : Fld :=
  { addr := 0x1F00100, lo := 33, w := 1, acc := .ro }
/-- REFUSED of SCR_IND_CTL (R514). -/
def SCR_IND_CTL_REFUSED : Fld :=
  { addr := 0x1F00100, lo := 34, w := 1, acc := .w1c, cntAddr := 0x1E00138 }
/-- DATA of SCR_IND_DATA (R514). -/
def SCR_IND_DATA_DATA : Fld :=
  { addr := 0x1F00108, s1 := 0x8, lo := 0, w := 64, acc := .ro }

end F

namespace RegOf

/-- GLB_ID (R2). -/
def GLB_ID : Reg :=
  { addr := 0x0,
    fields := [F.GLB_ID_VENDOR, F.GLB_ID_DEVICE, F.GLB_ID_REVISION, F.GLB_ID_GRADE] }
/-- GLB_MODE (R33). -/
def GLB_MODE : Reg :=
  { addr := 0x10,
    fields := [F.GLB_MODE_CURRENT, F.GLB_MODE_BOOT_MODE, F.GLB_MODE_PAIRED, F.GLB_MODE_TRANSITION, F.GLB_MODE_TARGET, F.GLB_MODE_LAST_CAUSE, F.GLB_MODE_TRANSITIONS] }
/-- GLB_D2DSTAT (R27). -/
def GLB_D2DSTAT : Reg :=
  { addr := 0x100, n1 := 9, s1 := 0x20,
    fields := [F.GLB_D2DSTAT_REPLAYED, F.GLB_D2DSTAT_UNCORR, F.GLB_D2DSTAT_LINK_UP] }
/-- GLB_D2DREPLAY (R27). -/
def GLB_D2DREPLAY : Reg :=
  { addr := 0x108, n1 := 9, s1 := 0x20,
    fields := [F.GLB_D2DREPLAY_COUNT] }
/-- GLB_D2DUNCOR (R27). -/
def GLB_D2DUNCOR : Reg :=
  { addr := 0x110, n1 := 9, s1 := 0x20,
    fields := [F.GLB_D2DUNCOR_COUNT] }
/-- GLB_QUADMAP (R22). -/
def GLB_QUADMAP : Reg :=
  { addr := 0x400, n1 := 64, s1 := 0x8,
    fields := [F.GLB_QUADMAP_HOME, F.GLB_QUADMAP_PIPE, F.GLB_QUADMAP_DRAINING, F.GLB_QUADMAP_ABANDONED, F.GLB_QUADMAP_MOVES] }
/-- GLB_CASCNT (R259). -/
def GLB_CASCNT : Reg :=
  { addr := 0x780,
    fields := [F.GLB_CASCNT_NO_TRUNK] }
/-- GLB_CASSTAT (R259). -/
def GLB_CASSTAT : Reg :=
  { addr := 0x788,
    fields := [F.GLB_CASSTAT_TIME_MEMBER, F.GLB_CASSTAT_TIME_VALID, F.GLB_CASSTAT_REFUSED] }
/-- GLB_CASREF (R259). -/
def GLB_CASREF : Reg :=
  { addr := 0x790,
    fields := [F.GLB_CASREF_CAS_REFUSALS] }
/-- GLB_CASBKT (R259). -/
def GLB_CASBKT : Reg :=
  { addr := 0x800, n1 := 256, s1 := 0x8,
    fields := [F.GLB_CASBKT_HOME, F.GLB_CASBKT_CUR, F.GLB_CASBKT_MOVING, F.GLB_CASBKT_MOVES] }
/-- BOOT_STAT (R548). -/
def BOOT_STAT : Reg :=
  { addr := 0x10000,
    fields := [F.BOOT_STAT_PHASE, F.BOOT_STAT_SLOT, F.BOOT_STAT_FALLBACK, F.BOOT_STAT_LOCKED, F.BOOT_STAT_WARM, F.BOOT_STAT_REFUSED, F.BOOT_STAT_FLERR, F.BOOT_STAT_IMAGE_SEQ] }
/-- BOOT_FAIL (R548). -/
def BOOT_FAIL : Reg :=
  { addr := 0x10008, n1 := 2, s1 := 0x8,
    fields := [F.BOOT_FAIL_CODE, F.BOOT_FAIL_RECORD, F.BOOT_FAIL_OFFSET] }
/-- BOOT_BUILD (R548). -/
def BOOT_BUILD : Reg :=
  { addr := 0x10018,
    fields := [F.BOOT_BUILD_BUILD_ID] }
/-- BOOT_FUSE (R548). -/
def BOOT_FUSE : Reg :=
  { addr := 0x10020,
    fields := [F.BOOT_FUSE_HASH_PRESENT, F.BOOT_FUSE_REVOKED, F.BOOT_FUSE_SEC_MIN, F.BOOT_FUSE_ROOT_PRESENT] }
/-- BOOT_RESET (R548). -/
def BOOT_RESET : Reg :=
  { addr := 0x10028,
    fields := [F.BOOT_RESET_CODE] }
/-- BOOT_FLCTL (R549). -/
def BOOT_FLCTL : Reg :=
  { addr := 0x10040,
    fields := [F.BOOT_FLCTL_ADDR, F.BOOT_FLCTL_OP, F.BOOT_FLCTL_GO, F.BOOT_FLCTL_BUSY] }
/-- BOOT_FLDATA (R549). -/
def BOOT_FLDATA : Reg :=
  { addr := 0x10048, n1 := 32, s1 := 0x8,
    fields := [F.BOOT_FLDATA_DATA] }
/-- BOOT_CNT (R550). -/
def BOOT_CNT : Reg :=
  { addr := 0x10200, n1 := 8, s1 := 0x8,
    fields := [F.BOOT_CNT_COUNT] }
/-- PWR_FOLDCFG (R534). -/
def PWR_FOLDCFG : Reg :=
  { addr := 0x20000,
    fields := [F.PWR_FOLDCFG_FOLD_EN, F.PWR_FOLDCFG_FOLD_PCT, F.PWR_FOLDCFG_UNFOLD_PCT, F.PWR_FOLDCFG_WIN_US, F.PWR_FOLDCFG_FOLD_HOLD] }
/-- PWR_STAT (R535). -/
def PWR_STAT : Reg :=
  { addr := 0x20008,
    fields := [F.PWR_STAT_PARKED, F.PWR_STAT_FORCED, F.PWR_STAT_HELD, F.PWR_STAT_OVERFLOW, F.PWR_STAT_ABANDON] }
/-- PWR_LOAD (R535). -/
def PWR_LOAD : Reg :=
  { addr := 0x20100, n1 := 16, s1 := 0x8,
    fields := [F.PWR_LOAD_BITS, F.PWR_LOAD_PKTS] }
/-- PWR_CNT (R535). -/
def PWR_CNT : Reg :=
  { addr := 0x20200, n1 := 8, s1 := 0x8,
    fields := [F.PWR_CNT_COUNT] }
/-- QUL_CFG (R529). -/
def QUL_CFG : Reg :=
  { addr := 0x30000,
    fields := [F.QUL_CFG_OPT_POLL_MS, F.QUL_CFG_ADC_COUNT] }
/-- QUL_STAT (R530). -/
def QUL_STAT : Reg :=
  { addr := 0x30008,
    fields := [F.QUL_STAT_SEQ, F.QUL_STAT_PATCH_OFF, F.QUL_STAT_RAISED, F.QUL_STAT_SAMPFAIL, F.QUL_STAT_TRIP, F.QUL_STAT_REFUSED, F.QUL_STAT_PC, F.QUL_STAT_PC_PATCH] }
/-- QUL_ALARM (R530). -/
def QUL_ALARM : Reg :=
  { addr := 0x30010,
    fields := [F.QUL_ALARM_ACTIVE, F.QUL_ALARM_LATCHED] }
/-- QUL_MATCH (R531). -/
def QUL_MATCH : Reg :=
  { addr := 0x30100, n1 := 8, s1 := 0x8,
    fields := [F.QUL_MATCH_ROM_ADDR, F.QUL_MATCH_PATCH_ADDR, F.QUL_MATCH_VALID] }
/-- QUL_CNT (R532). -/
def QUL_CNT : Reg :=
  { addr := 0x30200, n1 := 16, s1 := 0x8,
    fields := [F.QUL_CNT_COUNT] }
/-- QUL_ALMCNT (R530). -/
def QUL_ALMCNT : Reg :=
  { addr := 0x30400, n1 := 32, s1 := 0x8,
    fields := [F.QUL_ALMCNT_COUNT] }
/-- QUL_IND_CTL (R533). -/
def QUL_IND_CTL : Reg :=
  { addr := 0x31000,
    fields := [F.QUL_IND_CTL_INDEX, F.QUL_IND_CTL_TABLE, F.QUL_IND_CTL_WRITE, F.QUL_IND_CTL_GO, F.QUL_IND_CTL_BUSY, F.QUL_IND_CTL_REFUSED] }
/-- QUL_IND_DATA (R533). -/
def QUL_IND_DATA : Reg :=
  { addr := 0x31008, n1 := 4, s1 := 0x8,
    fields := [F.QUL_IND_DATA_DATA] }
/-- TIM_CFG (R453). -/
def TIM_CFG : Reg :=
  { addr := 0x40000,
    fields := [F.TIM_CFG_SRC, F.TIM_CFG_SYNCE_EN, F.TIM_CFG_CLK10_EN, F.TIM_CFG_STEP_FIRST, F.TIM_CFG_CAS_WAIT, F.TIM_CFG_PPS_OUT_EN, F.TIM_CFG_TOD_WAIT_MS, F.TIM_CFG_SYNCE_PORT, F.TIM_CFG_TREE_CH, F.TIM_CFG_PPS_WIDTH_MS] }
/-- TIM_NOW_NS (R454). -/
def TIM_NOW_NS : Reg :=
  { addr := 0x40008,
    fields := [F.TIM_NOW_NS_FRAC, F.TIM_NOW_NS_NS] }
/-- TIM_NOW_SEC (R454). -/
def TIM_NOW_SEC : Reg :=
  { addr := 0x40010,
    fields := [F.TIM_NOW_SEC_SEC] }
/-- TIM_SET_SEC (R454). -/
def TIM_SET_SEC : Reg :=
  { addr := 0x40018,
    fields := [F.TIM_SET_SEC_SEC] }
/-- TIM_SET_NS (R454). -/
def TIM_SET_NS : Reg :=
  { addr := 0x40020,
    fields := [F.TIM_SET_NS_NS, F.TIM_SET_NS_GO, F.TIM_SET_NS_AT_PPS] }
/-- TIM_SERVO (R455). -/
def TIM_SERVO : Reg :=
  { addr := 0x40028,
    fields := [F.TIM_SERVO_BW_MHZ, F.TIM_SERVO_FREQ_MAX_PPB, F.TIM_SERVO_SLEW_PPB_S, F.TIM_SERVO_LOCK_NS, F.TIM_SERVO_OUTLIER_NS] }
/-- TIM_LIMITS (R455). -/
def TIM_LIMITS : Reg :=
  { addr := 0x40030,
    fields := [F.TIM_LIMITS_PHASE_ALARM_NS, F.TIM_LIMITS_STITCH_ASYM_PS] }
/-- TIM_FREQ (R455). -/
def TIM_FREQ : Reg :=
  { addr := 0x40038,
    fields := [F.TIM_FREQ_OFFSET_PPB, F.TIM_FREQ_PHASE_NS] }
/-- TIM_STAT (R456). -/
def TIM_STAT : Reg :=
  { addr := 0x40040,
    fields := [F.TIM_STAT_STATE, F.TIM_STAT_LOST, F.TIM_STAT_BIGOFF, F.TIM_STAT_STEPREF, F.TIM_STAT_OUTLIER, F.TIM_STAT_CAPOVF, F.TIM_STAT_MISSED, F.TIM_STAT_REFUSED] }
/-- TIM_PTPCFG (R457). -/
def TIM_PTPCFG : Reg :=
  { addr := 0x40048,
    fields := [F.TIM_PTPCFG_DOMAIN, F.TIM_PTPCFG_TRANSPORT, F.TIM_PTPCFG_SLAVE_PORT, F.TIM_PTPCFG_SLAVE_EN, F.TIM_PTPCFG_SYNC_LOG, F.TIM_PTPCFG_DELAY_LOG] }
/-- TIM_PTPMASTER (R457). -/
def TIM_PTPMASTER : Reg :=
  { addr := 0x40050, n1 := 2, s1 := 0x8,
    fields := [F.TIM_PTPMASTER_PORTS] }
/-- TIM_TRMCFG (R458). -/
def TIM_TRMCFG : Reg :=
  { addr := 0x40400, n1 := 128, s1 := 0x8,
    fields := [F.TIM_TRMCFG_PEER_EQRT, F.TIM_TRMCFG_ASYM_PPM, F.TIM_TRMCFG_OFFSET_NS] }
/-- TIM_TRIG_CTL (R459). -/
def TIM_TRIG_CTL : Reg :=
  { addr := 0x41000, n1 := 16, s1 := 0x40,
    fields := [F.TIM_TRIG_CTL_MODE, F.TIM_TRIG_CTL_ENABLE, F.TIM_TRIG_CTL_EVT, F.TIM_TRIG_CTL_CH, F.TIM_TRIG_CTL_LOCAL, F.TIM_TRIG_CTL_EVERY, F.TIM_TRIG_CTL_OFFSET] }
/-- TIM_TRIG_START (R459). -/
def TIM_TRIG_START : Reg :=
  { addr := 0x41008, n1 := 16, s1 := 0x40,
    fields := [F.TIM_TRIG_START_SEC] }
/-- TIM_TRIG_TIME (R459). -/
def TIM_TRIG_TIME : Reg :=
  { addr := 0x41010, n1 := 16, s1 := 0x40,
    fields := [F.TIM_TRIG_TIME_START_NS, F.TIM_TRIG_TIME_PERIOD] }
/-- TIM_TRIG_WIDTH (R459). -/
def TIM_TRIG_WIDTH : Reg :=
  { addr := 0x41018, n1 := 16, s1 := 0x40,
    fields := [F.TIM_TRIG_WIDTH_WIDTH] }
/-- TIM_TRIG_STAT (R459). -/
def TIM_TRIG_STAT : Reg :=
  { addr := 0x41020, n1 := 16, s1 := 0x40,
    fields := [F.TIM_TRIG_STAT_PULSES] }
/-- TIM_CAPCTL (R460). -/
def TIM_CAPCTL : Reg :=
  { addr := 0x42000, n1 := 4, s1 := 0x20,
    fields := [F.TIM_CAPCTL_EDGE] }
/-- TIM_CAPNS (R460). -/
def TIM_CAPNS : Reg :=
  { addr := 0x42008, n1 := 4, s1 := 0x20,
    fields := [F.TIM_CAPNS_FRAC, F.TIM_CAPNS_NS, F.TIM_CAPNS_EMPTY] }
/-- TIM_CAPSEC (R460). -/
def TIM_CAPSEC : Reg :=
  { addr := 0x42010, n1 := 4, s1 := 0x20,
    fields := [F.TIM_CAPSEC_SEC] }
/-- TIM_CAPSTAT (R460). -/
def TIM_CAPSTAT : Reg :=
  { addr := 0x42018, n1 := 4, s1 := 0x20,
    fields := [F.TIM_CAPSTAT_DEPTH] }
/-- TIM_CNT (R461). -/
def TIM_CNT : Reg :=
  { addr := 0x43000, n1 := 16, s1 := 0x8,
    fields := [F.TIM_CNT_COUNT] }
/-- STL_CFG (R485). -/
def STL_CFG : Reg :=
  { addr := 0x50000,
    fields := [F.STL_CFG_SIDE, F.STL_CFG_REVIVE_EN, F.STL_CFG_HANDBACK_EN, F.STL_CFG_SILENCE_FRAMES, F.STL_CFG_CHECK_FRAMES, F.STL_CFG_LINK_WAIT_MS, F.STL_CFG_FAULT_LIMIT, F.STL_CFG_HANDBACK_HOLD_MS] }
/-- STL_STAT (R486). -/
def STL_STAT : Reg :=
  { addr := 0x50008,
    fields := [F.STL_STAT_LINK, F.STL_STAT_ROLE, F.STL_STAT_SYNCED, F.STL_STAT_READY, F.STL_STAT_LEASE, F.STL_STAT_PARTNER_READY, F.STL_STAT_LEASELOST, F.STL_STAT_LOSS, F.STL_STAT_UNSYNC, F.STL_STAT_TXFAULT, F.STL_STAT_DUALACT, F.STL_STAT_MISMATCH, F.STL_STAT_MSGLOST, F.STL_STAT_LANES_UP, F.STL_STAT_LEASE_END] }
/-- STL_CNT (R488). -/
def STL_CNT : Reg :=
  { addr := 0x50100, n1 := 16, s1 := 0x8,
    fields := [F.STL_CNT_COUNT] }
/-- STL_CHCFG (R487). -/
def STL_CHCFG : Reg :=
  { addr := 0x51000, n1 := 128, s1 := 0x10,
    fields := [F.STL_CHCFG_DELTA_HINT, F.STL_CHCFG_HINT_VALID] }
/-- STL_CHSTAT (R487). -/
def STL_CHSTAT : Reg :=
  { addr := 0x51008, n1 := 128, s1 := 0x10,
    fields := [F.STL_CHSTAT_DELTA, F.STL_CHSTAT_DSTATE, F.STL_CHSTAT_TX_SUSPECT] }
/-- EVT_CFG (R580). -/
def EVT_CFG : Reg :=
  { addr := 0x60000,
    fields := [F.EVT_CFG_ENABLE, F.EVT_CFG_COALESCE_US, F.EVT_CFG_IRQ_LEVEL, F.EVT_CFG_IRQ_AGE_US] }
/-- EVT_PROD (R580). -/
def EVT_PROD : Reg :=
  { addr := 0x60008,
    fields := [F.EVT_PROD_PROD, F.EVT_PROD_SEQ] }
/-- EVT_CONS (R580). -/
def EVT_CONS : Reg :=
  { addr := 0x60010,
    fields := [F.EVT_CONS_CONS] }
/-- EVT_STAT (R580). -/
def EVT_STAT : Reg :=
  { addr := 0x60018,
    fields := [F.EVT_STAT_OVERFLOW, F.EVT_STAT_REFUSED, F.EVT_STAT_OPEN, F.EVT_STAT_UNREAD] }
/-- EVT_CNT (R580). -/
def EVT_CNT : Reg :=
  { addr := 0x60100, n1 := 8, s1 := 0x8,
    fields := [F.EVT_CNT_COUNT] }
/-- PMU_GCTL (R593). -/
def PMU_GCTL : Reg :=
  { addr := 0x70000,
    fields := [F.PMU_GCTL_FREEZE, F.PMU_GCTL_CLEAR, F.PMU_GCTL_USER_EN] }
/-- PMU_STAT (R594). -/
def PMU_STAT : Reg :=
  { addr := 0x70008,
    fields := [F.PMU_STAT_UNSEALED, F.PMU_STAT_TRLOST, F.PMU_STAT_REFUSED] }
/-- PMU_SHEETCFG (R595). -/
def PMU_SHEETCFG : Reg :=
  { addr := 0x70010,
    fields := [F.PMU_SHEETCFG_EN, F.PMU_SHEETCFG_PERIOD_US] }
/-- PMU_SHEETSTAT (R595). -/
def PMU_SHEETSTAT : Reg :=
  { addr := 0x70018,
    fields := [F.PMU_SHEETSTAT_LAST, F.PMU_SHEETSTAT_WRITING] }
/-- PMU_BWCFG (R596). -/
def PMU_BWCFG : Reg :=
  { addr := 0x70020,
    fields := [F.PMU_BWCFG_WIN_NS] }
/-- PMU_TAGCFG (R597). -/
def PMU_TAGCFG : Reg :=
  { addr := 0x70028,
    fields := [F.PMU_TAGCFG_K, F.PMU_TAGCFG_EN, F.PMU_TAGCFG_PIPES] }
/-- PMU_TRCSTAT (R597). -/
def PMU_TRCSTAT : Reg :=
  { addr := 0x70030,
    fields := [F.PMU_TRCSTAT_SLOT, F.PMU_TRCSTAT_SEQ] }
/-- PMU_BWSTAMP (R596). -/
def PMU_BWSTAMP : Reg :=
  { addr := 0x70038,
    fields := [F.PMU_BWSTAMP_STAMP, F.PMU_BWSTAMP_WINDOWS] }
/-- PMU_GCNT (R599). -/
def PMU_GCNT : Reg :=
  { addr := 0x70100, n1 := 8, s1 := 0x8,
    fields := [F.PMU_GCNT_COUNT] }
/-- PMU_CYC (R598). -/
def PMU_CYC : Reg :=
  { addr := 0x71000, n1 := 22, s1 := 0x100,
    fields := [F.PMU_CYC_CYCLES] }
/-- PMU_CTL (R598). -/
def PMU_CTL : Reg :=
  { addr := 0x71010, n1 := 22, s1 := 0x100, n2 := 8, s2 := 0x8,
    fields := [F.PMU_CTL_EN, F.PMU_CTL_LEVEL, F.PMU_CTL_USER, F.PMU_CTL_BIT, F.PMU_CTL_OFFSET] }
/-- PMU_PCNT (R598). -/
def PMU_PCNT : Reg :=
  { addr := 0x71050, n1 := 22, s1 := 0x100, n2 := 8, s2 := 0x8,
    fields := [F.PMU_PCNT_COUNT, F.PMU_PCNT_WRAPS] }
/-- PMU_BW (R596). -/
def PMU_BW : Reg :=
  { addr := 0x74000, n1 := 512, s1 := 0x8,
    fields := [F.PMU_BW_OCTETS, F.PMU_BW_MBPS] }
/-- HST_CFG (R576). -/
def HST_CFG : Reg :=
  { addr := 0x80000,
    fields := [F.HST_CFG_IRQ_MOD_US] }
/-- HST_IRQSTAT (R576). -/
def HST_IRQSTAT : Reg :=
  { addr := 0x80008,
    fields := [F.HST_IRQSTAT_ALERT, F.HST_IRQSTAT_BLOTTER] }
/-- HST_IRQMASK (R576). -/
def HST_IRQMASK : Reg :=
  { addr := 0x80010,
    fields := [F.HST_IRQMASK_MASK] }
/-- HST_RINGIRQ (R576). -/
def HST_RINGIRQ : Reg :=
  { addr := 0x80018,
    fields := [F.HST_RINGIRQ_RING] }
/-- HST_RINGMASK (R576). -/
def HST_RINGMASK : Reg :=
  { addr := 0x80020,
    fields := [F.HST_RINGMASK_MASK] }
/-- HST_ALERT (R577). -/
def HST_ALERT : Reg :=
  { addr := 0x80040,
    fields := [F.HST_ALERT_ACTIVE, F.HST_ALERT_LATCHED] }
/-- HST_ALERTMASK (R577). -/
def HST_ALERTMASK : Reg :=
  { addr := 0x80048,
    fields := [F.HST_ALERTMASK_MASK] }
/-- HST_ALERTCNT (R577). -/
def HST_ALERTCNT : Reg :=
  { addr := 0x80080, n1 := 16, s1 := 0x8,
    fields := [F.HST_ALERTCNT_COUNT] }
/-- HST_CNT (R579). -/
def HST_CNT : Reg :=
  { addr := 0x80100, n1 := 16, s1 := 0x8,
    fields := [F.HST_CNT_COUNT] }
/-- HST_RINGCFG (R578). -/
def HST_RINGCFG : Reg :=
  { addr := 0x81000, n1 := 64, s1 := 0x20,
    fields := [F.HST_RINGCFG_ENABLE, F.HST_RINGCFG_LOG2_ENTRIES, F.HST_RINGCFG_IRQ_EN] }
/-- HST_SQTAIL (R578). -/
def HST_SQTAIL : Reg :=
  { addr := 0x81008, n1 := 64, s1 := 0x20,
    fields := [F.HST_SQTAIL_TAIL] }
/-- HST_CQHEAD (R578). -/
def HST_CQHEAD : Reg :=
  { addr := 0x81010, n1 := 64, s1 := 0x20,
    fields := [F.HST_CQHEAD_HEAD] }
/-- HST_RINGSTAT (R578). -/
def HST_RINGSTAT : Reg :=
  { addr := 0x81018, n1 := 64, s1 := 0x20,
    fields := [F.HST_RINGSTAT_SQ_HEAD, F.HST_RINGSTAT_CQ_TAIL, F.HST_RINGSTAT_BUSY, F.HST_RINGSTAT_REFUSED] }
/-- HST_RINGCNT (R578). -/
def HST_RINGCNT : Reg :=
  { addr := 0x82000, n1 := 64, s1 := 0x8,
    fields := [F.HST_RINGCNT_COUNT] }
/-- SLN_CTL (R284). -/
def SLN_CTL : Reg :=
  { addr := 0x100000, n1 := 264, s1 := 0x1000,
    fields := [F.SLN_CTL_ENABLE, F.SLN_CTL_RETRAIN, F.SLN_CTL_TX_INV, F.SLN_CTL_RX_INV, F.SLN_CTL_TX_PRECODE, F.SLN_CTL_RX_PRECODE, F.SLN_CTL_LOOP] }
/-- SLN_STAT (R285). -/
def SLN_STAT : Reg :=
  { addr := 0x100008, n1 := 264, s1 := 0x1000,
    fields := [F.SLN_STAT_STATE, F.SLN_STAT_SIG_DET, F.SLN_STAT_CDR_LOCK, F.SLN_STAT_PAT_SYNC, F.SLN_STAT_LOS, F.SLN_STAT_LOL, F.SLN_STAT_RETRAINED, F.SLN_STAT_FAULT, F.SLN_STAT_REFUSED, F.SLN_STAT_PRESETPAR] }
/-- SLN_TXCFG (R286). -/
def SLN_TXCFG : Reg :=
  { addr := 0x100010, n1 := 264, s1 := 0x1000,
    fields := [F.SLN_TXCFG_PRE3, F.SLN_TXCFG_PRE2, F.SLN_TXCFG_PRE1, F.SLN_TXCFG_MAIN, F.SLN_TXCFG_POST1, F.SLN_TXCFG_SWING, F.SLN_TXCFG_LEVEL_TRIM] }
/-- SLN_RXCFG (R287). -/
def SLN_RXCFG : Reg :=
  { addr := 0x100018, n1 := 264, s1 := 0x1000,
    fields := [F.SLN_RXCFG_PEAK, F.SLN_RXCFG_PEAK_ADAPT, F.SLN_RXCFG_ADAPT_FREEZE, F.SLN_RXCFG_FOM_FINE, F.SLN_RXCFG_FOM_RETRAIN, F.SLN_RXCFG_RETRAIN_WIN, F.SLN_RXCFG_LOS_MV] }
/-- SLN_RXSTAT (R288). -/
def SLN_RXSTAT : Reg :=
  { addr := 0x100020, n1 := 264, s1 := 0x1000,
    fields := [F.SLN_RXSTAT_FOM, F.SLN_RXSTAT_FOM_LOW, F.SLN_RXSTAT_PEAK] }
/-- SLN_EQ (R288). -/
def SLN_EQ : Reg :=
  { addr := 0x100028, n1 := 264, s1 := 0x1000, n2 := 2, s2 := 0x8,
    fields := [F.SLN_EQ_EQ] }
/-- SLN_PATCFG (R289). -/
def SLN_PATCFG : Reg :=
  { addr := 0x100040, n1 := 264, s1 := 0x1000,
    fields := [F.SLN_PATCFG_GEN_EN, F.SLN_PATCFG_CHK_EN, F.SLN_PATCFG_PATTERN, F.SLN_PATCFG_SQ_HALF, F.SLN_PATCFG_INJ_MODE, F.SLN_PATCFG_INJ_ONE, F.SLN_PATCFG_INJ_RATE, F.SLN_PATCFG_INJ_LEN] }
/-- SLN_USER (R289). -/
def SLN_USER : Reg :=
  { addr := 0x100048, n1 := 264, s1 := 0x1000,
    fields := [F.SLN_USER_PATTERN] }
/-- SLN_PATERR (R289). -/
def SLN_PATERR : Reg :=
  { addr := 0x100050, n1 := 264, s1 := 0x1000,
    fields := [F.SLN_PATERR_ERRORS] }
/-- SLN_PATBITS (R289). -/
def SLN_PATBITS : Reg :=
  { addr := 0x100058, n1 := 264, s1 := 0x1000,
    fields := [F.SLN_PATBITS_BITS] }
/-- SLN_CNT (R290). -/
def SLN_CNT : Reg :=
  { addr := 0x100100, n1 := 264, s1 := 0x1000, n2 := 16, s2 := 0x8,
    fields := [F.SLN_CNT_COUNT] }
/-- SLN_PRE_CTL (R291). -/
def SLN_PRE_CTL : Reg :=
  { addr := 0x210000,
    fields := [F.SLN_PRE_CTL_INDEX, F.SLN_PRE_CTL_DEFAULT, F.SLN_PRE_CTL_OP, F.SLN_PRE_CTL_GO, F.SLN_PRE_CTL_BUSY, F.SLN_PRE_CTL_REFUSED, F.SLN_PRE_CTL_STATE, F.SLN_PRE_CTL_AGE] }
/-- SLN_PRE_DATA (R291). -/
def SLN_PRE_DATA : Reg :=
  { addr := 0x210008, n1 := 2, s1 := 0x8,
    fields := [F.SLN_PRE_DATA_DATA] }
/-- TCH_FRMCFG (R74). -/
def TCH_FRMCFG : Reg :=
  { addr := 0x400000, n1 := 128, s1 := 0x10000,
    fields := [F.TCH_FRMCFG_TX_EN, F.TCH_FRMCFG_RX_EN, F.TCH_FRMCFG_SCR_BYPASS, F.TCH_FRMCFG_HUNT_BLOCKS, F.TCH_FRMCFG_LOSS_INVALID, F.TCH_FRMCFG_SYNC_TOL, F.TCH_FRMCFG_CONFIRMS, F.TCH_FRMCFG_MISSES, F.TCH_FRMCFG_RETAIN_FRAMES, F.TCH_FRMCFG_RETAIN_SLACK] }
/-- TCH_FRMID (R75). -/
def TCH_FRMID : Reg :=
  { addr := 0x400008, n1 := 128, s1 := 0x10000,
    fields := [F.TCH_FRMID_TREE_ID, F.TCH_FRMID_RX_TREE_ID, F.TCH_FRMID_HEAD_EPOCH] }
/-- TCH_FRMSTAT (R76). -/
def TCH_FRMSTAT : Reg :=
  { addr := 0x400010, n1 := 128, s1 := 0x10000,
    fields := [F.TCH_FRMSTAT_BLOCK_LOCK, F.TCH_FRMSTAT_ALIGN, F.TCH_FRMSTAT_LOB, F.TCH_FRMSTAT_OOF, F.TCH_FRMSTAT_LOF, F.TCH_FRMSTAT_UNCORR, F.TCH_FRMSTAT_BIPERR, F.TCH_FRMSTAT_HDRERR, F.TCH_FRMSTAT_FCJUMP] }
/-- TCH_TXFC (R77). -/
def TCH_TXFC : Reg :=
  { addr := 0x400018, n1 := 128, s1 := 0x10000,
    fields := [F.TCH_TXFC_FC] }
/-- TCH_RXFC (R77). -/
def TCH_RXFC : Reg :=
  { addr := 0x400020, n1 := 128, s1 := 0x10000,
    fields := [F.TCH_RXFC_FC, F.TCH_RXFC_SHIFT] }
/-- TCH_RXCNT (R78). -/
def TCH_RXCNT : Reg :=
  { addr := 0x400100, n1 := 128, s1 := 0x10000, n2 := 16, s2 := 0x8,
    fields := [F.TCH_RXCNT_COUNT] }
/-- TCH_TXCNT (R78). -/
def TCH_TXCNT : Reg :=
  { addr := 0x400180, n1 := 128, s1 := 0x10000, n2 := 16, s2 := 0x8,
    fields := [F.TCH_TXCNT_COUNT] }
/-- TCH_BRXCFG (R102). -/
def TCH_BRXCFG : Reg :=
  { addr := 0x400200, n1 := 128, s1 := 0x10000,
    fields := [F.TCH_BRXCFG_RX_EN, F.TCH_BRXCFG_DELIM_TOL, F.TCH_BRXCFG_WINDOW, F.TCH_BRXCFG_RXBRST_START, F.TCH_BRXCFG_RXBRST_WIDTH, F.TCH_BRXCFG_FOM_MIN, F.TCH_BRXCFG_PRESET_AGE, F.TCH_BRXCFG_MISS_STALE] }
/-- TCH_BRXSTAT (R103). -/
def TCH_BRXSTAT : Reg :=
  { addr := 0x400208, n1 := 128, s1 := 0x10000,
    fields := [F.TCH_BRXSTAT_MISSING, F.TCH_BRXSTAT_MISTIMED, F.TCH_BRXSTAT_HDRBAD, F.TCH_BRXSTAT_HDRMIS, F.TCH_BRXSTAT_TERMMISS, F.TCH_BRXSTAT_UNCORR, F.TCH_BRXSTAT_GUARD, F.TCH_BRXSTAT_CONFLICT, F.TCH_BRXSTAT_STALELOAD, F.TCH_BRXSTAT_REPBAD] }
/-- TCH_BRXCNT (R104). -/
def TCH_BRXCNT : Reg :=
  { addr := 0x400300, n1 := 128, s1 := 0x10000, n2 := 32, s2 := 0x8,
    fields := [F.TCH_BRXCNT_COUNT] }
/-- TCH_LCCFG (R145). -/
def TCH_LCCFG : Reg :=
  { addr := 0x400400, n1 := 128, s1 := 0x10000,
    fields := [F.TCH_LCCFG_LOSS_FRAMES, F.TCH_LCCFG_HOLD_POLL, F.TCH_LCCFG_HOLD_FRAMES, F.TCH_LCCFG_RETRIES, F.TCH_LCCFG_DRIFT_CONFIRM, F.TCH_LCCFG_ADJ_MAX, F.TCH_LCCFG_ROGUE_MARKS, F.TCH_LCCFG_MOVE_TUNE] }
/-- TCH_DISCCFG (R145). -/
def TCH_DISCCFG : Reg :=
  { addr := 0x400408, n1 := 128, s1 := 0x10000,
    fields := [F.TCH_DISCCFG_DISC_EN, F.TCH_DISCCFG_ADMIT_UNKNOWN, F.TCH_DISCCFG_DIST_MIN_KM, F.TCH_DISCCFG_DIST_MAX_KM, F.TCH_DISCCFG_BACKOFF_SLOTS, F.TCH_DISCCFG_SKIP_INIT, F.TCH_DISCCFG_SKIP_MAX, F.TCH_DISCCFG_DISC_PERIOD] }
/-- TCH_RCVCFG (R145). -/
def TCH_RCVCFG : Reg :=
  { addr := 0x400410, n1 := 128, s1 := 0x10000,
    fields := [F.TCH_RCVCFG_RECOVERY_TRIGGER, F.TCH_RCVCFG_RECOVERY_FRAMES, F.TCH_RCVCFG_RANGE_PER_SF, F.TCH_RCVCFG_RANGE_SLACK] }
/-- TCH_LCSTAT (R146). -/
def TCH_LCSTAT : Reg :=
  { addr := 0x400418, n1 := 128, s1 := 0x10000,
    fields := [F.TCH_LCSTAT_RECOVERY, F.TCH_LCSTAT_DISCBAD, F.TCH_LCSTAT_UNKNOWN, F.TCH_LCSTAT_DUP, F.TCH_LCSTAT_FULL, F.TCH_LCSTAT_TOOFAR, F.TCH_LCSTAT_ROGUE, F.TCH_LCSTAT_CMACFAIL, F.TCH_LCSTAT_REFUSED, F.TCH_LCSTAT_RQ_USED, F.TCH_LCSTAT_ACTIVE_TERMS] }
/-- TCH_LCCNT (R147). -/
def TCH_LCCNT : Reg :=
  { addr := 0x400500, n1 := 128, s1 := 0x10000, n2 := 32, s2 := 0x8,
    fields := [F.TCH_LCCNT_COUNT] }
/-- TCH_TRMCFG (R254). -/
def TCH_TRMCFG : Reg :=
  { addr := 0x400800, n1 := 128, s1 := 0x10000,
    fields := [F.TCH_TRMCFG_EMU_COUNT, F.TCH_TRMCFG_TRUNK, F.TCH_TRMCFG_TBEN_LEAD, F.TCH_TRMCFG_TBEN_LAG, F.TCH_TRMCFG_SEED_FIXED, F.TCH_TRMCFG_RANGE_WAIT, F.TCH_TRMCFG_PEER_CHANNEL, F.TCH_TRMCFG_SEED] }
/-- TCH_TRMCAL (R254). -/
def TCH_TRMCAL : Reg :=
  { addr := 0x400808, n1 := 128, s1 := 0x10000,
    fields := [F.TCH_TRMCAL_RX_LAT, F.TCH_TRMCAL_TX_LAT, F.TCH_TRMCAL_CAL_OK] }
/-- TCH_TRMSTAT (R257). -/
def TCH_TRMSTAT : Reg :=
  { addr := 0x400810, n1 := 128, s1 := 0x10000,
    fields := [F.TCH_TRMSTAT_HOLDOVER, F.TCH_TRMSTAT_TXOVL, F.TCH_TRMSTAT_MAPIGN, F.TCH_TRMSTAT_ANSWAIT, F.TCH_TRMSTAT_TAGFAIL, F.TCH_TRMSTAT_REFUSED, F.TCH_TRMSTAT_OPERATING] }
/-- TCH_TRMCNT (R258). -/
def TCH_TRMCNT : Reg :=
  { addr := 0x400880, n1 := 128, s1 := 0x10000, n2 := 16, s2 := 0x8,
    fields := [F.TCH_TRMCNT_COUNT] }
/-- TCH_EMUSER (R255). -/
def TCH_EMUSER : Reg :=
  { addr := 0x402000, n1 := 128, s1 := 0x10000, n2 := 128, s2 := 0x40,
    fields := [F.TCH_EMUSER_SERIAL] }
/-- TCH_EMUCTL (R255). -/
def TCH_EMUCTL : Reg :=
  { addr := 0x402008, n1 := 128, s1 := 0x10000, n2 := 128, s2 := 0x40,
    fields := [F.TCH_EMUCTL_EMU_EN, F.TCH_EMUCTL_CAP_DOZE, F.TCH_EMUCTL_GASP, F.TCH_EMUCTL_ALARM, F.TCH_EMUCTL_DOZE, F.TCH_EMUCTL_ALARM_CODE, F.TCH_EMUCTL_DOZE_PERIOD, F.TCH_EMUCTL_ALARM_DETAIL] }
/-- TCH_EMUDLY (R256). -/
def TCH_EMUDLY : Reg :=
  { addr := 0x402010, n1 := 128, s1 := 0x10000, n2 := 128, s2 := 0x40,
    fields := [F.TCH_EMUDLY_EXTRA, F.TCH_EMUDLY_SKEW] }
/-- TCH_EMUCONT (R256). -/
def TCH_EMUCONT : Reg :=
  { addr := 0x402018, n1 := 128, s1 := 0x10000, n2 := 128, s2 := 0x40,
    fields := [F.TCH_EMUCONT_INDEX0, F.TCH_EMUCONT_BIND0, F.TCH_EMUCONT_SRC0, F.TCH_EMUCONT_INDEX1, F.TCH_EMUCONT_BIND1, F.TCH_EMUCONT_SRC1, F.TCH_EMUCONT_INDEX2, F.TCH_EMUCONT_BIND2, F.TCH_EMUCONT_SRC2, F.TCH_EMUCONT_INDEX3, F.TCH_EMUCONT_BIND3, F.TCH_EMUCONT_SRC3, F.TCH_EMUCONT_SYN_DEMAND, F.TCH_EMUCONT_SYN_LEN] }
/-- TCH_EMUSTAT (R256). -/
def TCH_EMUSTAT : Reg :=
  { addr := 0x402020, n1 := 128, s1 := 0x10000, n2 := 128, s2 := 0x40,
    fields := [F.TCH_EMUSTAT_STATE, F.TCH_EMUSTAT_LOCAL, F.TCH_EMUSTAT_LOCAL_VALID, F.TCH_EMUSTAT_TX_LEVEL, F.TCH_EMUSTAT_EQD, F.TCH_EMUSTAT_HOLD_FRAMES, F.TCH_EMUSTAT_DISC_ATTEMPTS] }
/-- RUL_CHCFG (R144). -/
def RUL_CHCFG : Reg :=
  { addr := 0xC00000, n1 := 128, s1 := 0x40,
    fields := [F.RUL_CHCFG_EQRT] }
/-- RUL_CHSTAT (R144). -/
def RUL_CHSTAT : Reg :=
  { addr := 0xC00008, n1 := 128, s1 := 0x40,
    fields := [F.RUL_CHSTAT_RTD_MIN, F.RUL_CHSTAT_RTD_MAX] }
/-- GNT_CHCFG (R175). -/
def GNT_CHCFG : Reg :=
  { addr := 0xD00000, n1 := 128, s1 := 0x100,
    fields := [F.GNT_CHCFG_GUAR_LIMIT, F.GNT_CHCFG_GRAIN, F.GNT_CHCFG_POLL_SF, F.GNT_CHCFG_MAP_LIMIT, F.GNT_CHCFG_REPORT_SF, F.GNT_CHCFG_GNT_EN] }
/-- GNT_CHSTAT (R176). -/
def GNT_CHSTAT : Reg :=
  { addr := 0xD00008, n1 := 128, s1 := 0x100,
    fields := [F.GNT_CHSTAT_SHORT, F.GNT_CHSTAT_DEFER, F.GNT_CHSTAT_ARRDROP, F.GNT_CHSTAT_REFUSED, F.GNT_CHSTAT_RPTIGN, F.GNT_CHSTAT_G_LOAD, F.GNT_CHSTAT_LAST_ENTRIES] }
/-- GNT_CHVT (R177). -/
def GNT_CHVT : Reg :=
  { addr := 0xD00010, n1 := 128, s1 := 0x100,
    fields := [F.GNT_CHVT_V_NA, F.GNT_CHVT_V_BE] }
/-- GNT_CHLAST (R177). -/
def GNT_CHLAST : Reg :=
  { addr := 0xD00018, n1 := 128, s1 := 0x100,
    fields := [F.GNT_CHLAST_LAST_TARGET, F.GNT_CHLAST_LAST_IDLE, F.GNT_CHLAST_LAST_BURSTS, F.GNT_CHLAST_COMPUTE_NS] }
/-- GNT_CNT (R178). -/
def GNT_CNT : Reg :=
  { addr := 0xD00040, n1 := 128, s1 := 0x100, n2 := 24, s2 := 0x8,
    fields := [F.GNT_CNT_COUNT] }
/-- GNT_IND_CTL (R179). -/
def GNT_IND_CTL : Reg :=
  { addr := 0xD10000,
    fields := [F.GNT_IND_CTL_INDEX, F.GNT_IND_CTL_TABLE, F.GNT_IND_CTL_WRITE, F.GNT_IND_CTL_GO, F.GNT_IND_CTL_BUSY, F.GNT_IND_CTL_REFUSED] }
/-- GNT_IND_DATA (R179). -/
def GNT_IND_DATA : Reg :=
  { addr := 0xD10008, n1 := 4, s1 := 0x8,
    fields := [F.GNT_IND_DATA_DATA] }
/-- CIR_CFG (R202). -/
def CIR_CFG : Reg :=
  { addr := 0xE00000, n1 := 1024, s1 := 0x100,
    fields := [F.CIR_CFG_DN_EN, F.CIR_CFG_UP_EN, F.CIR_CFG_ENC, F.CIR_CFG_FILL, F.CIR_CFG_LOCAL, F.CIR_CFG_N, F.CIR_CFG_UP_INDEX] }
/-- CIR_TIMING (R203). -/
def CIR_TIMING : Reg :=
  { addr := 0xE00008, n1 := 1024, s1 := 0x100,
    fields := [F.CIR_TIMING_DELAY_NS] }
/-- CIR_CF (R203). -/
def CIR_CF : Reg :=
  { addr := 0xE00010, n1 := 1024, s1 := 0x100,
    fields := [F.CIR_CF_CF_BYTES, F.CIR_CF_SERVICE] }
/-- CIR_STAT (R204). -/
def CIR_STAT : Reg :=
  { addr := 0xE00018, n1 := 1024, s1 := 0x100,
    fields := [F.CIR_STAT_LOP, F.CIR_STAT_AISRX, F.CIR_STAT_UNDERRUN, F.CIR_STAT_OVERRUN, F.CIR_STAT_LATE, F.CIR_STAT_SEQGAP, F.CIR_STAT_BIPERR, F.CIR_STAT_REFUSED, F.CIR_STAT_REGMISS, F.CIR_STAT_TX_PTR, F.CIR_STAT_RX_PTR] }
/-- CIR_FILL (R204). -/
def CIR_FILL : Reg :=
  { addr := 0xE00020, n1 := 1024, s1 := 0x100,
    fields := [F.CIR_FILL_BYTES] }
/-- CIR_CNT (R205). -/
def CIR_CNT : Reg :=
  { addr := 0xE00080, n1 := 1024, s1 := 0x100, n2 := 16, s2 := 0x8,
    fields := [F.CIR_CNT_COUNT] }
/-- CIR_GLB (R206). -/
def CIR_GLB : Reg :=
  { addr := 0xE40000,
    fields := [F.CIR_GLB_ETHERTYPE, F.CIR_GLB_BUF_MIB] }
/-- CIR_GLBSTAT (R206). -/
def CIR_GLBSTAT : Reg :=
  { addr := 0xE40008,
    fields := [F.CIR_GLBSTAT_BUF_USED] }
/-- CIR_GLBCNT (R206). -/
def CIR_GLBCNT : Reg :=
  { addr := 0xE40010,
    fields := [F.CIR_GLBCNT_UNKNOWN_CF] }
/-- TMG_GLB (R225). -/
def TMG_GLB : Reg :=
  { addr := 0x1000000,
    fields := [F.TMG_GLB_REFILL_NS] }
/-- TMG_CHCFG (R226). -/
def TMG_CHCFG : Reg :=
  { addr := 0x1001000, n1 := 128, s1 := 0x20,
    fields := [F.TMG_CHCFG_CH_RATE, F.TMG_CHCFG_CH_BURST, F.TMG_CHCFG_SCHED_EN] }
/-- TMG_CHVT (R226). -/
def TMG_CHVT : Reg :=
  { addr := 0x1001008, n1 := 128, s1 := 0x20,
    fields := [F.TMG_CHVT_V_COM, F.TMG_CHVT_V_EXC] }
/-- TMG_CHSTAT (R226). -/
def TMG_CHSTAT : Reg :=
  { addr := 0x1001010, n1 := 128, s1 := 0x20,
    fields := [F.TMG_CHSTAT_TAIL, F.TMG_CHSTAT_DE, F.TMG_CHSTAT_EARLY, F.TMG_CHSTAT_ECN, F.TMG_CHSTAT_FLUSH, F.TMG_CHSTAT_REFUSED, F.TMG_CHSTAT_MGMT_DEPTH] }
/-- TMG_CHCNT (R227). -/
def TMG_CHCNT : Reg :=
  { addr := 0x1008000, n1 := 128, s1 := 0x100, n2 := 32, s2 := 0x8,
    fields := [F.TMG_CHCNT_COUNT] }
/-- TMG_EGCNT (R227). -/
def TMG_EGCNT : Reg :=
  { addr := 0x1020000, n1 := 128, s1 := 0x40, n2 := 8, s2 := 0x8,
    fields := [F.TMG_EGCNT_COUNT] }
/-- TMG_IND_CTL (R228). -/
def TMG_IND_CTL : Reg :=
  { addr := 0x1040000,
    fields := [F.TMG_IND_CTL_INDEX, F.TMG_IND_CTL_TABLE, F.TMG_IND_CTL_WRITE, F.TMG_IND_CTL_GO, F.TMG_IND_CTL_BUSY, F.TMG_IND_CTL_REFUSED] }
/-- TMG_IND_DATA (R228). -/
def TMG_IND_DATA : Reg :=
  { addr := 0x1040008, n1 := 4, s1 := 0x8,
    fields := [F.TMG_IND_DATA_DATA] }
/-- PAR_CFG (R309). -/
def PAR_CFG : Reg :=
  { addr := 0x1400000,
    fields := [F.PAR_CFG_DEPTH_D, F.PAR_CFG_DEPTH_U, F.PAR_CFG_KEY_INNER_D, F.PAR_CFG_KEY_INNER_U, F.PAR_CFG_L3ERR_DROP] }
/-- PAR_TPID (R310). -/
def PAR_TPID : Reg :=
  { addr := 0x1400008,
    fields := [F.PAR_TPID_TPID_X, F.PAR_TPID_TPID_Y, F.PAR_TPID_X_EN, F.PAR_TPID_Y_EN] }
/-- PAR_TUN (R310). -/
def PAR_TUN : Reg :=
  { addr := 0x1400010,
    fields := [F.PAR_TUN_VXLAN_PORT, F.PAR_TUN_GTP_PORT, F.PAR_TUN_VXLAN_EN, F.PAR_TUN_GRE_EN, F.PAR_TUN_GTP_EN] }
/-- PAR_FRAGCFG (R311). -/
def PAR_FRAGCFG : Reg :=
  { addr := 0x1400018,
    fields := [F.PAR_FRAGCFG_TIMEOUT_MS, F.PAR_FRAGCFG_MISS_ACT, F.PAR_FRAGCFG_FRAG_EN] }
/-- PAR_STAT (R312). -/
def PAR_STAT : Reg :=
  { addr := 0x1400020,
    fields := [F.PAR_STAT_TRUNC, F.PAR_STAT_L3ERR, F.PAR_STAT_FRAGOVF, F.PAR_STAT_FRAGTO, F.PAR_STAT_FRAGMISS, F.PAR_STAT_REFUSED] }
/-- PAR_FRAGSTAT (R311). -/
def PAR_FRAGSTAT : Reg :=
  { addr := 0x1400028,
    fields := [F.PAR_FRAGSTAT_IN_USE] }
/-- PAR_DEFACT (R313). -/
def PAR_DEFACT : Reg :=
  { addr := 0x1400040, n1 := 2, s1 := 0x10, n2 := 2, s2 := 0x8,
    fields := [F.PAR_DEFACT_ACT] }
/-- PAR_RANGE (R313). -/
def PAR_RANGE : Reg :=
  { addr := 0x1400100, n1 := 64, s1 := 0x8,
    fields := [F.PAR_RANGE_LOW, F.PAR_RANGE_HIGH, F.PAR_RANGE_SRC, F.PAR_RANGE_DIR] }
/-- PAR_CNT (R314). -/
def PAR_CNT : Reg :=
  { addr := 0x1400400, n1 := 2, s1 := 0x100, n2 := 32, s2 := 0x8,
    fields := [F.PAR_CNT_COUNT] }
/-- PAR_IND_CTL (R315). -/
def PAR_IND_CTL : Reg :=
  { addr := 0x1410000,
    fields := [F.PAR_IND_CTL_INDEX, F.PAR_IND_CTL_TABLE, F.PAR_IND_CTL_WRITE, F.PAR_IND_CTL_GO, F.PAR_IND_CTL_BUSY, F.PAR_IND_CTL_REFUSED] }
/-- PAR_IND_DATA (R315). -/
def PAR_IND_DATA : Reg :=
  { addr := 0x1410008, n1 := 24, s1 := 0x8,
    fields := [F.PAR_IND_DATA_DATA] }
/-- FWD_CFG (R335). -/
def FWD_CFG : Reg :=
  { addr := 0x1500000,
    fields := [F.FWD_CFG_AGE_S, F.FWD_CFG_LEARN_EN, F.FWD_CFG_PARTNER_LEARN] }
/-- FWD_STAT (R336). -/
def FWD_STAT : Reg :=
  { addr := 0x1500008,
    fields := [F.FWD_STAT_FULL, F.FWD_STAT_LDROP, F.FWD_STAT_EXCESS, F.FWD_STAT_STATICV, F.FWD_STAT_NOSVC, F.FWD_STAT_TRUNC, F.FWD_STAT_REFUSED, F.FWD_STAT_LEARN_QUEUE] }
/-- FWD_USE (R337). -/
def FWD_USE : Reg :=
  { addr := 0x1500010,
    fields := [F.FWD_USE_BRIDGE_USED, F.FWD_USE_PREFIX_USED, F.FWD_USE_HOST_USED] }
/-- FWD_FLUSH (R338). -/
def FWD_FLUSH : Reg :=
  { addr := 0x1500018,
    fields := [F.FWD_FLUSH_ID, F.FWD_FLUSH_SCOPE, F.FWD_FLUSH_GO, F.FWD_FLUSH_BUSY] }
/-- FWD_CNT (R339). -/
def FWD_CNT : Reg :=
  { addr := 0x1500100, n1 := 32, s1 := 0x8,
    fields := [F.FWD_CNT_COUNT] }
/-- FWD_IND_CTL (R340). -/
def FWD_IND_CTL : Reg :=
  { addr := 0x1510000,
    fields := [F.FWD_IND_CTL_INDEX, F.FWD_IND_CTL_TABLE, F.FWD_IND_CTL_WRITE, F.FWD_IND_CTL_REMOVE, F.FWD_IND_CTL_GO, F.FWD_IND_CTL_BUSY, F.FWD_IND_CTL_REFUSED] }
/-- FWD_IND_DATA (R340). -/
def FWD_IND_DATA : Reg :=
  { addr := 0x1510008, n1 := 6, s1 := 0x8,
    fields := [F.FWD_IND_DATA_DATA] }
/-- BUF_CFG (R353). -/
def BUF_CFG : Reg :=
  { addr := 0x1800000,
    fields := [F.BUF_CFG_POOL0_MIB, F.BUF_CFG_POOL1_MIB, F.BUF_CFG_POOL2_MIB, F.BUF_CFG_POOL3_MIB, F.BUF_CFG_SPILL_EN] }
/-- BUF_STAT (R354). -/
def BUF_STAT : Reg :=
  { addr := 0x1800008,
    fields := [F.BUF_STAT_NOBUF, F.BUF_STAT_FALLBACK, F.BUF_STAT_SPILLFULL, F.BUF_STAT_SPILLLOST, F.BUF_STAT_HEADWAIT, F.BUF_STAT_REFUSED] }
/-- BUF_SPILLSTAT (R355). -/
def BUF_SPILLSTAT : Reg :=
  { addr := 0x1800010,
    fields := [F.BUF_SPILLSTAT_PAGES_USED, F.BUF_SPILLSTAT_PAGES_TOTAL] }
/-- BUF_POOLSTAT (R355). -/
def BUF_POOLSTAT : Reg :=
  { addr := 0x1800100, n1 := 4, s1 := 0x8,
    fields := [F.BUF_POOLSTAT_FREE, F.BUF_POOLSTAT_LOW] }
/-- BUF_CNT (R356). -/
def BUF_CNT : Reg :=
  { addr := 0x1800200, n1 := 16, s1 := 0x8,
    fields := [F.BUF_CNT_COUNT] }
/-- BUF_IND_CTL (R357). -/
def BUF_IND_CTL : Reg :=
  { addr := 0x1810000,
    fields := [F.BUF_IND_CTL_INDEX, F.BUF_IND_CTL_TABLE, F.BUF_IND_CTL_WRITE, F.BUF_IND_CTL_GO, F.BUF_IND_CTL_BUSY, F.BUF_IND_CTL_REFUSED] }
/-- BUF_IND_DATA (R357). -/
def BUF_IND_DATA : Reg :=
  { addr := 0x1810008, n1 := 4, s1 := 0x8,
    fields := [F.BUF_IND_DATA_DATA] }
/-- MEM_CFG (R380). -/
def MEM_CFG : Reg :=
  { addr := 0x1900000,
    fields := [F.MEM_CFG_SPARE_EN, F.MEM_CFG_RETIRE_UNCORR, F.MEM_CFG_MIGRATE_SHARE, F.MEM_CFG_PRED_THRESH, F.MEM_CFG_ROW_HIT_MAX, F.MEM_CFG_WB_SPILL_STOP, F.MEM_CFG_PAGE_TIMEOUT, F.MEM_CFG_REF_POSTPONE] }
/-- MEM_THROTTLE (R381). -/
def MEM_THROTTLE : Reg :=
  { addr := 0x1900008,
    fields := [F.MEM_THROTTLE_LEVEL, F.MEM_THROTTLE_BY_QUILL] }
/-- MEM_STAT (R382). -/
def MEM_STAT : Reg :=
  { addr := 0x1900010,
    fields := [F.MEM_STAT_REPLAY, F.MEM_STAT_UNCORR, F.MEM_STAT_RETIRED, F.MEM_STAT_DEAD, F.MEM_STAT_HOT, F.MEM_STAT_REFURG, F.MEM_STAT_SPILLSTOP, F.MEM_STAT_POISONOVF, F.MEM_STAT_REFUSED, F.MEM_STAT_FAILED] }
/-- MEM_MIGSTAT (R383). -/
def MEM_MIGSTAT : Reg :=
  { addr := 0x1900018,
    fields := [F.MEM_MIGSTAT_ACTIVE, F.MEM_MIGSTAT_STACK, F.MEM_MIGSTAT_CHANNEL, F.MEM_MIGSTAT_PSID, F.MEM_MIGSTAT_CURSOR, F.MEM_MIGSTAT_QUEUED] }
/-- MEM_RETIRE (R384). -/
def MEM_RETIRE : Reg :=
  { addr := 0x1900020,
    fields := [F.MEM_RETIRE_STACK, F.MEM_RETIRE_CHANNEL, F.MEM_RETIRE_PSID, F.MEM_RETIRE_GO, F.MEM_RETIRE_REFUSED] }
/-- MEM_MAP (R385). -/
def MEM_MAP : Reg :=
  { addr := 0x1900100, n1 := 11, s1 := 0x8,
    fields := [F.MEM_MAP_MASK] }
/-- MEM_QOS (R386). -/
def MEM_QOS : Reg :=
  { addr := 0x1900200, n1 := 6, s1 := 0x8,
    fields := [F.MEM_QOS_TARGET_NS, F.MEM_QOS_TAG_RESERVE] }
/-- MEM_QOSCNT (R386). -/
def MEM_QOSCNT : Reg :=
  { addr := 0x1900280, n1 := 6, s1 := 0x8,
    fields := [F.MEM_QOSCNT_LATE] }
/-- MEM_STACK (R387). -/
def MEM_STACK : Reg :=
  { addr := 0x1900300, n1 := 4, s1 := 0x8,
    fields := [F.MEM_STACK_STATE, F.MEM_STACK_TEMP, F.MEM_STACK_RATE, F.MEM_STACK_OWED_MAX] }
/-- MEM_CNT (R389). -/
def MEM_CNT : Reg :=
  { addr := 0x1900400, n1 := 32, s1 := 0x8,
    fields := [F.MEM_CNT_COUNT] }
/-- MEM_UNIT (R388). -/
def MEM_UNIT : Reg :=
  { addr := 0x1901000, n1 := 4, s1 := 0x80, n2 := 16, s2 := 0x8,
    fields := [F.MEM_UNIT_MAP, F.MEM_UNIT_SPARE, F.MEM_UNIT_SPARE_USED, F.MEM_UNIT_MIGRATING, F.MEM_UNIT_DEAD, F.MEM_UNIT_UNCORR] }
/-- UPL_QUADCFG (R404). -/
def UPL_QUADCFG : Reg :=
  { addr := 0x1A00000, n1 := 32, s1 := 0x4000,
    fields := [F.UPL_QUADCFG_MODE] }
/-- UPL_MACCFG (R405). -/
def UPL_MACCFG : Reg :=
  { addr := 0x1A00008, n1 := 128, s1 := 0x1000,
    fields := [F.UPL_MACCFG_RX_EN, F.UPL_MACCFG_TX_EN, F.UPL_MACCFG_POP_EN, F.UPL_MACCFG_PAUSE_RX_EN, F.UPL_MACCFG_PFC_RX_EN, F.UPL_MACCFG_PCP_FROM_TC, F.UPL_MACCFG_DEI_MARK, F.UPL_MACCFG_DOWN_FLUSH, F.UPL_MACCFG_MAC_LOOP, F.UPL_MACCFG_RX_MAX_FRAME, F.UPL_MACCFG_START_BASE, F.UPL_MACCFG_STORM_MS, F.UPL_MACCFG_LINK_HOLD_MS] }
/-- UPL_TAGCFG (R406). -/
def UPL_TAGCFG : Reg :=
  { addr := 0x1A00010, n1 := 128, s1 := 0x1000,
    fields := [F.UPL_TAGCFG_POP_TPID, F.UPL_TAGCFG_PUSH_TPID_OUTER, F.UPL_TAGCFG_PUSH_TPID_INNER] }
/-- UPL_STAT (R407). -/
def UPL_STAT : Reg :=
  { addr := 0x1A00018, n1 := 128, s1 := 0x1000,
    fields := [F.UPL_STAT_LINK_UP, F.UPL_STAT_ALIGNED, F.UPL_STAT_LOCAL_FAULT, F.UPL_STAT_REMOTE_FAULT, F.UPL_STAT_LINKDOWN, F.UPL_STAT_UNDERRUN, F.UPL_STAT_ABORT, F.UPL_STAT_FCSERR, F.UPL_STAT_FECUNC, F.UPL_STAT_STORM, F.UPL_STAT_PAUSED, F.UPL_STAT_LANES_DOWN] }
/-- UPL_TXSTAT (R408). -/
def UPL_TXSTAT : Reg :=
  { addr := 0x1A00020, n1 := 128, s1 := 0x1000,
    fields := [F.UPL_TXSTAT_STEP, F.UPL_TXSTAT_CLEAN] }
/-- UPL_CNT (R409). -/
def UPL_CNT : Reg :=
  { addr := 0x1A00100, n1 := 128, s1 := 0x1000, n2 := 64, s2 := 0x8,
    fields := [F.UPL_CNT_COUNT] }
/-- UPL_LANECNT (R409). -/
def UPL_LANECNT : Reg :=
  { addr := 0x1A00300, n1 := 128, s1 := 0x1000, n2 := 8, s2 := 0x8,
    fields := [F.UPL_LANECNT_COUNT] }
/-- CRY_CFG (R431). -/
def CRY_CFG : Reg :=
  { addr := 0x1C00000,
    fields := [F.CRY_CFG_RX_SF, F.CRY_CFG_JOB_EN, F.CRY_CFG_IK_VALID] }
/-- CRY_STAT (R431). -/
def CRY_STAT : Reg :=
  { addr := 0x1C00008,
    fields := [F.CRY_STAT_TAGFAIL, F.CRY_STAT_TAGLATE, F.CRY_STAT_NOKEY, F.CRY_STAT_WARN, F.CRY_STAT_STOP, F.CRY_STAT_UNWRAP, F.CRY_STAT_REFUSED, F.CRY_STAT_JOBERR] }
/-- CRY_KEY_CTL (R432). -/
def CRY_KEY_CTL : Reg :=
  { addr := 0x1C00100,
    fields := [F.CRY_KEY_CTL_INDEX, F.CRY_KEY_CTL_OP, F.CRY_KEY_CTL_GO, F.CRY_KEY_CTL_BUSY, F.CRY_KEY_CTL_REFUSED, F.CRY_KEY_CTL_STATE, F.CRY_KEY_CTL_WARNED] }
/-- CRY_KEY_DATA (R432). -/
def CRY_KEY_DATA : Reg :=
  { addr := 0x1C00108, n1 := 5, s1 := 0x8,
    fields := [F.CRY_KEY_DATA_WRAP] }
/-- CRY_KEY_TXCTR (R432). -/
def CRY_KEY_TXCTR : Reg :=
  { addr := 0x1C00130,
    fields := [F.CRY_KEY_TXCTR_CTR] }
/-- CRY_KEY_RXCTR (R432). -/
def CRY_KEY_RXCTR : Reg :=
  { addr := 0x1C00138,
    fields := [F.CRY_KEY_RXCTR_CTR, F.CRY_KEY_RXCTR_RX_VALID] }
/-- CRY_JOBSTAT (R433). -/
def CRY_JOBSTAT : Reg :=
  { addr := 0x1C00200, n1 := 16, s1 := 0x8,
    fields := [F.CRY_JOBSTAT_STATE, F.CRY_JOBSTAT_DONE] }
/-- CRY_GCNT (R434). -/
def CRY_GCNT : Reg :=
  { addr := 0x1C00400, n1 := 16, s1 := 0x8,
    fields := [F.CRY_GCNT_COUNT] }
/-- CRY_CNT (R434). -/
def CRY_CNT : Reg :=
  { addr := 0x1C01000, n1 := 128, s1 := 0x80, n2 := 16, s2 := 0x8,
    fields := [F.CRY_CNT_COUNT] }
/-- SCR_STAT (R510). -/
def SCR_STAT : Reg :=
  { addr := 0x1E00000, n1 := 128, s1 := 0x1000,
    fields := [F.SCR_STAT_STATE, F.SCR_STAT_PROTECT, F.SCR_STAT_RESTART, F.SCR_STAT_ABANDON, F.SCR_STAT_STAGEOVF, F.SCR_STAT_PARITY, F.SCR_STAT_WDOG, F.SCR_STAT_FAULT, F.SCR_STAT_REFUSED, F.SCR_STAT_ENTRY, F.SCR_STAT_PC] }
/-- SCR_CNT (R512). -/
def SCR_CNT : Reg :=
  { addr := 0x1E00100, n1 := 128, s1 := 0x1000, n2 := 16, s2 := 0x8,
    fields := [F.SCR_CNT_COUNT] }
/-- SCR_MATCH (R511). -/
def SCR_MATCH : Reg :=
  { addr := 0x1E00200, n1 := 128, s1 := 0x1000, n2 := 32, s2 := 0x8,
    fields := [F.SCR_MATCH_ROM_ADDR, F.SCR_MATCH_PATCH_ADDR, F.SCR_MATCH_COMPAT, F.SCR_MATCH_VALID] }
/-- SCR_TRCCFG (R513). -/
def SCR_TRCCFG : Reg :=
  { addr := 0x1F00000,
    fields := [F.SCR_TRCCFG_ENABLE, F.SCR_TRCCFG_WRAP, F.SCR_TRCCFG_FILTER_EN, F.SCR_TRCCFG_TARGET, F.SCR_TRCCFG_FILTER_ENTRY, F.SCR_TRCCFG_COUNT, F.SCR_TRCCFG_WRAPPED] }
/-- SCR_IND_CTL (R514). -/
def SCR_IND_CTL : Reg :=
  { addr := 0x1F00100,
    fields := [F.SCR_IND_CTL_INDEX, F.SCR_IND_CTL_TABLE, F.SCR_IND_CTL_GO, F.SCR_IND_CTL_BUSY, F.SCR_IND_CTL_REFUSED] }
/-- SCR_IND_DATA (R514). -/
def SCR_IND_DATA : Reg :=
  { addr := 0x1F00108, n1 := 2, s1 := 0x8,
    fields := [F.SCR_IND_DATA_DATA] }

end RegOf

/-- The registers of the GLB block. -/
def regsGLB : List Reg :=
  [RegOf.GLB_ID, RegOf.GLB_MODE, RegOf.GLB_D2DSTAT, RegOf.GLB_D2DREPLAY, RegOf.GLB_D2DUNCOR, RegOf.GLB_QUADMAP, RegOf.GLB_CASCNT, RegOf.GLB_CASSTAT, RegOf.GLB_CASREF, RegOf.GLB_CASBKT]

/-- The registers of the BOOT block. -/
def regsBOOT : List Reg :=
  [RegOf.BOOT_STAT, RegOf.BOOT_FAIL, RegOf.BOOT_BUILD, RegOf.BOOT_FUSE, RegOf.BOOT_RESET, RegOf.BOOT_FLCTL, RegOf.BOOT_FLDATA, RegOf.BOOT_CNT]

/-- The registers of the PWR block. -/
def regsPWR : List Reg :=
  [RegOf.PWR_FOLDCFG, RegOf.PWR_STAT, RegOf.PWR_LOAD, RegOf.PWR_CNT]

/-- The registers of the QUL block. -/
def regsQUL : List Reg :=
  [RegOf.QUL_CFG, RegOf.QUL_STAT, RegOf.QUL_ALARM, RegOf.QUL_MATCH, RegOf.QUL_CNT, RegOf.QUL_ALMCNT, RegOf.QUL_IND_CTL, RegOf.QUL_IND_DATA]

/-- The registers of the TIM block. -/
def regsTIM : List Reg :=
  [RegOf.TIM_CFG, RegOf.TIM_NOW_NS, RegOf.TIM_NOW_SEC, RegOf.TIM_SET_SEC, RegOf.TIM_SET_NS, RegOf.TIM_SERVO, RegOf.TIM_LIMITS, RegOf.TIM_FREQ, RegOf.TIM_STAT, RegOf.TIM_PTPCFG, RegOf.TIM_PTPMASTER, RegOf.TIM_TRMCFG, RegOf.TIM_TRIG_CTL, RegOf.TIM_TRIG_START, RegOf.TIM_TRIG_TIME, RegOf.TIM_TRIG_WIDTH, RegOf.TIM_TRIG_STAT, RegOf.TIM_CAPCTL, RegOf.TIM_CAPNS, RegOf.TIM_CAPSEC, RegOf.TIM_CAPSTAT, RegOf.TIM_CNT]

/-- The registers of the STL block. -/
def regsSTL : List Reg :=
  [RegOf.STL_CFG, RegOf.STL_STAT, RegOf.STL_CNT, RegOf.STL_CHCFG, RegOf.STL_CHSTAT]

/-- The registers of the EVT block. -/
def regsEVT : List Reg :=
  [RegOf.EVT_CFG, RegOf.EVT_PROD, RegOf.EVT_CONS, RegOf.EVT_STAT, RegOf.EVT_CNT]

/-- The registers of the PMU block. -/
def regsPMU : List Reg :=
  [RegOf.PMU_GCTL, RegOf.PMU_STAT, RegOf.PMU_SHEETCFG, RegOf.PMU_SHEETSTAT, RegOf.PMU_BWCFG, RegOf.PMU_TAGCFG, RegOf.PMU_TRCSTAT, RegOf.PMU_BWSTAMP, RegOf.PMU_GCNT, RegOf.PMU_CYC, RegOf.PMU_CTL, RegOf.PMU_PCNT, RegOf.PMU_BW]

/-- The registers of the HST block. -/
def regsHST : List Reg :=
  [RegOf.HST_CFG, RegOf.HST_IRQSTAT, RegOf.HST_IRQMASK, RegOf.HST_RINGIRQ, RegOf.HST_RINGMASK, RegOf.HST_ALERT, RegOf.HST_ALERTMASK, RegOf.HST_ALERTCNT, RegOf.HST_CNT, RegOf.HST_RINGCFG, RegOf.HST_SQTAIL, RegOf.HST_CQHEAD, RegOf.HST_RINGSTAT, RegOf.HST_RINGCNT]

/-- The registers of the SLN block. -/
def regsSLN : List Reg :=
  [RegOf.SLN_CTL, RegOf.SLN_STAT, RegOf.SLN_TXCFG, RegOf.SLN_RXCFG, RegOf.SLN_RXSTAT, RegOf.SLN_EQ, RegOf.SLN_PATCFG, RegOf.SLN_USER, RegOf.SLN_PATERR, RegOf.SLN_PATBITS, RegOf.SLN_CNT, RegOf.SLN_PRE_CTL, RegOf.SLN_PRE_DATA]

/-- The registers of the TCH block. -/
def regsTCH : List Reg :=
  [RegOf.TCH_FRMCFG, RegOf.TCH_FRMID, RegOf.TCH_FRMSTAT, RegOf.TCH_TXFC, RegOf.TCH_RXFC, RegOf.TCH_RXCNT, RegOf.TCH_TXCNT, RegOf.TCH_BRXCFG, RegOf.TCH_BRXSTAT, RegOf.TCH_BRXCNT, RegOf.TCH_LCCFG, RegOf.TCH_DISCCFG, RegOf.TCH_RCVCFG, RegOf.TCH_LCSTAT, RegOf.TCH_LCCNT, RegOf.TCH_TRMCFG, RegOf.TCH_TRMCAL, RegOf.TCH_TRMSTAT, RegOf.TCH_TRMCNT, RegOf.TCH_EMUSER, RegOf.TCH_EMUCTL, RegOf.TCH_EMUDLY, RegOf.TCH_EMUCONT, RegOf.TCH_EMUSTAT]

/-- The registers of the RUL block. -/
def regsRUL : List Reg :=
  [RegOf.RUL_CHCFG, RegOf.RUL_CHSTAT]

/-- The registers of the GNT block. -/
def regsGNT : List Reg :=
  [RegOf.GNT_CHCFG, RegOf.GNT_CHSTAT, RegOf.GNT_CHVT, RegOf.GNT_CHLAST, RegOf.GNT_CNT, RegOf.GNT_IND_CTL, RegOf.GNT_IND_DATA]

/-- The registers of the CIR block. -/
def regsCIR : List Reg :=
  [RegOf.CIR_CFG, RegOf.CIR_TIMING, RegOf.CIR_CF, RegOf.CIR_STAT, RegOf.CIR_FILL, RegOf.CIR_CNT, RegOf.CIR_GLB, RegOf.CIR_GLBSTAT, RegOf.CIR_GLBCNT]

/-- The registers of the TMG block. -/
def regsTMG : List Reg :=
  [RegOf.TMG_GLB, RegOf.TMG_CHCFG, RegOf.TMG_CHVT, RegOf.TMG_CHSTAT, RegOf.TMG_CHCNT, RegOf.TMG_EGCNT, RegOf.TMG_IND_CTL, RegOf.TMG_IND_DATA]

/-- The registers of the PAR block. -/
def regsPAR : List Reg :=
  [RegOf.PAR_CFG, RegOf.PAR_TPID, RegOf.PAR_TUN, RegOf.PAR_FRAGCFG, RegOf.PAR_STAT, RegOf.PAR_FRAGSTAT, RegOf.PAR_DEFACT, RegOf.PAR_RANGE, RegOf.PAR_CNT, RegOf.PAR_IND_CTL, RegOf.PAR_IND_DATA]

/-- The registers of the FWD block. -/
def regsFWD : List Reg :=
  [RegOf.FWD_CFG, RegOf.FWD_STAT, RegOf.FWD_USE, RegOf.FWD_FLUSH, RegOf.FWD_CNT, RegOf.FWD_IND_CTL, RegOf.FWD_IND_DATA]

/-- The registers of the BUF block. -/
def regsBUF : List Reg :=
  [RegOf.BUF_CFG, RegOf.BUF_STAT, RegOf.BUF_SPILLSTAT, RegOf.BUF_POOLSTAT, RegOf.BUF_CNT, RegOf.BUF_IND_CTL, RegOf.BUF_IND_DATA]

/-- The registers of the MEM block. -/
def regsMEM : List Reg :=
  [RegOf.MEM_CFG, RegOf.MEM_THROTTLE, RegOf.MEM_STAT, RegOf.MEM_MIGSTAT, RegOf.MEM_RETIRE, RegOf.MEM_MAP, RegOf.MEM_QOS, RegOf.MEM_QOSCNT, RegOf.MEM_STACK, RegOf.MEM_CNT, RegOf.MEM_UNIT]

/-- The registers of the UPL block. -/
def regsUPL : List Reg :=
  [RegOf.UPL_QUADCFG, RegOf.UPL_MACCFG, RegOf.UPL_TAGCFG, RegOf.UPL_STAT, RegOf.UPL_TXSTAT, RegOf.UPL_CNT, RegOf.UPL_LANECNT]

/-- The registers of the CRY block. -/
def regsCRY : List Reg :=
  [RegOf.CRY_CFG, RegOf.CRY_STAT, RegOf.CRY_KEY_CTL, RegOf.CRY_KEY_DATA, RegOf.CRY_KEY_TXCTR, RegOf.CRY_KEY_RXCTR, RegOf.CRY_JOBSTAT, RegOf.CRY_GCNT, RegOf.CRY_CNT]

/-- The registers of the SCR block. -/
def regsSCR : List Reg :=
  [RegOf.SCR_STAT, RegOf.SCR_CNT, RegOf.SCR_MATCH, RegOf.SCR_TRCCFG, RegOf.SCR_IND_CTL, RegOf.SCR_IND_DATA]

/-- Every BAR0 register. -/
def allRegs : List Reg :=
  regsGLB ++ regsBOOT ++ regsPWR ++ regsQUL ++ regsTIM ++ regsSTL ++ regsEVT ++ regsPMU ++ regsHST ++ regsSLN ++ regsTCH ++ regsRUL ++ regsGNT ++ regsCIR ++ regsTMG ++ regsPAR ++ regsFWD ++ regsBUF ++ regsMEM ++ regsUPL ++ regsCRY ++ regsSCR

/-- Does the register hold an RWL field? -/
def Reg.hasRwl (r : Reg) : Bool := r.fields.any fun f => f.acc == .rwl

/-- Is a value of a field inside its range? -/
def Fld.inRange (f : Fld) (v : Nat) : Bool :=
  !f.ranged ||
    (if f.sg then decide (sgn f.w v ≤ (f.mx : Int)) && decide (-(f.mx : Int) ≤ sgn f.w v)
     else decide (f.mn ≤ v) && decide (v ≤ f.mx) && decide (v % f.mult = 0))

/-- Which instance of `r` an aligned address names, if any. -/
def Reg.index? (r : Reg) (a : Nat) : Option (Nat × Nat) :=
  if a < r.addr then none
  else
    let o := a - r.addr
    let i := if r.n1 = 1 then 0 else o / r.s1
    let o := if r.n1 = 1 then o else o % r.s1
    let j := if r.n2 = 1 then 0 else o / r.s2
    let o := if r.n2 = 1 then o else o % r.s2
    if i < r.n1 ∧ j < r.n2 ∧ o = 0 then some (i, j) else none

/-- The register and instance at an address (R11: none where no register is). -/
def findReg (a : Nat) : List Reg → Option (Reg × Nat × Nat)
  | [] => none
  | r :: rest => match r.index? a with
    | some (i, j) => some (r, i, j)
    | none => findReg a rest

end Sys2Proof
end

