-- ==== Sys2Proof/WellFormed.lean ====
section
/-!
DEFINITION. Which commands are well formed: the checks on operands that their types do not make. An ill-formed command
stands for no occurrence of the part.
-/

namespace Sys2Proof

/-- A codeword of `n` data positions and 32 parity blocks (R47, R88), in which each bit changes at most once. -/
def CwIn.okOf (n : Nat) (w : CwIn) : Bool :=
  w.raw.length == n + 32 && decide w.flips.Nodup && w.flips.all fun i => decide (i.val < 66 * (n + 32))

/-- A downstream codeword has 224 data positions (R47). -/
def CwIn.ok (w : CwIn) : Bool := w.okOf 224

/-- The codewords of a burst are full, but for the last, which has 32 to 224 data positions (R88). -/
def wordsOk : List CwIn → Bool
  | [] => false
  | [w] => decide (64 ≤ w.raw.length) && decide (w.raw.length ≤ 256) && w.okOf (w.raw.length - 32)
  | w :: r => w.ok && wordsOk r

/-- An adaptation span has steps for 12 taps (R266). -/
def Adapt.ok (a : Adapt) : Bool := a.taps.length == 12

/-- A continuous receiver's window (R268, R269). -/
def RxVals.ok (v : RxVals) : Bool := v.spans.all Adapt.ok

/-- A burst's codewords (R88) and adaptation. -/
def BurstIn.ok (b : BurstIn) : Bool := wordsOk b.words && (b.pre ++ b.post).all Adapt.ok

/-- A burst of a window carries one codeword of 32 data positions (R117, R120). -/
def WindowIn.ok (w : WindowIn) : Bool := w.word.okOf 32 && (w.pre ++ w.post).all Adapt.ok

/-- A word has at least one lane, and a parity bit for each (R23). -/
def WordIn.ok (w : WordIn) : Bool := decide (0 < w.lanes.length) && w.lanes.length == w.parity.length

/-- A record's length field has two bytes (R467). -/
def CopyRec.ok (r : CopyRec) : Bool := decide (r.data.length < 65536)

/-- What Quill samples at once (R515). -/
def QuillIn.ok (x : QuillIn) : Bool :=
  x.dies.length == 24 && x.supplies.length == 8 && x.hbm.length == 4 && x.adc.length == 16

/-- A PTP message's stamps: 48-bit seconds with nanoseconds, in 2^−16 ns, and a 64-bit correction field (R442). -/
def PtpIn.ok (m : PtpIn) : Bool :=
  decide (m.time < 2 ^ 48 * 1000000000 * 65536) && decide (-(2 ^ 63) ≤ m.corr) && decide (m.corr < 2 ^ 63)

/-- The operands of a command have the shapes their row gives them. -/
def Instr.wf : Instr → Bool
  | .codewordDecode _ w => w.ok
  | .burstReceived _ b => b.ok
  | .discRx _ rs => rs.all WindowIn.ok
  | .rangeRx _ _ r => r.all WindowIn.ok
  | .wordFailed _ w => w.ok
  | .laneLock _ v => v.ok
  | .retrain _ _ ws => ws.all RxVals.ok
  | .keys _ _ q => q.all fun x => x.wrap.length == 40
  | .macFrameRx m => decide (m.symbols.length ≤ 8) && decide (m.bipErrs.length ≤ 8)
  | .ptpMessageRx m => m.ok
  | .delta _ recs => recs.all CopyRec.ok
  | .bulk recs _ => recs.all CopyRec.ok
  | .stitchMap _ _ entries => decide (entries.length < 65536)
  | .stitchKey _ wrapped => wrapped.length == 40
  | .stitchConfig _ data => decide (data.length ≤ 192) && data.length % 8 == 0
  | .quillSample x => x.ok
  | .hostMemoryWrite off bytes => decide (0 < bytes.length) && decide (off.val % 64 + bytes.length ≤ 64)
  | _ => true

end Sys2Proof
end

