-- ==== Sys2Proof/Machine/State.lean ====
section
/-!
DEFINITION. The machine state: the device, and the queue of commands that wait.
-/

namespace Sys2Proof.Machine

/-- Why the machine could stop with a fault. No command does: every occurrence of the manual that goes wrong is
recorded by the device, which goes on. -/
inductive Fault where
  /-- Raised by nothing. Safe. -/
  | none
  deriving DecidableEq, Repr

/-- Why a command has no meaning. -/
inductive Refusal where
  /-- No meaning yet for the command named. Safe. -/
  | notModelled (mnemonic : String)
  /-- The operands are not well formed (`Instr.wf`): no such occurrence exists. Safe. -/
  | illFormed
  deriving DecidableEq, Repr

/-- The device: everything the manual gives the part. `regs` holds every register field, by
(BAR0 address × 64 + lowest bit); `eff` the values still in force of fields whose write takes effect later. -/
structure Dev where
  regs : Tbl Nat
  eff : Tbl Nat
  imgApplied : Bool
  obs : Mem
  free : Nat
  clk : Clk
  blot : Blot
  host : HostIf
  boot : Boot
  arb : Arb
  fab : Fab
  tim : Tim
  tm : Tm
  par : Par
  fwd : Fwd
  buf : Buf
  mac : Mac
  lanes : Lanes
  mem : MemC
  pmu : Pmu
  cas : Cas
  cirIn : List (Nat × List Byte)
  cirs : Tbl Cir
  cry : Cry
  reg : Registry
  lines : Lines
  gnt : Gnt
  emus : Emus
  micro : Micro
  stl : Stl
  quill : Quill
  deriving DecidableEq, Repr

/-- The machine: the commands that wait, first in, first out, and the device. -/
structure State where
  pending : List Instr
  dev : Dev
  deriving DecidableEq, Repr

/-- The parts of the boot block that a cold reset leaves (R536): fuses and flash. -/
def Boot.cold (fuses : Fuses) (flash : Mem) (good : Bool) : Boot :=
  { fuses := fuses, flash := flash, slots := [], records := [], bundle := [], keyId := 0, version := 0, flashOp := none,
    fuseTodo := [], powerGood := good, resetHeld := true }

/-- Fuses of which none is blown. -/
def Fuses.blank : Fuses :=
  { rootKey := 0, rootPresent := false, hash0 := 0, hash1 := 0, hashPresent := 0, revoked := 0, version := 0 }

/-- The pair's state with no pair (R486). -/
def Stl.none_ : Stl :=
  { pairId := 0, digest := 0, mismatch := false, lease := 0, promise := 0, heard := none, partnerMode := none,
    partnerEpoch := 0, healthy := false, copy := 0, recs := [], apply := [], again := [], seq := 0, sent := [],
    handback := none, wasActive := false, waiting := false, alone := none, begun := none, found := [], bulkBy := none,
    forwarded := none, resigned := 0, waitFrom := 0 }

/-- Quill's state with no record and no sample: a channel that is not listed is ABSENT (R515). -/
def Quill.empty : Quill :=
  { filters := [], rules := [], samples := [], states := [], slots := [], laserOff := [], hot := 0, hotTwice := false, cool := 0, armed := true,
    bySelf := false, vigilAt := 0, parityAt := none, hostLevel := 0, levelAt := none, patches := [], regs := [], stack := [],
    held := [], polls := [], polledAt := [] }

/-- The stacked memory controller with nothing under way. -/
def MemC.idle : MemC :=
  { banks := [], owed := [], catchUp := [], tags := [], reads := [], rdWait := [], wbuf := [], waiting := [], mig := none,
    migAt := 0, migWait := [], poison := [],
    coolSince := [], winStart := 0, winBytes := 0, rdData := [], rdPoison := false, ringBad := [], hotInVigil := [] }

/-- The time block with no source seen. -/
def Tim.idle : Tim :=
  { filt := 0, run := 0, sampled := false, lastAt := 0, sample := none,
    slave := { syncSeq := 0, t1 := none, t2 := 0, corr1 := 0, reqSeq := 0, t3 := none },
    heardAt := 0, sentAt := [], seqs := [], gm := [], dataset := [], sent := [], trigs := [], ppsUntil := 0, caps := [], capLast := [],
    firstFrame := false, casReady := false }

/-- Lanes that are all OFF, with nothing measured. -/
def Lanes.idle : Lanes :=
  { presets := [], descending := [], start := [], foms := [], entered := [], loaded := [], dirty := [], fine := [], hostAt := [],
    imgOn := [], stLock := [], patAt := [], genAt := [], inj := [], rateAt := [], owe := [], downAt := [] }

/-- Traffic management, tables and buffers with nothing in them. -/
def Tm.empty : Tm :=
  { qcfg := [], qold := [], ncfg := [], nold := [], mcfg := [], mold := [], mst := [], prof := [], qst := [], nst := [], vprio := [],
    chCredit := [], mgmt := [], ahead := [], lfsr := [], swept := 0 }

/-- Empty forwarding tables. -/
def Fwd.empty : Fwd :=
  { services := [], bridge := [], hosts := [], prefixes := [], members := [], learns := [], bds := [], filter := [],
    excess := [], queue := [], updates := [], regions := [], insert := none, seen := (0, []), hostPut := (0, []),
    hits := (0, []), sweepDue := 0 }

/-- Empty buffer pools. -/
def Buf.empty : Buf :=
  { ocfg := [], drops := [], bufs := [], used := [], pages := [], next := 1, inUse := [], freed := (0, []),
    asked := { cyc := 0, next := 0, fell := [] } }

/-- Quads at home, links idle. -/
def Fab.idle : Fab :=
  { due := [], pairs := [], moves := [], held := [], inq := [], links := [], load := [], quiet := [], wait := [], winAt := 0,
    winUs := 0 }

/-- The performance monitor before its first sheet, which will be generation 1 (R584). -/
def Pmu.idle : Pmu :=
  { trQ := 0, trAt := 0, tagLfsr := [], tagNext := 0, oct := [], winStart := 0, winNs := 0, epoch := 1, lastT := 0,
    restart := false, gap := false }

/-- No transition and no trigger; the tree lanes are squelched where the mode does not run them. -/
def Arb.idle : Arb :=
  { asked := [], trans := none, vigilStage := 0, squelch := false, releaseAt := none, startAt := none, refused := [] }

/-- The register fields whose reset value is no default of their field: LINK_UP of the internal buses (R27). -/
def resetRegs : Tbl Nat := (List.range 5).map fun l => (F.GLB_D2DSTAT_LINK_UP.key (4 + l) 0, 1)

/-- The device after a cold reset (R14, R536): registers at their reset values, the observation region zero (R379), all
tables empty. -/
def Dev.reset (fuses : Fuses) (flash : Mem) (good : Bool) : Dev :=
  { regs := resetRegs, eff := [], imgApplied := false, obs := [], free := 0,
    clk := { sec := 0, ns := 0, frac := 0, addend := 2863311531, cyc := 0 },
    blot := { opened := [], closed := [], lost := [], ages := [], lastAt := 0, stopped := false },
    host := { rings := [], readData := 0, readPoison := false, mailbox := 0, msiOwed := [], msiLast := [], linkUp := false },
    boot := Boot.cold fuses flash good, arb := Arb.idle, fab := Fab.idle, tim := Tim.idle, tm := Tm.empty,
    par := { rules := [], hits := [], frags := [], rold := [], gold := [] }, fwd := Fwd.empty, buf := Buf.empty,
    mac := { portPause := [], queuePause := [], ignore := [], since := [], last := [], broken := [] },
    lanes := Lanes.idle,
    mem := MemC.idle, pmu := Pmu.idle, cas := { due := [], holds := [] }, cirIn := [], cirs := [],
    cry := { importKey := none, pairKey := none, slots := [], jobs := [], running := none, old := (0, []) },
    reg := { terms := [], white := [], scribes := [], errs := [], bursts := [] },
    lines := { started := none, shadow := [], tx := [], rx := [], brx := [], reasm := [] },
    gnt :=
      { cfg := [], old := [], st := [], reports := [], maps := [], flight := [], done := [], moved := [], renew := [],
        shown := [] },
    emus := { terms := [], sent := [], lastEnd := [], tben := [] }, micro := { trace := [], running := false, ended := false },
    stl := Stl.none_, quill := Quill.empty }

/-- The machine right after reset: power-on, with blank fuses, an erased flash and no command waiting. -/
def State.reset : State := { pending := [], dev := Dev.reset Fuses.blank [] false }

/-- The answer of a command. -/
abbrev Res := Host.Outcome State Fault Refusal

/-- A well-formed command changes the device and leaves the queue alone; an ill-formed one is refused. -/
def run (c : Instr) (s : State) (f : Dev → Dev) : Res :=
  if c.wf then .next { s with dev := f s.dev } else .refused .illFormed

end Sys2Proof.Machine
end

