-- ==== Sys2Proof/Machine/Ops.lean ====
section
/-!
DEFINITION. The named operations of the device: reading and writing register fields, statistics counters
(R581), W1C flags with their companion counts (R13), events into the Blotter (R571 to R574), the alert pin
register (R569), interrupts (R568), the local clock (R435, R436) and free values.
-/

namespace Sys2Proof.Machine

open Sys2Proof

/-! ### Register fields -/

/-- What a register field reads when nothing has written it (R14): an IMG field reads zero until the image's
records are applied and its default after; any other field its reset value. -/
def Dev.unwritten (d : Dev) (f : Fld) (i j : Nat) : Nat :=
  if f.img && !d.imgApplied then 0 else f.dflt.val i j

/-- The present value of a register field. -/
def Dev.get (d : Dev) (f : Fld) (i : Nat := 0) (j : Nat := 0) : Nat :=
  Tbl.get (d.unwritten f i j) d.regs (f.key i j)

/-- Is the field 1? -/
def Dev.on (d : Dev) (f : Fld) (i : Nat := 0) (j : Nat := 0) : Bool := d.get f i j != 0

/-- The value a block uses: the value in force, and the field's default where that lies outside its range. -/
def Dev.use (d : Dev) (f : Fld) (i : Nat := 0) (j : Nat := 0) : Nat :=
  let v := Tbl.get (d.get f i j) d.eff (f.key i j)
  if f.inRange v then v else f.dflt.val i j

/-- The value a block will use once what stands written takes effect. -/
def Dev.asked (d : Dev) (f : Fld) (i : Nat := 0) (j : Nat := 0) : Nat :=
  let v := d.get f i j
  if f.inRange v then v else f.dflt.val i j

/-- The signed value a block uses. -/
def Dev.useS (d : Dev) (f : Fld) (i : Nat := 0) (j : Nat := 0) : Int := sgn f.w (d.use f i j)

/-- Does a key of the register file name an IMG field (R14)? -/
def imgKey (k : Nat) : Bool :=
  match findReg (k / 64) allRegs with
  | some (r, _, _) => r.fields.any fun f => f.lo == k % 64 && f.img
  | none => false

/-- No image's values stand in IMG fields (R14, R547): they read zero until the records are applied, and their defaults where
those say nothing. A warm boot keeps the always-on registers but for these (DEDUCED, log entry 183). -/
def Dev.dropImage (d : Dev) : Dev := { d with regs := Tbl.keep (fun k _ => !imgKey k) d.regs }

/-- The used value of a one-bit field. -/
def Dev.useB (d : Dev) (f : Fld) (i : Nat := 0) (j : Nat := 0) : Bool := d.use f i j != 0

/-- The present 64-bit value of a whole register. -/
def Dev.getReg (d : Dev) (r : Reg) (i j : Nat) : Nat :=
  r.fields.foldl (fun a f => a + (d.get f i j % 2 ^ f.w) * 2 ^ f.lo) 0

/-! ### The performance monitor's view (R587) -/

/-- The base and size of each block, in the order of R553 and R586. -/
def blockRange : List (Nat × Nat) :=
  [(0x0, 0x10000), (0x10000, 0x10000), (0x20000, 0x10000), (0x30000, 0x10000), (0x40000, 0x10000),
   (0x50000, 0x10000), (0x60000, 0x10000), (0x70000, 0x10000), (0x80000, 0x80000), (0x100000, 0x300000),
   (0x400000, 0x800000), (0xC00000, 0x100000), (0xD00000, 0x100000), (0xE00000, 0x200000),
   (0x1000000, 0x400000), (0x1400000, 0x100000), (0x1500000, 0x300000), (0x1800000, 0x100000),
   (0x1900000, 0x100000), (0x1A00000, 0x200000), (0x1C00000, 0x200000), (0x1E00000, 0x200000)]

/-- The block an address lies in. -/
def blockOf (a : Nat) : Nat :=
  (blockRange.findIdx? fun b => decide (b.1 ≤ a) && decide (a < b.1 + b.2)).getD 22

/-- The base of a block. -/
def blockBase (b : Nat) : Nat := (blockRange.getD b (0, 0)).1

/-- The Blotter SOURCE of an address: bits [31:16] of its block's BAR0 base (R570). -/
def sourceOf (a : Nat) : Nat := blockBase (blockOf a) / 65536

/-- The programmable counters that are counting: every (block, counter) whose EN is 1 (R598). -/
def Dev.pmuArmed (d : Dev) : List (Nat × Nat) :=
  (List.filter (fun e : Nat × Nat => decide (0x71010 * 64 ≤ e.1) && decide (e.1 < 0x72600 * 64) && e.2 == 1 &&
      decide (e.1 % 64 = 0) && decide (0x10 ≤ e.1 / 64 % 256) && decide (e.1 / 64 % 256 < 0x50)) d.regs).map
    fun e => ((e.1 / 64 - 0x71000) / 256, (e.1 / 64 % 256 - 0x10) / 8)

/-- Add to a programmable counter: 48 bits, each wrap adding to WRAPS, which saturates (R587). -/
def pmuAdd (b i n : Nat) (d : Dev) : Dev :=
  let v := d.get F.PMU_PCNT_COUNT b i + n
  let r := Tbl.set d.regs (F.PMU_PCNT_COUNT.key b i) (v % 2 ^ 48)
  { d with regs := Tbl.set r (F.PMU_PCNT_WRAPS.key b i) (min 65535 (d.get F.PMU_PCNT_WRAPS b i + v / 2 ^ 48)) }

/-- The address a programmable counter watches. -/
def Dev.pmuSource (d : Dev) (b i : Nat) : Nat := blockBase b + d.get F.PMU_CTL_OFFSET b i

/-- The monitor sees `n` increments of the counter register at `a` (R587). -/
def Dev.pmuCount (d : Dev) (a n : Nat) : Dev :=
  if d.get F.PMU_GCTL_FREEZE = 1 then d
  else d.pmuArmed.foldl (fun e c =>
    if e.pmuSource c.1 c.2 = a then
      pmuAdd c.1 c.2 (if e.get F.PMU_CTL_LEVEL c.1 c.2 = 1 then 1 else n) e
    else e) d

/-- The monitor sees a set of the flag at bit `b` of the register at `a`, or a change of a field that covers that
bit from `old` to `new` (R587). -/
def Dev.pmuEdge (d : Dev) (a lo w old new : Nat) : Dev :=
  if d.get F.PMU_GCTL_FREEZE = 1 then d
  else d.pmuArmed.foldl (fun e c =>
    let n := e.get F.PMU_CTL_BIT c.1 c.2
    if e.pmuSource c.1 c.2 = a ∧ e.get F.PMU_CTL_LEVEL c.1 c.2 = 0 ∧ lo ≤ n ∧ n < lo + w ∧
        bits old (n - lo) 1 = 0 ∧ bits new (n - lo) 1 = 1 then pmuAdd c.1 c.2 1 e
    else e) d

/-- Write a register field (hardware side). -/
def Dev.set (d : Dev) (f : Fld) (v : Nat) (i : Nat := 0) (j : Nat := 0) : Dev :=
  let v := v % 2 ^ f.w
  let e := { d with regs := Tbl.set d.regs (f.key i j) v }
  e.pmuEdge (f.addr + i * f.s1 + j * f.s2) f.lo f.w (d.get f i j) v

/-! ### The clock -/

/-- The 32-bit stamp of the present instant (R436). -/
def Dev.stamp (d : Dev) : Nat := (d.clk.sec * 1000000000 + d.clk.ns) % 2 ^ 32

/-- Local time in nanoseconds. -/
def Dev.nowNs (d : Dev) : Nat := d.clk.sec * 1000000000 + d.clk.ns

/-- The frame counter of the present local time (R52). -/
def Dev.frameNow (d : Dev) : Nat := (d.clk.sec * 8000 + d.clk.ns / 125000) % 2 ^ 48

/-! ### Events -/

/-- The bytes of an event that make its key beside source, event and instance: DATA bytes 0–3 (R573). -/
def Ev.sameKey (a b : Ev) : Bool :=
  a.source == b.source && a.event == b.event && a.inst == b.inst && a.data % 2 ^ 32 == b.data % 2 ^ 32

/-- Raise a counter register by `n` without consequences; true when bit 39 rises (R581). -/
def Dev.addRaw (d : Dev) (key n : Nat) : Dev × Bool :=
  let v := Tbl.get 0 d.regs key
  let w := v + n
  ({ d with regs := Tbl.set d.regs key (w % 2 ^ 40) }, v < 2 ^ 39 && 2 ^ 39 ≤ w)

/-- A HALF_RANGE event of the counter register at `a` (R582). -/
def halfRangeEv (a inst : Nat) : Ev := { source := sourceOf a, event := 0x0006, inst := inst, data := a }

/-- The flag event of bit `b` of the register at address `a` (R571). -/
def flagEv (a b inst : Nat) : Ev := { source := sourceOf a, event := 0x8000 + b, inst := inst, data := a }

/-- Merge an event into an entry (R573): COUNT saturates at 2^32 − 1. -/
def BlotEntry.hit (x : BlotEntry) (stamp : Nat) : BlotEntry :=
  { x with count := min (2 ^ 32 - 1) (x.count + 1), last := stamp }

/-- Merge an event into the entry of its key. -/
def hitAll (e : Ev) (stamp : Nat) (l : List BlotEntry) : List BlotEntry :=
  l.map fun x => if x.ev.sameKey e then x.hit stamp else x

/-- Count an event register and queue a HALF_RANGE event when bit 39 rises. -/
def Dev.evCount (r : Dev × List Ev) (k n : Nat) : Dev × List Ev :=
  let q := r.1.addRaw (F.EVT_CNT_COUNT.key k 0) n
  (q.1.pmuCount (0x60100 + 8 * k) n, r.2 ++ (if q.2 then [halfRangeEv (0x60100 + 8 * k) k] else []))

/-- Record a lost event against its source (R574). -/
def Dev.noteLost (d : Dev) (src : Nat) : Dev :=
  let r := Tbl.get { count := 0, first := d.clk.sec * 1000000000 + d.clk.ns, last := d.stamp } d.blot.lost src
  { d with blot := { d.blot with lost := Tbl.set d.blot.lost src { r with count := r.count + 1, last := d.stamp } } }

/-- How many entries the Blotter's table holds: open ones and ones that wait to be written. -/
def Blot.used (b : Blot) : Nat := b.opened.length + b.closed.length

/-- An entry opens; with COALESCE_US 0 it closes at once (R573), and waits where the ring is full. -/
def Dev.openEntry (d : Dev) (x : BlotEntry) (l : List Ev) : Dev × List Ev :=
  let b := d.blot
  let atOnce := d.use F.EVT_CFG_COALESCE_US == 0
  let b := if atOnce then { b with closed := b.closed ++ [{ x with waiting := true }] } else { b with opened := b.opened ++ [x] }
  let q := if atOnce && d.get F.EVT_STAT_UNREAD == 131072 then Dev.evCount ({ d with blot := b }, l) 5 1 else ({ d with blot := b }, l)
  ({ q.1 with regs := Tbl.set q.1.regs (F.EVT_STAT_OPEN.key 0 0) q.1.blot.used }, q.2)

/-- Take one event into the Blotter's table (R573, R574). Answers the events that this brings about: HALF_RANGE
of the Blotter's own counters, and, when the event is lost, the events of OVERFLOW and of the alert. -/
def Dev.absorb (d : Dev) (e : Ev) (late : Bool) : Dev × List Ev :=
  let r := Dev.evCount (d, []) 0 1
  if r.1.get F.EVT_CFG_ENABLE = 0 then r
  else
    let d := r.1
    let b := d.blot
    if !late && b.closed.any (fun x => x.ev.sameKey e) then
      Dev.evCount ({ d with blot := { b with closed := hitAll e d.stamp b.closed } }, r.2) 2 1
    else if !late && b.opened.any (fun x => x.ev.sameKey e) then
      Dev.evCount ({ d with blot := { b with opened := hitAll e d.stamp b.opened } }, r.2) 2 1
    else if late || 1024 ≤ b.used then
      let q := Dev.evCount (d.noteLost e.source, r.2) 3 1
      let d := q.1
      let d := { d with regs := Tbl.set d.regs (F.EVT_STAT_OVERFLOW.key 0 0) 1 }
      let l := d.get F.HST_ALERT_LATCHED ||| 256
      let d := { d with regs := Tbl.set d.regs (F.HST_ALERT_LATCHED.key 0 0) l }
      let d := { d with regs := Tbl.set d.regs (F.HST_ALERT_ACTIVE.key 0 0) (d.get F.HST_ALERT_ACTIVE ||| 256) }
      let d := { d with regs := Tbl.set d.regs (F.HST_IRQSTAT_ALERT.key 0 0) 1 }
      let a1 := d.addRaw (F.HST_ALERTCNT_COUNT.key 8 0) 1
      let a2 := a1.1.addRaw (F.HST_CNT_COUNT.key 6 0) 1
      let d := if a2.1.get F.HST_IRQMASK_MASK % 2 = 1 ∨ 0 ∈ a2.1.host.msiOwed then a2.1
        else { a2.1 with host := { a2.1.host with msiOwed := a2.1.host.msiOwed ++ [0] } }
      (d, q.2 ++ [flagEv 0x60018 0 0, flagEv 0x80040 40 0, flagEv 0x80008 0 0])
    else
      let now : BlotEntry :=
        { ev := e, count := 1, firstSec := d.clk.sec, firstNs := d.clk.ns, last := d.stamp,
          frame := d.frameNow, openedAt := d.clk.cyc, waiting := false }
      d.openEntry now r.2

/-- Post an event, and the events that posting it brings about, to a depth of `n` (log entry 14). -/
def Dev.postN : Nat → Ev → Bool → Dev → Dev
  | 0, e, late, d => (d.absorb e late).1
  | n + 1, e, late, d =>
    let r := d.absorb e late
    r.2.foldl (fun a x => Dev.postN n x false a) r.1

/-- Post an event of this cycle (R573). -/
def Dev.post (d : Dev) (e : Ev) : Dev := Dev.postN 2 e false d

/-- Post an event of the codes of R572: the block's address gives its SOURCE. -/
def Dev.event (d : Dev) (addr code inst : Nat) (data : Nat := 0) : Dev :=
  d.post { source := sourceOf addr, event := code, inst := inst, data := data % 2 ^ 192 }

/-! ### Counters and flags -/

/-- Raise the 40-bit statistics counter at address `a` of instance `inst` by `n` (R581, R582). -/
def Dev.bumpAt (d : Dev) (a inst n : Nat) : Dev :=
  if n = 0 then d
  else
    let r := d.addRaw (a * 64) n
    let e := r.1.pmuCount a n
    if r.2 then e.post (halfRangeEv a (((findReg a allRegs).map fun x => x.2.1).getD inst)) else e

/-- Raise statistics counter `(i, j)` of a count register. -/
def Dev.bump (d : Dev) (f : Fld) (i : Nat := 0) (j : Nat := 0) (n : Nat := 1) : Dev :=
  d.bumpAt (f.addr + i * f.s1 + j * f.s2) i n

/-- Raise a 40-bit count that shares its register with other fields; past 2^40 − 1 it wraps. -/
def Dev.bumpIn (d : Dev) (f : Fld) (i : Nat := 0) (j : Nat := 0) (n : Nat := 1) : Dev :=
  d.set f (d.get f i j + n) i j

/-- A hardware set of a W1C flag: the bit, its companion count (R13) and its flag event (R571). `cnt` is false
where the same occurrence has already raised the companion count. -/
def Dev.flag (d : Dev) (f : Fld) (i : Nat := 0) (j : Nat := 0) (cnt : Bool := true) : Dev :=
  let a := f.addr + i * f.s1 + j * f.s2
  let d := { d with regs := Tbl.set d.regs (f.key i j) 1 }
  let d := d.pmuEdge a f.lo 1 0 1
  let d := if cnt && f.cntAddr != 0 then d.bumpAt (f.cntAddr + i * f.cntStride) i 1 else d
  d.post (flagEv a f.lo i)

/-- A hardware set of bit `b` of a W1C field of several bits, with the companion count at `cntAddr`. -/
def Dev.flagBit (d : Dev) (f : Fld) (b cntAddr inst : Nat) (cnt : Bool := true) : Dev :=
  let d := { d with regs := Tbl.set d.regs (f.key 0 0) (d.get f ||| 2 ^ b) }
  let d := d.pmuEdge f.addr (f.lo + b) 1 0 1
  let d := if cnt then d.bumpAt cntAddr inst 1 else d
  d.post (flagEv f.addr (f.lo + b) inst)

/-- A vector's bit has set: unmasked, its message is owed (R568). -/
def Dev.msi (d : Dev) (v : Nat) : Dev :=
  let masked := if v < 2 then bit (d.get F.HST_IRQMASK_MASK) v else bit (d.get F.HST_RINGMASK_MASK) (v - 2)
  if masked || d.host.msiOwed.contains v then d
  else { d with host := { d.host with msiOwed := d.host.msiOwed ++ [v] } }

/-- HST_IRQSTAT.ALERT sets (R569). -/
def Dev.irqAlert (d : Dev) : Dev := (d.flag F.HST_IRQSTAT_ALERT).msi 0

/-- HST_IRQSTAT.BLOTTER sets (R575). -/
def Dev.irqBlotter (d : Dev) : Dev := (d.flag F.HST_IRQSTAT_BLOTTER).msi 1

/-- Condition `b` of R569 comes about: LATCHED sets, and with it HST_IRQSTAT.ALERT. -/
def Dev.alert (d : Dev) (b : Nat) : Dev :=
  (d.flagBit F.HST_ALERT_LATCHED b (0x80080 + 8 * b) 0).irqAlert

/-- Condition `b` of R569 is present now, or no longer. -/
def Dev.alertActive (d : Dev) (b : Nat) (v : Bool) : Dev :=
  d.set F.HST_ALERT_ACTIVE (setBits (d.get F.HST_ALERT_ACTIVE) b 1 (b2n v))

/-- ALERT_N is low (R569): an unmasked LATCHED bit is 1, or BOOT_FAILED is. -/
def Dev.alertLow (d : Dev) : Bool :=
  let l := d.get F.HST_ALERT_LATCHED
  l &&& (0xFFFF - d.get F.HST_ALERTMASK_MASK) != 0 || bit l 0 || d.get F.BOOT_STAT_PHASE == 8

/-! ### The passing of time -/

/-- Cycles of a clock of `num`/`den` times the fabric clock between two fabric cycle counts (R586). -/
def cyclesIn (num den a b : Nat) : Nat := b * num / den - a * num / den

/-- The clock of PMU block `b` against the fabric clock: 25 MHz, 1,600 MHz or 1,500 MHz (R586). -/
def blockClock (b : Nat) : Nat × Nat := if b < 4 then (1, 60) else if b = 18 then (16, 15) else (1, 1)

/-- Is the domain of a PMU block off? Blocks 0–3 run always; the others stop in VIGIL (R586, R553). -/
def Dev.blockOff (d : Dev) (b : Nat) : Bool := decide (4 ≤ b) && d.get F.GLB_MODE_CURRENT == 4

/-- `n` fabric cycles pass: the cycle counters and the level counters run (R586, R587). -/
def Dev.cycles (d : Dev) (n : Nat) : Dev :=
  let c0 := d.clk.cyc
  let d := { d with clk := { d.clk with cyc := c0 + n } }
  if d.get F.PMU_GCTL_FREEZE = 1 then d
  else
    let d := foldUpTo 22 (fun b e =>
      if e.blockOff b then e
      else
        let k := blockClock b
        let v := (e.get F.PMU_CYC_CYCLES b + cyclesIn k.1 k.2 c0 (c0 + n)) % 2 ^ 64
        { e with regs := Tbl.set e.regs (F.PMU_CYC_CYCLES.key b 0) v }) d
    d.pmuArmed.foldl (fun e c =>
      let a := e.pmuSource c.1 c.2
      let k := blockClock c.1
      if e.get F.PMU_CTL_LEVEL c.1 c.2 = 1 then
        match findReg a allRegs with
        | none => e
        | some (r, i, j) =>
          match r.fields with
          | [f] => if f.w = 40 && f.acc == .ro then e
              else if bit (e.getReg r i j) (e.get F.PMU_CTL_BIT c.1 c.2) then
                pmuAdd c.1 c.2 (cyclesIn k.1 k.2 c0 (c0 + n)) e else e
          | _ => if bit (e.getReg r i j) (e.get F.PMU_CTL_BIT c.1 c.2) then
                pmuAdd c.1 c.2 (cyclesIn k.1 k.2 c0 (c0 + n)) e else e
      else e) d

/-- Add a number of 2^−32 ns to the local time (R435). -/
def Clk.plus (c : Clk) (x : Nat) : Clk :=
  let f := c.frac + x
  let ns := c.ns + f / 2 ^ 32
  { c with
    frac := f % 2 ^ 32, ns := ns % 1000000000, sec := (c.sec + ns / 1000000000) % 2 ^ 48 }

/-- One fabric cycle (R435). -/
def Dev.tick (d : Dev) : Dev := { d with clk := d.clk.plus d.clk.addend }.cycles 1

/-- Run to a later instant of local time, given in whole nanoseconds with no fraction. -/
def Dev.runTo (d : Dev) (ns : Nat) : Dev :=
  let now := d.nowNs
  if ns ≤ now then d
  else
    let n := cdiv ((ns - now) * 2 ^ 32 - d.clk.frac) d.clk.addend
    { d with clk := { d.clk with sec := ns / 1000000000 % 2 ^ 48, ns := ns % 1000000000, frac := 0 } }.cycles n

/-- Run `n` fabric cycles. -/
def Dev.runCycles (d : Dev) (n : Nat) : Dev :=
  if n = 0 then d else { d with clk := d.clk.plus (n * d.clk.addend) }.cycles n

/-- The fabric cycle count `ns` nanoseconds from now, at 1,500 MHz (R28). -/
def Dev.after (d : Dev) (ns : Nat) : Nat := d.clk.cyc + cdiv (ns * 3) 2

/-- Time runs to the fabric cycle at which a timer ends (log entry 21). -/
def Dev.reach (d : Dev) (cyc : Nat) : Dev := d.runCycles (cyc - d.clk.cyc)

/-! ### Free values -/

/-- Draw a fresh free value below `n` (log entry 4). -/
def Dev.draw (d : Dev) (n : Nat) : Dev × Nat :=
  ({ d with free := d.free + 1 }, Config.freeValue d.free % n)

/-- Choose one of several numbers that the manual does not order (log entry 4); none of none. -/
def Dev.pick (d : Dev) (l : List Nat) : Dev × Option Nat :=
  match l with
  | [] => (d, none)
  | [x] => (d, some x)
  | _ => let r := d.draw l.length; (r.1, l[r.2]?)

end Sys2Proof.Machine
end

