-- ==== Sys2Proof/Machine/Ports.lean ====
section
/-!
DEFINITION. Ports, quads and roles: the grouping of lane-ports (R390), the home of a port (R18, R19), the modes
of R31 and R32 and what each makes of a channel.
-/

namespace Sys2Proof.Machine

/-- The first lane-port of the port that lane-port `p` belongs to (R390). -/
def Dev.firstPort (d : Dev) (p : Nat) : Nat :=
  match d.use F.UPL_QUADCFG_MODE (p / 4) with
  | 0 => p
  | 1 => p / 2 * 2
  | 2 => p / 4 * 4
  | _ => p / 8 * 8

/-- The lanes of the port whose first lane-port is `p` (R390). -/
def Dev.portWidth (d : Dev) (p : Nat) : Nat :=
  match d.use F.UPL_QUADCFG_MODE (p / 4) with
  | 0 => 1
  | 1 => 2
  | 2 => 4
  | _ => 8

/-- Is `p` the first lane-port of a port? -/
def Dev.isFirst (d : Dev) (p : Nat) : Bool := d.firstPort p == p

/-- The present mode (R31). -/
def Dev.mode (d : Dev) : Nat := d.get F.GLB_MODE_CURRENT

/-- A channel is enabled by the image (R30), and stays so whatever its lane's state (R278). DESIGN CHOICE (log entry 186): a lane that
the host enables at run time enables its channel too, for as long as ENABLE is 1. -/
def Dev.enabled (d : Dev) (c : Nat) : Bool := d.useB F.SLN_CTL_ENABLE c || d.lanes.imgOn.contains c

/-- A trunk member of CASCADE (R250). -/
def Dev.trunk (d : Dev) (c : Nat) : Bool := d.useB F.TCH_TRMCFG_TRUNK c

/-- The channel runs in head role (R32). -/
def Dev.headRole (d : Dev) (c : Nat) : Bool :=
  d.enabled c && (d.mode == 0 || (d.mode == 1 && !d.trunk c))

/-- The channel runs in terminal role (R32). -/
def Dev.termRole (d : Dev) (c : Nat) : Bool :=
  d.enabled c && (d.mode == 2 || (d.mode == 1 && d.trunk c))

/-- Boot lock is done and the boot mode entered: PHASE 6, in which the first time sample is awaited, or 7 (R542). -/
def Dev.booted (d : Dev) : Bool := d.get F.BOOT_STAT_PHASE == 6 || d.get F.BOOT_STAT_PHASE == 7

/-- Boot has reached PHASE 7 (R542). -/
def Dev.bootDone (d : Dev) : Bool := d.get F.BOOT_STAT_PHASE == 7

/-- A host write of BAR0 outside the BOOT block: it has no effect until PHASE is 7 (R543), and none reaches the device in
VIGIL, where the host link is down (R39). -/
def Dev.hostW (d : Dev) (f : Dev → Dev) : Dev := if d.bootDone && d.mode != 4 then f d else d

/-- A host read of BAR0 other than through REGISTER_READ: none reaches the device in reset, nor in VIGIL (R39). -/
def Dev.hostR (d : Dev) (f : Dev → Dev) : Dev := if d.boot.resetHeld ∨ d.mode = 4 then d else f d

/-- The channel frames in head role: TX_EN in force, and the boot's wait ended (R53, R441), in CASCADE with CAS_WAIT with the
time member's first sample too. A squelch of the lane's output does
not stop the framer (R264, R278). -/
def Dev.framing (d : Dev) (c : Nat) : Bool :=
  d.headRole c && d.useB F.TCH_FRMCFG_TX_EN c && d.tim.firstFrame && d.bootDone &&
    (d.mode != 1 || !d.on F.TIM_CFG_CAS_WAIT || d.tim.casReady)

/-- Some channel frames in head role. -/
def Dev.anyFraming (d : Dev) : Bool := (List.range 128).any fun c => d.framing c

/-- The home pipeline of a quad, 0–7 for D pipelines and 8–15 for U pipelines (R19). -/
def homePipe (q : Nat) : Nat := q / 4

/-- The pipeline serving quad `q` now (R22): D0–D7 are 0–7, U0–U7 are 8–15. -/
def Dev.pipeOf (d : Dev) (q : Nat) : Nat := d.get F.GLB_QUADMAP_PIPE q + (if q < 32 then 0 else 8)

/-- Local time in units of 2^−16 ns. -/
def Dev.now16 (d : Dev) : Nat := d.nowNs * 65536 + d.clk.frac / 65536

/-- Local time in units of 125 ps, the grid of R449. -/
def Dev.now8 (d : Dev) : Nat := d.nowNs * 8 + d.clk.frac * 8 / 2 ^ 32

/-! ### Counts of a port -/

/-- Octets that pass a counting point of R589. -/
def Dev.octets (d : Dev) (k n : Nat) : Dev :=
  { d with pmu := { d.pmu with oct := Tbl.set d.pmu.oct k (Tbl.get 0 d.pmu.oct k + n) } }

/-- A port counter. -/
def Dev.uplCount (d : Dev) (p k : Nat) (n : Nat := 1) : Dev := d.bump F.UPL_CNT_COUNT p k n

/-- The size bin of a frame length, from 0 (R409); none beyond the bins. -/
def sizeBin (n : Nat) : Option Nat :=
  if n < 64 then none else if n = 64 then some 0 else if n ≤ 127 then some 1 else if n ≤ 255 then some 2
  else if n ≤ 511 then some 3 else if n ≤ 1023 then some 4 else if n ≤ 1518 then some 5 else if n ≤ 2047 then some 6
  else if n ≤ 4095 then some 7 else if n ≤ 9216 then some 8 else if n ≤ 16383 then some 9 else none

/-- Count a frame's size bin from entry `base`. -/
def Dev.binCount (d : Dev) (p base n : Nat) : Dev :=
  match sizeBin n with
  | some k => d.uplCount p (base + k)
  | none => d

end Sys2Proof.Machine
end

