-- ==== Sys2Proof/Machine/RegFile.lean ====
section
/-!
DEFINITION. A software write of a register under the access types of R12, and the values that stay in force
until the instant at which a write takes effect.
-/

namespace Sys2Proof.Machine

/-- Store one field of a software write (R12). An RWL field keeps its value after boot lock. -/
def Dev.storeField (d : Dev) (f : Fld) (i j v : Nat) : Dev :=
  let x := bits v f.lo f.w
  match f.acc with
  | .rw => d.set f x i j
  | .rwl => if d.on F.BOOT_STAT_LOCKED then d else d.set f x i j
  | .w1c => d.set f (d.get f i j &&& (2 ^ f.w - 1 - x)) i j
  | .w1s => d.set f (d.get f i j ||| x) i j
  | .ro => d
  | .wo => d.set f x i j

/-- After boot lock, every write that reaches an RWL field raises one RWL_WRITE event (R12). -/
def Dev.rwlWrite (d : Dev) (r : Reg) (i j : Nat) : Dev :=
  let a := r.addr + i * r.s1 + j * r.s2
  if r.hasRwl && d.on F.BOOT_STAT_LOCKED then d.event a 0x0002 i a else d

/-- Store a software write of a whole register (R12). -/
def Dev.store (d : Dev) (r : Reg) (i j v : Nat) : Dev :=
  (r.fields.foldl (fun a f => a.storeField f i j v) d).rwlWrite r i j

/-- Keep the value in force of the RW fields of a register until the boundary at which a write takes effect. -/
def Dev.hold (d : Dev) (r : Reg) (i j : Nat) : Dev :=
  r.fields.foldl (fun a f =>
    if f.acc == .rw || f.acc == .rwl then
      match Tbl.find? a.eff (f.key i j) with
      | some _ => a
      | none => { a with eff := Tbl.set a.eff (f.key i j) (a.get f i j) }
    else a) d

/-- The written value of one field takes effect. -/
def Dev.releaseFld (d : Dev) (f : Fld) (i : Nat := 0) (j : Nat := 0) : Dev := { d with eff := Tbl.erase d.eff (f.key i j) }

/-- The written values of a register take effect. -/
def Dev.release (d : Dev) (r : Reg) (i j : Nat) : Dev :=
  r.fields.foldl (fun a f => { a with eff := Tbl.erase a.eff (f.key i j) }) d

/-- A write that takes effect at a later boundary. -/
def Dev.storeHeld (d : Dev) (r : Reg) (i j v : Nat) : Dev := (d.hold r i j).store r i j v

/-- The value a field would hold after a write of `v`. -/
def written (f : Fld) (v : Nat) : Nat := bits v f.lo f.w

end Sys2Proof.Machine
end

