-- ==== Sys2Proof/Machine/Memory.lean ====
section
/-!
DEFINITION. The stacked memory as the device's blocks see it: the address map (R359 to R362), which accesses are
usable (R372, R377), and reading and writing the observation region (R360, R374).
-/

namespace Sys2Proof.Machine

/-- Where a usable address lies (R361): logical SID, stack, channel, PC, bank group and bank, row. -/
structure Place where
  slice : Nat
  stack : Nat
  ch : Nat
  pc : Nat
  bank : Nat
  row : Nat
  deriving DecidableEq, Repr

/-- Bank-address bit `n` of a slice offset: the XOR of the bits its mask selects (R362). -/
def Dev.bankBit (d : Dev) (n off : Nat) : Nat := popcount (d.use F.MEM_MAP_MASK n &&& off) 34 % 2

/-- Bank-address bits n … n + k − 1 as a number. -/
def Dev.bankBits (d : Dev) (n off : Nat) : Nat → Nat
  | 0 => 0
  | k + 1 => d.bankBit n off + 2 * d.bankBits (n + 1) off k

/-- The place of a usable address (R360, R361). -/
def Dev.place (d : Dev) (a : Nat) : Place :=
  let off := a % 2 ^ 34
  { slice := a / 2 ^ 34, stack := d.bankBits 5 off 2, ch := d.bankBits 1 off 4, pc := d.bankBits 0 off 1,
    bank := d.bankBits 7 off 4, row := bits off 21 13 }

/-- The physical SID that serves logical SID `k` in a channel (R388). -/
def Dev.psidOf (d : Dev) (s ch k : Nat) : Nat := bits (d.get F.MEM_UNIT_MAP s ch) (2 * k) 2

/-- Is a stack in use (R387)? -/
def Dev.stackUp (d : Dev) (s : Nat) : Bool := d.get F.MEM_STACK_STATE s == 1

/-- The unit that holds a usable address (R359, R388). -/
def Dev.unitOf (d : Dev) (a : Nat) : MUnit :=
  let p := d.place a
  { s := p.stack, ch := p.ch, psid := d.psidOf p.stack p.ch p.slice }

/-- The 256-byte block of its unit in which a usable address lies: row, bank, PC and column in descending order. -/
def Dev.unitBlock (d : Dev) (a : Nat) : Nat :=
  let p := d.place a
  p.row * 128 + p.bank * 8 + p.pc * 4 + bits a 8 2

/-- The unit that serves an access now: below the cursor of a migration it is the spare (R376). -/
def Dev.servingUnit (d : Dev) (a : Nat) : MUnit :=
  let u := d.unitOf a
  if d.mem.mig = some u ∧ d.unitBlock a < d.get F.MEM_MIGSTAT_CURSOR then
    { u with psid := d.get F.MEM_UNIT_SPARE u.s u.ch }
  else u

/-- Is a unit dead? -/
def Dev.unitDead (d : Dev) (u : MUnit) : Bool := bit (d.get F.MEM_UNIT_DEAD u.s u.ch) u.psid

/-- Is the unit that holds a usable address neither dead nor on a stack out of use (R372, R377)? -/
def Dev.memUsable (d : Dev) (a : Nat) : Bool :=
  let u := d.unitOf a
  d.stackUp u.s && !d.unitDead u

/-- The bank of an access: stack, channel, PC, physical SID and bank. -/
def Dev.bankNo (d : Dev) (a : Nat) : Nat :=
  let p := d.place a
  (((p.stack * 16 + p.ch) * 2 + p.pc) * 4 + (d.servingUnit a).psid) * 16 + p.bank

/-- The pseudo-channel of an access: 32 × stack + 2 × channel + PC. -/
def Dev.pcOf (d : Dev) (a : Nat) : Nat :=
  let p := d.place a
  (p.stack * 16 + p.ch) * 2 + p.pc

/-- A statistics counter of the memory block. -/
def Dev.memCount (d : Dev) (k : Nat) (n : Nat := 1) : Dev := d.bump F.MEM_CNT_COUNT k 0 n

/-- Put an access in the poison list (R374): 256 accesses, one that finds it full counts POISON_OVF. -/
def Dev.poison (d : Dev) (access : Nat) : Dev :=
  if d.mem.poison.contains access then d
  else if 256 ≤ d.mem.poison.length then d.flag F.MEM_STAT_POISONOVF
  else { d with mem := { d.mem with poison := d.mem.poison ++ [access] } }

/-! ### Refresh (R370, R371) -/

/-- The owed count of a PC. -/
def Dev.owed (d : Dev) (pc : Nat) : Nat := Tbl.get 0 d.mem.owed pc

/-- OWED_MAX of a stack. -/
def Dev.showOwed (d : Dev) (s : Nat) : Dev :=
  d.set F.MEM_STACK_OWED_MAX ((List.range 32).foldl (fun a k => max a (d.owed (32 * s + k))) 0) s

/-- Is the next refresh of a PC urgent? -/
def Dev.refUrgent (d : Dev) (pc : Nat) : Bool :=
  decide (d.use F.MEM_CFG_REF_POSTPONE ≤ d.owed pc) || (Tbl.get false d.mem.catchUp pc && decide (0 < d.owed pc))

/-- Issue one refresh of a PC. -/
def Dev.refreshOne (pc : Nat) (d : Dev) : Dev :=
  if d.owed pc = 0 then d
  else
    let d := (if d.refUrgent pc then d.flag F.MEM_STAT_REFURG else d).memCount 5
    let n := d.owed pc - 1
    let d := { d with mem := { d.mem with owed := Tbl.set d.mem.owed pc n } }
    if n = 0 then { d with mem := { d.mem with catchUp := Tbl.erase d.mem.catchUp pc } } else d

/-! ### Scheduling (R366 to R368) -/

/-- A request that waits for its command slot: whether it is a write, its place in its list, its address, its urgency and its
arrival. -/
structure Queued where
  write : Bool
  ix : Nat
  a : Nat
  urg : Nat
  at_ : Nat
  deriving DecidableEq, Repr

/-- The urgency of a request of a port by its slack (R366); a write's is at least 2 while the buffer is above WB_SPILL_STOP. -/
def Dev.urgency (d : Dev) (write : Bool) (port at_ : Nat) : Nat :=
  let t : Int := (d.use F.MEM_QOS_TARGET_NS port : Nat)
  let slack : Int := t - ((d.clk.cyc - at_) * 2 / 3 : Nat)
  let u := if t < 2 * slack then 0 else if t < 4 * slack then 1 else if 0 < slack then 2 else 3
  if write && decide (d.use F.MEM_CFG_WB_SPILL_STOP < d.mem.wbuf.length) then max 2 u else u

/-- The requests of a PC that have not been issued. A write waits for every earlier read of its block (R365). -/
def Dev.queued (d : Dev) (pc : Nat) : List Queued :=
  let rd := ((List.range d.mem.reads.length).zip d.mem.reads).filter fun x =>
    !x.2.issued && d.pcOf (256 * x.2.block) == pc
  let wr := ((List.range d.mem.wbuf.length).zip d.mem.wbuf).filter fun x =>
    !x.2.issued && d.pcOf (256 * x.2.block) == pc &&
      !(rd.any fun y => y.2.block == x.2.block && decide (y.2.at_ ≤ x.2.at_))
  (rd.map fun x => { write := false, ix := x.1, a := 256 * x.2.block, urg := d.urgency false x.2.port x.2.at_, at_ := x.2.at_ }) ++
    wr.map fun x => { write := true, ix := x.1, a := 256 * x.2.block, urg := d.urgency true x.2.port x.2.at_, at_ := x.2.at_ }

/-- A bank's state. -/
def Dev.bank (d : Dev) (n : Nat) : Bank := Tbl.get { openRow := none, last := 0, k := 0, hits := 0 } d.mem.banks n

/-- Does an access hit its bank's open row? -/
def Dev.rowHit (d : Dev) (a : Nat) : Bool := (d.bank (d.bankNo a)).openRow == some (d.place a).row

/-- One access of a bank (R368): its hit or miss counts and its page counter moves. With other requests queued the page stays open
while one of them hits, but not past ROW_HIT_MAX hits with another row waited for, nor with another row waited for at urgency 3; it
closes when all of them miss. With none it stays open when K is at PRED_THRESH. -/
def Dev.touchBank (d : Dev) (n row : Nat) (others : List (Nat × Nat)) : Dev :=
  let b := d.bank n
  let k := if b.last = row then min 3 (b.k + 1) else b.k - 1
  let hit := b.openRow == some row
  let hits := if hit then b.hits + 1 else 0
  let miss := others.filter fun x => x.1 != row
  let stay :=
    if others.isEmpty then decide (d.use F.MEM_CFG_PRED_THRESH ≤ k)
    else if miss.isEmpty then true
    else miss.length != others.length && decide (hits < d.use F.MEM_CFG_ROW_HIT_MAX) && !(miss.any fun x => x.2 == 3)
  let nb : Bank := { openRow := if stay then some row else none, last := row, k := k, hits := hits }
  { d with mem := { d.mem with banks := Tbl.set d.mem.banks n nb } }.memCount (if hit then 3 else 4)

/-- The access at `a` is made: what is queued for its bank decides with it. -/
def Dev.touch (d : Dev) (a : Nat) : Dev :=
  let n := d.bankNo a
  let l := (d.queued (d.pcOf a)).filter fun x => d.bankNo x.a == n
  d.touchBank n (d.place a).row (l.map fun x => ((d.place x.a).row, x.urg))

/-- Does a queued request go before another (R367): by urgency, then a row hit, then by age? -/
def Dev.goesBefore (d : Dev) (x y : Queued) : Bool :=
  if x.urg ≠ y.urg then decide (y.urg < x.urg)
  else if d.rowHit x.a ≠ d.rowHit y.a then d.rowHit x.a
  else decide (x.at_ < y.at_)

/-- The request that a PC's scheduler takes next (R367). -/
def Dev.nextQueued (d : Dev) (pc : Nat) : Option Queued :=
  (d.queued pc).foldl (fun b x => match b with
    | none => some x
    | some y => if d.goesBefore x y then some x else b) none

/-- Issue a queued request. -/
def Dev.issue (d : Dev) (x : Queued) : Dev :=
  (if x.write then
    { d with mem := { d.mem with wbuf := d.mem.wbuf.modify x.ix fun w => { w with issued := true } } }
   else { d with mem := { d.mem with reads := d.mem.reads.modify x.ix fun r => { r with issued := true } } }).touch x.a

/-- A PC's scheduler fills command slots (R367) until `done` holds: an urgent refresh first, else the next request; `fuel` bounds the
slots. -/
def Dev.issueUntil (pc : Nat) (done : Dev → Bool) : Nat → Dev → Dev
  | 0, d => d
  | n + 1, d =>
    if done d then d
    else if d.refUrgent pc then Dev.issueUntil pc done n (Dev.refreshOne pc d)
    else match d.nextQueued pc with
      | none => d
      | some x => Dev.issueUntil pc done n (d.issue x)

/-- The slots that may pass before a request is issued. -/
def Dev.slotsAhead (d : Dev) (pc : Nat) : Nat := d.mem.reads.length + d.mem.wbuf.length + d.owed pc + 1

/-! ### Tags (R364) -/

/-- The tags port `p` holds. -/
def Dev.tagsOf (d : Dev) (p : Nat) : Nat := Tbl.get 0 d.mem.tags p

/-- Tags reserved for a port (R364, R386): write ports have none. -/
def Dev.tagReserve (d : Dev) (p : Nat) : Nat := if p = 0 ∨ p = 2 ∨ p = 4 then 0 else d.use F.MEM_QOS_TAG_RESERVE p

/-- The tags that port `p` can still have (R364): what is left of its reserve, and of the shared pool. -/
def Dev.tagsFree (d : Dev) (p : Nat) : Nat :=
  let shared := 3072 - (List.range 6).foldl (fun a k => a + d.tagReserve k) 0
  let taken := (List.range 6).foldl (fun a k => a + (d.tagsOf k - d.tagReserve k)) 0
  (d.tagReserve p - d.tagsOf p) + (shared - taken)

/-- Take or return tags. -/
def Dev.setTags (d : Dev) (p n : Nat) : Dev := { d with mem := { d.mem with tags := Tbl.set d.mem.tags p n } }

/-- The accesses of a block that buffered writes cover (R365). -/
def Dev.covered (d : Dev) (block : Nat) : List Nat :=
  (List.range 4).filter fun i => d.mem.wbuf.any fun w => w.block == block && w.old.any fun o => o.1 == i

/-- A read takes its tag and is checked against the write buffer (R364, R365): each access covered counts in FORWARDED. -/
def Dev.startRead (d : Dev) (r : RdReq) (accs : List Nat) : Dev :=
  let n := (accs.filter fun i => (d.covered r.block).contains i).length
  let d := (d.setTags r.port (d.tagsOf r.port + 1)).memCount 2 n
  let all := n == accs.length
  { d with mem := { d.mem with reads := d.mem.reads ++ [{ r with issued := all, fwd := all }] } }

/-- A page's read finds a tag, or waits at its port and counts in TAG_WAITS (R364). -/
def Dev.askRead (d : Dev) (r : RdReq) : Dev :=
  if 0 < d.tagsFree r.port ∧ (d.mem.rdWait.any fun x => x.port == r.port) = false then d.startRead r [0, 1, 2, 3]
  else { d with mem := { d.mem with rdWait := d.mem.rdWait ++ [r] } }.memCount 8

/-- Tags have come back: page reads that wait take them, the oldest first. -/
def Dev.serveReads (d : Dev) : Dev :=
  d.mem.rdWait.foldl (fun d r =>
    if r.page.isSome ∧ 0 < d.tagsFree r.port then
      { d with mem := { d.mem with rdWait := d.mem.rdWait.erase r } }.startRead r [0, 1, 2, 3]
    else d) d

/-! ### The write buffer (R365) -/

/-- The accesses of its block that a write request touches; a spill page's request touches all four. -/
def WrReq.accs (w : WrReq) : List Nat :=
  (List.range 4).filter fun i => decide (w.off < 64 * i + 64) && decide (64 * i < w.off + w.bytes.length)

/-- Does a write request belong to the spill space? -/
def WrReq.spills (w : WrReq) : Bool := decide (0x200000000 ≤ 256 * w.block)

/-- An access that a write enables in part only (R365). -/
def WrReq.part (w : WrReq) (i : Nat) : Bool := decide (64 * i < w.off) || decide (w.off + w.bytes.length < 64 * i + 64)

/-- An entry of the buffer in which a write to an access replaces the data: buffered and not yet issued. -/
def WrEnt.takes (e : WrEnt) (block i : Nat) : Bool := e.block == block && !e.issued && e.old.any fun o => o.1 == i

/-- The bytes of a write come to stand in the observation region, as a read finds them there or in the buffer; its accesses leave
the poison list (R374). The bytes of a spill page stand in its packets. -/
def Dev.landWrite (d : Dev) (w : WrReq) : Dev :=
  let p := d.mem.poison.filter fun x => !(x / 4 == w.block && w.accs.contains (x % 4))
  let d := { d with mem := { d.mem with poison := p } }
  if w.spills then d else { d with obs := Mem.writeN d.obs (256 * w.block + w.off) w.bytes }

/-- The read of a CXL write that enables an access in part (R365): of the stack, or forwarded; none where it finds no tag. -/
def Dev.mergeReads (d : Dev) (w : WrReq) : Option Dev :=
  let l := if w.port = 4 then w.accs.filter w.part else []
  if l.isEmpty then some d
  else if d.tagsFree 4 = 0 then none
  else
    let c := d.covered w.block
    some (l.foldl (fun d i => if c.contains i then d.memCount 2 else (d.touch (256 * w.block)).memCount 0) d)

/-- A write enters the buffer (R365): accesses already buffered and not yet issued are replaced, the others take an entry; none
where it has to wait. A write to a dead unit or to a stack out of use is discarded (R372, R377). -/
def Dev.enterWrite (d : Dev) (w : WrReq) : Option Dev :=
  if d.memUsable (256 * w.block) = false then some d
  else
    let new := w.accs.filter fun i => !(d.mem.wbuf.any fun e => e.takes w.block i)
    if new.isEmpty = false ∧ 1024 ≤ d.mem.wbuf.length then none
    else match d.mergeReads w with
      | none => none
      | some d =>
        let old := new.map fun i => (i, if w.spills then [] else Mem.readN d.obs (256 * w.block + 64 * i) 64)
        let e : WrEnt := { block := w.block, port := w.port, at_ := w.at_, old := old, issued := false }
        let d := d.landWrite w
        some (if new.isEmpty then d else { d with mem := { d.mem with wbuf := d.mem.wbuf ++ [e] } })

/-- A write request comes to its port: it enters the buffer, or waits behind those that wait there (R365). -/
def Dev.putWrite (d : Dev) (w : WrReq) : Dev :=
  let wait (d : Dev) : Dev := { d with mem := { d.mem with waiting := d.mem.waiting ++ [w] } }
  if d.mem.waiting.any fun x => x.port == w.port then wait d
  else match d.enterWrite w with
    | some d => d
    | none => wait (if d.mem.wbuf.length < 1024 then d.memCount 8 else d)

/-- Writes that wait enter in order while there is room; `fuel` bounds them. -/
def Dev.enterWaiting : Nat → Dev → Dev
  | 0, d => d
  | n + 1, d =>
    match d.mem.waiting with
    | [] => d
    | w :: r =>
      match d.enterWrite w with
      | none => d
      | some e => Dev.enterWaiting n { e with mem := { e.mem with waiting := r } }

/-- The writes that wait, after the buffer has got room. -/
def Dev.admitWrites (d : Dev) : Dev := Dev.enterWaiting d.mem.waiting.length d

/-- Every write of a port is issued and acknowledged, well: of a step that stands for a stretch of time (log entry 202). -/
def Dev.flushWrites : Nat → Dev → Dev
  | 0, d => d
  | n + 1, d =>
    match d.mem.wbuf with
    | [] => d
    | w :: r =>
      let e := { d with mem := { d.mem with wbuf := r } }
      let e := (if w.issued then e else e.touch (256 * w.block)).memCount 1
      Dev.flushWrites n e.admitWrites

/-- The buffer empties. -/
def Dev.settleWrites (d : Dev) : Dev := Dev.flushWrites (d.mem.wbuf.length + d.mem.waiting.length) d

/-- Write consecutive bytes from a port as requests of 256-byte blocks (R363); `fuel` bounds them. -/
def Dev.writeBlocks (d : Dev) (port a : Nat) (l : List Byte) : Nat → Dev
  | 0 => d
  | fuel + 1 =>
    let n := 256 - a % 256
    if l.isEmpty then d
    else
      let w : WrReq := { block := a / 256, port := port, at_ := d.clk.cyc, off := a % 256, bytes := l.take n }
      (d.putWrite w).writeBlocks port (a + n) (l.drop n) fuel

/-- A port writes `l` at a usable address. -/
def Dev.memWrite (d : Dev) (port a : Nat) (l : List Byte) : Dev := d.writeBlocks port a l (l.length / 256 + 2)

/-- The device writes `l` at observation-region offset `a` through port MIRROR_WR (R363, R558, R570). -/
def Dev.obsWrite (d : Dev) (a : Nat) (l : List Byte) : Dev := d.memWrite 2 a l

/-- Rewrite the mirror of entry `i` of a table (R557): its table offset, its stride, the place of the record in
the entry, and the record's length. -/
def Dev.mirror (d : Dev) (off stride i at_ len r : Nat) : Dev :=
  d.obsWrite (0x50000000 + off + i * stride + at_) (toLE r len)

/-- Is a 64-byte access poisoned for a reader: listed, dead or out of use (R372, R374, R377)? -/
def Dev.isPoison (d : Dev) (access : Nat) : Bool := d.mem.poison.contains access || !d.memUsable (64 * access)

/-- Does a run of bytes touch a poisoned access? -/
def Dev.spanPoison (d : Dev) (a n : Nat) : Bool :=
  (List.range ((a % 64 + n + 63) / 64)).any fun k => d.isPoison (a / 64 + k)

/-- The bytes the device reads at observation-region offset `a`; none when they read uncorrectable. -/
def Dev.obsRead (d : Dev) (a n : Nat) : Option (List Byte) :=
  if d.spanPoison a n then none else some (Mem.readN d.obs a n)

/-- Raise a 40-bit counter held in a record by `n`: the new value and, where bit 39 rises, its HALF_RANGE event
with the observation-region offset `off` of its mirror (R582). -/
def Dev.recCount (d : Dev) (old n base inst off : Nat) : Dev × Nat :=
  let v := old + n
  let d := if old < 2 ^ 39 ∧ 2 ^ 39 ≤ v then
    d.post { source := base / 65536, event := 0x0006, inst := inst, data := off } else d
  (d, v % 2 ^ 40)

/-! ### Indirect ports (R179, R228, R315, R340, R357) -/

/-- The record that a port's data words hold. -/
def Dev.readData (d : Dev) (f : Fld) : Nat → Nat
  | 0 => 0
  | n + 1 => d.readData f n + d.get f n * 2 ^ (64 * n)

/-- Put a record of `n` words in a port's data words. -/
def Dev.showData (d : Dev) (f : Fld) (n r : Nat) : Dev := foldUpTo n (fun i e => e.set f (bits r (64 * i) 64) i) d

end Sys2Proof.Machine
end

