-- ==== Sys2Proof/Machine/Queues.lean ====
section
/-!
DEFINITION. What every queue of the device shares: buffers and owners (R341 to R346), the parts of a queue (R347),
charged lengths (R208), admission (R221, R222), meters (R219, R220), flushing (R351), and trace records (R591).
-/

namespace Sys2Proof.Machine

/-! ### Buffers -/

/-- Bytes of a buffer of pool `j` (R342). -/
def poolSize (j : Nat) : Nat := [256, 1024, 4096, 16384].getD j 0

/-- The buffers of pool `j` (R341, R353). -/
def Dev.poolCount (d : Dev) (j : Nat) : Nat :=
  let f := [F.BUF_CFG_POOL0_MIB, F.BUF_CFG_POOL1_MIB, F.BUF_CFG_POOL2_MIB, F.BUF_CFG_POOL3_MIB].getD j F.BUF_CFG_POOL0_MIB
  d.use f * 2 ^ 20 / poolSize j

/-- The default configuration record of an owner (R358). -/
def ownerDefault (o : Nat) : Nat :=
  let base := 256 * 2 ^ 160 + 64 * 2 ^ 176
  if o < 128 then base + 128 * 2 ^ 32 + 2048 * 2 ^ 192
  else if o < 256 then base + 64 * 2 ^ 32 + 2048 * 2 ^ 192
  else if o < 384 then base + 8 * 2 ^ 96
  else if o < 512 then base + 64
  else base + 2048 * 2 ^ 96

/-- An owner's configuration record (R358). -/
def Dev.ocfg (d : Dev) (o : Nat) : Nat := Tbl.get (ownerDefault o) d.buf.ocfg o

/-- RESERVE[j] of an owner. -/
def Dev.reserve (d : Dev) (o j : Nat) : Nat := recBytes (d.ocfg o) (4 * j) 4

/-- Buffers of pool `j` that owner `o` holds. -/
def Dev.usedBy (d : Dev) (o j : Nat) : Nat := Tbl.get 0 d.buf.used (4 * o + j)

/-- Buffers of pool `j` that owner `o` released in the present cycle: a release counts only from the next cycle (R345). -/
def Dev.freedNow (d : Dev) (o j : Nat) : Nat :=
  if d.buf.freed.1 = d.clk.cyc then Tbl.get 0 d.buf.freed.2 (4 * o + j) else 0

/-- Buffers of pool `j` that owner `o` holds, as an allocation of the present cycle counts them (R345). -/
def Dev.heldBy (d : Dev) (o j : Nat) : Nat := d.usedBy o j + d.freedNow o j

/-- Bytes of buffers that an owner holds across pools, as an allocation of the present cycle counts them. -/
def Dev.heldBytesOf (d : Dev) (o : Nat) : Nat := (List.range 4).foldl (fun a j => a + d.heldBy o j * poolSize j) 0

/-- KiB that an owner holds across pools. -/
def Dev.usedKib (d : Dev) (o : Nat) : Nat :=
  ((List.range 4).foldl (fun a j => a + d.usedBy o j * poolSize j) 0) / 1024

/-- Buffers of pool `j` in use. -/
def Dev.poolUsed (d : Dev) (j : Nat) : Nat :=
  d.buf.used.foldl (fun a e => if e.1 % 4 = j then a + e.2 else a) 0

/-- Free buffers of pool `j`. -/
def Dev.poolFree (d : Dev) (j : Nat) : Nat := d.poolCount j - d.poolUsed j

/-- Free buffers of pool `j`, as an allocation of the present cycle counts them (R345). -/
def Dev.poolHas (d : Dev) (j : Nat) : Nat :=
  let n : Nat := if d.buf.freed.1 = d.clk.cyc then d.buf.freed.2.foldl (fun a e => if e.1 % 4 = j then a + e.2 else a) 0 else 0
  d.poolFree j - n

/-- The unclaimed reserve of pool `j` (R344). -/
def Dev.unclaimed (d : Dev) (j : Nat) : Nat :=
  (List.range 513).foldl (fun a o => a + (d.reserve o j - d.heldBy o j)) 0

/-- Show FREE and LOW of pool `j` (R355). -/
def Dev.showPool (d : Dev) (j : Nat) : Dev :=
  let f := d.poolFree j
  (d.set F.BUF_POOLSTAT_FREE f j).set F.BUF_POOLSTAT_LOW (min f (d.get F.BUF_POOLSTAT_LOW j)) j

/-- Charge a buffer of pool `j` to an owner, with one reference. -/
def Dev.grant (d : Dev) (o j : Nat) : Dev × Nat :=
  let b := d.buf.next
  let buf := { d.buf with
    bufs := Tbl.set d.buf.bufs b { owner := o, pool := j, refs := 1 }
    used := Tbl.set d.buf.used (4 * o + j) (d.usedBy o j + 1)
    next := b + 1 }
  ({ d with buf := buf }.showPool j, b)

/-- May owner `o` have a buffer of pool `j` (R344)? -/
def Dev.poolGrants (d : Dev) (o j : Nat) : Bool :=
  let lim := recBytes (d.ocfg o) 16 4
  (decide (d.heldBy o j < d.reserve o j) && decide (0 < d.poolHas j)) ||
    (decide (d.unclaimed j < d.poolHas j) &&
      (lim == 0 || decide (d.heldBytesOf o + poolSize j ≤ lim * 1024)))

/-- The smallest pool whose buffer holds a stored size (R342). -/
def fitPool (size : Nat) : Nat :=
  if size ≤ 256 then 0 else if size ≤ 1024 then 1 else if size ≤ 4096 then 2 else 3

/-- The fabric clock moves on by one cycle. -/
def Dev.nextCycle (d : Dev) : Dev := d.reach (d.clk.cyc + 1)

/-- The place of a requester port in the present cycle's order (R345): the order starts one port later in each cycle. Ports 0–15 are
D0 to D7 and U0 to U7, 16 and 17 the reassembly ports of TE0 and TE1, 18 the spill engine, 19 the management port. -/
def Dev.askPlace (d : Dev) (port : Nat) : Nat := (port + 20 - d.clk.cyc % 20) % 20

/-- A request of a port for pool `j` is served in its cycle's order (R345): one whose port has had its turn, or for a pool to which
a request of this cycle has already fallen back, is of the next cycle (log entry 201). -/
def Dev.askTurn (d : Dev) (port j : Nat) : Dev :=
  let x := d.buf.asked
  let d := if x.cyc = d.clk.cyc ∧ (d.askPlace port < x.next ∨ x.fell.contains j = true) then d.nextCycle else d
  let fell := if x.cyc = d.clk.cyc then x.fell else []
  { d with buf := { d.buf with asked := { cyc := d.clk.cyc, next := d.askPlace port + 1, fell := fell } } }

/-- A request of this cycle has gone on from pool `j0` to the pools above it, up to `j` (R344, R345). -/
def Dev.fellTo (d : Dev) (j0 j : Nat) : Dev :=
  let l := ((List.range 4).filter fun k => decide (j0 < k) && decide (k ≤ j))
  { d with buf := { d.buf with asked := { d.buf.asked with fell := d.buf.asked.fell ++ l } } }

/-- The requester port of an owner's buffers that no pipeline asks for (R345): those in reassembly, of messages, and of spill pages. -/
def askPort (o : Nat) : Nat := if o < 384 then 16 + o % 128 / 64 else if o < 512 then 19 else 18

/-- A buffer for a packet of `len` bytes, asked for by a requester port (R344, R345): granted, fallen back, or refused for good and
counted. -/
def Dev.alloc (d : Dev) (port o len : Nat) : Dev × Option Nat :=
  let j0 := fitPool (len + 32)
  let d := d.askTurn port j0
  match (List.range 4).find? fun j => decide (j0 ≤ j) && d.poolGrants o j with
  | some j =>
    let d := if j0 < j then (d.fellTo j0 j).flag F.BUF_STAT_FALLBACK else d
    let r := d.grant o j
    (r.1, some r.2)
  | none =>
    let d := d.fellTo j0 3
    let d := d.flag F.BUF_STAT_NOBUF
    let r := d.recCount (Tbl.get 0 d.buf.drops o) 1 0x1800000 o (0x50000000 + 0x0B000000 + 64 * o + 32 + 24)
    ({ r.1 with buf := { r.1.buf with drops := Tbl.set r.1.buf.drops o r.2 } }, none)

/-- Add references to a buffer (R346). -/
def Dev.addRef (d : Dev) (b n : Nat) : Dev :=
  match Tbl.find? d.buf.bufs b with
  | some x => { d with buf := { d.buf with bufs := Tbl.set d.buf.bufs b { x with refs := x.refs + n } } }
  | none => d

/-- Take one reference off a buffer; at 0 it is freed (R346), and counts as free from the next cycle (R345). -/
def Dev.release1 (d : Dev) (b : Nat) : Dev :=
  match Tbl.find? d.buf.bufs b with
  | some x =>
    if 1 < x.refs then
      { d with buf := { d.buf with bufs := Tbl.set d.buf.bufs b { x with refs := x.refs - 1 } } }
    else
      let used := Tbl.set d.buf.used (4 * x.owner + x.pool) (d.usedBy x.owner x.pool - 1)
      let k := 4 * x.owner + x.pool
      let was : Tbl Nat := if d.buf.freed.1 = d.clk.cyc then d.buf.freed.2 else []
      let freed := (d.clk.cyc, Tbl.set was k (Tbl.get 0 was k + 1))
      { d with buf := { d.buf with bufs := Tbl.erase d.buf.bufs b, used := used, freed := freed } }.showPool x.pool
  | none => d

/-! ### Queue records -/

/-- A queue's configuration in force (R217, R218, R229). -/
def Dev.qc (d : Dev) (q : Nat) : Nat := Tbl.get (Tbl.get 0 d.tm.qcfg q) d.tm.qold q

/-- A queue that has held nothing. -/
def emptyQ : QSt :=
  { h := [], m := [], opened := none, openBuf := 0, t := [], avg := 0, tag := 0, credit := 0, seq := 0, joined := false,
    out := 0, left := (0, 0) }

/-- A queue's state. -/
def Dev.qst (d : Dev) (q : Nat) : QSt := Tbl.get emptyQ d.tm.qst q

/-- Replace a queue's state. -/
def Dev.setQ (d : Dev) (q : Nat) (x : QSt) : Dev := { d with tm := { d.tm with qst := Tbl.set d.tm.qst q x } }

/-- A queue is VALID (R229). -/
def Dev.qValid (d : Dev) (q : Nat) : Bool := bit (recBytes (d.qc q) 4 1) 0

/-- The node a downstream queue is under. -/
def Dev.qParent (d : Dev) (q : Nat) : Nat := bits (recBytes (d.qc q) 0 4) 0 15

/-- The channel a node lies in (R209). -/
def nodeCh (n : Nat) : Nat := if n < 16384 then n / 128 else n - 16384

/-- The channel of a downstream queue. -/
def Dev.qCh (d : Dev) (q : Nat) : Nat := nodeCh (d.qParent q)

/-- The owner a queue's buffers are charged to (R343). -/
def Dev.qOwner (d : Dev) (q : Nat) : Nat := if q < 65536 then d.qCh q else 128 + (q - 65536) / 8

/-- The charged length of a packet of `len` bytes in queue `q` (R208): every traffic segment is encrypted. -/
def Dev.charged (d : Dev) (q len : Nat) : Nat :=
  let r := d.qc q
  let adj := sgn 8 (recBytes r 17 1)
  let c : Int := if q < 65536 ∧ bit (recBytes r 16 1) 0 then 8 * (1 + cdiv len 8 + 2 : Nat) + adj
    else (len : Int) + 4 + adj
  (max 1 c).toNat

/-- The charged bytes of a list of packets. -/
def Dev.chargedAll (d : Dev) (q : Nat) (l : List Pkt) : Nat := l.foldl (fun a p => a + d.charged q p.len) 0

/-- The packets of a queue in order (R347). -/
def QSt.all (x : QSt) : List Pkt := x.h ++ x.m.flatMap (·.pkts) ++ x.opened.getD [] ++ x.t

/-- A queue's bytes: all four parts (R347). -/
def Dev.depth (d : Dev) (q : Nat) : Nat := d.chargedAll q (d.qst q).all

/-- A queue's depth at an enqueue: dequeues of the present cycle are not taken off (R221). -/
def Dev.depthNow (d : Dev) (q : Nat) : Nat :=
  let x := d.qst q
  d.depth q + (if x.left.1 = d.clk.cyc then x.left.2 else 0)

/-- Append a packet (R347). -/
def QSt.push (x : QSt) (p : Pkt) : QSt :=
  if x.m.isEmpty && x.opened.isNone then { x with h := x.h ++ [p] } else { x with t := x.t ++ [p] }

/-- When no page is left the tail joins the head (R347). -/
def QSt.settle (x : QSt) : QSt :=
  if x.m.isEmpty && x.opened.isNone then { x with h := x.h ++ x.t, t := [] } else x

/-- Take the packet at the head, with its edits (R346). -/
def Dev.popQ (d : Dev) (q : Nat) : Dev × Option Pkt :=
  let x := d.qst q
  match x.h with
  | [] => (d, none)
  | p :: r =>
    let n := d.charged q p.len + (if x.left.1 = d.clk.cyc then x.left.2 else 0)
    (d.setQ q { x with h := r, out := x.out + 1, left := (d.clk.cyc, n) }.settle, some p.edited)

/-! ### Spill space -/

/-- The usable address of spill page `n` (R360). -/
def pageAddr (n : Nat) : Nat := 0x200000000 + n * 16384

/-- Pages of the spill space before withdrawals (R360). -/
def Dev.pageSpace (d : Dev) : Nat := if d.useB F.MEM_CFG_SPARE_EN then 2621440 else 3670016

/-- Does a page lie on units and a stack that can be used? It spreads 2 KiB over each of 8 channels (R377). -/
def Dev.pageUsable (d : Dev) (n : Nat) : Bool := (List.range 8).all fun k => d.memUsable (pageAddr n + 2048 * k)

/-- The stack a page lies in (R362). -/
def Dev.pageStack (d : Dev) (n : Nat) : Nat := (d.place (pageAddr n)).stack

/-- The first page at or above `n` that can be allocated and is not in use; `fuel` bounds the search. -/
def Dev.findSlot (d : Dev) (n : Nat) : Nat → Option Nat
  | 0 => none
  | fuel + 1 =>
    let k := n % d.pageSpace
    if d.pageUsable k && !d.buf.inUse.contains k then some k else d.findSlot (n + 1) fuel

/-- A free spill page. The manual does not say which: the search starts at a free value (log entry 4). -/
def Dev.freeSlot (d : Dev) : Option (Dev × Nat) :=
  let r := d.draw d.pageSpace
  match r.1.findSlot r.2 d.pageSpace with
  | some n => some ({ r.1 with buf := { r.1.buf with inUse := r.1.buf.inUse ++ [n] } }, n)
  | none => none

/-- Change the count of pages an owner has in stacked memory (R355, R358). -/
def Dev.addPages (d : Dev) (o : Nat) (n : Int) : Dev :=
  let v := ((Tbl.get 0 d.buf.pages o : Nat) : Int) + n
  let d := { d with buf := { d.buf with pages := Tbl.set d.buf.pages o v.toNat } }
  d.set F.BUF_SPILLSTAT_PAGES_USED (((d.get F.BUF_SPILLSTAT_PAGES_USED : Nat) : Int) + n).toNat

/-- Give a spill page back to the space. -/
def Dev.freePage (d : Dev) (o slot : Nat) : Dev :=
  { d with buf := { d.buf with inUse := d.buf.inUse.filter fun x => x != slot } }.addPages o (-1)

/-! ### Trace records -/

/-- The version of a drop's counter as WHERE names it (R591): the counter's BAR0 offset. -/
def cntAt (f : Fld) (i j : Nat) : Nat := f.addr + i * f.s1 + j * f.s2

/-- Write one trace record (R591), or lose it when the queue of 64 is full. -/
def Dev.trace (d : Dev) (g : Option Tag) (stage where_ service len tc colour : Nat) (de mem : Bool) : Dev :=
  match g with
  | none => d
  | some g =>
    let q := d.pmu.trQ - (d.clk.cyc - d.pmu.trAt) / 4
    if 64 ≤ q then ({ d with pmu := { d.pmu with trQ := q, trAt := d.clk.cyc } }).flag F.PMU_STAT_TRLOST
    else
      let seq := d.get F.PMU_TRCSTAT_SEQ
      let flags := g.flags + 4 * b2n mem + 8 * b2n de
      let rec_ := toLE seq 4 ++ toLE g.id 4 ++ toLE d.stamp 4 ++ toLE stage 1 ++ toLE g.pipe 1 ++ toLE flags 1 ++
        toLE (tc % 8 + 8 * colour) 1 ++ toLE service 4 ++ toLE where_ 4 ++ toLE len 2 ++ toLE g.dir 1 ++
        toLE g.port 1 ++ toLE g.hash 4 ++ toBE g.key 32
      let d := { d with pmu := { d.pmu with trQ := q + 1, trAt := d.clk.cyc } }
      let d := d.obsWrite (0x5D000000 + 64 * (seq % 8192)) rec_
      let d := d.set F.PMU_TRCSTAT_SEQ (seq + 1)
      (d.set F.PMU_TRCSTAT_SLOT (seq + 1)).bump F.PMU_GCNT_COUNT 3

/-- The trace record of a packet in a queue. -/
def Dev.tracePkt (d : Dev) (p : Pkt) (stage where_ : Nat) : Dev :=
  d.trace p.tag stage where_ p.service p.len p.tc p.colour p.de p.passedMem

/-- Copies are dropped, and counted at `w`: each tagged one leaves its record (R591). -/
def Dev.traceDropped (d : Dev) (l : List Pkt) (w : Nat) : Dev := l.foldl (fun d p => d.tracePkt p 3 w) d

/-! ### Flushing -/

/-- Release the buffers of a list of packets. -/
def Dev.releaseAll (d : Dev) (l : List Pkt) : Dev := l.foldl (fun a p => a.release1 p.buf) d

/-- The page that a read belongs to. -/
def RdReq.isOf (r : RdReq) (q slot : Nat) : Bool := r.page.any fun x => x.1 == q && x.2.1 == slot

/-- A page in flight is flushed (R351): its reads that wait for a tag are not made, and those in flight complete and are discarded. -/
def Dev.dropReads (d : Dev) (q slot : Nat) : Dev :=
  { d with mem := { d.mem with
      rdWait := d.mem.rdWait.filter fun r => !r.isOf q slot
      reads := d.mem.reads.map fun r => if r.isOf q slot then { r with drop := true } else r } }

/-- Flush one page of queue `q` (R351): a written page is returned unread, a landed one freed. -/
def Dev.flushPage (q : Nat) (d : Dev) (p : Page) : Dev :=
  let o := d.qOwner q
  match p.at_ with
  | .stored => (d.freePage o p.slot).bump F.BUF_CNT_COUNT 8
  | .inFlight => ((d.freePage o p.slot).release1 p.landing).dropReads q p.slot
  | .back _ => (d.freePage o p.slot).release1 p.landing
  | .checked _ => (d.freePage o p.slot).release1 p.landing

/-- Empty a queue (R351), whose packets count at `w`: answers how many packets it lost. -/
def Dev.emptyQueue (d : Dev) (q w : Nat) : Dev × Nat :=
  let x := d.qst q
  let n := x.all.length
  let d := ((d.traceDropped x.all w).releaseAll x.h).releaseAll x.t
  let d := x.m.foldl (Dev.flushPage q) d
  let d := if x.opened.isSome then d.release1 x.openBuf else d
  (d.setQ q { x with h := [], m := [], opened := none, t := [], out := x.out + n }, n)

/-- `n` packets toward channel `c` are flushed: they count in FLUSHED. -/
def Dev.countFlushed (d : Dev) (c n : Nat) : Dev :=
  if n = 0 then d else (d.bump F.TMG_CHCNT_COUNT c 8 n).flag F.TMG_CHSTAT_FLUSH c 0 false

/-- Flush a downstream queue: each packet counts in FLUSHED of its channel (R210, R218). -/
def Dev.flushQ (d : Dev) (q : Nat) : Dev :=
  let c := d.qCh q
  let r := d.emptyQueue q (cntAt F.TMG_CHCNT_COUNT c 8)
  r.1.countFlushed c r.2

/-- Packets toward channel `c` that have left their queues are discarded, as a flush. -/
def Dev.flushPkts (d : Dev) (c : Nat) (l : List Pkt) : Dev :=
  ((d.traceDropped l (cntAt F.TMG_CHCNT_COUNT c 8)).releaseAll l).countFlushed c l.length

/-- The downstream queues whose record names a node as PARENT, VALID or not. -/
def Dev.childQueues (d : Dev) (n : Nat) : List Nat :=
  (d.tm.qcfg.map (·.1)).filter fun q => decide (q < 65536) && d.qParent q == n

/-- The downstream queues under a node. -/
def Dev.queuesOf (d : Dev) (n : Nat) : List Nat := (d.childQueues n).filter fun q => d.qValid q

/-- Flush every queue of a node (R210, R245). -/
def Dev.flushNode (d : Dev) (n : Nat) : Dev := (d.queuesOf n).foldl Dev.flushQ d

/-! ### Admission -/

/-- The values every congestion profile resets to (R232). -/
def profileDefault : Nat :=
  4194304 + 1048576 * 2 ^ 32 + 2097152 * 2 ^ 64 + 255 * 2 ^ 96 + 4 * 2 ^ 104 + 2097152 * 2 ^ 128 + 4194304 * 2 ^ 160 +
    64 * 2 ^ 192

/-- One step of a pipeline's admission LFSR: its low 16 bits. Its start value is the pipeline number plus 1 (log
entry 17). -/
def Dev.dice (d : Dev) (pipe : Nat) : Dev × Nat :=
  let v := lfsr32 (Tbl.get (pipe + 1) d.tm.lfsr pipe)
  ({ d with tm := { d.tm with lfsr := Tbl.set d.tm.lfsr pipe v } }, v % 65536)

/-- What admission decides (R221). -/
inductive Adm where
  | accept
  | mark
  | tail
  | deDrop
  | early
  deriving DecidableEq, Repr

/-- The ECN rows of R221: mark or drop (R222). A mark is never applied to a drop-eligible packet (log entry 18). -/
def ecnRow (ecnOn de : Bool) (ecn : Option Nat) : Adm :=
  if ecnOn then
    match ecn with
    | some 1 => if de then .early else .mark
    | some 2 => if de then .early else .mark
    | some 3 => .accept
    | _ => .early
  else .early

/-- The average depth after an enqueue (R221). -/
def ewma (a depth sh : Nat) : Nat := ((a : Int) + ((depth : Int) - a) / (2 ^ min 15 sh : Nat)).toNat

/-- Decide a packet of charged length `c` for queue `q` (R221, R222): `ecn` is the ECN codepoint of its outermost
IP header. -/
def Dev.admission (d : Dev) (q c pipe : Nat) (de : Bool) (ecn : Option Nat) : Dev × Adm :=
  let r := d.qc q
  let p := Tbl.get profileDefault d.tm.prof (recBytes r 7 1)
  let dep := d.depthNow q
  let x := d.qst q
  let a := ewma x.avg dep (recBytes p 13 1)
  let d := d.setQ q { x with avg := a }
  let yMin := recBytes p 4 4
  let yMax := recBytes p 8 4
  let mMin := recBytes p 16 4
  let mMax := recBytes p 20 4
  let ecnOn := bit (recBytes r 4 1) 1
  if recBytes p 0 4 < dep + c then (d, .tail)
  else if de && decide (yMax ≤ a) then (d, .deDrop)
  else
    let y := if de && decide (yMin < a) then
        let t := d.dice pipe
        (t.1, decide (t.2 < recBytes p 12 1 * (a - yMin) * 65536 / ((yMax - yMin) * 256)))
      else (d, false)
    if y.2 then (y.1, .deDrop)
    else if de && decide (yMin < a) then (y.1, .accept)
    else if mMax ≤ a then (d, ecnRow ecnOn de ecn)
    else if mMin < a then
      let t := d.dice pipe
      if t.2 < recBytes p 24 1 * (a - mMin) * 65536 / ((mMax - mMin) * 256) then (t.1, ecnRow ecnOn de ecn)
      else (t.1, .accept)
    else (d, .accept)

/-- Count what admission decided at queue `q`, and where a drop counts (R227): flags of the channel, or the
egress queue's count. -/
def Dev.admCount (d : Dev) (q : Nat) (a : Adm) : Dev × Nat :=
  if q < 65536 then
    let c := d.qCh q
    match a with
    | .accept => (d, 0)
    | .mark => (d.flag F.TMG_CHSTAT_ECN c, 0)
    | .tail => (d.flag F.TMG_CHSTAT_TAIL c, cntAt F.TMG_CHCNT_COUNT c 4)
    | .deDrop => (d.flag F.TMG_CHSTAT_DE c, cntAt F.TMG_CHCNT_COUNT c 5)
    | .early => (d.flag F.TMG_CHSTAT_EARLY c, cntAt F.TMG_CHCNT_COUNT c 6)
  else
    let p := (q - 65536) / 8
    let k := (q - 65536) % 8
    match a with
    | .accept => (d, 0)
    | .mark => (d, 0)
    | _ => (d.bump F.TMG_EGCNT_COUNT p k, cntAt F.TMG_EGCNT_COUNT p k)

/-! ### Meters -/

/-- A meter's record as packets of the present cycle see it: a write counts from the next cycle on (R220). -/
def Dev.meterCfg (d : Dev) (m : Nat) : Nat :=
  match Tbl.find? d.tm.mold m with
  | some (old, cyc) => if cyc = d.clk.cyc then old else Tbl.get 0 d.tm.mcfg m
  | none => Tbl.get 0 d.tm.mcfg m

/-- Refill a meter's buckets (R219): the state record after it. -/
def Dev.meterRefill (d : Dev) (m : Nat) : Nat :=
  let c := d.meterCfg m
  let st := Tbl.get (d.tm.swept * 2 ^ 96) d.tm.mst m
  let e := sdiff 32 d.stamp (recBytes st 12 4)
  let cir : Int := bits (recBytes c 0 4) 0 24
  let pir : Int := bits (recBytes c 4 4) 0 24
  let tc := min ((recBytes st 0 6 : Int) + cir * e) ((bits (recBytes c 8 4) 0 24 : Int) * 1000000)
  let tp := min ((recBytes st 6 6 : Int) + pir * e) ((bits (recBytes c 12 4) 0 24 : Int) * 1000000)
  setRec (setRec (setRec st 0 6 tc.toNat) 6 6 tp.toNat) 12 4 d.stamp

/-- Run meter `m` on a packet of `c` bytes with pre-colour `pre` (R219): the colour, 0 green, 1 yellow, 2 red. -/
def Dev.meter (d : Dev) (m c pre : Nat) : Dev × Nat :=
  let st := d.meterRefill m
  let aware := bit (recBytes (d.meterCfg m) 16 1) 0
  let tc := recBytes st 0 6
  let tp := recBytes st 6 6
  let b := c * 1000000
  let col := if (aware && pre == 2) || decide (tp < b) then 2
    else if (aware && pre == 1) || decide (tc < b) then 1 else 0
  let st := if col = 2 then st
    else if col = 1 then setRec st 6 6 (tp - b)
    else setRec (setRec st 6 6 (tp - b)) 0 6 (tc - b)
  let r := d.recCount (recBytes st (16 + 5 * col) 5) 1 0x1000000 m (0x57000000 + 64 * m + 32 + 16 + 5 * col)
  let st := setRec st (16 + 5 * col) 5 r.2
  ({ r.1 with tm := { r.1.tm with mst := Tbl.set r.1.tm.mst m st } }, col)

/-- What a colour action makes of a colour (R174): drop, or pass with the drop-eligible mark or without. -/
def colourAct (act col : Nat) : Option Bool :=
  if act = 0 ∨ col = 0 then some false
  else if act = 1 then (if col = 1 then some false else none)
  else if act = 2 then some true
  else none

end Sys2Proof.Machine
end

