-- ==== Sys2Proof/Machine/Rings.lean ====
section
/-!
DEFINITION. The command rings (R559 to R567): taking an entry, checking it, and the completions that wait.
-/

namespace Sys2Proof.Machine

/-- Ring n's state. -/
def Dev.ring (d : Dev) (n : Nat) : Ring := Tbl.get { phase := true, running := [], done := [] } d.host.rings n

/-- Replace ring n's state; BUSY shows commands taken and not completed (R578). -/
def Dev.setRing (d : Dev) (n : Nat) (r : Ring) : Dev :=
  { d with host := { d.host with rings := Tbl.set d.host.rings n r } }.set F.HST_RINGSTAT_BUSY
    (b2n (!(r.running.isEmpty && r.done.isEmpty))) n

/-- ENTRIES of a ring (R559). -/
def Dev.ringEntries (d : Dev) (n : Nat) : Nat := 2 ^ d.use F.HST_RINGCFG_LOG2_ENTRIES n

/-- The observation-region offset of submission entry `i` of ring `n` (R559). -/
def sqAddr (n i : Nat) : Nat := 0x100800000 + n * 0x40000 + 0x1000 + 64 * i

/-- The observation-region offset of completion entry `i` of ring `n` (R559). -/
def cqAddr (n i : Nat) : Nat := 0x100800000 + n * 0x40000 + 0x21000 + 32 * i

/-- A command has taken effect, or is refused: its completion waits to be written (R562, R563). -/
def Dev.endCmd (d : Dev) (n tag opcode status : Nat) (result : Nat := 0) (detail : Nat := 0) : Dev :=
  let r := d.ring n
  let c : Completion :=
    { tag := tag, opcode := opcode, status := status, result := result, frame := d.frameNow, detail := detail }
  let run := r.running.eraseP fun t => t.tag == tag && t.opcode == opcode
  let d := d.setRing n { r with running := run, done := r.done ++ [c] }
  let d := d.bump F.HST_CNT_COUNT 0
  if status = 0 then d else if status = 1 then d.bump F.HST_CNT_COUNT 1 else d.bump F.HST_CNT_COUNT 2

/-- The opcodes of R564, and whether each names a TARGET and how many ARGS bytes it uses. -/
def opcodes : List (Nat × Bool × Nat) :=
  [(0x0001, false, 0), (0x0010, false, 8), (0x0011, true, 0), (0x0012, true, 0), (0x0013, true, 0), (0x0014, true, 0),
   (0x0015, true, 0), (0x0016, true, 6), (0x0017, false, 8), (0x0020, false, 24), (0x0030, true, 40),
   (0x0031, true, 0), (0x0040, false, 1), (0x0041, false, 0), (0x0050, false, 48)]

/-- Is an opcode taken on ring `n` (R559, R565)? -/
def opcodeOn (n op : Nat) : Bool :=
  opcodes.any (fun o => o.1 == op) && ((op == 0x0050) == decide (48 ≤ n))

/-- Is there an entry to take, and room for every completion outstanding (R561)? -/
def Dev.canTake (d : Dev) (n : Nat) : Bool :=
  let e := d.ringEntries n
  let used := (d.get F.HST_RINGSTAT_CQ_TAIL n + e - d.get F.HST_CQHEAD_HEAD n) % e
  d.on F.HST_RINGCFG_ENABLE n && d.get F.HST_RINGSTAT_SQ_HEAD n != d.get F.HST_SQTAIL_TAIL n &&
    decide (used + (d.ring n).running.length + (d.ring n).done.length + 1 < e)

/-- The 64 bytes of the entry at SQ_HEAD. -/
def Dev.headEntry (d : Dev) (n : Nat) : List Byte := Mem.readN d.obs (sqAddr n (d.get F.HST_RINGSTAT_SQ_HEAD n)) 64

/-- Does the entry at SQ_HEAD read uncorrectable (R374, R567)? -/
def Dev.headBad (d : Dev) (n : Nat) : Bool :=
  Tbl.get false d.mem.ringBad n || d.spanPoison (sqAddr n (d.get F.HST_RINGSTAT_SQ_HEAD n)) 64

/-- FENCE of the entry at SQ_HEAD holds it while an earlier entry has not completed (R560). -/
def Dev.fenced (d : Dev) (n : Nat) : Bool :=
  bit (le (d.headEntry n) 2 1) 0 && !((d.ring n).running.isEmpty && (d.ring n).done.isEmpty)

/-- SQ_HEAD moves past the entry taken. -/
def Dev.stepHead (d : Dev) (n : Nat) : Dev :=
  { d with mem := { d.mem with ringBad := Tbl.erase d.mem.ringBad n } }.set F.HST_RINGSTAT_SQ_HEAD
    ((d.get F.HST_RINGSTAT_SQ_HEAD n + 1) % d.ringEntries n) n

/-- Entries whose opcode is unknown, or not taken on this ring, complete with BAD_OPCODE as they are taken. -/
def Dev.dropUnknown (n : Nat) : Nat → Dev → Dev
  | 0, d => d
  | fuel + 1, d =>
    let l := d.headEntry n
    if d.canTake n && !d.headBad n && !d.fenced n && !opcodeOn n (le l 0 2) then
      Dev.dropUnknown n fuel ((d.stepHead n).endCmd n (le l 4 4) (le l 0 2) 0x02)
    else d

/-- Do the bits that R560 and the opcode mark zero read zero? -/
def entryOk (l : List Byte) (target : Bool) (args : Nat) : Bool :=
  decide (le l 2 1 < 2) && le l 3 1 == 0 && le l 12 4 == 0 && (target || le l 8 4 == 0) &&
    le l (16 + args) (48 - args) == 0

/-- Take the entry at SQ_HEAD of ring `n` when it carries `opcode` (R560, R561, R567): check it, and act. Nothing is
taken otherwise. -/
def Dev.command (d : Dev) (n opcode : Nat) (act : Taken → Dev → Dev) : Dev :=
  let l := d.headEntry n
  if !(d.canTake n) || d.fenced n || le l 0 2 != opcode || !opcodeOn n opcode then d
  else
    let t : Taken := { tag := le l 4 4, opcode := opcode, flags := le l 2 1, target := le l 8 4, args := slice l 16 48 }
    let bad := d.headBad n
    let d := d.stepHead n
    let o := (opcodes.find? fun o => o.1 == opcode).getD (0, false, 0)
    let d := if bad then
        d.endCmd n (ofLE ((List.range 4).map fun k => Config.badRead (4 + k)))
          (ofLE ((List.range 2).map fun k => Config.badRead k)) 0x05
      else if !entryOk l o.2.1 o.2.2 then d.endCmd n t.tag opcode 0x03
      else act t d
    Dev.dropUnknown n 2048 d

/-- A command goes on running after it was taken. -/
def Dev.keepRunning (d : Dev) (n : Nat) (t : Taken) : Dev :=
  let r := d.ring n
  d.setRing n { r with running := r.running ++ [t] }

end Sys2Proof.Machine
end

