-- ==== Sys2Proof/Machine/Parser.lean ====
section
/-!
DEFINITION. Parsing (R292 to R297), the key (R298, R299), the flow hash (R300) and the range vector (R301).
-/

namespace Sys2Proof.Machine

/-- The layer fields of one layer (R299), with what was parsed of it. -/
structure Layer where
  l3 : Nat
  sip : Nat
  dip : Nat
  proto : Nat
  tos : Nat
  sport : Nat
  dport : Nat
  tcpFlags : Nat
  flow : Nat
  l4 : Bool
  l3off : Nat
  l3end : Nat
  deriving DecidableEq, Repr

/-- A layer of which nothing is parsed. -/
def noLayer : Layer :=
  { l3 := 0, sip := 0, dip := 0, proto := 0, tos := 0, sport := 0, dport := 0, tcpFlags := 0, flow := 0,
    l4 := false, l3off := 0, l3end := 0 }

/-- What the parser settings are for one pipeline letter (R294, R309, R310). -/
structure ParCfg where
  depth : Nat
  inner : Bool
  tpidX : Option Nat
  tpidY : Option Nat
  vxlan : Option Nat
  gtp : Option Nat
  gre : Bool
  vxlanPort : Nat
  gtpPort : Nat
  deriving DecidableEq, Repr

/-- The result of a parse: `fragAt` is where the data of an outer fragment begins, and `tunId` is none where the tunnel's header has
no such field (a GRE header without its key). -/
structure Parsed where
  tcis : List Nat
  etype : Nat
  pppoe : Bool
  labels : Nat
  mplsTop : Nat
  mplsStop : Bool
  trunc : Bool
  l3err : Bool
  extStop : Bool
  frag : Bool
  first : Bool
  ident : Nat
  fragOff : Nat
  more : Bool
  fragAt : Nat
  tun : Nat
  tunId : Option Nat
  innerEth : Option (Nat × Nat)
  outer : Layer
  inn : Layer
  deriving DecidableEq, Repr

/-- A parse that has reached no header. -/
def noParse : Parsed :=
  { tcis := [], etype := 0, pppoe := false, labels := 0, mplsTop := 0, mplsStop := false, trunc := false,
    l3err := false, extStop := false, frag := false, first := false, ident := 0, fragOff := 0, more := false,
    fragAt := 0, tun := 0, tunId := none, innerEth := none, outer := noLayer, inn := noLayer }

/-- The settings in force for the D (0) or U (1) pipelines. -/
def Dev.parCfg (d : Dev) (u : Nat) : ParCfg :=
  { depth := 8 * (if u = 0 then d.use F.PAR_CFG_DEPTH_D else d.use F.PAR_CFG_DEPTH_U)
    inner := if u = 0 then d.useB F.PAR_CFG_KEY_INNER_D else d.useB F.PAR_CFG_KEY_INNER_U
    tpidX := if d.useB F.PAR_TPID_X_EN then some (d.use F.PAR_TPID_TPID_X) else none
    tpidY := if d.useB F.PAR_TPID_Y_EN then some (d.use F.PAR_TPID_TPID_Y) else none
    vxlan := if d.useB F.PAR_TUN_VXLAN_EN then some (d.use F.PAR_TUN_VXLAN_PORT) else none
    gtp := if d.useB F.PAR_TUN_GTP_EN then some (d.use F.PAR_TUN_GTP_PORT) else none
    gre := d.useB F.PAR_TUN_GRE_EN
    vxlanPort := d.use F.PAR_TUN_VXLAN_PORT
    gtpPort := d.use F.PAR_TUN_GTP_PORT }

/-- Is `t` the TPID of a VLAN tag (R292)? -/
def ParCfg.isTag (c : ParCfg) (t : Nat) : Bool :=
  t == 0x8100 || t == 0x88A8 || c.tpidX == some t || c.tpidY == some t

/-- The parser's view of a packet: its bytes and the bytes it may look at (R294). -/
structure View where
  l : List Byte
  lim : Nat
  deriving DecidableEq, Repr

/-- Does a header of `n` bytes at `o` lie wholly within the frame and the first DEPTH bytes (R294)? -/
def View.fits (v : View) (o n : Nat) : Bool := decide (o + n ≤ v.lim)

/-- Store the layer fields of the outer or the inner layer. -/
def Parsed.put (r : Parsed) (inner : Bool) (x : Layer) : Parsed :=
  if inner then { r with inn := x } else { r with outer := x }

/-- The ones' complement sum of 16-bit words of an IPv4 header; zero in its complement when it is correct. -/
def csum16 (l : List Byte) (n : Nat) : Nat :=
  let s := (List.range n).foldl (fun a i => a + be l (2 * i) 2) 0
  let s := s % 65536 + s / 65536
  s % 65536 + s / 65536

/-- UDP or TCP after an IP header (R292): answers the parse, and the end of the UDP header with its destination
port when a tunnel may follow. -/
def parseL4 (v : View) (inner : Bool) (r : Parsed) (x : Layer) (o proto : Nat) : Parsed × Option (Nat × Nat) :=
  if proto = 17 then
    if v.fits o 8 then
      let x := { x with sport := be v.l o 2, dport := be v.l (o + 2) 2, l4 := true }
      (r.put inner x, some (o + 8, be v.l (o + 2) 2))
    else ({ r.put inner x with trunc := true }, none)
  else if proto = 6 then
    if v.fits o 20 then
      let doff := be v.l (o + 12) 1 / 16
      if doff < 5 then (r.put inner x, none)
      else if v.fits o (4 * doff) then
        let x := { x with sport := be v.l o 2, dport := be v.l (o + 2) 2, tcpFlags := be v.l (o + 13) 1, l4 := true }
        (r.put inner x, none)
      else ({ r.put inner x with trunc := true }, none)
    else ({ r.put inner x with trunc := true }, none)
  else (r.put inner x, none)

/-- Where an IP header leads: nowhere further, past a UDP header, or to a GRE header. -/
inductive After where
  | stop
  | udp (o dport : Nat)
  | gre (o : Nat)
  deriving DecidableEq, Repr

/-- What follows the IP header: L4, or GRE on the outer layer (R292, R293). -/
def afterIp (v : View) (inner : Bool) (r : Parsed) (x : Layer) (o proto : Nat) : Parsed × After :=
  if proto = 47 then (r.put inner x, if inner then .stop else .gre o)
  else
    let q := parseL4 v inner r x o proto
    match q.2 with
    | some (o, p) => (q.1, .udp o p)
    | none => (q.1, .stop)

/-- An IPv4 header at `o` (R292, R295, R296). -/
def parseV4 (v : View) (inner : Bool) (r : Parsed) (o : Nat) : Parsed × After :=
  if !v.fits o 20 then ({ r with trunc := true }, .stop)
  else
    let ihl := be v.l o 1 % 16
    let total := be v.l (o + 2) 2
    if be v.l o 1 / 16 ≠ 4 then (r, .stop)
    else if ihl < 5 ∨ v.l.length - o < total then ({ r with l3err := true }, .stop)
    else if !v.fits o (4 * ihl) then ({ r with trunc := true }, .stop)
    else if csum16 (slice v.l o (4 * ihl)) (2 * ihl) ≠ 0xFFFF then ({ r with l3err := true }, .stop)
    else
      let fo := be v.l (o + 6) 2
      let off := fo % 8192
      let more := bit fo 13
      let proto := be v.l (o + 9) 1
      let x : Layer :=
        { noLayer with
          l3 := 1, sip := be v.l (o + 12) 4 * 2 ^ 96, dip := be v.l (o + 16) 4 * 2 ^ 96, proto := proto,
          tos := be v.l (o + 1) 1, l3off := o, l3end := o + 4 * ihl }
      let isFrag := more || off != 0
      let r := if inner then r else
        { r with
          frag := isFrag, first := more && off == 0, ident := be v.l (o + 4) 2, fragOff := 8 * off, more := more,
          fragAt := o + 4 * ihl }
      if isFrag && (inner || off != 0) then (r.put inner x, .stop)
      else afterIp v inner r x (o + 4 * ihl) proto

/-- The extension headers of an IPv6 header (R292, R296): at most two, a third sets EXT_STOP; `n` are left. -/
def parseExt (v : View) (inner : Bool) (r : Parsed) (x : Layer) (o nh : Nat) : Nat → Parsed × After
  | 0 => (r.put inner x, .stop)
  | n + 1 =>
    if nh = 0 ∨ nh = 43 ∨ nh = 44 ∨ nh = 60 then
      if n = 0 then ({ r.put inner x with extStop := true }, .stop)
      else if !v.fits o 8 then ({ r.put inner x with trunc := true }, .stop)
      else
        let next := be v.l o 1
        let size := if nh = 44 then 8 else 8 * (be v.l (o + 1) 1 + 1)
        if !v.fits o size then ({ r.put inner x with trunc := true }, .stop)
        else
          let x := { x with proto := next, l3end := o + size }
          if nh = 44 then
            let w := be v.l (o + 2) 2
            let off := w / 8
            let more := bit w 0
            let r := if inner then r else
              { r with
                frag := true, first := more && off == 0, ident := be v.l (o + 4) 4, fragOff := 8 * off, more := more,
                fragAt := o + size }
            if inner || !(more && off == 0) then (r.put inner x, .stop)
            else parseExt v inner r x (o + size) next n
          else parseExt v inner r x (o + size) next n
    else afterIp v inner r x o nh

/-- An IPv6 header at `o` (R292, R295). -/
def parseV6 (v : View) (inner : Bool) (r : Parsed) (o : Nat) : Parsed × After :=
  if !v.fits o 40 then ({ r with trunc := true }, .stop)
  else if be v.l o 1 / 16 ≠ 6 then (r, .stop)
  else if v.l.length - (o + 40) < be v.l (o + 4) 2 then ({ r with l3err := true }, .stop)
  else
    let w := be v.l o 4
    let nh := be v.l (o + 6) 1
    let x : Layer :=
      { noLayer with
        l3 := 2, sip := be v.l (o + 8) 16, dip := be v.l (o + 24) 16, proto := nh, tos := bits w 20 8,
        flow := bits w 0 20, l3off := o, l3end := o + 40 }
    parseExt v inner r x (o + 40) nh 3

/-- IPv4 or IPv6 by EtherType. -/
def parseIp (v : View) (inner : Bool) (r : Parsed) (o etype : Nat) : Parsed × After :=
  if etype = 0x0800 then parseV4 v inner r o
  else if etype = 0x86DD then parseV6 v inner r o
  else (r, .stop)

/-- IPv4 or IPv6 by the first nibble. -/
def parseNibble (v : View) (inner : Bool) (r : Parsed) (o : Nat) : Parsed × After :=
  if v.l.length ≤ o then (r, .stop)
  else if be v.l o 1 / 16 = 4 then parseV4 v inner r o
  else if be v.l o 1 / 16 = 6 then parseV6 v inner r o
  else (r, .stop)

/-- An MPLS label stack (R292): at most six labels, a seventh sets MPLS_STOP. -/
def parseMpls (v : View) (r : Parsed) (o : Nat) : Nat → Parsed × After
  | 0 => ({ r with mplsStop := true }, .stop)
  | n + 1 =>
    if !v.fits o 4 then ({ r with trunc := true }, .stop)
    else
      let w := be v.l o 4
      let r := { r with labels := r.labels + 1, mplsTop := if r.labels = 0 then w else r.mplsTop }
      if bit w 8 then parseNibble v false r (o + 4) else parseMpls v r (o + 4) n

/-- The outer tags and what follows them (R292): `o` is the place of an EtherType or TPID; `n` tags may come. -/
def parseEth (c : ParCfg) (v : View) (r : Parsed) (o : Nat) : Nat → Parsed × After
  | 0 => ({ r with etype := be v.l o 2 }, .stop)
  | n + 1 =>
    let t := be v.l o 2
    let r := { r with etype := t }
    if c.isTag t then
      if n = 0 then (r, .stop)
      else if !v.fits o 6 then ({ r with trunc := true }, .stop)
      else parseEth c v { r with tcis := r.tcis ++ [be v.l (o + 2) 2] } (o + 4) n
    else if t = 0x8847 ∨ t = 0x8848 then parseMpls v r (o + 2) 6
    else if t = 0x8864 then
      if !v.fits (o + 2) 8 then ({ r with trunc := true }, .stop)
      else if be v.l (o + 2) 2 ≠ 0x1100 then (r, .stop)
      else
        let r := { r with pppoe := true }
        let p := be v.l (o + 8) 2
        if p = 0x0021 then parseV4 v false r (o + 10)
        else if p = 0x0057 then parseV6 v false r (o + 10)
        else (r, .stop)
    else parseIp v false r (o + 2) t

/-- The inner Ethernet header of a tunnel at `o`, at most one tag, then IP (R292, R293). -/
def parseInnerEth (c : ParCfg) (v : View) (r : Parsed) (o : Nat) : Parsed :=
  if !v.fits o 14 then { r with trunc := true, innerEth := some (0, 0) }
  else
    let r := { r with innerEth := some (be v.l o 6, be v.l (o + 6) 6) }
    let t := be v.l (o + 12) 2
    if c.isTag t then
      if !v.fits (o + 12) 6 then { r with trunc := true }
      else (parseIp v true r (o + 18) (be v.l (o + 16) 2)).1
    else (parseIp v true r (o + 14) t).1

/-- The GTP-U extension headers (R292): followed while the next type is not 0, up to 64 bytes of them. Answers where they end, or
else whether one did not fit (R294). -/
def gtpExt (v : View) (o seen ty : Nat) : Nat → Nat ⊕ Bool
  | 0 => .inr false
  | n + 1 =>
    if ty = 0 then .inl o
    else if 64 < seen + 4 then .inr false
    else if !v.fits o 4 then .inr true
    else
      let size := 4 * be v.l o 1
      if size = 0 ∨ 64 < seen + size then .inr false
      else if !v.fits o size then .inr true
      else gtpExt v (o + size) (seen + size) (be v.l (o + size - 1) 1) n

/-- A tunnel header after UDP or as GRE (R292, R293). -/
def parseTunnel (c : ParCfg) (v : View) (r : Parsed) : After → Parsed
  | .stop => r
  | .gre o =>
    if !c.gre then r
    else if !v.fits o 4 then { r with trunc := true }
    else
      let w := be v.l o 2
      let size := 4 + 4 * b2n (bit w 15) + 4 * b2n (bit w 13) + 4 * b2n (bit w 12)
      if w % 8 ≠ 0 ∨ bit w 14 then r
      else if !v.fits o size then { r with trunc := true }
      else
        let key := if bit w 13 then some (be v.l (o + 4 + 4 * b2n (bit w 15)) 4) else none
        let r := { r with tun := 2, tunId := key }
        let p := be v.l (o + 2) 2
        if p = 0x6558 then parseInnerEth c v r (o + size) else (parseIp v true r (o + size) p).1
  | .udp o p =>
    if c.vxlan = some p then
      if !v.fits o 8 then { r with trunc := true }
      else if !(bit (be v.l o 1) 3) then r
      else parseInnerEth c v { r with tun := 1, tunId := some (be v.l (o + 4) 3) } (o + 8)
    else if c.gtp = some p then
      if !v.fits o 8 then { r with trunc := true }
      else
        let b := be v.l o 1
        if b / 16 ≠ 3 ∨ be v.l (o + 1) 1 ≠ 0xFF then r
        else
          let opt := b % 8 != 0
          if opt && !v.fits (o + 8) 4 then { r with trunc := true }
          else
            let e := if bit b 2 then gtpExt v (o + 12) 0 (be v.l (o + 11) 1) 17
              else .inl (o + 8 + (if opt then 4 else 0))
            match e with
            | .inr t => { r with trunc := t }
            | .inl o2 => (parseNibble v true { r with tun := 3, tunId := some (be v.l (o + 4) 4) } o2).1
    else r

/-- Parse one packet (R292 to R296). -/
def parse (c : ParCfg) (l : List Byte) : Parsed :=
  let v : View := { l := l, lim := min l.length c.depth }
  if !v.fits 0 14 then { noParse with trunc := true }
  else
    let q := parseEth c v noParse 12 4
    if q.1.frag && !q.1.first then q.1 else parseTunnel c v q.1 q.2

/-! ### The key -/

/-- The key's layer, inner or outer, with its addresses and whether it is the inner one (R299); the addresses of an Ethernet header
that was not parsed read zero (R294). -/
def Parsed.layer (c : ParCfg) (l : List Byte) (r : Parsed) : Layer × Nat × Nat × Bool :=
  let da := if l.length < 14 then 0 else be l 0 6
  let sa := if l.length < 14 then 0 else be l 6 6
  if c.inner && r.tun != 0 then
    match r.innerEth with
    | some e => (r.inn, e.1, e.2, true)
    | none => (r.inn, da, sa, true)
  else (r.outer, da, sa, false)

/-- The key (R298) as its 80 bytes. -/
def keyBytes (c : ParCfg) (u port loc label : Nat) (l : List Byte) (r : Parsed) : List Byte :=
  let y := r.layer c l
  let x := y.1
  let tci (i : Nat) := r.tcis.getD i 0
  let shape := min 3 r.tcis.length + 4 * b2n r.pppoe + 8 * r.labels + 64 * b2n (r.tun != 0) + 128 * b2n r.trunc
  let flags := b2n r.frag + 2 * b2n r.first + 4 * b2n r.l3err + 8 * b2n r.extStop + 16 * b2n y.2.2.2 +
    32 * b2n r.mplsStop
  toBE u 1 ++ toBE port 1 ++ toBE (loc % 128 + 128 * u) 1 ++ toBE x.l3 1 ++ toBE (if u = 1 then label else 0) 2 ++
  toBE r.etype 2 ++ toBE (tci 0) 2 ++ toBE (tci 1) 2 ++ toBE (tci 2) 2 ++ toBE shape 1 ++ toBE r.tun 1 ++
  toBE r.mplsTop 4 ++ toBE (r.tunId.getD 0) 4 ++ toBE x.sip 16 ++ toBE x.dip 16 ++ toBE x.proto 1 ++ toBE x.tos 1 ++
  toBE x.sport 2 ++ toBE x.dport 2 ++ toBE x.tcpFlags 1 ++ toBE flags 1 ++ toBE y.2.1 6 ++ toBE y.2.2.1 6 ++
  toBE x.flow 4

/-- The flow hash (R300); `noL4` takes the ports as zero. -/
def flowHash (c : ParCfg) (l : List Byte) (r : Parsed) (noL4 : Bool) : Nat :=
  let y := r.layer c l
  let x := y.1
  let z := noL4 || r.frag
  if x.l3 ≠ 0 then
    crc32c (toBE x.sip 16 ++ toBE x.dip 16 ++ toBE x.proto 1 ++ toBE (if z then 0 else x.sport) 2 ++
      toBE (if z then 0 else x.dport) 2)
  else crc32c (toBE y.2.1 6 ++ toBE y.2.2.1 6 ++ toBE r.etype 2 ++ toBE (r.tcis.getD 0 0 % 4096) 2)

/-- The fields a range comparator of source `src` looks at; none when the field was not parsed (R301). -/
def rangeFields (c : ParCfg) (l : List Byte) (r : Parsed) (src : Nat) : List Nat :=
  let x := (r.layer c l).1
  match src with
  | 1 => if x.l4 then [x.sport] else []
  | 2 => if x.l4 then [x.dport] else []
  | 3 => if x.l4 then [x.sport, x.dport] else []
  | 4 => [l.length]
  | 5 => if r.tcis.isEmpty then [] else [r.tcis.getD 0 0 % 4096]
  | 6 => if x.l3 = 0 then [] else [x.tos / 4]
  | 7 => r.tunId.toList.map fun v => v % 65536
  | _ => []

/-- A value as packets of the present cycle see it: one that a write of this cycle replaced is still the old one (R305). -/
def Dev.oldHere (d : Dev) (t : Tbl (Nat × Nat)) (i now : Nat) : Nat :=
  match Tbl.find? t i with
  | some (old, cyc) => if cyc = d.clk.cyc then old else now
  | none => now

/-- PAR_RANGE of a comparator, as packets of the present cycle see it (R305, R313). -/
def Dev.rangeCfg (d : Dev) (i : Nat) : Nat := d.oldHere d.par.gold i (d.getReg RegOf.PAR_RANGE i 0)

/-- The range vector (R301) of a packet on the D (0) or U (1) pipelines. -/
def Dev.rangeVector (d : Dev) (c : ParCfg) (u : Nat) (l : List Byte) (r : Parsed) : Nat :=
  (List.range 64).foldl (fun a i =>
    let v := d.rangeCfg i
    let hit := bit (written F.PAR_RANGE_DIR v) u &&
      (rangeFields c l r (written F.PAR_RANGE_SRC v)).any fun x =>
        decide (written F.PAR_RANGE_LOW v ≤ x) && decide (x ≤ written F.PAR_RANGE_HIGH v)
    if hit then a + 2 ^ i else a) 0

end Sys2Proof.Machine
end

