-- ==== Sys2Proof/Machine/Forward.lean ====
section
/-!
DEFINITION. Forwarding and learning (R316 to R334) and the pipeline's step over one packet (R322, R352).
-/

namespace Sys2Proof.Machine

/-! ### Records -/

/-- A network-order field inside a record. -/
def recNet (r o n : Nat) : Nat := ofBE (toLE (recBytes r o n) n)

/-- A record with a network-order field replaced. -/
def setNet (r o n v : Nat) : Nat := setRec r o n (ofLE (toBE v n))

/-- A service entry (R318). -/
def Dev.svc (d : Dev) (i : Nat) : Nat := Tbl.get 0 d.fwd.services i
/-- FLAGS bit 0 of a service entry. -/
def svcValid (r : Nat) : Bool := bit (recBytes r 8 1) 0
/-- KIND (R319). -/
def svcKind (r : Nat) : Nat := bits (recBytes r 8 1) 1 3
/-- MODE. -/
def svcMode (r : Nat) : Nat := bits (recBytes r 8 1) 4 2
/-- POP. -/
def svcPop (r : Nat) : Nat := bits (recBytes r 9 1) 0 2
/-- PUSH. -/
def svcPush (r : Nat) : Nat := bits (recBytes r 9 1) 2 2
/-- BD. -/
def svcBd (r : Nat) : Nat := bits (recBytes r 10 2) 0 14
/-- TARGET. -/
def svcTarget (r : Nat) : Nat := recBytes r 12 4
/-- The flow label in a tree service's key. -/
def svcLabel (r : Nat) : Nat := recBytes r 0 2
/-- TERMINAL: the global index when valid. -/
def svcTerm (r : Nat) : Option Nat := if bit (recBytes r 26 2) 15 then some (bits (recBytes r 26 2) 0 14) else none
/-- ROUTER_MAC. -/
def svcRouter (r : Nat) : Nat := recNet r 28 6
/-- PEER_MAC. -/
def svcPeer (r : Nat) : Nat := recNet r 34 6

/-- The index of the first of a set's four entries that satisfies `p`. -/
def inSet (t : Tbl Nat) (set : Nat) (p : Nat → Bool) : Option Nat :=
  ((List.range 4).find? fun w => match Tbl.find? t (4 * set + w) with
    | some r => p r
    | none => false).map fun w => 4 * set + w

/-- The set of a service key (R316). -/
def svcSet (key : Nat) : Nat := crc32c (toBE key 8) % 32768

/-- The index of the VALID service with a key (R316). -/
def Dev.findSvc (d : Dev) (key : Nat) : Option Nat :=
  inSet d.fwd.services (svcSet key) fun r => svcValid r && recBytes r 0 8 == key

/-- The ingress service of a packet by its service keys (R316, R317). -/
def Dev.ingress (d : Dev) (u port label : Nat) (tcis : List Nat) : Option Nat :=
  if u = 1 then d.findSvc (2 ^ 63 + port * 2 ^ 56 + label)
  else
    let base := port * 2 ^ 56
    let k0 := if 1 ≤ tcis.length then 2 ^ 24 + tcis.getD 0 0 % 4096 * 2 ^ 12 else 0
    let k1 := if 2 ≤ tcis.length then 2 ^ 25 + tcis.getD 1 0 % 4096 else 0
    match d.findSvc (base + k0 + k1) with
    | some i => some i
    | none => match d.findSvc (base + k0) with
      | some i => some i
      | none => d.findSvc base

/-- The set of a (BD, address) pair (R324); a pair is bd × 2^48 + address. -/
def bridgeSet (pair : Nat) : Nat := crc32c (toBE (pair / 2 ^ 48) 2 ++ toBE (pair % 2 ^ 48) 6) % 262144

/-- The pair a bridge entry is for. -/
def bridgePair (r : Nat) : Nat := bits (recBytes r 6 2) 0 14 * 2 ^ 48 + recNet r 0 6

/-- VALID of a bridge entry. -/
def bridgeValid (r : Nat) : Bool := bit (recBytes r 6 2) 15
/-- STATIC of a bridge entry. -/
def bridgeStatic (r : Nat) : Bool := bit (recBytes r 6 2) 14

/-- A bridge entry as lookups of the present cycle see it: one that the station writes in this cycle is still the old one (R326). -/
def Dev.bridgeSeen (d : Dev) (i : Nat) : Nat :=
  if d.fwd.seen.1 = d.clk.cyc then (Tbl.find? d.fwd.seen.2 i).getD (Tbl.get 0 d.fwd.bridge i) else Tbl.get 0 d.fwd.bridge i

/-- The index of the bridge entry that a lookup of a pair finds (R324, R326). -/
def Dev.lookBridge (d : Dev) (pair : Nat) : Option Nat :=
  ((List.range 4).find? fun w =>
    let r := d.bridgeSeen (4 * bridgeSet pair + w)
    bridgeValid r && bridgePair r == pair).map fun w => 4 * bridgeSet pair + w

/-- The index of the bridge entry of a pair (R324). -/
def Dev.findBridge (d : Dev) (pair : Nat) : Option Nat :=
  inSet d.fwd.bridge (bridgeSet pair) fun r => bridgeValid r && bridgePair r == pair

/-- The set of a host route (R332). -/
def hostSet (vrf af addr : Nat) : Nat := crc32c (toBE vrf 2 ++ toBE af 1 ++ toBE addr 16) % 65536

/-- VALID of a host route. -/
def hostValid (r : Nat) : Bool := bit (recBytes r 2 1) 0

/-- The index of the host route of an address (R332): ADDR in network order, IPv4 in its first four bytes. -/
def Dev.findHost (d : Dev) (vrf af addr : Nat) : Option Nat :=
  inSet d.fwd.hosts (hostSet vrf af addr) fun r =>
    hostValid r && recBytes r 0 2 == vrf && bits (recBytes r 2 1) 1 1 == af && recNet r 4 16 == addr

/-- Does a prefix entry match an address (R333)? -/
def prefixHit (r vrf af addr : Nat) : Bool :=
  let len := recBytes r 3 1
  recBytes r 0 2 == vrf && bits (recBytes r 2 1) 0 1 == af && recNet r 4 16 / 2 ^ (128 - len) == addr / 2 ^ (128 - len)

/-- The RESULT of the lowest-indexed matching prefix (R333). -/
def Dev.findPrefix (d : Dev) (vrf af addr : Nat) : Option Nat :=
  (List.find? (fun e : Nat × Nat => prefixHit e.2 vrf af addr) d.fwd.prefixes).map fun e => recBytes e.2 20 4

/-- A BD record (R323). -/
def Dev.bd (d : Dev) (b : Nat) : Nat := Tbl.get 0 d.fwd.bds b

/-- Walk a replication list (R321): at most 64 members; true when it was cut. -/
def Dev.walkList (d : Dev) (m : Nat) : Nat → List Nat × Bool
  | 0 => ([], true)
  | n + 1 =>
    let r := Tbl.get 0 d.fwd.members m
    let s := bits (recBytes r 0 4) 0 17
    if bit (recBytes r 6 1) 0 then ([s], false)
    else
      let t := d.walkList (recBytes r 4 2) n
      (s :: t.1, t.2)

/-- The services a destination names (R320), and whether its list was cut. -/
def Dev.destList (d : Dev) (dest : Nat) : List Nat × Bool :=
  match bits dest 30 2 with
  | 0 => ([bits dest 0 17], false)
  | 1 => d.walkList (bits dest 0 16) 64
  | _ => ([], false)

/-- A forwarding counter. -/
def Dev.fwdCount (d : Dev) (k : Nat) (n : Nat := 1) : Dev := d.bump F.FWD_CNT_COUNT k 0 n

/-- Show the tables' use (R337): an entry is used when it is VALID. -/
def Dev.showUse (d : Dev) : Dev :=
  ((d.set F.FWD_USE_BRIDGE_USED (Tbl.count (fun _ r => bridgeValid r) d.fwd.bridge)).set F.FWD_USE_PREFIX_USED
    d.fwd.prefixes.length).set F.FWD_USE_HOST_USED (Tbl.count (fun _ r => hostValid r) d.fwd.hosts)

/-! ### Bridge entries and learning records -/

/-- A terminal's learning record (R327): LEARN_LIMIT defaults to 256. -/
def Dev.learnRec (d : Dev) (g : Nat) : Nat := Tbl.get (if d.imgApplied then 256 else 0) d.fwd.learns g

/-- LEARNED of a terminal. -/
def Dev.learned (d : Dev) (g : Nat) : Nat := bits (recBytes (d.learnRec g) 2 2) 0 13

/-- Replace a learning record, and its mirror in the terminal's page (R556). -/
def Dev.setLearn (d : Dev) (g r : Nat) : Dev :=
  { d with fwd := { d.fwd with learns := Tbl.set d.fwd.learns g r } }.obsWrite (0x40000000 + g * 256 + 88) (toLE r 8)

/-- The terminal whose LEARNED a bridge entry counts in: a VALID dynamic entry of a service with a terminal. -/
def Dev.learnTerm (d : Dev) (r : Nat) : Option Nat :=
  if bridgeValid r && !bridgeStatic r && bits (recBytes r 8 4) 30 2 == 0 then svcTerm (d.svc (bits (recBytes r 8 4) 0 17))
  else none

/-- Change a terminal's LEARNED. -/
def Dev.learnAdd (d : Dev) (t : Option Nat) (up : Bool) : Dev :=
  match t with
  | none => d
  | some g =>
    let n := d.learned g
    d.setLearn g (setRec (d.learnRec g) 2 2 (if up then n + 1 else n - 1))

/-- Write bridge entry `i`: its mirror, LEARNED of the terminals lost and gained, and the table's use. -/
def Dev.setBridge (d : Dev) (i r : Nat) : Dev :=
  let old := Tbl.get 0 d.fwd.bridge i
  let a := d.learnTerm old
  let b := d.learnTerm r
  let d := { d with fwd := { d.fwd with bridge := Tbl.put 0 d.fwd.bridge i r } }
  let d := if a = b then d else (d.learnAdd a false).learnAdd b true
  (d.mirror 0x01000000 16 i 0 16 r).showUse

/-! ### Learning requests (R325) -/

/-- The pairs in a pipeline's pending filter. -/
def Dev.inFilter (d : Dev) (pipe pair : Nat) : Bool :=
  (Tbl.get [] d.fwd.filter pipe).any fun e => e.1 == pair

/-- Send a learn or move request to the station (R325, R326): nothing while the pair is in the pending filter;
dropped when the station's queue of 4,096 is full, and one that meets a host's write of its entry in the same cycle is dropped (R329). -/
def Dev.request (d : Dev) (pipe pair service : Nat) : Dev :=
  let f := Tbl.get [] d.fwd.filter pipe
  if d.inFilter pipe pair || decide (64 ≤ f.length) then d
  else if 4096 ≤ d.fwd.queue.length then d.flag F.FWD_STAT_LDROP
  else
    let fwd := { d.fwd with
      filter := Tbl.set d.fwd.filter pipe (f ++ [(pair, d.clk.cyc)])
      queue := d.fwd.queue ++ [{ pair := pair, service := service, pipe := pipe, at_ := d.clk.cyc }] }
    if d.fwd.hostPut.1 = d.clk.cyc ∧ d.fwd.hostPut.2.contains pair then
      { d with fwd := { d.fwd with filter := fwd.filter } }
    else { d with fwd := fwd }.set F.FWD_STAT_LEARN_QUEUE fwd.queue.length

/-- What learning makes of a packet: go on, or drop it as a static violation or as an excess source. -/
inductive Learnt where
  | go
  | staticDrop
  | excessDrop
  deriving DecidableEq, Repr

/-- Learn a bridged packet's source (R325, R327). -/
def Dev.learn (d : Dev) (pipe svcIx smac : Nat) : Dev × Learnt :=
  let s := d.svc svcIx
  let pair := svcBd s * 2 ^ 48 + smac
  let wanted := d.useB F.FWD_CFG_LEARN_EN && bit (recBytes s 8 1) 6 && bit (recBytes (d.bd (svcBd s)) 2 1) 2 &&
    d.mode != 3 && smac / 2 ^ 40 % 2 == 0
  if !wanted then (d, .go)
  else
    let known := (Tbl.get [] d.fwd.excess pipe).contains pair
    let exc := if known && !(bit (recBytes s 8 1) 7) then Learnt.excessDrop else Learnt.go
    match d.lookBridge pair with
    | some i =>
      let r := d.bridgeSeen i
      let now := Tbl.get 0 d.fwd.bridge i
      if recBytes r 8 4 = svcIx then
        let l := if d.fwd.hits.1 = d.clk.cyc then d.fwd.hits.2 else []
        let e := { d with fwd := { d.fwd with hits := (d.clk.cyc, i :: l) } }
        (if now ≠ r then d else if recBytes r 12 1 = 0 then e else e.setBridge i (setRec r 12 1 0), .go)
      else if bridgeStatic r then (d.flag F.FWD_STAT_STATICV, .staticDrop)
      else (d.request pipe pair svcIx, exc)
    | none => (d.request pipe pair svcIx, exc)

/-! ### Copies -/

/-- A packet as forwarding hands it on: its bytes after entry tags are gone, its class, colour action, hash, the
outermost IP header's kind and place in those bytes, its tag, and the new addresses of a routed packet. -/
structure Fwding where
  bytes : List Byte
  tc : Nat
  hash : Nat
  l3 : Nat
  l3off : Nat
  tag : Option Tag
  routed : Option Nat
  fails : Option (Nat × Nat)
  deriving DecidableEq, Repr

/-- Emulated terminal 0 of a trunk member carries traffic (R251): T_OPERATING or T_DOZE. -/
def Dev.memberUp (d : Dev) (c : Nat) : Bool :=
  let s := d.get F.TCH_EMUSTAT_STATE c 0
  d.trunk c && (s == 4 || s == 5)

/-- Some trunk member is operating. -/
def Dev.anyMember (d : Dev) : Bool := (List.range 128).any fun c => d.memberUp c

/-- Where a copy to service `t` goes. -/
inductive Goes where
  | queue (q : Nat) (bucket : Option Nat)
  | noTrunk
  deriving DecidableEq, Repr

/-- The queue a copy to service `t` enters (R224, R241, R251, R319). -/
def Dev.copyQueue (d : Dev) (t tc hash : Nat) : Goes :=
  let s := d.svc t
  match svcKind s with
  | 0 => .queue (65536 + 8 * d.firstPort (svcTarget s % 128) + tc) none
  | 3 =>
    if d.anyMember then
      let b := hash % 256
      .queue (4 * (128 * d.get F.GLB_CASBKT_CUR b) + tc / 2) (some b)
    else .noTrunk
  | 1 =>
    let q := svcTarget s % 65536
    if d.termRole (q / 512) then .queue (q / 4 * 4 + tc / 2) none else .queue q none
  | _ => .queue (svcTarget s % 65536) none

/-- The edits of a copy to service `t` (R319, R331, R346): a tree destination pushes its tags here, an uplink's MAC later. -/
def Dev.copyEdit (d : Dev) (f : Fwding) (t : Nat) (ce : Bool) : Edit :=
  let s := d.svc t
  { hop := f.routed.map fun dmac => (dmac, svcRouter s), l3 := f.l3, l3off := f.l3off, ce := ce,
    push := if svcKind s = 0 then 0 else svcPush s, tci0 := recBytes s 16 2, tci1 := recBytes s 18 2 }

/-- The length of a copy to service `t` (R66, R208). -/
def Dev.copyLen (d : Dev) (f : Fwding) (t : Nat) : Nat := f.bytes.length + (d.copyEdit f t false).more

/-- A copy decided on: its queue, its bucket hold, and the packet. -/
structure Copy where
  q : Nat
  hold : Option Nat
  pkt : Pkt
  deriving DecidableEq, Repr

/-- Is an egress queue's port down with DOWN_FLUSH at 1 (R394)? -/
def Dev.downFlush (d : Dev) (q : Nat) : Bool :=
  decide (65536 ≤ q) &&
    (let p := (q - 65536) / 8
     !d.on F.UPL_STAT_LINK_UP p && d.useB F.UPL_MACCFG_DOWN_FLUSH p)

/-- Decide one copy to service `t` (R221): admitted copies are gathered, others counted and traced. -/
def Dev.oneCopy (pipe : Nat) (f : Fwding) (colour : Nat) (de : Bool) (r : Dev × List Copy) (t : Nat) : Dev × List Copy :=
  let d := r.1
  match d.copyQueue t f.tc f.hash with
  | .noTrunk =>
    let d := d.bump F.GLB_CASCNT_NO_TRUNK
    (d.trace f.tag 3 (cntAt F.GLB_CASCNT_NO_TRUNK 0 0) t f.bytes.length f.tc colour de false, r.2)
  | .queue q b =>
    let len := d.copyLen f t
    if d.downFlush q then
      let p := (q - 65536) / 8
      let d := d.bump F.UPL_CNT_COUNT p 49
      (d.trace f.tag 3 (cntAt F.UPL_CNT_COUNT p 49) t len f.tc colour de false, r.2)
    else if !d.qValid q then
      -- a queue that is not VALID takes no packet (log entry 20)
      (d.trace f.tag 3 0 t len f.tc colour de false, r.2)
    else
      let ecn := if f.l3 = 0 then none else some (getTos f.bytes f.l3 f.l3off % 4)
      let a := d.admission q (d.charged q len) pipe de ecn
      let k := a.1.admCount q a.2
      let pkt (ce : Bool) : Pkt :=
        { bytes := f.bytes, tc := f.tc, colour := colour, de := de, service := t, label := svcLabel (d.svc t), hash := f.hash,
          buf := 0, passedMem := false, tag := f.tag, fails := f.fails, edit := some (d.copyEdit f t ce) }
      match a.2 with
      | .accept => (k.1, r.2 ++ [{ q := q, hold := b, pkt := pkt false }])
      | .mark => (k.1, r.2 ++ [{ q := q, hold := b, pkt := pkt true }])
      | _ => (k.1.trace f.tag 3 k.2 t len f.tc colour de false, r.2)

/-- Queue `k` of port `p` is paused now (R398). -/
def Dev.paused (d : Dev) (p k : Nat) : Bool :=
  decide (d.clk.cyc < Tbl.get 0 d.mac.portPause p) || decide (d.clk.cyc < Tbl.get 0 d.mac.queuePause (8 * p + k))

/-- A packet enters a queue: one that emptied in an earlier cycle has left its share, and joins again (R223). An egress queue that was empty and is paused now holds packets while paused (R399). -/
def Dev.pushTo (d : Dev) (q : Nat) (p : Pkt) : Dev :=
  let x := d.qst q
  let stays := x.joined && (!x.all.isEmpty || x.left.1 == d.clk.cyc)
  let d := d.setQ q { x.push p with joined := stays }
  if 65536 ≤ q ∧ x.all.isEmpty ∧ d.paused ((q - 65536) / 8) (q % 8) then
    { d with mac := { d.mac with since := Tbl.set d.mac.since (q - 65536) d.clk.cyc } }
  else d

/-- Put an admitted copy in its queue, or hold it at a moved bucket (R251), and trace it ENQUEUED. -/
def Dev.enqueue (buf : Nat) (d : Dev) (c : Copy) : Dev :=
  let p := { c.pkt with buf := buf }
  let d : Dev := match c.hold with
    | some b =>
      if d.on F.GLB_CASBKT_MOVING b then
        let h : CasHold := Tbl.get { marks := [], pkts := [] } d.cas.holds b
        let h : CasHold := { h with pkts := h.pkts ++ [(c.q, p)] }
        { d with cas := { d.cas with holds := Tbl.set d.cas.holds b h } }
      else d.pushTo c.q p
    | none => d.pushTo c.q p
  d.tracePkt p 1 c.q

/-- The copies that a packet may have at this time: one whose tag has not passed only those bound for an uplink (R424, R425). -/
def Dev.mayCut (d : Dev) (f : Fwding) (l : List Nat) : List Nat :=
  if f.fails.isNone then l
  else l.filter fun t => match d.copyQueue t f.tc f.hash with
    | .queue q _ => decide (65536 ≤ q)
    | .noTrunk => false

/-- Buffer the admitted copies once and make them visible (R344, R346): no copy is made when no buffer is had.
The buffer holds the shared bytes, before the tags that each copy pushes as it is dequeued. -/
def Dev.storeCopies (d : Dev) (pipe : Nat) (l : List Copy) (len : Nat) : Dev :=
  match l with
  | [] => d
  | c :: _ =>
    let r := d.alloc pipe (d.qOwner c.q) len
    match r.2 with
    | none => r.1.tracePkt c.pkt 3 (cntAt F.BUF_CNT_COUNT 0 0)
    | some b => l.foldl (Dev.enqueue b) (r.1.addRef b (l.length - 1))

/-! ### Classification -/

/-- What classification and the fragment table decide: the action, and the flow hash of a hit fragment. -/
structure Classed where
  action : Nat
  hash : Option Nat
  dropped : Bool
  deriving DecidableEq, Repr

/-- The default action of a pipeline letter (R302, R313). -/
def Dev.defaultAction (d : Dev) (u : Nat) : Nat := d.use F.PAR_DEFACT_ACT u 0 + d.use F.PAR_DEFACT_ACT u 1 * 2 ^ 64

/-- Does a rule match (R302)? The record is value, mask, range value, range mask, action (R315). -/
def ruleHit (r key rv : Nat) : Bool :=
  bit (recBytes r 176 1) 0 && (key ^^^ recBytes r 0 80) &&& recBytes r 80 80 == 0 &&
    (rv ^^^ recBytes r 160 8) &&& recBytes r 168 8 == 0

/-- A rule as packets of the present cycle see it (R305). -/
def Dev.ruleSeen (d : Dev) (i : Nat) : Nat := d.oldHere d.par.rold i (Tbl.get 0 d.par.rules i)

/-- The lowest-indexed matching rule (R302): among the rules listed, and those that a write of this cycle took out. -/
def Dev.findRule (d : Dev) (key rv : Nat) : Option Nat :=
  let a := Tbl.first? (fun i _ => ruleHit (d.ruleSeen i) key rv) d.par.rules
  let b := Tbl.first? (fun i _ => ruleHit (d.ruleSeen i) key rv) d.par.rold
  match a, b with
  | some i, some j => some (min i j)
  | some i, none => some i
  | none, j => j

/-- Look the rules up (R302): the lowest-indexed match with its hit counted, or the default action. -/
def Dev.classify (d : Dev) (u key rv : Nat) : Dev × Nat :=
  match d.findRule key rv with
  | some i =>
    let c := d.recCount (Tbl.get 0 d.par.hits i) 1 0x1400000 i (0x50000000 + 0x09000000 + 256 * i + 192)
    let d := { c.1 with par := { c.1.par with hits := Tbl.set c.1.par.hits i c.2 } }
    (d.bump F.PAR_CNT_COUNT u 4, recBytes (d.ruleSeen i) 176 16)
  | none => (d.bump F.PAR_CNT_COUNT u 5, d.defaultAction u)

/-- A flag of PAR_STAT: its companion count is the sum of the PAR_CNT entries of both directions (R312). -/
def Dev.parFlag (d : Dev) (f : Fld) (u k : Nat) : Dev := (d.bump F.PAR_CNT_COUNT u k).flag f

/-- Show the fragment entries in use (R311). -/
def Dev.showFrags (d : Dev) : Dev := d.set F.PAR_FRAGSTAT_IN_USE d.par.frags.length

/-- The fragment set of a packet (R306). -/
def fragSet (u port : Nat) (o : Layer) (ident : Nat) : Nat :=
  crc32c (toBE u 1 ++ toBE port 1 ++ toBE o.sip 16 ++ toBE o.dip 16 ++ toBE o.proto 1 ++
    toBE ident (if o.l3 = 1 then 2 else 4)) % 2048

/-- The fragment entry of a packet (R306). -/
def Dev.findFrag (d : Dev) (u port : Nat) (o : Layer) (ident : Nat) : Option Nat :=
  ((List.range 4).find? fun w => match Tbl.find? d.par.frags (4 * fragSet u port o ident + w) with
    | some e => e.dir == u && e.port == port && e.sip == o.sip && e.dip == o.dip && e.proto == o.proto && e.ident == ident
    | none => false).map fun w => 4 * fragSet u port o ident + w

/-- Bytes of a fragment's own data: what follows the IPv4 header or the IPv6 fragment header (R307). -/
def fragBytes (l : List Byte) (r : Parsed) : Nat :=
  (if r.outer.l3 = 1 then be l (r.outer.l3off + 2) 2 else 40 + be l (r.outer.l3off + 4) 2) - (r.fragAt - r.outer.l3off)

/-- DROP of an action: no other field then acts (R304). -/
def actDrop (a : Nat) : Bool := bit (recBytes a 0 1) 1

/-- The traffic class that an action gives a packet whose first tag has PCP `pcp` (R304). -/
def actTc (a pcp : Nat) : Nat := if bit (recBytes a 0 1) 3 then recBytes a 1 1 % 8 else pcp

/-- HASH_NO_L4 of an action, where it acts. -/
def actNoL4 (a : Nat) : Bool := bit (recBytes a 0 1) 7 && !actDrop a

/-- The PCP of a packet's first tag, or of what its MAC popped (R304). -/
def pcpOf (p : InPkt) (r : Parsed) : Nat :=
  if r.tcis.isEmpty then p.popPcp.getD 0 else r.tcis.getD 0 0 / 8192 % 8

/-- The action that a fragment entry holds: the first fragment's after R302 and R304, its traffic class set (R306). -/
def heldAction (a pcp : Nat) : Nat :=
  if actDrop a then a
  else setRec (setRec a 0 1 (recBytes a 0 1 ||| 8)) 1 1 (recBytes a 1 1 / 8 * 8 + actTc a pcp)

/-- A hit of a fragment entry (R307): bytes added, stamp refreshed, the total learned from the last fragment; the
entry is freed when its bytes reach it. -/
def Dev.fragHit (d : Dev) (i : Nat) (l : List Byte) (r : Parsed) : Dev :=
  match Tbl.find? d.par.frags i with
  | none => d
  | some e =>
    let n := e.bytes + fragBytes l r
    let tot := if r.more then e.total else some (r.fragOff + fragBytes l r)
    let done := match tot with
      | some t => decide (t ≤ n)
      | none => false
    let fr := if done then Tbl.erase d.par.frags i
      else Tbl.set d.par.frags i { e with bytes := n, total := tot, stamp := d.stamp }
    { d with par := { d.par with frags := fr } }.showFrags

/-- Classify a packet, outer fragments by the fragment table (R302, R307). -/
def Dev.classifyPkt (d : Dev) (c : ParCfg) (u : Nat) (p : InPkt) (r : Parsed) (key rv : Nat) : Dev × Classed :=
  let port := p.port
  let l := p.bytes
  let plain (d : Dev) : Dev × Classed :=
    let k := d.classify u key rv
    (k.1, { action := k.2, hash := none, dropped := false })
  if !r.frag || !d.useB F.PAR_FRAGCFG_FRAG_EN then plain d
  else
    match d.findFrag u port r.outer r.ident with
    | some i =>
      let e := Tbl.find? d.par.frags i
      let d := (d.bump F.PAR_CNT_COUNT u 7).fragHit i l r
      (d, { action := (e.map (·.action)).getD 0, hash := e.map (·.hash), dropped := false })
    | none =>
      if r.first then
        let k := d.classify u key rv
        let set := fragSet u port r.outer r.ident
        let way := k.1.pick ((List.range 4).filter fun w => (Tbl.find? k.1.par.frags (4 * set + w)).isNone)
        match way.2 with
        | some w =>
          let hash := flowHash c l r true
          let e : Frag :=
            { dir := u, port := port, proto := r.outer.proto, ident := r.ident, sip := r.outer.sip, dip := r.outer.dip,
              action := heldAction k.2 (pcpOf p r), hash := hash, bytes := fragBytes l r, total := none, stamp := d.stamp }
          let d := way.1
          let d := { d with par := { d.par with frags := Tbl.set d.par.frags (4 * set + w) e } }.showFrags
          (d.bump F.PAR_CNT_COUNT u 6, { action := k.2, hash := none, dropped := false })
        | none => (k.1.parFlag F.PAR_STAT_FRAGOVF u 9, { action := k.2, hash := none, dropped := false })
      else
        let d := d.parFlag F.PAR_STAT_FRAGMISS u 8
        if d.useB F.PAR_FRAGCFG_MISS_ACT then (d, { action := 0, hash := none, dropped := true })
        else plain d

/-! ### Tagging -/

/-- Random tagging (R590): the pipeline's LFSR steps once per packet. -/
def Dev.randomTag (d : Dev) (pipe : Nat) : Dev × Bool :=
  let v := lfsr32 (Tbl.get (pipe + 1) d.pmu.tagLfsr pipe)
  let d := { d with pmu := { d.pmu with tagLfsr := Tbl.set d.pmu.tagLfsr pipe v } }
  (d, d.useB F.PMU_TAGCFG_EN && bit (d.use F.PMU_TAGCFG_PIPES) pipe && v % 2 ^ d.use F.PMU_TAGCFG_K == 0)

/-- Give a packet its tag when it has one (R590). -/
def Dev.giveTag (d : Dev) (pipe u port hash key : Nat) (rnd rule : Bool) : Dev × Option Tag :=
  if rnd || rule then
    let g : Tag :=
      { id := d.pmu.tagNext, flags := b2n rnd + 2 * b2n rule, pipe := pipe, dir := u, port := port, hash := hash, key := key }
    (({ d with pmu := { d.pmu with tagNext := (d.pmu.tagNext + 1) % 2 ^ 32 } }).bump F.PMU_GCNT_COUNT 2, some g)
  else (d, none)

/-! ### The forwarding step -/

/-- A route lookup (R331): the destination with the next hop's address, or the counter of the drop. -/
def Dev.route (d : Dev) (vrf : Nat) (l3 dip : Nat) : Nat × Nat ⊕ Nat :=
  let af := l3 - 1
  let hop (i : Nat) : Nat × Nat ⊕ Nat :=
    let h := Tbl.get 0 d.fwd.hosts i
    if hostValid h then .inl (recBytes h 20 4, recNet h 24 6) else .inr 14
  match d.findHost vrf af dip with
  | some i => hop i
  | none => match d.findPrefix vrf af dip with
    | none => .inr 13
    | some r => if bit r 31 then .inr 13 else hop (bits r 0 18)

/-- Meter a downstream packet (R220): the meter, pre-colour and action of its classification or service entry;
none when it is dropped, else its colour and mark. -/
def Dev.police (d : Dev) (meter cls : Nat) (q len : Nat) : Dev × Option (Nat × Bool) :=
  let act := cls / 4
  if act = 0 then (d, some (0, false))
  else
    let r := d.meter (meter % 131072) (d.charged q len) (cls % 4)
    let k := if r.2 = 1 then 10 else 11
    let cnt := decide (q < 65536) && r.2 != 0 && !(r.2 == 1 && act == 1)
    let d := if cnt then r.1.bump F.TMG_CHCNT_COUNT (r.1.qCh q) k else r.1
    match colourAct act r.2 with
    | some m => (d, some (r.2, m))
    | none => (d, none)

/-- The services that get a copy (R322), whether a trunk-to-trunk copy was skipped, and whether the list was cut. -/
def Dev.copiesFor (d : Dev) (s dest : Nat) : List Nat × Bool × Bool :=
  let r := d.svc s
  let ts := d.destList dest
  let localSw := bit (recBytes (d.bd (svcBd r)) 2 1) 1
  let keep := ts.1.filter fun t =>
    t != s && svcValid (d.svc t) && !(svcKind r == 1 && svcKind (d.svc t) == 1 && !localSw) &&
      !(svcKind r == 3 && svcKind (d.svc t) == 3)
  (keep, ts.1.any fun t => t != s && svcKind r == 3 && svcKind (d.svc t) == 3, ts.2)

/-- What forwarding finds: a destination with a routed next hop, or a drop with its trace WHERE. -/
inductive Found where
  | dest (v : Nat) (hop : Option Nat)
  | drop (where_ : Nat)
  deriving DecidableEq, Repr

/-- Find the destination by the ingress service's mode (R322, R323, R331). A fragment past the first that the fragment table knows
(`known`) may be routed; of one that it does not the ports are unknown (DEDUCED, log entry 172). A packet whose tag fails (`fails`) teaches nothing (R424). -/
def Dev.findDest (d : Dev) (pipe s : Nat) (c : ParCfg) (l : List Byte) (r : Parsed) (known fails : Bool) : Dev × Found :=
  let e := d.svc s
  let y := r.layer c l
  match svcMode e with
  | 0 =>
    let b := d.bd (svcBd e)
    if !(bit (recBytes b 2 1) 0) then (d.flag F.FWD_STAT_NOSVC, .drop (cntAt F.FWD_CNT_COUNT 10 0))
    else
      let k := d.learn pipe s y.2.2.1
      let k := if fails then (d, k.2) else k
      match k.2 with
      | .staticDrop => (k.1, .drop (cntAt F.FWD_CNT_COUNT 11 0))
      | .excessDrop => (k.1, .drop (cntAt F.FWD_CNT_COUNT 7 0))
      | .go =>
        let d := k.1.fwdCount 0
        match d.lookBridge (svcBd e * 2 ^ 48 + y.2.1) with
        | some i => (d, .dest (recBytes (d.bridgeSeen i) 8 4) none)
        | none =>
          let fl := recBytes b 0 2
          (d.fwdCount 3, .dest (if fl = 0xFFFF then 2 ^ 31 else 2 ^ 30 + fl) none)
  | 1 =>
    let x := y.1
    if y.2.1 ≠ svcRouter e ∨ x.l3 = 0 ∨ r.l3err ∨ y.2.2.2 ∨ (r.frag && !r.first && !known) then
      (d.fwdCount 15, .drop (cntAt F.FWD_CNT_COUNT 15 0))
    else if getTtl l x.l3 x.l3off ≤ 1 then (d.fwdCount 12, .drop (cntAt F.FWD_CNT_COUNT 12 0))
    else match d.route (recBytes e 24 2) x.l3 x.dip with
      | .inl (v, hop) => (d.fwdCount 1, .dest v (some hop))
      | .inr k => (d.fwdCount k, .drop (cntAt F.FWD_CNT_COUNT k 0))
  | _ => (d.fwdCount 2, .dest (recBytes e 40 4) none)

/-- Drop a packet before it is copied, with its trace record (R591). -/
def Dev.dropPkt (d : Dev) (g : Option Tag) (where_ service len tc : Nat) : Dev :=
  d.trace g 3 where_ service len tc 0 false false

/-- Forward a classified packet (R322, R352). -/
def Dev.forward (d : Dev) (pipe u : Nat) (p : InPkt) (c : ParCfg) (r : Parsed) (a : Classed) (g : Option Tag)
    (hash tc : Nat) : Dev :=
  let l := p.bytes
  let flags := recBytes a.action 0 1
  let si := if bit flags 5 then
      let i := bits (recBytes a.action 8 4) 0 17
      if svcValid (d.svc i) then some i else none
    else d.ingress u p.port p.label r.tcis
  match si with
  | none => (d.flag F.FWD_STAT_NOSVC).dropPkt g (cntAt F.FWD_CNT_COUNT 10 0) 0x1FFFF l.length tc
  | some s =>
    let e := d.svc s
    let f := d.findDest pipe s c l r a.hash.isSome p.fails.isSome
    match f.2 with
    | .drop w => f.1.dropPkt g w s l.length tc
    | .dest v hop =>
      let d := f.1.trace g 0 v s l.length tc 0 p.de false
      let k := d.copiesFor s v
      let d := if k.2.2 then d.flag F.FWD_STAT_TRUNC else d
      let d := if k.2.1 then d.bump F.TCH_RXCNT_COUNT p.port 11 else d
      match k.1 with
      | [] =>
        (d.fwdCount 16).dropPkt g (if k.2.1 then cntAt F.TCH_RXCNT_COUNT p.port 11 else cntAt F.FWD_CNT_COUNT 16 0) 0x1FFFF l.length tc
      | t :: _ =>
        let npop := min (svcPop e) r.tcis.length
        let l2 := popTags l npop
        let o := r.outer.l3off - 4 * npop
        let l2 := if bit flags 6 && r.outer.l3 != 0 then
          setTos l2 r.outer.l3 o (recBytes a.action 2 1 % 64 * 4 + getTos l2 r.outer.l3 o % 4) else l2
        let fw : Fwding :=
          { bytes := l2, tc := tc, hash := hash, l3 := r.outer.l3, l3off := o, tag := g, routed := hop, fails := p.fails }
        let meter := if bit flags 4 then recBytes a.action 4 4 else bits (recBytes e 20 4) 0 17
        let cls := if bit flags 4 then bits (recBytes a.action 1 1) 3 4 else bits (recBytes e 20 4) 17 4
        let q0 := match d.copyQueue t tc hash with
          | .queue q _ => q
          | .noTrunk => 65536
        let pol := if u = 0 then d.police meter cls q0 (d.copyLen fw t) else (d, some (0, p.de))
        match pol.2 with
        | none => pol.1.dropPkt g (cntAt F.TMG_CHCNT_COUNT (pol.1.qCh q0) 11) t l2.length tc
        | some (col, de) =>
          let cs := (pol.1.mayCut fw k.1).foldl (Dev.oneCopy pipe fw col (de || p.de)) (pol.1, [])
          cs.1.storeCopies pipe cs.2 l2.length

/-- A pipeline parses, classifies, meters and forwards one packet (R297, R304, R322). -/
def Dev.pipeline (d : Dev) (pipe : Nat) (p : InPkt) : Dev :=
  let u := if pipe < 8 then 0 else 1
  let c := d.parCfg u
  let l := p.bytes
  let r := parse c l
  let d := d.bump F.PAR_CNT_COUNT u 0
  let d := if r.trunc then d.parFlag F.PAR_STAT_TRUNC u 1 else d
  let d := if r.tun ≠ 0 then d.bump F.PAR_CNT_COUNT u 3 else d
  if u = 0 ∧ r.etype = d.use F.CIR_GLB_ETHERTYPE then
    { d with cirIn := d.cirIn ++ [(p.port, l)] }.bump F.PAR_CNT_COUNT 0 11
  else
    let tg := d.randomTag pipe
    let d := tg.1
    let key := ofLE (keyBytes c u p.port p.loc p.label l r)
    let kb := ofBE ((keyBytes c u p.port p.loc p.label l r).drop 24 |>.take 32)
    let pcp := pcpOf p r
    let d := if r.l3err then d.parFlag F.PAR_STAT_L3ERR u 2 else d
    if r.l3err && d.useB F.PAR_CFG_L3ERR_DROP then
      let t := d.giveTag pipe u p.port (flowHash c l r false) kb tg.2 false
      t.1.dropPkt t.2 (cntAt F.PAR_CNT_COUNT u 2) 0x1FFFF l.length pcp
    else
      let k := d.classifyPkt c u p r key (d.rangeVector c u l r)
      let a := k.2
      let hash := a.hash.getD (flowHash c l r (actNoL4 a.action))
      let tc := if actDrop a.action then pcp else actTc a.action pcp
      let t := k.1.giveTag pipe u p.port hash kb tg.2 (bit (recBytes a.action 0 1) 2 && !actDrop a.action)
      if a.dropped then t.1.dropPkt t.2 (cntAt F.PAR_CNT_COUNT u 8) 0x1FFFF l.length tc
      else if actDrop a.action then
        (t.1.bump F.PAR_CNT_COUNT u 13).dropPkt t.2 (cntAt F.PAR_CNT_COUNT u 13) 0x1FFFF l.length tc
      else t.1.forward pipe u p c r a t.2 hash tc

end Sys2Proof.Machine
end

