-- ==== Sys2Proof/Machine/Spill.lean ====
section
/-!
DEFINITION. Spill to stacked memory and back (R347 to R351), and the owner tables (R357, R358).
-/

namespace Sys2Proof.Machine

/-- Bytes a list of packets takes in a page (R348): the page header, then each packet's descriptor and bytes,
8-byte aligned. -/
def pageBytes (l : List Pkt) : Nat := l.foldl (fun a p => a + cdiv (32 + p.bytes.length) 8 * 8) 64

/-- SPILL_ON of an owner, in bytes. -/
def Dev.spillOn (d : Dev) (o : Nat) : Nat := recBytes (d.ocfg o) 20 2 * 1024
/-- HEAD_KEEP of an owner, in bytes. -/
def Dev.headKeep (d : Dev) (o : Nat) : Nat := recBytes (d.ocfg o) 22 2 * 1024
/-- SPILL_MAX of an owner, in pages. -/
def Dev.spillMax (d : Dev) (o : Nat) : Nat := recBytes (d.ocfg o) 24 4 * 64

/-- on_die of a queue (R347). -/
def Dev.onDie (d : Dev) (q : Nat) : Nat :=
  let x := d.qst q
  d.chargedAll q x.h + d.chargedAll q x.t + d.chargedAll q (x.opened.getD [])

/-! ### Acceptance (R350, R378) -/

/-- Stacks in use. -/
def Dev.stacksUp (d : Dev) : Nat := ((List.range 4).filter fun s => d.stackUp s).length

/-- Spill write bytes that LEVEL allows in each 1 µs window; none for no limit (R378). -/
def Dev.spillAllowance (d : Dev) : Option Nat :=
  match d.get F.MEM_THROTTLE_LEVEL with
  | 0 => none
  | 1 => some (d.stacksUp * 819200 / 2)
  | 2 => some (d.stacksUp * 819200 / 4)
  | _ => some 0

/-- The spill bytes of the present window of 1,500 cycles. -/
def Dev.windowBytes (d : Dev) : Nat := if d.clk.cyc / 1500 = d.mem.winStart then d.mem.winBytes else 0

/-- Do the controllers accept a page write (R378)? -/
def Dev.acceptsSpill (d : Dev) : Bool :=
  decide (d.mem.wbuf.length ≤ d.use F.MEM_CFG_WB_SPILL_STOP) && decide (0 < d.stacksUp) &&
    (match d.spillAllowance with
     | none => true
     | some n => decide (d.windowBytes + 16384 ≤ n))

/-- A pool 3 buffer for the spill engine's port (R345, R348): none when SP may not have one. -/
def Dev.takeSp (d : Dev) : Dev × Option Nat :=
  let d := d.askTurn 18 3
  if d.poolGrants 512 3 then
    let r := d.grant 512 3
    (r.1, some r.2)
  else (d, none)

/-- Is spill possible for a queue of owner `o`, beside an open page of SP (R350)? -/
def Dev.spillPossible (d : Dev) (o : Nat) : Bool :=
  d.useB F.BUF_CFG_SPILL_EN && decide (Tbl.get 0 d.buf.pages o < d.spillMax o) &&
    decide (d.buf.inUse.length < d.get F.BUF_SPILLSTAT_PAGES_TOTAL) && d.acceptsSpill

/-- A spill step stops under R350; one that the controllers refuse counts in SPILL_REFUSED too (R378). -/
def Dev.spillBlocked (d : Dev) : Dev :=
  (if d.acceptsSpill then d else d.flag F.MEM_STAT_SPILLSTOP).flag F.BUF_STAT_SPILLFULL

/-! ### Writing a page -/

/-- The header of a page (R348): queue, sequence number and packet count, and the CRC over them. -/
def pageHeader (q seq n : Nat) : List Byte :=
  let l := toLE q 4 ++ toLE seq 4 ++ toLE n 2 ++ toLE 0 50
  l ++ toLE (crc32c l) 4

/-- Is a page's header the one that was written for page `seq` of queue `q` (R349)? -/
def pageHeaderOk (q seq : Nat) (l : List Byte) : Bool :=
  le l 60 4 == crc32c (l.take 60) && le l 0 4 == q && le l 4 4 == seq

/-- The bytes of a page (R348): its header, and each packet's descriptor and bytes, 8-byte aligned, in queue order. -/
def pageImage (hdr : List Byte) (l : List Pkt) : List Byte :=
  hdr ++ l.flatMap fun p =>
    let b := toLE (Config.descriptor p.buf).toNat 32 ++ p.bytes
    b ++ List.replicate (cdiv b.length 8 * 8 - b.length) 0

/-- Write the open page of queue `q` to stacked memory and append it to M (R347, R348): 64 requests of port SPILL_WR. -/
def Dev.writePage (d : Dev) (q : Nat) : Option Dev :=
  let x := d.qst q
  match x.opened, d.freeSlot with
  | some l, some (d, slot) =>
    let o := d.qOwner q
    let hdr := pageHeader q x.seq l.length
    let image := pageImage hdr l ++ List.replicate (16384 - pageBytes l) 0
    let l := l.map fun p => { p with passedMem := true, buf := 0 }
    let pg : Page := { slot := slot, seq := x.seq, hdr := hdr, pkts := l, at_ := .stored, landing := 0, gone := false }
    let d := d.setQ q { x with m := x.m ++ [pg], opened := none, seq := (x.seq + 1) % 2 ^ 32 }
    let d := d.release1 x.openBuf
    let d := d.writeBlocks 0 (pageAddr slot) image 64
    let w := d.windowBytes + 16384
    let d := { d with mem := { d.mem with winStart := d.clk.cyc / 1500, winBytes := w } }
    some ((d.addPages o 1).bump F.BUF_CNT_COUNT 5)
  | _, _ => none

/-- Open a page for queue `q` where it has none: a pool 3 buffer of SP (R348); none when SP cannot have one. -/
def Dev.openPage (d : Dev) (q : Nat) : Dev × Bool :=
  if (d.qst q).opened.isSome then (d, true)
  else
    let r := d.takeSp
    match r.2 with
    | some b => (r.1.setQ q { r.1.qst q with opened := some [], openBuf := b }, true)
    | none => (r.1, false)

/-- The packets of H beyond HEAD_KEEP become the tail when M, T and the open page are empty (R347). -/
def Dev.splitHead (d : Dev) (q : Nat) : QSt :=
  let x := d.qst q
  if x.m.isEmpty && x.opened.isNone && x.t.isEmpty then
    let keep := d.headKeep (d.qOwner q)
    let n := (x.h.foldl (fun (a : Nat × Nat) p =>
      let b := a.2 + d.charged q p.len
      if a.2 < keep then (a.1 + 1, b) else (a.1, b)) (0, 0)).1
    { x with h := x.h.take n, t := x.h.drop n }
  else x

/-- Copy the front of T into the open page. -/
def Dev.moveToPage (d : Dev) (q : Nat) : Dev :=
  let x := d.qst q
  match x.t, x.opened with
  | p :: r, some l =>
    let d := d.setQ q { x with t := r, opened := some (l ++ [p]) }
    d.release1 p.buf
  | _, _ => d

/-- A packet that fits no page (R348). -/
def Pkt.big (p : Pkt) : Bool := decide (16288 < p.bytes.length)

/-- The spill step (R347): one packet for each unit of `fuel`. It stands still at a packet that fits no page until that is at the
front of H (R348). -/
def Dev.spillLoop (q : Nat) : Nat → Dev → Dev
  | 0, d => d
  | n + 1, d =>
    let o := d.qOwner q
    if d.onDie q ≤ d.spillOn o then d
    else
      let x := d.splitHead q
      match x.t with
      | [] => d
      | p :: _ =>
        if p.big || (x.h.drop 1).any Pkt.big then d
        else if d.spillPossible o = false then d.spillBlocked
        else
          let full := match x.opened with
            | some l => decide (16384 < pageBytes (l ++ [p]))
            | none => false
          match if full then d.writePage q else some (d.setQ q x) with
          | none => d.spillBlocked
          | some e =>
            let r := e.openPage q
            if r.2 then Dev.spillLoop q n (r.1.moveToPage q) else r.1.spillBlocked

/-- A spill step of queue `q`; a step that moved nothing leaves T with H where M and the open page are empty. -/
def Dev.spillStep (d : Dev) (q : Nat) : Dev :=
  let e := Dev.spillLoop q (d.qst q).all.length d
  e.setQ q (e.qst q).settle

/-- SPILL_STEP of a queue. -/
def execSpillStep (q : Fin 66560) (s : State) : Res := run (.spillStep q) s fun d => d.spillStep q

/-! ### Prefetch and landing -/

/-- A queue waits for a page that is still to land (R347). -/
def Dev.headWait (d : Dev) (q : Nat) : Dev :=
  let x := d.qst q
  match x.h, x.m with
  | [], p :: _ => if p.at_ = .stored then d else d.flag F.BUF_STAT_HEADWAIT
  | _, _ => d

/-- Replace the page with slot `slot` of a queue's M. -/
def QSt.setPage (x : QSt) (slot : Nat) (f : Page → Page) : QSt :=
  { x with m := x.m.map fun p => if p.slot = slot then f p else p }

/-- Read page `p` of queue `q` into a landing buffer (R347): 64 requests of port SPILL_RD. One that its stack or unit has lost is lost
as it falls due, and nothing is read (R372, R377). -/
def Dev.readPage (d : Dev) (q : Nat) (p : Page) (b : Nat) : Dev :=
  let x := d.qst q
  if p.gone then d.setQ q (x.setPage p.slot fun g => { g with at_ := .back false, landing := b })
  else
    let d := d.setQ q (x.setPage p.slot fun g => { g with at_ := .inFlight, landing := b })
    foldUpTo 64 (fun k d => d.askRead
      { block := pageAddr p.slot / 256 + k, port := 1, at_ := d.clk.cyc, page := some (q, p.slot, k), issued := false, fwd := false,
        drop := false }) d

/-- Request the next page of queue `q` (R347): the open page moves to H unwritten when it is the front of M. -/
def Dev.prefetch (d : Dev) (q : Nat) : Dev :=
  let x := d.qst q
  let o := d.qOwner q
  if d.headKeep o ≤ d.chargedAll q x.h then d
  else match x.m, x.opened with
    | [], some l =>
      let d := if l.isEmpty then d.release1 x.openBuf else d.addRef x.openBuf (l.length - 1)
      let l := l.map fun p => { p with buf := x.openBuf }
      (d.setQ q { x with h := x.h ++ l, opened := none }.settle).bump F.BUF_CNT_COUNT 7
    | m, _ =>
      match m.find? fun p => p.at_ == .stored with
      | none => d
      | some p =>
        let r := d.takeSp
        match r.2 with
        | none => r.1.flag F.BUF_STAT_HEADWAIT
        | some b =>
          let d := (r.1.readPage q p b).bump F.BUF_CNT_COUNT 6
          if x.h.isEmpty && (m.head?.map (·.slot)) == some p.slot then d.headWait q else d

/-- PREFETCH of a queue. -/
def execPrefetch (q : Fin 66560) (s : State) : Res := run (.prefetch q) s fun d => d.prefetch q

/-- Checked pages at the front of M join H in order, or are lost with their packets (R347, R349). -/
def Dev.joinPages (q : Nat) : Nat → Dev → Dev
  | 0, d => d
  | n + 1, d =>
    let x := d.qst q
    match x.m with
    | [] => d
    | p :: r =>
      match p.at_ with
      | .checked true =>
        let d := if p.pkts.isEmpty then d.release1 p.landing else d.addRef p.landing (p.pkts.length - 1)
        let l := p.pkts.map fun k => { k with buf := p.landing }
        let d := d.setQ q { x with h := x.h ++ l, m := r }.settle
        Dev.joinPages q n (d.freePage (d.qOwner q) p.slot)
      | .checked false =>
        let d := (d.release1 p.landing).setQ q { x with m := r, out := x.out + p.pkts.length }.settle
        let d := d.freePage (d.qOwner q) p.slot
        let d := if p.pkts.isEmpty then d
          else (d.bump F.BUF_CNT_COUNT 3 0 p.pkts.length).flag F.BUF_STAT_SPILLLOST 0 0 false
        Dev.joinPages q n (p.pkts.foldl (fun e k => e.tracePkt k 3 (cntAt F.BUF_CNT_COUNT 3 0)) d)
      | _ => d

/-- A page that has returned is checked: its read, its header, and whether it was lost meanwhile (R349). -/
def Dev.pageLand (d : Dev) (q slot : Nat) (headerBad : Bool) : Dev :=
  let x := d.qst q
  match x.m.find? fun p => p.slot == slot with
  | none => d
  | some p =>
    match p.at_ with
    | .back ok =>
      let hdr := if headerBad then p.hdr.modify 0 (· ^^^ 1) else p.hdr
      let d := d.setQ q (x.setPage slot fun g => { g with at_ := .checked (ok && pageHeaderOk q p.seq hdr && !p.gone) })
      Dev.joinPages q (x.m.length) d
    | _ => d

/-- PAGE_LAND: the page in spill page `slot` of queue `q`; `headerBad` says that its header reads otherwise than it was written. -/
def execPageLand (q : Fin 66560) (slot : Fin 3670016) (headerBad : Bool) (s : State) : Res :=
  run (.pageLand q slot headerBad) s fun d => d.pageLand q slot headerBad

/-! ### The owner tables (R357, R358) -/

/-- An owner's state record. -/
def Dev.ownerState (d : Dev) (o : Nat) : Nat :=
  ofLE (toLE (d.usedBy o 0) 4 ++ toLE (d.usedBy o 1) 4 ++ toLE (d.usedBy o 2) 4 ++ toLE (d.usedBy o 3) 4 ++
    toLE (d.usedKib o) 4 ++ toLE (Tbl.get 0 d.buf.pages o) 4 ++ toLE (Tbl.get 0 d.buf.drops o) 5)

/-- A refused access of the owner port. -/
def Dev.bufRefuse (d : Dev) : Dev := (d.flag F.BUF_STAT_REFUSED).flag F.BUF_IND_CTL_REFUSED 0 0 false

/-- Would the reserves fit their pools with owner `o` holding record `r` (R344)? -/
def Dev.reservesFit (d : Dev) (o r : Nat) : Bool :=
  (List.range 4).all fun j =>
    decide ((List.range 513).foldl (fun a k => a + (if k = o then recBytes r (4 * j) 4 else d.reserve k j)) 0 ≤ d.poolCount j)

/-- Write an owner's configuration, with its mirror. -/
def Dev.setOwner (d : Dev) (o r : Nat) : Dev :=
  { d with buf := { d.buf with ocfg := Tbl.set d.buf.ocfg o r } }.mirror 0x0B000000 64 o 0 32 r

/-- An access of the owner port: nothing while BUSY is 1. -/
def Dev.bufAccess (d : Dev) (index table : Nat) (write : Bool) : Dev :=
  if d.on F.BUF_IND_CTL_BUSY then d
  else
    let d := ((d.set F.BUF_IND_CTL_INDEX index).set F.BUF_IND_CTL_TABLE table).set F.BUF_IND_CTL_WRITE (b2n write)
    if write then
      let r := d.readData F.BUF_IND_DATA_DATA 4
      if table ≠ 0 ∨ 512 < index ∨ recBytes r 28 4 ≠ 0 ∨ d.reservesFit index r = false then d.bufRefuse
      else d.setOwner index r
    else if 2 ≤ table ∨ 512 < index then d.bufRefuse
    else d.showData F.BUF_IND_DATA_DATA 4 (if table = 0 then d.ocfg index else d.ownerState index)

/-- BUF_IND_CTL GO with WRITE 0. -/
def execBufIndRead (table : Fin 4) (index : Fin 1024) (s : State) : Res :=
  run (.bufIndRead table index) s fun d => d.hostW fun d => d.bufAccess index table false

/-- BUF_IND_CTL GO with WRITE 1. -/
def execBufIndWrite (table : Fin 4) (index : Fin 1024) (s : State) : Res :=
  run (.bufIndWrite table index) s fun d => d.hostW fun d => d.bufAccess index table true

end Sys2Proof.Machine
end

