-- ==== Sys2Proof/Machine/MemCtl.lean ====
section
/-!
DEFINITION. The stacked memory controller (R363 to R388): completions, refresh, temperature, retirement and
migration.
-/

namespace Sys2Proof.Machine

/-! ### Units (R375 to R377) -/

/-- Is a unit its channel's spare, used or not? -/
def Dev.unitSpare (d : Dev) (u : MUnit) : Bool :=
  d.useB F.MEM_CFG_SPARE_EN && d.get F.MEM_UNIT_SPARE u.s u.ch == u.psid

/-- Is a unit retired: under migration or waiting for it? -/
def Dev.unitRetired (d : Dev) (u : MUnit) : Bool := d.mem.mig == some u || d.mem.migWait.contains u

/-- Pages of the spill space that a group of one slice, stack and channel half holds (R360, R377). -/
def Dev.groupPages (d : Dev) (slice s half : Nat) : Nat :=
  if (List.range 8).any fun k => d.unitDead { s := s, ch := 8 * half + k, psid := d.psidOf s (8 * half + k) slice } then 0
  else if slice = 0 then 65536 else 131072

/-- The pages of the spill space. -/
def Dev.pagesTotal (d : Dev) : Nat :=
  let slices := if d.useB F.MEM_CFG_SPARE_EN then 3 else 4
  (List.range slices).foldl (fun a k =>
    (List.range 4).foldl (fun b s => b + d.groupPages k s 0 + d.groupPages k s 1) a) 0

/-- Show PAGES_TOTAL (R355). -/
def Dev.showPages (d : Dev) : Dev := d.set F.BUF_SPILLSTAT_PAGES_TOTAL d.pagesTotal

/-- Mark the pages of one queue that can no longer be read. -/
def Dev.markGone (p : Nat → Bool) (x : QSt) : QSt :=
  { x with m := x.m.map fun g => match g.at_ with
      | .checked _ => g
      | _ => if p g.slot then { g with gone := true } else g }

/-- Mark the pages that satisfy `p` as lost (R351, R377). -/
def Dev.losePages (d : Dev) (p : Nat → Bool) : Dev :=
  { d with tm := { d.tm with qst := d.tm.qst.map fun e => (e.1, Dev.markGone p e.2) } }

/-- Buffered writes to places that cannot be written any more are discarded, and waiting ones find the room (R372, R377). -/
def Dev.dropWrites (d : Dev) : Dev :=
  { d with mem := { d.mem with wbuf := d.mem.wbuf.filter fun w => d.memUsable (256 * w.block) } }.admitWrites

/-- A unit becomes dead (R377): it is not accessed again, and its pages are withdrawn. -/
def Dev.killUnit (d : Dev) (u : MUnit) : Dev :=
  if d.unitDead u then d
  else
    let d := d.set F.MEM_UNIT_DEAD (d.get F.MEM_UNIT_DEAD u.s u.ch ||| 2 ^ u.psid) u.s u.ch
    ((d.losePages fun n => !d.pageUsable n).flag F.MEM_STAT_DEAD).showPages.dropWrites

/-- Show the migration under way, none while its stack is out of use (R376), and which channels have one that runs or waits (R383,
R388). -/
def Dev.showMig (d : Dev) : Dev :=
  let d := d.set F.MEM_MIGSTAT_QUEUED d.mem.migWait.length
  let d := foldUpTo 64 (fun k e =>
    let on := (e.mem.mig.toList ++ e.mem.migWait).any fun u => u.s * 16 + u.ch == k
    if e.get F.MEM_UNIT_MIGRATING (k / 16) (k % 16) = b2n on then e
    else e.set F.MEM_UNIT_MIGRATING (b2n on) (k / 16) (k % 16)) d
  match d.mem.mig with
  | some u => (((d.set F.MEM_MIGSTAT_ACTIVE (b2n (d.stackUp u.s))).set F.MEM_MIGSTAT_STACK u.s).set F.MEM_MIGSTAT_CHANNEL u.ch).set
      F.MEM_MIGSTAT_PSID u.psid
  | none => d.set F.MEM_MIGSTAT_ACTIVE 0

/-- Start the next migration that waits. -/
def Dev.nextMig (d : Dev) : Dev :=
  match d.mem.migWait with
  | [] => { d with mem := { d.mem with mig := none } }.showMig
  | u :: r =>
    ({ d with mem := { d.mem with mig := some u, migWait := r, migAt := d.clk.cyc } }.set F.MEM_MIGSTAT_CURSOR 0).showMig

/-- Retire a unit (R375, R376): migrated to an unused spare, else dead; the spare itself takes the migration's
unit with it. -/
def Dev.retire (d : Dev) (u : MUnit) : Dev :=
  if d.unitDead u || d.unitRetired u then d
  else if d.unitSpare u then
    match d.mem.mig with
    | some m =>
      if m.s = u.s ∧ m.ch = u.ch then ((((d.flag F.MEM_STAT_RETIRED).killUnit u).killUnit m).nextMig) else d
    | none => d
  else
    let taken := !d.useB F.MEM_CFG_SPARE_EN || d.on F.MEM_UNIT_SPARE_USED u.s u.ch ||
      (d.mem.mig.toList ++ d.mem.migWait).any (fun m => m.s == u.s && m.ch == u.ch) ||
      d.unitDead { u with psid := d.get F.MEM_UNIT_SPARE u.s u.ch }
    if taken then (d.flag F.MEM_STAT_RETIRED).killUnit u
    else match d.mem.mig with
      | none =>
        ({ d.flag F.MEM_STAT_RETIRED with mem := { (d.flag F.MEM_STAT_RETIRED).mem with migWait := [u] } }).nextMig
      | some _ =>
        if 16 ≤ d.mem.migWait.length then d
        else
          let d := d.flag F.MEM_STAT_RETIRED
          { d with mem := { d.mem with migWait := d.mem.migWait ++ [u] } }.showMig

/-- A unit's access was uncorrectable (R375). -/
def Dev.unitUncorr (d : Dev) (u : MUnit) : Dev :=
  let d := d.flag F.MEM_STAT_UNCORR
  let v := d.get F.MEM_UNIT_UNCORR u.s u.ch
  let n := min 15 (bits v (4 * u.psid) 4 + 1)
  let d := d.set F.MEM_UNIT_UNCORR (setBits v (4 * u.psid) 4 n) u.s u.ch
  if d.use F.MEM_CFG_RETIRE_UNCORR ≤ n then d.retire u else d

/-- A request's replay and its uncorrectable end (R373): answers whether its data came. -/
def Dev.ended (d : Dev) (e : MemEnd) (u : MUnit) : Dev × Bool :=
  match e with
  | .good => (d, true)
  | .replayed => (d.flag F.MEM_STAT_REPLAY, true)
  | .replayFailed => ((d.flag F.MEM_STAT_REPLAY).unitUncorr u, false)
  | .eccFailed => (d.unitUncorr u, false)

/-- A request completed after its deadline (R366). -/
def Dev.late (d : Dev) (port ns : Nat) : Dev :=
  if d.use F.MEM_QOS_TARGET_NS port < ns then d.bump F.MEM_QOSCNT_LATE port else d

/-- A stack reports a parity failure of a command that is no access, and it is replayed (R373). -/
def Dev.replays (d : Dev) (n : Nat) : Dev := foldUpTo n (fun _ d => d.flag F.MEM_STAT_REPLAY) d

/-! ### Reads -/

/-- One 64-byte access of a CXL read: its data, and whether it is poisoned (R374). -/
def Dev.hostAccess (d : Dev) (access : Nat) (bad : Bool) : List Byte × Bool :=
  if bad || d.isPoison access then (List.replicate 64 255, true) else (Mem.readN d.obs (64 * access) 64, false)

/-- A CXL read of `n` accesses: the data goes to the host. -/
def Dev.hostRead (d : Dev) (access n : Nat) (badAt : Option Nat) : Dev :=
  let l := (List.range n).map fun k => d.hostAccess (access + k) (badAt == some k)
  let p := (List.filter (fun x : List Byte × Bool => x.2) l).length
  { d with mem := { d.mem with rdData := l.flatMap (fun x : List Byte × Bool => x.1), rdPoison := decide (0 < p) } }.memCount 17 p

/-- The data of a read return (R364, R366, R367, R373): by then its PC has issued it, `ns` after it came to its port; its tag is
free. Whether the data are good: a read of a dead unit or of a stack out of use is not, and one that the write buffer serves always
is. `a` is the access in which an error fell. -/
def Dev.finishRead (d : Dev) (r : RdReq) (e : MemEnd) (a ns : Nat) : Dev × Bool :=
  let d := d.reach (r.at_ + cdiv (3 * ns) 2)
  let pc := d.pcOf (256 * r.block)
  let here (x : RdReq) : Bool := x.block == r.block && x.port == r.port && x.at_ == r.at_ && x.page == r.page
  let d := if d.memUsable (256 * r.block) then
      Dev.issueUntil pc (fun d => d.mem.reads.any fun x => here x && x.issued) (d.slotsAhead pc) d
    else d
  let d := { d with mem := { d.mem with reads := d.mem.reads.eraseP here } }
  let d := ((d.setTags r.port (d.tagsOf r.port - 1)).memCount 0).late r.port ((d.clk.cyc - r.at_) * 2 / 3)
  let k := if r.fwd then (d, true)
    else if d.memUsable (256 * r.block) then d.ended e (d.servingUnit a)
    else (d, false)
  (k.1.serveReads, k.2)

/-- The reads of a page of queue `q` have all returned: the page is back, lost where one of them failed (R349). -/
def Dev.pageBack (d : Dev) (q slot : Nat) : Dev :=
  if (d.mem.reads ++ d.mem.rdWait).any fun r => r.isOf q slot && !r.drop then d
  else d.setQ q ((d.qst q).setPage slot fun g => if g.at_ = .inFlight then { g with at_ := .back (!g.gone) } else g)

/-- Request `k` of a page's read completes; data of a page that has been flushed meanwhile are discarded (R351). -/
def Dev.pageRead (d : Dev) (q slot k : Nat) (e : MemEnd) (ns : Nat) : Dev :=
  match d.mem.reads.find? fun r => r.page == some (q, slot, k) with
  | none => d
  | some r =>
    let f := d.finishRead r e (256 * r.block) ns
    if r.drop then f.1
    else
      let d := if f.2 then f.1 else f.1.setQ q ((f.1.qst q).setPage slot fun g => { g with gone := true })
      d.pageBack q slot

/-- A read that is made and completes in one step (log entry 202): none where it finds no tag, waits at its port and has counted in
TAG_WAITS (R364). -/
def Dev.readNow (d : Dev) (port block : Nat) (accs : List Nat) (e : MemEnd) (a ns : Nat) : Dev × Option Bool :=
  let r : RdReq := { block := block, port := port, at_ := d.clk.cyc, page := none, issued := false, fwd := false, drop := false }
  let mine (x : RdReq) : Bool := x.page.isNone && x.port == port && x.block == block
  if d.tagsFree port = 0 then
    (if d.mem.rdWait.any mine then d else { d with mem := { d.mem with rdWait := d.mem.rdWait ++ [r] } }.memCount 8, none)
  else
    let d := { d with mem := { d.mem with rdWait := d.mem.rdWait.eraseP mine } }.startRead r accs
    let f := d.finishRead ((d.mem.reads.getLast?).getD r) e a ns
    (f.1, some f.2)

/-- A read completes (R364, R373, R374): `blk` is the 256-byte request of a page, or the access, in which an error
fell, and `ns` the time since the request. -/
def Dev.readDone (d : Dev) (r : MemRead) (e : MemEnd) (blk ns : Nat) : Dev :=
  match r with
  | .spill q slot => d.pageRead q slot blk e ns
  | .cxl access n =>
    let i := access.val % 4
    let m := min (n.val + 1) (4 - i)
    if d.memUsable (64 * access) then
      let k := d.readNow 3 (access / 4) ((List.range m).map fun k => i + k) e (64 * (access + blk % m)) ns
      match k.2 with
      | none => k.1
      | some ok => k.1.hostRead access m (if ok then none else some (blk % m))
    else d.hostRead access m none
  | .ring n =>
    let a := sqAddr n (d.get F.HST_RINGSTAT_SQ_HEAD n.val)
    let k := d.readNow 3 (a / 256) [a / 64 % 4] e a ns
    match k.2 with
    | some false => { k.1 with mem := { k.1.mem with ringBad := Tbl.set k.1.mem.ringBad n.val true } }
    | _ => k.1

/-- MEM_READ_COMPLETE. -/
def execMemReadComplete (r : MemRead) (e : MemEnd) (blk : Fin 64) (ns : Fin (2 ^ 20)) (s : State) : Res :=
  run (.memReadComplete r e blk ns) s fun d => d.readDone r e blk ns

/-! ### Writes -/

/-- Access `i` of a discarded write (R374): what stood there before stands there again, under what a later write of the access has
put over it, and the access enters the poison list. -/
def Dev.undoAccess (block : Nat) (d : Dev) (o : Nat × List Byte) : Dev :=
  let later (w : WrEnt) : Bool := w.block == block && w.old.any fun x => x.1 == o.1
  let d := match d.mem.wbuf.findIdx? later with
    | some k =>
      let put (w : WrEnt) : WrEnt := { w with old := w.old.map fun (x : Nat × List Byte) => if x.1 = o.1 then o else x }
      { d with mem := { d.mem with wbuf := d.mem.wbuf.modify k put } }
    | none => { d with obs := Mem.writeN d.obs (256 * block + 64 * o.1) o.2 }
  d.poison (4 * block + o.1)

/-- The stack acknowledges the write that PC `pc` issued first (R365 to R367, R373, R374), `ns` after it came to its port. A discarded
write of a spill page loses the page too (log entry 23). -/
def Dev.writeAck (d : Dev) (pc : Nat) (e : MemEnd) (ns : Nat) : Dev :=
  let mine (w : WrEnt) : Bool := d.pcOf (256 * w.block) == pc
  let gone (w : WrEnt) : Bool := w.issued && mine w
  match d.mem.wbuf.find? mine with
  | none => d
  | some w =>
    let d := d.reach (w.at_ + cdiv (3 * ns) 2)
    let d := Dev.issueUntil pc (fun d => d.mem.wbuf.any gone) (d.slotsAhead pc) d
    match d.mem.wbuf.find? gone with
    | none => d
    | some w =>
      let a := 256 * w.block
      let d := { d with mem := { d.mem with wbuf := d.mem.wbuf.eraseP gone } }
      let d := (d.memCount 1).late w.port ((d.clk.cyc - w.at_) * 2 / 3)
      let k := d.ended e (d.servingUnit a)
      let d := if k.2 then k.1
        else
          let d := w.old.foldl (Dev.undoAccess w.block) k.1
          if 0x200000000 ≤ a then d.losePages fun n => n == (a - 0x200000000) / 16384 else d
      d.admitWrites

/-- MEM_WRITE_ACK. -/
def execMemWriteAck (e : WrAck) (s : State) : Res := run (.memWriteAck e) s fun d => d.writeAck e.pc e.end_ e.ns

/-- A page kept open closes (R368): its bank by number. -/
def execPageTimeout (bank : Fin 8192) (s : State) : Res :=
  run (.pageTimeout bank) s fun d =>
    match Tbl.find? d.mem.banks bank with
    | none => d
    | some b => { d with mem := { d.mem with banks := Tbl.set d.mem.banks bank { b with openRow := none } } }

/-! ### Refresh (R370, R371) -/

/-- A PC issues one refresh (R367): an urgent one, or another where no request of urgency 2 or 3 waits; its command may be replayed
once (R373). -/
def Dev.refreshIdle (pc : Nat) (d : Dev) (replayed : Bool) : Dev :=
  if d.owed pc = 0 ∨ (d.refUrgent pc = false ∧ (d.queued pc).any (fun x => decide (2 ≤ x.urg)) = true) then d
  else (Dev.refreshOne pc d).replays (b2n replayed)

/-- An interval of a PC passes: the refreshes it issued meanwhile, at least one when one was urgent, and then one
more owed. -/
def Dev.refreshInterval (d : Dev) (pc : Nat) (issued : List Bool) : Dev :=
  if d.stackUp (pc / 32) then
    let l := if issued.isEmpty && d.refUrgent pc then [false] else issued
    let d := l.foldl (Dev.refreshIdle pc) d
    ({ d with mem := { d.mem with owed := Tbl.set d.mem.owed pc (d.owed pc + 1) } }).showOwed (pc / 32)
  else d

/-- REFRESH_INTERVAL of pseudo-channel `pc` (32 × stack + 2 × channel + PC), with the refreshes for which there was an idle slot, and
whether the command of each was replayed. -/
def execRefreshInterval (pc : Fin 128) (issued : List Bool) (s : State) : Res :=
  run (.refreshInterval pc issued) s fun d => d.refreshInterval pc issued

/-! ### Temperature (R369, R371, R372) -/

/-- The rate after a reading: 0 for 1×, 1 for 2×, 2 for 4× (R369). -/
def rateFor (rate : Nat) (t : Int) : Nat :=
  match rate with
  | 0 => if 95 ≤ t then 2 else if 85 ≤ t then 1 else 0
  | 1 => if 95 ≤ t then 2 else if t < 83 then 0 else 1
  | _ => if t < 83 then 0 else if t < 93 then 1 else 2

/-- The reads of stack `s` that are queued or in flight complete uncorrectable (R372): their tags are free, and their pages are
lost. -/
def Dev.endReads (d : Dev) (s : Nat) : Dev :=
  let there (r : RdReq) : Bool := (d.place (256 * r.block)).stack == s
  let l := (d.mem.reads ++ d.mem.rdWait).filter there
  let n := (d.mem.reads.filter there).length
  let d := { d with mem := { d.mem with
      reads := d.mem.reads.filter fun r => !there r, rdWait := d.mem.rdWait.filter fun r => !there r } }
  let d := (d.setTags 1 (d.tagsOf 1 - n)).memCount 0 n
  let d := l.foldl (fun d r => match r.page with
    | some (q, slot, _) => if r.drop then d else d.pageBack q slot
    | none => d) d
  d.serveReads

/-- Take a stack out of use (R372, R376): its contents are lost, and nothing more is issued to it. -/
def Dev.stackOut (d : Dev) (s : Nat) : Dev :=
  let gone (n : Nat) : Bool := d.pageStack n == s
  let keep := List.filter (fun e : Nat × BitVec 8 => (d.place e.1).stack != s) d.obs
  let owed := foldUpTo 32 (fun k t => Tbl.erase t (32 * s + k)) d.mem.owed
  let catchUp := foldUpTo 32 (fun k t => Tbl.erase t (32 * s + k)) d.mem.catchUp
  let d := (d.losePages gone).endReads s
  let d := { d with
    obs := keep
    mem := { d.mem with owed := owed, catchUp := catchUp, coolSince := Tbl.erase d.mem.coolSince s } }
  let d := match d.mem.mig with
    | some u => if u.s = s then d.set F.MEM_MIGSTAT_CURSOR 0 else d
    | none => d
  let d := ((d.set F.MEM_STACK_STATE 3 s).showOwed s).dropWrites.showMig
  ((d.flag F.MEM_STAT_HOT).alert 5).alertActive 5 true

/-- A new rate (R371). -/
def Dev.setRate (d : Dev) (s r : Nat) : Dev :=
  let old := d.get F.MEM_STACK_RATE s
  if r = old then d
  else
    let d := foldUpTo 32 (fun k e =>
      let pc := 32 * s + k
      let n := cdiv (e.owed pc * 2 ^ r) (2 ^ old)
      let e := { e with mem := { e.mem with owed := Tbl.set e.mem.owed pc n } }
      if old < r ∧ 0 < n then { e with mem := { e.mem with catchUp := Tbl.set e.mem.catchUp pc true } }
      else { e with mem := { e.mem with catchUp := Tbl.erase e.mem.catchUp pc } }) d
    ((d.set F.MEM_STACK_RATE r s).memCount 7).showOwed s

/-- A stack that has been cool for a second is re-initialised, RETURNING, and its share of the observation region zeroed (R372). -/
def Dev.stackBegin (d : Dev) (s : Nat) : Dev :=
  { d with mem := { d.mem with coolSince := Tbl.set d.mem.coolSince s d.clk.cyc } }.set F.MEM_STACK_STATE 4 s

/-- A reading of a stack (R369, R371, R372, R379): 8 bits, two's complement. One that is RETURNING and reads above 105 °C is out of use
again (log entry 204). -/
def Dev.tempSample (d : Dev) (s raw : Nat) : Dev :=
  let t := sgn 8 raw
  let d := d.set F.MEM_STACK_TEMP raw s
  match d.get F.MEM_STACK_STATE s with
  | 1 => if 105 < t then d.stackOut s else d.setRate s (rateFor (d.get F.MEM_STACK_RATE s) t)
  | 2 =>
    if 105 < t ∧ !d.mem.hotInVigil.contains s then { d with mem := { d.mem with hotInVigil := d.mem.hotInVigil ++ [s] } }
    else d
  | 3 =>
    if t ≤ 100 then
      (match Tbl.find? d.mem.coolSince s with
       | some c => if c + 1500000000 ≤ d.clk.cyc then d.stackBegin s else d
       | none => { d with mem := { d.mem with coolSince := Tbl.set d.mem.coolSince s d.clk.cyc } })
    else { d with mem := { d.mem with coolSince := Tbl.erase d.mem.coolSince s } }
  | 4 => if 105 < t then d.stackOut s else d
  | _ => d

/-- STACK_TEMP_SAMPLE. -/
def execStackTempSample (st : Fin 4) (raw : Fin 256) (s : State) : Res :=
  run (.stackTempSample st raw) s fun d => d.tempSample st raw

/-- A stack returns to use (R372): a second after its readings fell to 100 °C it is re-initialised, which takes 2.6 ms (log entry
204). Its share of the observation region is zero, and its rate the one its last reading calls for. -/
def Dev.stackReturn (d : Dev) (s : Nat) : Dev :=
  let d := match d.get F.MEM_STACK_STATE s, Tbl.find? d.mem.coolSince s with
    | 3, some c => (d.reach (c + 1500000000)).stackBegin s
    | _, _ => d
  match d.get F.MEM_STACK_STATE s, Tbl.find? d.mem.coolSince s with
  | 4, some c =>
    let d := d.reach (c + 3900000)
    let p := d.mem.poison.filter fun x => (d.place (64 * x)).stack != s
    let d := { d with mem := { d.mem with poison := p, coolSince := Tbl.erase d.mem.coolSince s, migAt := d.clk.cyc } }
    ((d.set F.MEM_STACK_STATE 1 s).set F.MEM_STACK_RATE (rateFor 0 (sgn 8 (d.get F.MEM_STACK_TEMP s))) s).showMig
  | _, _ => d

/-- STACK_RETURN. -/
def execStackReturn (st : Fin 4) (s : State) : Res := run (.stackReturn st) s fun d => d.stackReturn st

/-! ### Retirement and migration (R375, R376, R384) -/

/-- A write of MEM_RETIRE with GO at 1. -/
def Dev.retireCmd (d : Dev) (u : MUnit) : Dev :=
  let refused := d.unitSpare u || d.unitDead u || d.unitRetired u || !d.stackUp u.s || decide (16 ≤ d.mem.migWait.length)
  if refused then (d.flag F.MEM_STAT_REFUSED).flag F.MEM_RETIRE_REFUSED 0 0 false
  else
    (((d.set F.MEM_RETIRE_STACK u.s).set F.MEM_RETIRE_CHANNEL u.ch).set F.MEM_RETIRE_PSID u.psid).retire u

/-- MEM_RETIRE GO. -/
def execUnitRetire (stack : Fin 4) (ch : Fin 16) (psid : Fin 4) (s : State) : Res :=
  run (.unitRetire stack ch psid) s fun d => d.hostW fun d => d.retireCmd { s := stack.val, ch := ch.val, psid := psid.val }

/-- The logical SID a unit serves. -/
def Dev.logicalOf (d : Dev) (u : MUnit) : Nat := ((List.range 4).find? fun k => d.psidOf u.s u.ch k == u.psid).getD 0

/-- The migration ends: the unit and the spare change places in MEM_UNIT (R375). -/
def Dev.swapUnit (d : Dev) (u : MUnit) : Dev :=
  let k := d.logicalOf u
  let sp := d.get F.MEM_UNIT_SPARE u.s u.ch
  let d := d.set F.MEM_UNIT_MAP (setBits (d.get F.MEM_UNIT_MAP u.s u.ch) (2 * k) 2 sp) u.s u.ch
  (d.set F.MEM_UNIT_SPARE u.psid u.s u.ch).set F.MEM_UNIT_SPARE_USED 1 u.s u.ch

/-- The usable address of block `k` of the unit that serves a slice in a channel of a stack: the inverse of the map (R361, R362). -/
def Dev.blockAddr (d : Dev) (slice s ch k : Nat) : Nat :=
  let row := k / 128 * 2 ^ 21
  let pc := bits k 2 1
  let want := pc + ch * 2 + s * 32 + bits k 3 4 * 128
  let off := (List.range 11).foldl (fun a n =>
    let m := popcount (d.use F.MEM_MAP_MASK n &&& row) 34 % 2
    a + (bits want n 1 + m) % 2 * 2 ^ (10 + n)) row
  slice * 2 ^ 34 + off + bits k 0 2 * 256

/-- The engine copies the block at the cursor, no sooner than MIGRATE_SHARE of its channel's bandwidth allows after the block before:
512 bytes at 51.2 GB/s (R375). The read and the write are requests of port 5. A read that is uncorrectable is written as read, and its
access `acc` of the block enters the poison list; a write that is uncorrectable is discarded, and its four accesses enter it (R374). A
retirement that an end brings about may stop the migration (R376). -/
def Dev.migStep (d : Dev) (e : MigEnds) (acc : Nat) : Dev :=
  match d.mem.mig with
  | none => d
  | some u =>
    if d.stackUp u.s = false ∨ 1024 ≤ d.mem.wbuf.length then d
    else
      let d := d.reach (d.mem.migAt + cdiv 1500 (d.use F.MEM_CFG_MIGRATE_SHARE))
      let c := d.get F.MEM_MIGSTAT_CURSOR
      let a := d.blockAddr (d.logicalOf u) u.s u.ch c
      let r := d.readNow 5 (a / 256) [0, 1, 2, 3] e.rd a e.rdNs
      match r.2 with
      | none => r.1
      | some ok =>
        let d := if ok then r.1 else r.1.poison (a / 64 + acc)
        if d.mem.mig ≠ some u then d
        else
          let sp : MUnit := { u with psid := d.get F.MEM_UNIT_SPARE u.s u.ch }
          let at_ := d.clk.cyc
          let d := d.reach (at_ + cdiv (3 * e.wrNs) 2)
          let n := d.bankNo a / 64 * 64 + sp.psid * 16 + (d.place a).bank
          let d := ((d.touchBank n (d.place a).row []).memCount 1).late 5 e.wrNs
          let w := d.ended e.wr sp
          let d := if w.2 then w.1 else foldUpTo 4 (fun i d => d.poison (a / 64 + i)) w.1
          if d.mem.mig ≠ some u then d
          else
            let d := { d with mem := { d.mem with migAt := d.clk.cyc } }
            let d := (d.set F.MEM_MIGSTAT_CURSOR (c + 1)).memCount 13
            if c + 1 = 1048576 then (d.swapUnit u).nextMig else d

/-- MIGRATION_STEP: `acc` is the access of the block in which an error of its read fell. -/
def execMigrationStep (e : MigEnds) (access : Fin 4) (s : State) : Res :=
  run (.migrationStep e access) s fun d => d.migStep e access

end Sys2Proof.Machine
end

