-- ==== Sys2Proof/Machine/Time.lean ====
section
/-!
DEFINITION. The time block (R435 to R461): the servo, steps of the clock, PTP, triggers, PPS and captures.
-/

namespace Sys2Proof.Machine

/-! ### Shared operations -/

/-- The present frequency offset in ppb (R455). -/
def Dev.freqPpb (d : Dev) : Int := sgn 32 (d.get F.TIM_FREQ_OFFSET_PPB)

/-- The addend of a frequency offset: nominal × (1 + ppb / 10^9), rounded down (R435, R439; log entry 15). -/
def addendOf (ppb : Int) : Nat := (2863311531 + 2863311531 * ppb / 1000000000).toNat

/-- Clamp an integer. -/
def clampI (lo hi x : Int) : Int := max lo (min hi x)

/-- Set the clock to an instant given in 2^−16 ns of local time (R441: a step). A preset's age is a number of frames, which no step
changes (R272). -/
def Dev.setClock (d : Dev) (t : Nat) : Dev :=
  let ns := t / 65536
  let c : Clk := { d.clk with sec := ns / 1000000000 % 2 ^ 48, ns := ns % 1000000000, frac := t % 65536 * 65536 }
  let e := { d with clk := c }
  let old := d.frameNow
  let age (p : Preset) : Preset := { p with since := (e.frameNow + 2 ^ 48 - (old + 2 ^ 48 - p.since) % 2 ^ 48) % 2 ^ 48 }
  { e with lanes := { e.lanes with presets := e.lanes.presets.map fun x => (x.1, age x.2) } }

/-- May the clock be stepped now? Not while a channel frames in head role nor in STANDBY (R441). -/
def Dev.mayStep (d : Dev) : Bool := !d.anyFraming && d.mode != 3

/-- A step of the clock to `t` in 2^−16 ns, or its refusal (R441). A PERIODIC trigger goes on from the stepped time. -/
def Dev.step (d : Dev) (t : Nat) : Dev :=
  if d.mayStep then
    let d := (d.setClock t).bump F.TIM_CNT_COUNT 9
    { d with tim := { d.tim with trigs := d.tim.trigs.map fun x => (x.1, { x.2 with after := 0 }) } }
  else d.flag F.TIM_STAT_STEPREF

/-- Enter HOLDOVER: the addend holds, LOST is set (R440, R456). -/
def Dev.holdover (d : Dev) : Dev :=
  ({ d with tim := { d.tim with run := 0, sample := none } }.set F.TIM_STAT_STATE 3).flag F.TIM_STAT_LOST

/-- The servo has a source: the partner in STANDBY, otherwise what SRC names (R438). -/
def Dev.hasSource (d : Dev) : Bool := d.mode == 3 || d.use F.TIM_CFG_SRC != 0

/-- Does an external frequency input replace the servo's own offset (R438, R444)? -/
def Dev.freqInput (d : Dev) : Bool :=
  d.mode != 3 && ((d.use F.TIM_CFG_SRC == 1 && d.useB F.TIM_CFG_SYNCE_EN) ||
    (d.use F.TIM_CFG_SRC == 2 && (d.useB F.TIM_CFG_CLK10_EN || d.useB F.TIM_CFG_SYNCE_EN)))

/-- The new frequency offset after a phase sample, inside both limits of R439. The gains are not published: a
free value (log entry 10). -/
def Dev.nextFreq (d : Dev) (phaseNs base : Int) : Int :=
  let old := d.freqPpb
  let raw := Config.servoStep phaseNs (d.use F.TIM_SERVO_BW_MHZ) base
  let slew : Int := d.use F.TIM_SERVO_SLEW_PPB_S * (d.clk.cyc - d.tim.lastAt) / 1500000000
  let lim : Int := d.use F.TIM_SERVO_FREQ_MAX_PPB
  clampI (-lim) lim (clampI (old - slew) (old + slew) raw)

/-- The servo takes a phase sample `p` in 2^−16 ns (R439 to R441); `freq` is the offset measured on the frequency
input, where one is selected. A step at the first sample leaves no phase error (DEDUCED, log entry 206). -/
def Dev.servo (d : Dev) (p freq : Int) : Dev :=
  let ns := p / 65536
  let first := !d.tim.sampled && d.useB F.TIM_CFG_STEP_FIRST
  let rest := if first && d.mayStep then 0 else ns
  let d := if d.get F.TIM_STAT_STATE = 1 then d
    else if d.get F.TIM_STAT_STATE = 2 then d
    else { d with tim := { d.tim with run := 0 } }.set F.TIM_STAT_STATE 1
  let d := if first then
      let d := { d with tim := { d.tim with sampled := true } }
      d.step ((d.now16 : Int) - p).toNat
    else d
  if d.get F.TIM_STAT_STATE ≠ 1 ∧ (d.use F.TIM_SERVO_OUTLIER_NS : Int) * 4 < |ns - d.tim.filt| then
    d.flag F.TIM_STAT_OUTLIER
  else
    let d := if (d.use F.TIM_LIMITS_PHASE_ALARM_NS : Int) < |ns| then d.flag F.TIM_STAT_BIGOFF else d
    let f := d.nextFreq rest (if d.freqInput then freq else d.freqPpb)
    let run : Nat := if |rest| < (d.use F.TIM_SERVO_LOCK_NS : Int) then d.tim.run + 1 else 0
    let filt := Config.servoFilter d.tim.filt rest
    let d : Dev := { d with
      clk := { d.clk with addend := addendOf f },
      tim := { d.tim with sampled := true, run := run, lastAt := d.clk.cyc, filt := filt } }
    let d := (d.set F.TIM_FREQ_OFFSET_PPB (unsgn 32 f)).set F.TIM_FREQ_PHASE_NS (unsgn 32 ns)
    if d.get F.TIM_STAT_STATE = 1 ∧ 16 ≤ run then d.set F.TIM_STAT_STATE 2 else d

/-! ### Rows -/

/-- SERVO_SAMPLE (R439): the servo takes the phase sample that waits. `freqPpb` is the offset measured on the
selected frequency input. With no source, or no sample, nothing changes. -/
def execServoSample (freqPpb : Int) (s : State) : Res := run (.servoSample freqPpb) s fun d =>
  match d.tim.sample with
  | none => d
  | some p =>
    let d := { d with tim := { d.tim with sample := none, heardAt := d.clk.cyc } }
    if d.hasSource then d.servo p freqPpb else d

/-- The nominal interval of the source's samples in fabric cycles (R438, R448, R457): Sync messages, seconds, or frames. -/
def Dev.sampleCycles (d : Dev) : Nat :=
  if d.mode = 3 then 187500
  else match d.use F.TIM_CFG_SRC with
    | 1 => 1500000000 / 2 ^ d.use F.TIM_PTPCFG_SYNC_LOG
    | 2 => 1500000000
    | _ => 187500

/-- SOURCE_LOSS (R440): no sample in three nominal intervals since the last, to which the clock runs; a servo that is acquiring or
locked enters HOLDOVER. -/
def execSourceLoss (s : State) : Res := run .sourceLoss s fun d =>
  if d.get F.TIM_STAT_STATE = 1 ∨ d.get F.TIM_STAT_STATE = 2 then (d.reach (d.tim.heardAt + 3 * d.sampleCycles)).holdover else d

/-- The source is the tree, and no member or terminal that could give samples operates (R446, R447). -/
def Dev.treeDown (d : Dev) : Bool :=
  d.use F.TIM_CFG_SRC == 3 &&
    ((d.mode == 1 && !d.on F.GLB_CASSTAT_TIME_VALID) || (d.mode == 2 && d.get F.TCH_EMUSTAT_STATE (d.use F.TIM_CFG_TREE_CH) 0 != 4))

/-- A source is selected (R440): the servo acquires it, or is in HOLDOVER where the tree gives no samples (R446, R447). -/
def Dev.acquire (d : Dev) : Dev :=
  let d := { d with tim := { d.tim with run := 0, heardAt := d.clk.cyc } }.set F.TIM_STAT_STATE 1
  if d.treeDown then d.holdover else d

/-- The effect of a GO in TIM_SET_NS (R441, R454): arm the step for the next PPS_IN edge, or step now. -/
def Dev.goStep (d : Dev) : Dev :=
  if d.on F.TIM_SET_NS_AT_PPS then d.set F.TIM_SET_NS_GO 1
  else (d.step ((d.get F.TIM_SET_SEC_SEC * 1000000000 + d.get F.TIM_SET_NS_NS) * 65536)).set F.TIM_SET_NS_GO 0

/-- CLOCK_STEP (R441): a write of TIM_SET_NS with GO, with its NS and AT_PPS. -/
def execClockStep (ns : Fin (2 ^ 30)) (atPps : Bool) (s : State) : Res := run (.clockStep ns atPps) s fun d => d.hostW fun d =>
  ((d.set F.TIM_SET_NS_NS ns).set F.TIM_SET_NS_AT_PPS (b2n atPps)).goStep

/-- PPS_IN_EDGE (R438, R441): an armed step applies, with NS taken as 0; otherwise, under SRC 2, the edge gives
the distance of local time from the nearest whole second as a phase sample. -/
def execPpsInEdge (s : State) : Res := run .ppsInEdge s fun d =>
  if d.on F.TIM_SET_NS_GO && d.on F.TIM_SET_NS_AT_PPS then
    (d.step (d.get F.TIM_SET_SEC_SEC * 1000000000 * 65536)).set F.TIM_SET_NS_GO 0
  else if d.use F.TIM_CFG_SRC = 2 ∧ d.mode ≠ 3 then
    let x : Int := d.clk.ns * 65536 + d.clk.frac / 65536
    let x := if x ≤ 500000000 * 65536 then x else x - 1000000000 * 65536
    { d with tim := { d.tim with sample := some x } }
  else d

/-- A trigger's state. -/
def Dev.trig (d : Dev) (k : Nat) : Trig := Tbl.get { pulses := [], due := 0, plan := [], after := 0, spent := false } d.tim.trigs k

/-- Replace a trigger's state. -/
def Dev.setTrig (d : Dev) (k : Nat) (t : Trig) : Dev := { d with tim := { d.tim with trigs := Tbl.set d.tim.trigs k t } }

/-- Is TRIG[k] high (R450: held through overlapping pulses; low in VIGIL, R612)? -/
def Dev.trigPin (d : Dev) (k : Nat) : Bool := !(d.trig k).pulses.isEmpty && d.mode != 4

/-- A trigger's START in nanoseconds of local time. -/
def Dev.trigStart (d : Dev) (k : Nat) : Nat :=
  d.use F.TIM_TRIG_START_SEC k * 1000000000 + d.use F.TIM_TRIG_TIME_START_NS k

/-- The width of trigger `k`'s pulse in units of 125 ps: nanoseconds, or blocks in BURST mode (R449). A block
lasts 125,000 / 223,232 ns (R51). -/
def Dev.trigWidth (d : Dev) (k : Nat) : Nat :=
  let w := d.use F.TIM_TRIG_WIDTH_WIDTH k
  if d.use F.TIM_TRIG_CTL_MODE k = 4 then w * 1000000 / 223232 else w * 8

/-- Assert TRIG[k] at `at8`, in units of 125 ps: a pulse, its count and, with EVT, its event (R449, R450). -/
def Dev.assertTrig (d : Dev) (k : Nat) (t : Trig) (at8 : Nat) : Dev :=
  let d := d.setTrig k { t with pulses := t.pulses ++ [at8 + d.trigWidth k] }
  let d := d.bump F.TIM_TRIG_STAT_PULSES k
  if d.useB F.TIM_TRIG_CTL_EVT k then d.event (F.TIM_TRIG_CTL_EVT.addr + k * F.TIM_TRIG_CTL_EVT.s1) 0x000C k k else d

/-- ENABLE of trigger `k` has become 1 (R450): it counts and plans anew, and a ONE_SHOT whose START has passed sets MISSED. -/
def Dev.armTrig (d : Dev) (k : Nat) : Dev :=
  let late := d.use F.TIM_TRIG_CTL_MODE k == 1 && decide (d.trigStart k < d.nowNs)
  let d := d.setTrig k { d.trig k with due := 0, plan := [], after := 0, spent := late }
  if late then d.flag F.TIM_STAT_MISSED else d

/-- What has been written to trigger `k`'s registers while a pulse was in progress takes effect (R450). -/
def Dev.releaseTrig (d : Dev) (k : Nat) : Dev :=
  let was := d.use F.TIM_TRIG_CTL_ENABLE k
  let d := [RegOf.TIM_TRIG_CTL, RegOf.TIM_TRIG_START, RegOf.TIM_TRIG_TIME, RegOf.TIM_TRIG_WIDTH].foldl (fun d r => d.release r k 0) d
  if was = 0 ∧ d.useB F.TIM_TRIG_CTL_ENABLE k then d.armTrig k else d

/-- TRIGGER_END (R449): WIDTH after the assertion the oldest pulse ends; when none is left the pin falls and a
write to the trigger's registers that waited takes effect (R450). -/
def execTriggerEnd (k : Fin 16) (s : State) : Res := run (.triggerEnd k) s fun d =>
  let t := d.trig k
  match t.pulses with
  | [] => d
  | e :: r =>
    let d := (d.runTo (cdiv e 8)).setTrig k { t with pulses := r }
    if r.isEmpty then d.releaseTrig k else d

/-- A trigger's OFFSET in units of 125 ps (R449): nanoseconds in FRAME, blocks in BURST. -/
def Dev.trigOffset (d : Dev) (k : Nat) : Int :=
  let o := d.useS F.TIM_TRIG_CTL_OFFSET k
  if d.use F.TIM_TRIG_CTL_MODE k = 4 then o * 1000000 / 223232 else o * 8

/-- An occurrence, at `at_` in units of 125 ps, that a FRAME or BURST trigger counts: `want` says of which triggers. Every EVERY-th
plans an assertion OFFSET later; with a negative OFFSET the assertion lies before it (`Dev.trigAhead`). -/
def Dev.trigOccur (d : Dev) (at_ : Int) (want : Nat → Bool) : Dev :=
  foldUpTo 16 (fun k e =>
    if want k && e.useB F.TIM_TRIG_CTL_ENABLE k then
      let t := e.trig k
      let every : Int := e.use F.TIM_TRIG_CTL_EVERY k
      if t.due + 1 < every then e.setTrig k { t with due := t.due + 1 }
      else
        let o := e.trigOffset k
        e.setTrig k { t with due := t.due + 1 - every, plan := if o < 0 then t.plan else t.plan ++ [at_ + o] }
    else e) d

/-- A frame boundary passes (R449: FRAME mode). -/
def Dev.trigFrame (d : Dev) : Dev := d.trigOccur d.now8 fun k => d.use F.TIM_TRIG_CTL_MODE k == 3

/-- Is trigger `k` one of the bursts of (c, local) (R449: BURST mode)? -/
def Dev.trigOf (d : Dev) (c l k : Nat) : Bool :=
  d.use F.TIM_TRIG_CTL_MODE k == 4 && d.use F.TIM_TRIG_CTL_CH k == c && d.use F.TIM_TRIG_CTL_LOCAL k == l

/-- A scheduled burst of (c, local) has its instant, in 2^−16 ns: its expected delimiter, or the first preamble bit that the
terminal sends (R449: BURST mode). -/
def Dev.trigBurst (d : Dev) (c l : Nat) (at16 : Int) : Dev := d.trigOccur (at16 / 8192) (d.trigOf c l)

/-- PPS_OUT_PULSE (R451): PPS_OUT asserts at the next whole local second for PPS_WIDTH_MS. -/
def execPpsOutPulse (s : State) : Res := run .ppsOutPulse s fun d =>
  if d.useB F.TIM_CFG_PPS_OUT_EN && d.mode != 4 then
    let d := d.runTo (if d.clk.ns = 0 then d.nowNs else (d.clk.sec + 1) * 1000000000)
    { d with tim := { d.tim with ppsUntil := d.nowNs + d.use F.TIM_CFG_PPS_WIDTH_MS * 1000000 } }
  else d

/-- PPS_OUT is high. -/
def Dev.ppsPin (d : Dev) : Bool := decide (d.nowNs < d.tim.ppsUntil) && d.mode != 4

/-- CAP_EDGE (R452): a selected edge is stamped into the FIFO to 125 ps, dropped when the FIFO is full, or not
stamped within 8 ns of the previous stamped edge. -/
def execCapEdge (k : Fin 4) (rising : Bool) (s : State) : Res := run (.capEdge k rising) s fun d =>
  let sel := d.use F.TIM_CAPCTL_EDGE k
  let fifo := Tbl.get [] d.tim.caps k
  let near := match Tbl.find? d.tim.capLast k with
    | some t => decide (d.clk.cyc ≤ t + 12)
    | none => false
  if d.mode = 4 then d
  else if !(bit sel (if rising then 0 else 1)) then d
  else if near then d.bump F.TIM_CNT_COUNT 10
  else if 16 ≤ fifo.length then d.flag F.TIM_STAT_CAPOVF
  else
    let f := fifo ++ [{ sec := d.clk.sec, ns := d.clk.ns, frac := d.clk.frac / 2 ^ 29 * 8192 }]
    { d with tim := { d.tim with caps := Tbl.set d.tim.caps k f, capLast := Tbl.set d.tim.capLast k d.clk.cyc } }.set
      F.TIM_CAPSTAT_DEPTH f.length k

/-- A read of TIM_CAPNS[k] pops the oldest stamp into TIM_CAPNS[k] and TIM_CAPSEC[k]; EMPTY reads 1 when nothing
was popped (R452, R460). -/
def Dev.capPop (d : Dev) (k : Nat) : Dev :=
  match Tbl.get [] d.tim.caps k with
  | [] => d.set F.TIM_CAPNS_EMPTY 1 k
  | c :: r =>
    let d := { d with tim := { d.tim with caps := Tbl.set d.tim.caps k r } }
    ((((d.set F.TIM_CAPNS_EMPTY 0 k).set F.TIM_CAPNS_NS c.ns k).set F.TIM_CAPNS_FRAC c.frac k).set
      F.TIM_CAPSEC_SEC c.sec k).set F.TIM_CAPSTAT_DEPTH r.length k

/-- The host has read a register: what the read returned, with its poison mark. -/
def Dev.readOut (d : Dev) (v : Nat) (poison : Bool := false) : Dev :=
  { d with host := { d.host with readData := v, readPoison := poison } }

/-- CAPTURE_POP (R452): the read pops and returns TIM_CAPNS[k]. -/
def execCapturePop (k : Fin 4) (s : State) : Res := run (.capturePop k) s fun d => d.hostR fun d =>
  let d := d.capPop k
  d.readOut (d.getReg RegOf.TIM_CAPNS k 0)

/-- A read of TIM_NOW_NS (R437): the seconds are latched into TIM_NOW_SEC. -/
def Dev.nowRead (d : Dev) : Dev :=
  ((d.set F.TIM_NOW_NS_NS d.clk.ns).set F.TIM_NOW_NS_FRAC (d.clk.frac / 65536)).set F.TIM_NOW_SEC_SEC d.clk.sec

/-- NOW_READ (R437): returns the nanoseconds and fraction and latches the seconds. -/
def execNowRead (s : State) : Res := run .nowRead s fun d => d.hostR fun d =>
  let d := d.nowRead
  d.readOut (d.getReg RegOf.TIM_NOW_NS 0 0)

/-! ### Register writes -/

/-- A refused TIM write (R456). -/
def Dev.timRefuse (d : Dev) : Dev := d.flag F.TIM_STAT_REFUSED

/-- A write to TIM_CFG (R438, R440): SRC 4 and above are refused; SRC 0 frees the servo, another SRC selected
starts it acquiring. -/
def Dev.writeTimCfg (d : Dev) (v : Nat) : Dev :=
  let src := written F.TIM_CFG_SRC v
  let old := d.get F.TIM_CFG_SRC
  if 4 ≤ src then (d.rwlWrite RegOf.TIM_CFG 0 0).timRefuse
  else
    let d := d.store RegOf.TIM_CFG 0 0 v
    if d.mode = 3 ∨ src = old then d
    else if src = 0 then { d with tim := { d.tim with run := 0 } }.set F.TIM_STAT_STATE 0
    else d.acquire

/-- A write of TIM_PTPCFG: TRANSPORT 3 is refused (R457). -/
def Dev.writePtpCfg (d : Dev) (v : Nat) : Dev :=
  if written F.TIM_PTPCFG_TRANSPORT v = 3 then d.timRefuse else d.store RegOf.TIM_PTPCFG 0 0 v

/-- A write to a trigger's registers (R449, R450, R459): modes 5–7 and a WIDTH of PERIOD or more in PERIODIC are
refused; it takes effect when the pulse in progress ends; a ONE_SHOT enabled after its START sets MISSED. -/
def Dev.writeTrig (d : Dev) (r : Reg) (k v : Nat) : Dev :=
  let at_ (f : Fld) : Nat := if r.addr = f.addr then written f v else d.get f k
  let mode := at_ F.TIM_TRIG_CTL_MODE
  if 5 ≤ mode ∨ (mode = 2 ∧ at_ F.TIM_TRIG_TIME_PERIOD ≤ at_ F.TIM_TRIG_WIDTH_WIDTH) then d.timRefuse
  else
    let e := d.storeHeld r k 0 v
    if (d.trig k).pulses.isEmpty then e.releaseTrig k else e

end Sys2Proof.Machine
end

