-- ==== Sys2Proof/Machine/Mac.lean ====
section
/-!
DEFINITION. Uplink Ethernet ports (R390 to R409), and the way of a packet into its pipeline (R18 to R22, R526).
-/

namespace Sys2Proof.Machine

/-! ### Into a pipeline -/

/-- The die-to-die link that carries quad `q`'s traffic (R17): DL0 to DL3. -/
def quadLink (q : Nat) : Nat := if q < 32 then 2 + q / 16 else (q - 32) / 16

/-- A link direction with nothing on it. -/
def Link.idle : Link := { held := 0, waiting := [], again := [], discarding := false }

/-- A link or bus direction (R24, R25, R27): source `src`, direction `dir` (0 toward die C). -/
def Dev.link (d : Dev) (src dir : Nat) : Link := Tbl.get Link.idle d.fab.links (2 * src + dir)

/-- Replace a link direction's state. -/
def Dev.setLink (d : Dev) (src dir : Nat) (x : Link) : Dev :=
  { d with fab := { d.fab with links := Tbl.set d.fab.links (2 * src + dir) x } }

/-- Words that wait enter the replay buffer in order, where it has room (R24; none: no limit is stated): how many entered,
what still waits, and the packets now sent whole. -/
def fillWords : Option Nat → List Sending → Nat × List Sending × List InPkt
  | _, [] => (0, [], [])
  | room, x :: r =>
    let n := match room with
      | some k => min k x.words
      | none => x.words
    if n < x.words then (n, { x with words := x.words - n } :: r, [])
    else
      let t := fillWords (room.map (· - n)) r
      (n + t.1, t.2.1, x.pkt.toList ++ t.2.2)

/-- What waits at source `src` is sent as far as its replay buffer allows: 256 flits on a link (R24). What arrives while the
receiver discards will be resent (R25). Answers the packets that arrive. -/
def Link.fill (x : Link) (src : Nat) : Link × List InPkt :=
  let t := fillWords (if src < 4 then some (256 - x.held) else none) x.waiting
  let y := { x with held := x.held + t.1, waiting := t.2.1 }
  if x.discarding then ({ y with again := x.again ++ t.2.2 }, []) else (y, t.2.2)

/-- A packet waits at its quad's pipeline. -/
def Dev.inPipe (d : Dev) (p : InPkt) : Dev :=
  let k := d.pipeOf p.quad
  { d with fab := { d.fab with inq := Tbl.set d.fab.inq k (Tbl.get [] d.fab.inq k ++ [p]) } }

/-- Words of `n` bytes (R24): flits of 1,024 data bits, and bus beats of the same width (log entry 160). -/
def wordsOf (n : Nat) : Nat := cdiv (8 * n) 1024

/-- The bus or link that follows `src` on the way to a pipeline: an edge die's bus, its link, die C's bus (R17, R27). -/
def nextHop (src : Nat) : Option Nat := if src < 4 then some 4 else if src = 4 then none else some (src - 5)

/-- A packet enters bus or link `src` toward its pipeline; `n` bounds the hops. -/
def Dev.carry : Nat → Nat → InPkt → Dev → Dev
  | 0, _, p, d => d.inPipe p
  | n + 1, src, p, d =>
    let x := d.link src 0
    let r := Link.fill { x with waiting := x.waiting ++ [{ words := wordsOf p.bytes.length, pkt := some p }] } src
    r.2.foldl (fun d p =>
      match nextHop src with
      | none => d.inPipe p
      | some k => Dev.carry n k p d) (d.setLink src 0 r.1)

/-- Packets that have crossed `src` go on. -/
def Dev.goOn (d : Dev) (src : Nat) (l : List InPkt) : Dev :=
  l.foldl (fun d p =>
    match nextHop src with
    | none => d.inPipe p
    | some k => Dev.carry 2 k p d) d

/-- A packet leaves the edge die of its quad. -/
def Dev.leaveEdge (d : Dev) (p : InPkt) : Dev := Dev.carry 3 (5 + quadLink p.quad) p d

/-- The packets on one bus or link direction: those not yet sent whole, and those to be resent. -/
def Link.pkts (x : Link) : List InPkt := x.again ++ x.waiting.flatMap fun t => t.pkt.toList

/-- The packets of quad `q` that have left its edge die's ingress buffer and not reached its pipeline. -/
def Dev.onWay (d : Dev) (q : Nat) : List InPkt :=
  [5 + quadLink q, quadLink q, 4].flatMap fun k => (d.link k 0).pkts.filter fun p => p.quad == q

/-- Bytes of quad `q` that wait at the edge (R526). -/
def Dev.edgeBytes (d : Dev) (q : Nat) : Nat :=
  let l := Tbl.get [] d.fab.held q ++ d.onWay q ++ (Tbl.get [] d.fab.inq (d.pipeOf q)).filter (fun p => p.quad == q)
  l.foldl (fun a p => a + p.bytes.length) 0

/-- A received packet goes to its quad's pipeline (R18, R22): held at the edge while the quad drains (R21), dropped
where the quad's ingress buffer of 512 KiB is full (R526). -/
def Dev.toPipe (d : Dev) (p : InPkt) : Dev :=
  if 524288 < d.edgeBytes p.quad + p.bytes.length then (p.bufs.foldl Dev.release1 d).flag F.PWR_STAT_OVERFLOW
  else if d.on F.GLB_QUADMAP_DRAINING p.quad then
    { d with fab := { d.fab with held := Tbl.set d.fab.held p.quad (Tbl.get [] d.fab.held p.quad ++ [p]) } }
  else d.leaveEdge p

/-- Can a new transfer toward an edge die start on `src`? Replay goes before new words (R25), and a full replay buffer holds
them (R24). -/
def Link.isOpen (x : Link) (src : Nat) : Bool :=
  !x.discarding && x.waiting.isEmpty && (decide (4 ≤ src) || decide (x.held < 256))

/-- The buses and the link from die C to the edge die of link `l`. -/
def outHops (l : Nat) : List Nat := [4, l, 5 + l]

/-- Can a new transfer to the edge die of link `l` start? -/
def Dev.outOpen (d : Dev) (l : Nat) : Bool := (outHops l).all fun k => (d.link k 1).isOpen k

/-- `n` bytes are sent to the edge die of link `l`. -/
def Dev.sendOut (d : Dev) (l n : Nat) : Dev :=
  (outHops l).foldl (fun d k =>
    let x := d.link k 1
    d.setLink k 1 (Link.fill { x with waiting := x.waiting ++ [{ words := wordsOf n, pkt := none }] } k).1) d

/-- Is the outcome of a failed tag known at cycle `t` (R424)? -/
def lateKnown (t : Nat) (fails : Option (Nat × Nat)) : Bool := fails.any fun x => decide (x.1 ≤ t)

/-- A pipeline takes the packet at the front of what waits for it, and its load is measured (R525). -/
def Dev.pipeNext (d : Dev) (pipe : Nat) : Dev :=
  match Tbl.get [] d.fab.inq pipe with
  | [] => d
  | p :: r =>
    let bitsNow := Tbl.get 0 d.fab.load (2 * pipe) + 8 * p.bytes.length
    let t := Tbl.set (Tbl.set d.fab.load (2 * pipe) bitsNow) (2 * pipe + 1) (Tbl.get 0 d.fab.load (2 * pipe + 1) + 1)
    let d := { d with fab := { d.fab with inq := Tbl.set d.fab.inq pipe r, load := t } }
    let d := if lateKnown d.clk.cyc p.fails then d else d.pipeline pipe p
    p.bufs.foldl Dev.release1 d

/-- PIPELINE_PACKET. -/
def execPipelinePacket (pipe : Pipe) (s : State) : Res := run (.pipelinePacket pipe) s fun d => d.pipeNext pipe

/-! ### Pause (R398, R399) -/

/-- Show PAUSED of a port. -/
def Dev.showPaused (d : Dev) (p : Nat) : Dev :=
  d.set F.UPL_STAT_PAUSED ((List.range 8).foldl (fun a k => a + (if d.paused p k then 2 ^ k else 0)) 0) p

/-- A pause quantum count as fabric cycles: 512 bit times at the port's MAC rate. -/
def Dev.quanta (d : Dev) (p q : Nat) : Nat := cdiv (q * 5120 * 3) (d.portWidth p * 2000)

/-- Queues that become paused while they hold packets start their storm time; those no longer paused end it. -/
def Dev.markSince (d : Dev) (p : Nat) : Dev :=
  foldUpTo 8 (fun k e =>
    let i := 8 * p + k
    if e.paused p k && !(e.qst (65536 + i)).all.isEmpty then
      match Tbl.find? e.mac.since i with
      | some _ => e
      | none => { e with mac := { e.mac with since := Tbl.set e.mac.since i e.clk.cyc } }
    else { e with mac := { e.mac with since := Tbl.erase e.mac.since i } }) d

/-- Does the port ignore pause frames after a storm? -/
def Dev.stormIgnored (d : Dev) (p : Nat) : Bool := decide (d.clk.cyc < Tbl.get 0 d.mac.ignore p)

/-- A PAUSE frame acts (R398). -/
def Dev.pauseFrame (d : Dev) (p : Nat) (l : List Byte) : Dev :=
  if d.useB F.UPL_MACCFG_PAUSE_RX_EN p && !d.stormIgnored p then
    let t := d.clk.cyc + d.quanta p (be l 16 2)
    ({ d with mac := { d.mac with portPause := Tbl.set d.mac.portPause p t } }.markSince p).showPaused p
  else d

/-- A PFC frame acts (R398). -/
def Dev.pfcFrame (d : Dev) (p : Nat) (l : List Byte) : Dev :=
  if d.useB F.UPL_MACCFG_PFC_RX_EN p && !d.stormIgnored p then
    let d := foldUpTo 8 (fun k e =>
      if bit (be l 16 2) k then
        let t := e.clk.cyc + e.quanta p (be l (18 + 2 * k) 2)
        { e with mac := { e.mac with queuePause := Tbl.set e.mac.queuePause (8 * p + k) t } }
      else e) d
    (d.markSince p).showPaused p
  else d

/-- A pause timer reaches zero (R398): a queue's, or with 8 the port's. -/
def Dev.pauseExpiry (d : Dev) (p k : Nat) : Dev :=
  match (if k = 8 then Tbl.find? d.mac.portPause p else Tbl.find? d.mac.queuePause (8 * p + k)) with
  | none => d
  | some t =>
    let d := d.reach t
    let m := if k = 8 then { d.mac with portPause := Tbl.erase d.mac.portPause p }
      else { d.mac with queuePause := Tbl.erase d.mac.queuePause (8 * p + k) }
    ({ d with mac := m }.markSince p).showPaused p

/-- PAUSE_TIMER_EXPIRY. -/
def execPauseTimerExpiry (port : LanePort) (k : Fin 9) (s : State) : Res :=
  run (.pauseTimerExpiry port k) s fun d => d.pauseExpiry (d.firstPort port) k

/-- A queue that holds packets has stayed paused for STORM_MS (R399): the timers it is paused by must reach so far. -/
def Dev.pauseStorm (d : Dev) (p k : Nat) : Dev :=
  let ms := d.use F.UPL_MACCFG_STORM_MS p
  match Tbl.find? d.mac.since (8 * p + k) with
  | none => d
  | some t =>
    let e := t + ms * 1500000
    let last := max (Tbl.get 0 d.mac.portPause p) (Tbl.get 0 d.mac.queuePause (8 * p + k))
    if ms = 0 ∨ last < e ∨ (d.qst (65536 + 8 * p + k)).all.isEmpty then d
    else
      let d := d.reach e
      let q := foldUpTo 8 (fun j x => Tbl.erase x (8 * p + j)) d.mac.queuePause
      let s := foldUpTo 8 (fun j x => Tbl.erase x (8 * p + j)) d.mac.since
      let m := { d.mac with
        portPause := Tbl.erase d.mac.portPause p
        queuePause := q
        since := s
        ignore := Tbl.set d.mac.ignore p (d.clk.cyc + 1500000000) }
      ({ d with mac := m }.showPaused p).flag F.UPL_STAT_STORM p

/-- PAUSE_STORM. -/
def execPauseStorm (port : LanePort) (k : Fin 8) (s : State) : Res :=
  run (.pauseStorm port k) s fun d => d.pauseStorm (d.firstPort port) k

/-- One second after a storm pause frames act again. -/
def execPauseStormEnd (port : LanePort) (s : State) : Res :=
  run (.pauseStormEnd port) s fun d =>
    let p := d.firstPort port
    match Tbl.find? d.mac.ignore p with
    | none => d
    | some t =>
      let d := d.reach t
      { d with mac := { d.mac with ignore := Tbl.erase d.mac.ignore p } }

/-! ### Receive (R395, R396) -/

/-- Which of unicast (0), multicast (1) and broadcast (2) a frame is. -/
def castOf (l : List Byte) : Nat :=
  if be l 0 6 = 0xFFFFFFFFFFFF then 2 else if be l 0 1 % 2 = 1 then 1 else 0

/-- The FEC and alignment counts that come with a frame (R409). -/
def Dev.fecCounts (d : Dev) (p : Nat) (m : MacIn) : Dev :=
  let d := d.uplCount p 42 m.corrected
  let d := if m.uncorrected.val = 0 then d
    else (d.uplCount p 43 m.uncorrected).flag F.UPL_STAT_FECUNC p 0 false
  let d := d.uplCount p 44 (m.symbols.foldl (fun a x => a + x.val) 0)
  let d := foldUpTo (d.portWidth p) (fun i e => e.bump F.UPL_LANECNT_COUNT (p + i) 0 (m.symbols.getD i 0)) d
  foldUpTo (d.portWidth p) (fun i e => e.bump F.UPL_LANECNT_COUNT (p + i) 2 (m.bipErrs.getD i 0)) d

/-- A whole frame is decided by the first row of R395 that matches. -/
def Dev.macRx (d : Dev) (p : Nat) (f : List Byte) (codeErr : Bool) : Dev :=
  let n := f.length
  let body := f.take (n - 4)
  let good := fcs body == ofLE (f.drop (n - 4))
  let sound := decide (64 ≤ n) && decide (n ≤ d.use F.UPL_MACCFG_RX_MAX_FRAME p) && !codeErr && good
  let ety := be f 12 2
  let op := be f 14 2
  let d := d.binCount p 13 n
  if d.mode = 3 then
    let d := d.uplCount p 12
    if sound && ety == 0x8808 && op == 1 then d.pauseFrame p f
    else if sound && ety == 0x8808 && op == 0x0101 then d.pfcFrame p f
    else d
  else if !d.useB F.UPL_MACCFG_RX_EN p then d.uplCount p 12
  else if n < 64 then d.uplCount p 8
  else if d.use F.UPL_MACCFG_RX_MAX_FRAME p < n then d.uplCount p 9
  else if codeErr then d.uplCount p 10
  else if !good then d.flag F.UPL_STAT_FCSERR p
  else if ety = 0x8808 ∧ op = 1 then (d.uplCount p 5).pauseFrame p f
  else if ety = 0x8808 ∧ op = 0x0101 then (d.uplCount p 6).pfcFrame p f
  else if ety = 0x8808 then d.uplCount p 52
  else
    let d := (((d.uplCount p 1).uplCount p 0 n).uplCount p (2 + castOf f)).octets p n
    let pop := d.useB F.UPL_MACCFG_POP_EN p && ety == d.use F.UPL_TAGCFG_POP_TPID p
    let d := if pop then d.uplCount p 11 else d
    let l := if pop then popTags body 1 else body
    d.toPipe { bytes := l, quad := p / 4, port := p, loc := 0, label := 0,
               popPcp := if pop then some (be f 14 2 / 8192) else none, bufs := [], de := false, term := none }

/-- MAC_FRAME_RX: nothing is received on a port that is down, and in TEST only what the MAC loops back (R32). -/
def execMacFrameRx (m : MacIn) (s : State) : Res :=
  run (.macFrameRx m) s fun d =>
    let p := d.firstPort m.port
    let d := d.fecCounts p m
    if d.on F.UPL_STAT_LINK_UP p && d.mode != 4 && d.mode != 5 then d.macRx p m.bytes m.codeErr else d

/-! ### Transmit (R397 to R403) -/

/-- An egress queue is eligible (R224, R394, R405). -/
def Dev.egEligible (d : Dev) (p k : Nat) : Bool :=
  let q := 65536 + 8 * p + k
  let r := d.qc q
  let x := d.qst q
  d.qValid q && !x.h.isEmpty && d.isFirst p && d.on F.UPL_STAT_LINK_UP p && d.useB F.UPL_MACCFG_TX_EN p &&
    !d.paused p k && (bits (recBytes r 8 4) 0 24 == 0 || decide (0 ≤ x.credit))

/-- The queue the MAC serves next: the highest-numbered eligible one. -/
def Dev.egPick (d : Dev) (p : Nat) : Option Nat :=
  ((List.range 8).map fun k => 7 - k).find? fun k => d.egEligible p k

/-- Charge a queue's own shaper with a packet of `c` bytes (R215). -/
def Dev.chargeQueue (d : Dev) (q c : Nat) : Dev :=
  if bits (recBytes (d.qc q) 8 4) 0 24 = 0 then d
  else d.setQ q { d.qst q with credit := (d.qst q).credit - c * 1000000 }

/-- The frame as the MAC sends it, without FCS (R397). -/
def Dev.macFrame (d : Dev) (p : Nat) (k : Pkt) : List Byte :=
  let s := d.svc k.service
  let n := min 2 (svcPush s)
  let tci (t : Nat) : Nat := if d.useB F.UPL_MACCFG_PCP_FROM_TC p then setBits t 13 3 k.tc else t
  let t0 := tci (recBytes s 16 2)
  let t1 := tci (recBytes s 18 2)
  let t0 := if d.useB F.UPL_MACCFG_DEI_MARK p then setBits t0 12 1 (b2n k.de) else t0
  let l := pushTags k.bytes n (d.use F.UPL_TAGCFG_PUSH_TPID_OUTER p) (d.use F.UPL_TAGCFG_PUSH_TPID_INNER p) t0 t1
  l ++ List.replicate (60 - l.length) 0

/-- The start threshold follows a raised START_BASE at a frame start (R403). -/
def Dev.baseStep (d : Dev) (p : Nat) : Dev :=
  let b := d.use F.UPL_MACCFG_START_BASE p
  if d.get F.UPL_TXSTAT_STEP p < b then d.set F.UPL_TXSTAT_STEP b p else d

/-- A frame was sent whole (R401). -/
def Dev.cleanFrame (d : Dev) (p : Nat) : Dev :=
  let c := d.get F.UPL_TXSTAT_CLEAN p + 1
  if c = 2 ^ 20 then
    let st := max (d.use F.UPL_MACCFG_START_BASE p) (d.get F.UPL_TXSTAT_STEP p - 1)
    ((d.set F.UPL_TXSTAT_STEP st p).set F.UPL_TXSTAT_CLEAN 0 p).uplCount p 51
  else d.set F.UPL_TXSTAT_CLEAN c p

/-! ### PTP frames (R442, R443) -/

/-- Is a port a PTP master port (R457)? Bits that name no first lane-port are ignored. -/
def Dev.ptpMaster (d : Dev) (p : Nat) : Bool :=
  d.isFirst p && bit (d.use F.TIM_PTPMASTER_PORTS (p / 64)) (p % 64)

/-- Is a port the PTP slave port? -/
def Dev.ptpSlave (d : Dev) (p : Nat) : Bool :=
  d.useB F.TIM_PTPCFG_SLAVE_EN && d.use F.TIM_PTPCFG_SLAVE_PORT == p && d.isFirst p

/-- Bytes of a PTP message's frame without its FCS, as IEEE 1588 lays out its messages and their transports (PRESUMED, log entry
174): under UDP over IPv6 two trailing bytes follow (R442). -/
def ptpBytes (transport kind : Nat) : Nat :=
  let body := 34 + (if kind = 9 then 20 else if kind = 11 then 30 else 10)
  max 60 (14 + (match transport with
    | 0 => 0
    | 1 => 28
    | _ => 50) + body)

/-- Can PTP frames leave port `p`? They go through its egress queue 7, which a port that is down, has TX_EN at 0 or is
paused does not serve (R394, R398, R405, R443); a message that cannot leave is not sent (DESIGN CHOICE, log entry 174). -/
def Dev.ptpLeaves (d : Dev) (p : Nat) : Bool :=
  d.on F.UPL_STAT_LINK_UP p && d.useB F.UPL_MACCFG_TX_EN p && !d.paused p 7 && d.mode != 4 && d.mode != 5

/-- Send a PTP message through egress queue 7 of a port (R443), counting it with the frames that the port sends (R409). -/
def Dev.ptpSend (d : Dev) (m : PtpOut) : Dev :=
  if d.ptpLeaves m.port then
    let n := ptpBytes (d.use F.TIM_PTPCFG_TRANSPORT) m.kind + 4
    let d := ({ d with tim := { d.tim with sent := d.tim.sent ++ [m] } }.bump F.TIM_CNT_COUNT 7).baseStep m.port
    let d := (((d.uplCount m.port 31).uplCount m.port 24).uplCount m.port 23 n).uplCount m.port 26
    ((d.binCount m.port 32 n).octets (128 + m.port) n).cleanFrame m.port
  else d

/-- Complete the slave's exchange when both halves are in: the phase sample of R443 waits for the servo. -/
def Dev.ptpSample (d : Dev) (t4 : Nat) (corr2 : Int) : Dev :=
  match d.tim.slave.t1, d.tim.slave.t3 with
  | some t1, some t3 =>
    let p : Int := (((d.tim.slave.t2 : Int) - t1 - d.tim.slave.corr1) - ((t4 : Int) - t3 - corr2)) / 2
    { d with tim := { d.tim with sample := some p, slave := { d.tim.slave with t3 := none } } }
  | _, _ => d

/-- PTP_MESSAGE_RX (R442, R443): a message of this domain and transport on a slave or master port acts by its
type; any other is discarded and counted in PTP_OTHER. Nothing is received on a port that is down or has RX_EN at 0 (R395). -/
def execPtpMessageRx (m : PtpIn) (s : State) : Res := run (.ptpMessageRx m) s fun d =>
  let p := m.port.val
  if (d.on F.UPL_STAT_LINK_UP p && d.useB F.UPL_MACCFG_RX_EN p && d.mode != 4 && d.mode != 5) = false then d else
  let mine := m.domain.val == d.use F.TIM_PTPCFG_DOMAIN && m.transport.val == d.use F.TIM_PTPCFG_TRANSPORT
  let sl := d.tim.slave
  if mine && d.ptpSlave p && m.kind.val == 0 then
    let t1 := if m.twoStep then none else some m.time
    let sl := { sl with syncSeq := m.seq, t2 := d.now16, corr1 := m.corr, t1 := t1 }
    { d with tim := { d.tim with slave := sl } }.bump F.TIM_CNT_COUNT 6
  else if mine && d.ptpSlave p && m.kind.val == 8 then
    let d := d.bump F.TIM_CNT_COUNT 6
    if m.seq.val = sl.syncSeq ∧ sl.t1 = none then
      { d with tim := { d.tim with slave := { sl with t1 := some m.time, corr1 := sl.corr1 + m.corr } } }
    else d
  else if mine && d.ptpSlave p && m.kind.val == 9 then
    let d := d.bump F.TIM_CNT_COUNT 6
    if m.seq.val = sl.reqSeq ∧ d.use F.TIM_CFG_SRC = 1 ∧ d.mode ≠ 3 then d.ptpSample m.time m.corr else d
  else if mine && d.ptpSlave p && m.kind.val == 11 then
    { d with tim := { d.tim with gm := m.body } }.bump F.TIM_CNT_COUNT 6
  else if mine && d.ptpMaster p && m.kind.val == 1 then
    (d.bump F.TIM_CNT_COUNT 6).ptpSend
      { port := p, kind := 9, seq := m.seq, origin := d.now16, corr := m.corr, body := [] }
  else d.bump F.TIM_CNT_COUNT 8

/-- A Sync or Delay_Req is due its interval after the one before it (R442, R457): the clock runs there. An Announce has no interval. -/
def Dev.ptpDue (d : Dev) (key : Nat) : Dev :=
  let log? : Option Nat := if key % 16 = 0 then some (d.use F.TIM_PTPCFG_SYNC_LOG)
    else if key % 16 = 1 then some (d.use F.TIM_PTPCFG_DELAY_LOG) else none
  match log?, Tbl.find? d.tim.sentAt key with
  | some n, some t => d.reach (t + 1500000000 / 2 ^ n)
  | _, _ => d

/-- PTP_MESSAGE_TX (R442): at its interval a Sync or Announce leaves a master port, or a Delay_Req the slave
port. An Announce carries the grandmaster's values while the servo is LOCKED on PTP, the image's otherwise. -/
def execPtpMessageTx (port : LanePort) (kind : Fin 16) (s : State) : Res := run (.ptpMessageTx port kind) s fun d =>
  let p := port.val
  let key := p * 16 + kind.val
  let seq := Tbl.get 0 d.tim.seqs key
  let d := if d.ptpLeaves p then d.ptpDue key else d
  let tim := { d.tim with seqs := Tbl.set d.tim.seqs key ((seq + 1) % 65536), sentAt := Tbl.set d.tim.sentAt key d.clk.cyc }
  let next := { d with tim := tim }
  if !d.ptpLeaves p then d
  else if d.ptpMaster p && kind.val == 0 then
    next.ptpSend { port := p, kind := 0, seq := seq, origin := d.now16, corr := 0, body := [] }
  else if d.ptpMaster p && kind.val == 11 then
    let body := if d.get F.TIM_STAT_STATE = 2 ∧ d.use F.TIM_CFG_SRC = 1 ∧ d.mode ≠ 3 then d.tim.gm else d.tim.dataset
    next.ptpSend { port := p, kind := 11, seq := seq, origin := d.now16, corr := 0, body := body }
  else if d.ptpSlave p && kind.val == 1 then
    let sl := { next.tim.slave with reqSeq := seq, t3 := some d.now16 }
    { next with tim := { next.tim with slave := sl } }.ptpSend
      { port := p, kind := 1, seq := seq, origin := 0, corr := 0, body := [] }
  else d

/-! ### Frames from the egress queues (R397 to R403) -/

/-- An underrun (R400). -/
def Dev.underrun (d : Dev) (p : Nat) : Dev :=
  let d := (d.set F.UPL_TXSTAT_STEP (min 64 (d.get F.UPL_TXSTAT_STEP p + 1)) p).set F.UPL_TXSTAT_CLEAN 0 p
  (d.flag F.UPL_STAT_UNDERRUN p).uplCount p 50

/-- The FCS field of a frame: complemented where the frame was ended (R400, R402). -/
def withFcs (l : List Byte) (bad : Bool) : List Byte :=
  l ++ toLE (if bad then 0xFFFFFFFF - fcs l else fcs l) 4

/-- What a frame that is ended holds of its bytes `l`, at least `least` of them and not all: how far it had got is open (log entry
205). It is padded to 60 bytes and its FCS is complemented (R400, R402). -/
def Dev.cutFrame (d : Dev) (l : List Byte) (least : Nat) : Dev × List Byte :=
  let r := d.draw (max 1 (l.length - least))
  let k := l.take (least + r.2)
  (r.1, withFcs (k ++ List.replicate (60 - k.length) 0) true)

/-- The packet at the head of queue `k` of port `p` leaves: charged, traced, its buffer released. -/
def Dev.takeEgress (d : Dev) (p k : Nat) : Option (Dev × Pkt) :=
  let q := 65536 + 8 * p + k
  let r := d.popQ q
  match r.2 with
  | none => none
  | some x =>
    let d := ((r.1.chargeQueue q (d.charged q x.len)).headWait q).tracePkt x 2 q
    some (d.release1 x.buf, x)

/-- Packets of queue `q` whose tag is known to have failed leave it before they start (R425). -/
def Dev.dropLate (d : Dev) (q : Nat) : Dev :=
  let x := d.qst q
  let late (k : Pkt) : Bool := lateKnown d.clk.cyc k.fails
  let l := (x.h ++ x.t).filter late
  if l.isEmpty then d
  else
    let d := l.foldl (fun d k =>
      (d.release1 k.buf).tracePkt k 3 (cntAt F.CRY_CNT_COUNT ((k.fails.map (·.2)).getD 0) 2)) d
    d.setQ q { x with h := x.h.filter fun k => !late k, t := x.t.filter fun k => !late k, out := x.out + l.length }

/-- The MAC sends a frame. One whose tag fails after it has started ends with the complemented FCS (R402, R425). -/
def Dev.macTx (d : Dev) (p : Nat) (e : TxEnd) : Dev :=
  let d := foldUpTo 8 (fun k d => d.dropLate (65536 + 8 * p + k)) d
  match d.egPick p with
  | none => d
  | some k =>
    let d := d.baseStep p
    match d.takeEgress p k with
    | none => d
    | some (d, x) =>
      let l := d.macFrame p x
      let d := d.sendOut (quadLink (p / 4)) l.length
      let st := d.get F.UPL_TXSTAT_STEP p
      let out (d : Dev) (l : List Byte) : Dev := { d with mac := { d.mac with last := Tbl.set d.mac.last p l } }
      let cut (d : Dev) (least : Nat) : Dev :=
        let c := d.cutFrame l least
        out c.1 c.2
      match x.fails, e with
      | some t, _ => cut (((d.flag F.CRY_STAT_TAGLATE).bump F.CRY_CNT_COUNT t.2 3).flag F.UPL_STAT_ABORT p) 0
      | none, .aborted => cut (d.flag F.UPL_STAT_ABORT p) 0
      | none, _ =>
        if e = .underrun ∧ st < 64 ∧ 256 * st < l.length then cut (d.underrun p) (256 * st)
        else
          let n := l.length + 4
          let d := (((d.uplCount p 24).uplCount p 23 n).uplCount p (25 + castOf l)).binCount p 32 n
          let d := (d.uplCount p 30 (min 2 (svcPush (d.svc x.service)))).octets (128 + p) n
          let d := out (d.cleanFrame p) (withFcs l false)
          if d.mode = 5 ∧ d.useB F.UPL_MACCFG_MAC_LOOP p then d.macRx p (withFcs l false) false else d

/-- May the MAC of port `p` send frames? In STANDBY and VIGIL no egress queue is served (R397, R38), in TEST only in MAC
loopback (R32). -/
def Dev.macSends (d : Dev) (p : Nat) : Bool :=
  d.mode != 3 && d.mode != 4 && (d.mode != 5 || d.useB F.UPL_MACCFG_MAC_LOOP p)

/-- MAC_FRAME_TX: a frame waits while the words toward its edge die have no room or a replay runs (R24, R25). -/
def execMacFrameTx (port : LanePort) (e : TxEnd) (s : State) : Res :=
  run (.macFrameTx port e) s fun d =>
    let p := d.firstPort port
    if d.macSends p && d.outOpen (quadLink (p / 4)) then d.macTx p e else d

/-! ### Link state (R393, R394) -/

/-- Is lane `n` RUNNING, and not on its way to OFF (R277, R278)? -/
def Dev.laneUp (d : Dev) (n : Nat) : Bool := d.get F.SLN_STAT_STATE n == 4 && !d.lanes.descending.contains n

/-- Show LANES_DOWN of the port of lane-port `p`. -/
def Dev.showLanesDown (d : Dev) (p : Nat) : Dev :=
  let p := d.firstPort p
  d.set F.UPL_STAT_LANES_DOWN
    ((List.range (d.portWidth p)).foldl (fun a i => a + (if d.laneUp (128 + p + i) then 0 else 2 ^ i)) 0) p

/-- A port's alignment breaks, or has not begun yet: LINK_HOLD_MS counts anew (R393). -/
def Dev.breakHold (d : Dev) (p : Nat) : Dev := { d with mac := { d.mac with broken := Tbl.set d.mac.broken p d.clk.cyc } }

/-- A port whose lanes all run has held alignment without fault for LINK_HOLD_MS since the last break (R393). -/
def Dev.linkUp (d : Dev) (p : Nat) : Dev :=
  if d.on F.UPL_STAT_LINK_UP p then d
  else if (List.range (d.portWidth p)).all (fun i => d.laneUp (128 + p + i)) then
    let d := d.reach (Tbl.get 0 d.mac.broken p + d.use F.UPL_MACCFG_LINK_HOLD_MS p * 1500000)
    (((d.set F.UPL_STAT_ALIGNED 1 p).set F.UPL_STAT_LOCAL_FAULT 0 p).set F.UPL_STAT_REMOTE_FAULT 0 p).set
      F.UPL_STAT_LINK_UP 1 p
  else d

/-- LINK_UP. -/
def execLinkUp (port : LanePort) (s : State) : Res := run (.linkUp port) s fun d => d.linkUp (d.firstPort port)

/-- What a port sends (R393, R405): remote fault while it detects local fault, idles while it receives remote fault, is down or has
TX_EN at 0, and otherwise frames. -/
inductive PortOut where
  | frames
  | idle
  | remoteFault
  deriving DecidableEq, Repr

/-- What port `p` sends. -/
def Dev.portSends (d : Dev) (p : Nat) : PortOut :=
  if d.on F.UPL_STAT_LOCAL_FAULT p then .remoteFault
  else if d.on F.UPL_STAT_LINK_UP p && !d.on F.UPL_STAT_REMOTE_FAULT p && d.useB F.UPL_MACCFG_TX_EN p then .frames
  else .idle

/-- Empty the egress queues of a port that went down with DOWN_FLUSH (R394). -/
def Dev.flushPort (d : Dev) (p : Nat) : Dev :=
  foldUpTo 8 (fun k e =>
    let r := e.emptyQueue (65536 + 8 * p + k) (cntAt F.UPL_CNT_COUNT p 49)
    r.1.uplCount p 49 r.2) d

/-- The fault or loss of alignment itself (R407, R409). -/
def Dev.downBits (d : Dev) (p : Nat) (c : DownCause) : Dev :=
  match c with
  | .alignment i =>
    (d.set F.UPL_STAT_ALIGNED 0 p).bump F.UPL_LANECNT_COUNT (p + i.val % d.portWidth p) 1
  | .localFault =>
    if d.on F.UPL_STAT_LOCAL_FAULT p then d else (d.set F.UPL_STAT_LOCAL_FAULT 1 p).uplCount p 46
  | .remoteFault =>
    if d.on F.UPL_STAT_REMOTE_FAULT p then d else (d.set F.UPL_STAT_REMOTE_FAULT 1 p).uplCount p 47

/-- A port goes down (R393, R394): a frame in progress is lost. -/
def Dev.linkDown (d : Dev) (p : Nat) (c : DownCause) (sending : Bool) : Dev :=
  let up := d.on F.UPL_STAT_LINK_UP p
  let d := if up && sending then
      (match d.egPick p with
       | none => d
       | some k => match d.takeEgress p k with
         | none => d
         | some (e, x) =>
           let e := e.flag F.UPL_STAT_ABORT p
           e.tracePkt x 3 (cntAt F.UPL_CNT_COUNT p 29))
    else d
  let d := (d.downBits p c).breakHold p
  if up then
    let d := (d.set F.UPL_STAT_LINK_UP 0 p).flag F.UPL_STAT_LINKDOWN p
    if d.useB F.UPL_MACCFG_DOWN_FLUSH p then d.flushPort p else d
  else d

/-- LINK_DOWN. -/
def execLinkDown (port : LanePort) (c : DownCause) (sending : Bool) (s : State) : Res :=
  run (.linkDown port c sending) s fun d => d.linkDown (d.firstPort port) c sending

end Sys2Proof.Machine
end

