-- ==== Sys2Proof/Machine/EmuBase.lean ====
section
/-!
DEFINITION. Downstream receivers and emulated terminals: their state (R69 to R71, R111, R234, R246), and what leaving IN_FRAME
does to both.
-/

namespace Sys2Proof.Machine

/-! ### Downstream receivers -/

/-- A receiver just enabled (R69): HUNT at offset 0. -/
def freshRx : RxLine :=
  { offset := 0, good := 0, window := 0, invalid := 0, count := 0, prev := none, cands := [], pos := 0, miss := 0,
    leftAt := 0, lofSet := false, ctr := 0, pred := 0, fresh := true, cw := 0, scr := 0, bip := 0, lastBip := none,
    queue := [], qd := 0, circuits := 0, nextCir := 0, orphan := true, epoch := none, arrived := none, reasm := [],
    whole := false, skip := false, plain := false }

/-- A channel's downstream receiver. -/
def Dev.rx (d : Dev) (c : Nat) : RxLine := Tbl.get freshRx d.lines.rx c

/-- Replace a channel's downstream receiver. -/
def Dev.setRx (d : Dev) (c : Nat) (x : RxLine) : Dev := { d with lines := { d.lines with rx := Tbl.set d.lines.rx c x } }

/-- Frame alignment of channel `c`: 0 SEARCH, 1 CANDIDATE, 2 IN_FRAME, 3 RETAINED. -/
def Dev.align (d : Dev) (c : Nat) : Nat := d.get F.TCH_FRMSTAT_ALIGN c

/-! ### Scribes -/

/-- A Scribe takes events: it is not in HALT (R504). -/
def Dev.scribeUp (d : Dev) (c : Nat) : Bool :=
  d.booted && decide (d.mode ≤ 2) && d.get F.SCR_STAT_STATE c != 3

/-- The Scribe of a head-role channel takes events. -/
def Dev.headScribe (d : Dev) (c : Nat) : Bool := d.scribeUp c && d.headRole c

/-- The Scribe of a terminal-role channel takes events. -/
def Dev.termScribe (d : Dev) (c : Nat) : Bool := d.scribeUp c && d.termRole c

/-! ### Emulated terminals -/

/-- An emulated terminal just enabled. -/
def newEmu : Emu :=
  { prev := 0, missed := 0, since := 0, returning := false, rangeEqd := 0, rangeSub := none, rangeAt := none,
    rangePower := false, rangeSent := false, eqdNext := none, skip := none, span := 0, tried := false, lfsr := 1, rei := 0, answers := [],
    owed := [], unsol := [], seen := [], disc := none, bursts := [], base := 0, gaspAt := none, gaspBurst := false,
    alarmSeq := 0, alarmAt := none, attempts := 0, dlyAt := none, period := 0, phase := 0, dozeAt := none, wakeAt := none, deactAt := none, keyUp := 0,
    keySwitch := none, level := 0, levelAt := none, kek := none, errs := 0, upXid := 0,
    lastLocal := none, binds := [] }

/-- Emulated terminal of global index `g`. -/
def Dev.emu (d : Dev) (g : Nat) : Emu := Tbl.get newEmu d.emus.terms g

/-- Replace it. -/
def Dev.setEmu (d : Dev) (g : Nat) (e : Emu) : Dev :=
  { d with emus := { d.emus with terms := Tbl.put newEmu d.emus.terms g e } }

/-- Its state, in the order of R111. -/
def Dev.emuSt (d : Dev) (c t : Nat) : Nat := d.get F.TCH_EMUSTAT_STATE c t

/-- The emulated terminals that a channel runs: EMU_COUNT (R245), and one on a trunk member whatever is written there (R250). -/
def Dev.emuCount (d : Dev) (c : Nat) : Nat := if d.mode = 1 ∧ d.trunk c then 1 else d.use F.TCH_TRMCFG_EMU_COUNT c

/-- The emulated terminals of a channel that may leave T_INIT: below EMU_COUNT and enabled (R234). -/
def Dev.emuOn (d : Dev) (c t : Nat) : Bool := decide (t < d.emuCount c) && d.on F.TCH_EMUCTL_EMU_EN c t

/-- Emulated terminals of a channel that could hold a state. -/
def Dev.emusOf (d : Dev) (c : Nat) : List Nat := (List.range 128).filter fun t => d.emuOn c t || d.emuSt c t != 0

/-- The emulated terminal that holds a local number. -/
def Dev.localTerm (d : Dev) (c loc : Nat) : Option Nat :=
  (d.emusOf c).find? fun t => d.on F.TCH_EMUSTAT_LOCAL_VALID c t && d.get F.TCH_EMUSTAT_LOCAL c t == loc

/-- A TCH_TRMCNT counter. -/
def Dev.trmCount (d : Dev) (c k : Nat) (n : Nat := 1) : Dev := d.bump F.TCH_TRMCNT_COUNT c k n

/-- Show OPERATING of a channel. -/
def Dev.showOperating (d : Dev) (c : Nat) : Dev :=
  let n := ((List.range 128).filter fun t => d.emuSt c t == 4 || d.emuSt c t == 5).length
  d.set F.TCH_TRMSTAT_OPERATING n c

/-! ### The trunk bundle (R250, R251, R253) -/

/-- The trunk members in ascending order. -/
def Dev.trunkMembers (d : Dev) : List Nat := (List.range 128).filter fun c => d.trunk c

/-- A bucket is to move to a member at the next frame boundary; one whose CUR is that member stays (R251). -/
def Dev.moveDue (d : Dev) (b m : Nat) : Dev :=
  let due := if d.get F.GLB_CASBKT_CUR b = m then Tbl.erase d.cas.due b else Tbl.set d.cas.due b m
  { d with cas := { d.cas with due := due } }

/-- The buckets that a member carries, or is to carry from the next frame boundary on. -/
def Dev.bucketsOn (d : Dev) (c : Nat) : List Nat :=
  (List.range 256).filter fun b => (Tbl.find? d.cas.due b).getD (d.get F.GLB_CASBKT_CUR b) == c

/-- A binding that has just started (R249). -/
def startedBind : Bind := { prbs := 0x7FFFFFFF, seq := 0, part := none }

/-- Binding `j`'s source. -/
def Dev.bind (d : Dev) (g j : Nat) : Bind := Tbl.get startedBind (d.emu g).binds j

/-- Replace it. -/
def Dev.setBind (d : Dev) (g j : Nat) (b : Bind) : Dev :=
  let e := d.emu g
  d.setEmu g { e with binds := Tbl.set e.binds j b }

/-- The packet that a binding has begun goes, and counts as flushed. -/
def Dev.flushPart (d : Dev) (g j : Nat) : Dev :=
  match (d.bind g j).part with
  | none => d
  | some p => (d.setBind g j { d.bind g j with part := none }).flushPkts (g / 128) [p.pkt]

/-- The queues of emulated terminal `g` are flushed, with the packets begun, and counted in FLUSHED (R218, R245, R251). -/
def Dev.flushBound (d : Dev) (g : Nat) : Dev := foldUpTo 4 (fun j d => (d.flushPart g j).flushQ (4 * g + j)) d

/-- A member leaves service: its buckets go to the operating members, one each in turn (R251), and its queues are
flushed. -/
def Dev.memberLost (d : Dev) (c : Nat) : Dev :=
  let up := (List.range 128).filter fun k => k != c && d.memberUp k
  let d := if up.isEmpty then d else
    ((d.bucketsOn c).mapIdx fun i b => (b, up.getD (i % up.length) 0)).foldl (fun d e => d.moveDue e.1 e.2) d
  d.flushBound (128 * c)

/-- A member operates: its buckets come home (R251). -/
def Dev.memberBack (d : Dev) (c : Nat) : Dev :=
  (List.range 256).foldl (fun d b =>
    if d.get F.GLB_CASBKT_HOME b = c then d.moveDue b c else d) d

/-- The time member (R253), and the servo in holdover when there is none (R446). -/
def Dev.timeMember (d : Dev) : Dev :=
  let m := d.trunkMembers.find? fun c => d.emuSt c 0 == 4
  let was := d.on F.GLB_CASSTAT_TIME_VALID
  let d := (d.set F.GLB_CASSTAT_TIME_MEMBER (m.getD 0)).set F.GLB_CASSTAT_TIME_VALID (b2n m.isSome)
  if was ∧ m.isNone ∧ d.use F.TIM_CFG_SRC = 3 then d.holdover else d

/-- What a change of state of an emulated terminal means for the bundle and for time (R251, R253, R447). -/
def Dev.emuChanged (d : Dev) (c t old st : Nat) : Dev :=
  if t ≠ 0 then d
  else if d.mode = 1 ∧ d.trunk c then
    let d := if (st = 0 ∨ st = 7) ∧ old ≠ 0 ∧ old ≠ 7 then d.memberLost c else if st = 4 then d.memberBack c else d
    d.timeMember
  else if d.mode = 2 ∧ d.use F.TIM_CFG_SRC = 3 ∧ d.use F.TIM_CFG_TREE_CH = c ∧ old = 4 ∧ st ≠ 4 then d.holdover
  else d

/-- The seed of an emulated terminal's LFSR (R246). -/
def Dev.emuSeed (d : Dev) (c t : Nat) : Nat :=
  let s := if d.useB F.TCH_TRMCFG_SEED_FIXED c then d.use F.TCH_TRMCFG_SEED c ^^^ t
    else (d.get F.TCH_EMUSER_SERIAL c t ^^^ (d.rx c).ctr) % 2 ^ 32
  if s = 0 then 1 else s

/-- An emulated terminal enters a state (R111): in T_INIT and T_SILENT it holds nothing, in T_LISTEN it begins anew. A GASP or ALARM
that the host has asked for stays (R248), and so do its level (R256) and a TCH_EMUDLY that waits (R247). -/
def Dev.emuTo (d : Dev) (c t st : Nat) : Dev :=
  let g := 128 * c + t
  let old := d.emuSt c t
  let e := d.emu g
  let bare : Emu := { newEmu with
    kek := e.kek, alarmSeq := e.alarmSeq, upXid := e.upXid, lastLocal := e.lastLocal, binds := e.binds, lfsr := e.lfsr
    keyUp := e.keyUp, gaspAt := e.gaspAt, gaspBurst := e.gaspBurst, alarmAt := e.alarmAt, level := e.level, dlyAt := e.dlyAt }
  let d := d.set F.TCH_EMUSTAT_STATE st c t
  let d := if st = 0 ∨ st = 1 ∨ st = 7 then
      let d := ((d.set F.TCH_EMUSTAT_LOCAL_VALID 0 c t).set F.TCH_EMUSTAT_HOLD_FRAMES 0 c t)
      if st = 1 then d.setEmu g { bare with lfsr := d.emuSeed c t }
      else d.setEmu g bare
    else d
  (d.showOperating c).emuChanged c t old st

/-! ### Leaving IN_FRAME (R70, R71, R234) -/

/-- A terminal that serves enters T_HOLDOVER (R111). -/
def Dev.emuHold (c : Nat) (d : Dev) (t : Nat) : Dev :=
  let st := d.emuSt c t
  if st = 3 ∨ st = 4 ∨ st = 5 then
    let g := 128 * c + t
    let d := d.setEmu g { d.emu g with prev := st, missed := 1, bursts := [] }
    ((d.set F.TCH_EMUSTAT_HOLD_FRAMES 1 c t).flag F.TCH_TRMSTAT_HOLDOVER c).emuTo c t 6
  else d

/-- A receiver that is IN_FRAME leaves it for alignment `next`: OOF sets (R76), and every emulated terminal that serves enters
T_HOLDOVER in the same frame (R234). -/
def Dev.leaveFrame (d : Dev) (c next : Nat) : Dev :=
  if d.align c = 2 then
    let d := d.setRx c { d.rx c with leftAt := d.clk.cyc, lofSet := false, whole := false }
    let d := (d.set F.TCH_FRMSTAT_ALIGN next c).flag F.TCH_FRMSTAT_OOF c
    if d.termScribe c then (d.emusOf c).foldl (Dev.emuHold c) d else d
  else d.set F.TCH_FRMSTAT_ALIGN next c

/-- A receiver holds nothing and hunts from offset 0 (R69, R73): what it has learnt of the head's epoch stays (R419). -/
def Dev.rxStop (d : Dev) (c : Nat) : Dev :=
  let d := d.leaveFrame c 0
  let x := { freshRx with
    leftAt := d.clk.cyc, epoch := (d.rx c).epoch, plain := d.on F.TCH_FRMCFG_SCR_BYPASS c }
  let d := ((d.rx c).reasm.flatMap (·.2.bufs)).foldl Dev.release1 d
  (d.setRx c x).set F.TCH_FRMSTAT_BLOCK_LOCK 0 c

end Sys2Proof.Machine
end

