-- ==== Sys2Proof/Machine/Lanes.lean ====
section
/-!
DEFINITION. Serial lanes (R260 to R291): the lane states, patterns and injection, and the preset port.
-/

namespace Sys2Proof.Machine

/-- A lane's receiver takes bursts (R260): a tree lane in head role and STANDBY. In TEST every receiver is
continuous. -/
def Dev.burstLane (d : Dev) (n : Nat) : Bool :=
  decide (n < 128) && d.mode != 5 && (d.mode == 3 || d.mode == 0 || (d.mode == 1 && !d.trunk n))

/-- A lane is RUNNING no longer. -/
def Dev.noteDown (d : Dev) (n : Nat) : Dev := { d with lanes := { d.lanes with downAt := Tbl.set d.lanes.downAt n d.clk.cyc } }

/-- A lane enters a state of R277. -/
def Dev.laneTo (d : Dev) (n st : Nat) : Dev :=
  let d := if d.laneUp n then d.noteDown n else d
  { d with lanes := { d.lanes with entered := Tbl.set d.lanes.entered n d.clk.cyc } }.set F.SLN_STAT_STATE st n

/-! ### What a lane's state does to the block above it (R278) -/

/-- The stitch link's lanes (R464): the link state follows how many hold block lock, and each entry into DEGRADED
counts. -/
def Dev.stitchLanes (d : Dev) (mask : Nat) : Dev :=
  let n := popcount mask 8
  let st := if n = 8 then 2 else if 4 ≤ n then 1 else 0
  let old := d.get F.STL_STAT_LINK
  let d := (d.set F.STL_STAT_LANES_UP mask).set F.STL_STAT_LINK st
  if st = 1 ∧ old ≠ 1 then d.bump F.STL_CNT_COUNT 13 else d

/-- A lane is no longer RUNNING. -/
def Dev.laneLost (d : Dev) (n : Nat) : Dev :=
  if n < 128 then d
  else if n < 256 then
    let p := d.firstPort (n - 128)
    let d := if d.on F.UPL_STAT_ALIGNED p then
        d.linkDown p (.alignment (Fin.ofNat 8 (n - 128 - p))) false
      else d
    d.showLanesDown (n - 128)
  else
    let d := { d with lanes := { d.lanes with stLock := Tbl.erase d.lanes.stLock (n - 256) } }
    d.stitchLanes (setBits (d.get F.STL_STAT_LANES_UP) (n - 256) 1 0)

/-- The scrambler state after `n` more payloads (R50). -/
def scrAfter (n s : Nat) : Nat := Nat.repeat (fun s => (scrWord 64 s 0).1) n s

/-- A downstream receiver has seen no blocks for as long as `n` of them take (R70, R278): from its own clock it predicts where frames
would have begun and with which counters. Of a frame that was to be decoded meanwhile it takes the codewords that come next whole,
and their blocks are orphans up to the next subframe header (DEDUCED, log entry 189). -/
def Dev.skipBlocks (d : Dev) (c n : Nat) : Dev :=
  let x := d.rx c
  let count := x.count + n
  if d.align c < 2 then
    d.setRx c { x with count := count, prev := none, cands := x.cands.filter fun k => decide (count < k.at_ + 223232) }
  else
    let last := x.pos + (if d.align c = 3 then d.use F.TCH_FRMCFG_RETAIN_SLACK c else 0)
    let j := if last < count then (count - last - 1) / 223232 + 1 else 0
    let pos := x.pos + 223232 * j
    let pred := (x.pred + j) % 2 ^ 48
    let ctr := (pred + 2 ^ 48 - 1) % 2 ^ 48
    let k := cdiv (count + 223232 - pos) 256 % 872
    d.setRx c { x with
      count := count, prev := none, pos := pos, pred := pred, miss := if d.align c = 2 then x.miss + j else x.miss, cw := k, ctr := ctr
      scr := scrAfter (224 * k - 2) (scrSeed ctr), queue := [], qd := 224 * k, circuits := 0, orphan := true, lastBip := none
      whole := false, skip := false }

/-- A lane is RUNNING: a tree lane's receiver sees blocks again, and a stitch lane hunts for its own (R271). -/
def Dev.laneRuns (d : Dev) (n : Nat) : Dev :=
  if n < 128 then
    match Tbl.find? d.lanes.downAt n with
    | some t => { d with lanes := { d.lanes with downAt := Tbl.erase d.lanes.downAt n } }.skipBlocks n ((d.clk.cyc - t) * 223232 / 187500)
    | none => d
  else if n < 256 then (d.showLanesDown (n - 128)).breakHold (d.firstPort (n - 128))
  else { d with lanes := { d.lanes with stLock := Tbl.erase d.lanes.stLock (n - 256) } }

/-! ### Enabling and disabling (R277) -/

/-- ENABLE is 1 (R277): a lane that is OFF powers up; one on its way down will when it reaches OFF. A tree lane's latencies
are measured anew (R237). -/
def Dev.laneOn (d : Dev) (n : Nat) : Dev :=
  if d.get F.SLN_STAT_STATE n = 0 ∧ d.lanes.descending.contains n = false then
    let d := if n < 128 then d.set F.TCH_TRMCAL_CAL_OK 0 n else d
    let d := { d with lanes := { d.lanes with fine := d.lanes.fine.filter fun x => x != n } }
    ({ d with lanes := { d.lanes with start := Tbl.erase d.lanes.start n } }.laneTo n 1).bump F.SLN_CNT_COUNT n 6
  else d

/-- Bits that lane `n` carries in `cyc` fabric cycles (R260): 117.866496 Gbit/s on a tree lane, 106.25 Gbit/s on any other. -/
def laneBits (n cyc : Nat) : Nat := if n < 128 then cyc * 117866496 / 1500000 else cyc * 850 / 12

/-- Fabric cycles in which lane `n` carries `b` bits. -/
def laneCycles (n b : Nat) : Nat := if n < 128 then cdiv (b * 1500000) 117866496 else cdiv (b * 12) 850

/-- The checker runs (R279). -/
def Dev.checking (d : Dev) (n : Nat) : Bool := d.mode == 5 && d.on F.SLN_PATCFG_CHK_EN n

/-- The checker's counts up to now (R281): the bits compared since they were last brought up to date are those the lane has
carried, of which a free number, at most all, was in error (log entry 39). -/
def Dev.patSettle (d : Dev) (n : Nat) : Dev :=
  let b := laneBits n (d.clk.cyc - Tbl.get d.clk.cyc d.lanes.patAt n)
  if d.on F.SLN_STAT_PAT_SYNC n = false ∨ b = 0 then d
  else
    let r := d.draw (b + 1)
    let d := r.1.set F.SLN_PATERR_ERRORS (r.1.get F.SLN_PATERR_ERRORS n + r.2) n
    let d := d.set F.SLN_PATBITS_BITS (d.get F.SLN_PATBITS_BITS n + b) n
    { d with lanes := { d.lanes with patAt := Tbl.set d.lanes.patAt n d.clk.cyc } }

/-- The checker stops: what it has counted stays, and it is not synchronized (log entry 39). -/
def Dev.patStop (d : Dev) (n : Nat) : Dev := (d.patSettle n).set F.SLN_STAT_PAT_SYNC 0 n

/-- ENABLE is 0: the transmitter squelches and the lane goes down; an ACQUIRE that RETRAIN has brought ends with it (R284). -/
def Dev.laneOff (d : Dev) (n : Nat) : Dev :=
  if d.get F.SLN_STAT_STATE n = 0 ∨ d.lanes.descending.contains n then d
  else
    let d := (d.patStop n).set F.SLN_CTL_RETRAIN 0 n
    let d := if d.laneUp n then d.noteDown n else d
    let d := { d with lanes := { d.lanes with descending := d.lanes.descending ++ [n] } }
    d.laneLost n

/-- A lane is OFF: nothing of it runs. -/
def Dev.laneDark (d : Dev) (n : Nat) : Dev :=
  let d := { d with lanes := { d.lanes with descending := d.lanes.descending.filter fun x => x != n } }
  let d := ((d.patStop n).laneTo n 0).set F.SLN_CTL_RETRAIN 0 n
  (d.set F.SLN_STAT_SIG_DET 0 n).set F.SLN_STAT_CDR_LOCK 0 n

/-- A lane on its way down reaches OFF. -/
def Dev.laneOffReached (d : Dev) (n : Nat) : Dev :=
  if d.lanes.descending.contains n then
    let d := d.laneDark n
    if d.useB F.SLN_CTL_ENABLE n && d.mode != 4 then d.laneOn n else d
  else d

/-- Record a FOM (R288). -/
def Dev.showFom (d : Dev) (n fom : Nat) : Dev :=
  let l := (fom :: Tbl.get [] d.lanes.foms n).take 256
  let d := { d with lanes := { d.lanes with foms := Tbl.set d.lanes.foms n l } }
  (d.set F.SLN_RXSTAT_FOM fom n).set F.SLN_RXSTAT_FOM_LOW (l.foldl min 255) n

/-- Show an equalizer's values (R288). -/
def Dev.showEq (d : Dev) (n eq : Nat) : Dev := (d.set F.SLN_EQ_EQ (eq % 2 ^ 64) n 0).set F.SLN_EQ_EQ (eq / 2 ^ 64) n 1

/-- A lane's equalizer values as they stand (R288). -/
def Dev.eqNow (d : Dev) (n : Nat) : Nat := d.get F.SLN_EQ_EQ n 0 + 2 ^ 64 * d.get F.SLN_EQ_EQ n 1

/-! ### Downstream receivers -/

/-- A receiver starts anew (R69): enabled or retrained. DESIGN CHOICE (log entry 140): lock that a retrain takes away counts as
lost, so LOB sets; the manual names LOB for LOCK to HUNT at LOSS_INVALID only. -/
def Dev.rxRestart (d : Dev) (c : Nat) : Dev :=
  let lost := d.on F.TCH_FRMSTAT_BLOCK_LOCK c
  let d := d.rxStop c
  if lost then d.flag F.TCH_FRMSTAT_LOB c else d

/-- A continuous receiver starts from its start values (R270, R277): those at the end of its first ACQUIRE since it was enabled. -/
def Dev.startValues (d : Dev) (n : Nat) : Dev :=
  match Tbl.find? d.lanes.start n with
  | some v => (d.showEq n v.1).set F.SLN_RXSTAT_PEAK v.2 n
  | none => d

/-- Retrain (R270): back to ACQUIRE from the start values, and a tree lane's block lock starts anew (R69). -/
def Dev.retrain (d : Dev) (n : Nat) : Dev :=
  if d.get F.SLN_STAT_STATE n = 4 ∧ d.burstLane n = false ∧ d.lanes.descending.contains n = false then
    let d := ((d.laneTo n 3).flag F.SLN_STAT_RETRAINED n).startValues n
    if n < 128 then d.rxRestart n else d.laneLost n
  else d

/-- A write of SLN_CTL (R284): ENABLE and RETRAIN act. RETRAIN outside RUNNING has no effect. -/
def Dev.writeSlnCtl (d : Dev) (n v : Nat) : Dev :=
  let was := d.on F.SLN_CTL_ENABLE n
  let d := ((((((d.set F.SLN_CTL_ENABLE v n).set F.SLN_CTL_TX_INV (v / 4) n).set F.SLN_CTL_RX_INV (v / 8) n).set
    F.SLN_CTL_TX_PRECODE (v / 16) n).set F.SLN_CTL_RX_PRECODE (v / 32) n).set F.SLN_CTL_LOOP (v / 256) n)
  let d := if was && !bit v 0 then d.laneOff n else if !was && bit v 0 then d.laneOn n else d
  if bit v 1 && d.laneUp n && !d.burstLane n then (d.set F.SLN_CTL_RETRAIN 1 n).retrain n else d

/-- The present SLN_CTL with ENABLE replaced and RETRAIN at `r`. -/
def Dev.slnCtlWith (d : Dev) (n en r : Nat) : Nat :=
  setBits (setBits (d.getReg RegOf.SLN_CTL n 0) 0 1 en) 1 1 r

/-- LANE_ENABLE. -/
def execLaneEnable (n : LaneNo) (s : State) : Res :=
  run (.laneEnable n) s fun d => d.hostW fun d => d.writeSlnCtl n (d.slnCtlWith n 1 0)

/-- LANE_DISABLE. -/
def execLaneDisable (n : LaneNo) (s : State) : Res :=
  run (.laneDisable n) s fun d => d.hostW fun d => d.writeSlnCtl n (d.slnCtlWith n 0 0)

/-- LANE_OFF_REACHED. -/
def execLaneOffReached (n : LaneNo) (s : State) : Res := run (.laneOffReached n) s fun d => d.laneOffReached n

/-- The synthesizer locks: POWERUP to CAL. -/
def execLanePowerupDone (n : LaneNo) (s : State) : Res :=
  run (.lanePowerupDone n) s fun d =>
    if d.get F.SLN_STAT_STATE n = 1 ∧ d.lanes.descending.contains n.val = false then d.laneTo n 2 else d

/-- A burst receiver that runs keeps the PEAK configured (R266). -/
def Dev.showPeak (d : Dev) (n : Nat) : Dev :=
  if d.burstLane n ∧ d.get F.SLN_STAT_STATE n = 4 then d.set F.SLN_RXSTAT_PEAK (d.use F.SLN_RXCFG_PEAK n) n else d

/-- Calibration ends: ACQUIRE on a continuous receiver, RUNNING on a burst receiver. PEAK starts as configured (R266, R287). -/
def execLaneCalDone (n : LaneNo) (s : State) : Res :=
  run (.laneCalDone n) s fun d =>
    if d.get F.SLN_STAT_STATE n = 2 ∧ d.lanes.descending.contains n.val = false then
      let e := d.set F.SLN_RXSTAT_PEAK (d.use F.SLN_RXCFG_PEAK n) n
      if d.burstLane n then (e.laneTo n 4).laneRuns n else e.laneTo n 3
    else d

/-- The step in which lane `n`'s quantities adapt (R268): 4 units, or 1 once the FOM of a span has reached FOM_FINE. -/
def Dev.adaptUnit (d : Dev) (n : Nat) : Int := if d.lanes.fine.contains n then 1 else 4

/-- The receiver evaluates a span (R268): the steps are fine from here on where its FOM reaches FOM_FINE, else coarse. -/
def Dev.evalSpan (d : Dev) (n : Nat) (a : Adapt) : Dev :=
  let l := d.lanes.fine.filter fun x => x != n
  { d with lanes := { d.lanes with fine := if d.use F.SLN_RXCFG_FOM_FINE n ≤ fomOf a.err then l ++ [n] else l } }

/-- The values of a burst receiver after the spans of `l`, with the symbols that PHASE has gone past (R92, R267, R268): the taps
adapt, and with `cdr` gain and phase do. -/
def Dev.adaptBurst (n : Nat) (cdr : Bool) : Dev × EqVals × Int → List Adapt → Dev × EqVals × Int
  | x, [] => x
  | (d, v, w), a :: r =>
    let u := d.adaptUnit n
    let t := v.moveTaps u a.taps
    let k := if cdr then t.moveCdr u a.gain a.phase else (t, 0)
    Dev.adaptBurst n cdr (d.evalSpan n a, k.1, w + k.2) r

/-- Adaptation of a continuous receiver stands still (R268). -/
def Dev.adaptFrozen (d : Dev) (n : Nat) : Bool := d.useB F.SLN_RXCFG_ADAPT_FREEZE n || !d.on F.SLN_STAT_SIG_DET n

/-- A continuous receiver adapts over one span (R266, R268): PEAK moves with PEAK_ADAPT only. -/
def Dev.adaptSpan (n : Nat) (d : Dev) (a : Adapt) : Dev :=
  if d.adaptFrozen n then d
  else
    let u := d.adaptUnit n
    let v := ((EqVals.of (d.eqNow n)).moveTaps u a.taps).moveCdr u a.gain a.phase
    let d := d.showEq n v.1.num
    let d := if d.useB F.SLN_RXCFG_PEAK_ADAPT n then
        d.set F.SLN_RXSTAT_PEAK (holdIn 0 15 ((d.get F.SLN_RXSTAT_PEAK n : Int) + u * a.peak)).toNat n else d
    d.evalSpan n a

/-- A window of a continuous receiver passes (R269, R288): it adapts, and the window's FOM shows. -/
def Dev.rxWindow (n : Nat) (d : Dev) (v : RxVals) : Dev := (v.spans.foldl (Dev.adaptSpan n) d).showFom n (fomOf v.err)

/-- The CDR locks in ACQUIRE (R277): with FOM at FOM_RETRAIN the lane runs. It is frozen while the signal is lost. -/
def Dev.laneLock (d : Dev) (n : Nat) (v : RxVals) : Dev :=
  if d.get F.SLN_STAT_STATE n = 3 ∧ d.on F.SLN_STAT_SIG_DET n = true ∧ d.lanes.descending.contains n = false then
    let d := (d.set F.SLN_STAT_CDR_LOCK 1 n).rxWindow n v
    if d.use F.SLN_RXCFG_FOM_RETRAIN n ≤ fomOf v.err then
      let d := match Tbl.find? d.lanes.start n with
        | some _ => d
        | none => { d with lanes := { d.lanes with start := Tbl.set d.lanes.start n (d.eqNow n, d.get F.SLN_RXSTAT_PEAK n) } }
      (((d.laneTo n 4).set F.SLN_CTL_RETRAIN 0 n)).laneRuns n
    else d
  else d

/-- LANE_LOCK. -/
def execLaneLock (n : LaneNo) (v : RxVals) (s : State) : Res := run (.laneLock n v) s fun d => d.laneLock n v

/-- 20 ms in ACQUIRE with signal and no lock: FAULT. -/
def execLaneFault (n : LaneNo) (s : State) : Res :=
  run (.laneFault n) s fun d =>
    if d.get F.SLN_STAT_STATE n = 3 ∧ d.on F.SLN_STAT_SIG_DET n = true ∧ d.lanes.descending.contains n.val = false then
      let d := d.reach (Tbl.get 0 d.lanes.entered n + 30000000)
      ((d.laneTo n 5).set F.SLN_CTL_RETRAIN 0 n).flag F.SLN_STAT_FAULT n
    else d

/-- 100 ms in FAULT: ACQUIRE again, from the start values. -/
def execFaultRetry (n : LaneNo) (s : State) : Res :=
  run (.faultRetry n) s fun d =>
    if d.get F.SLN_STAT_STATE n = 5 ∧ d.lanes.descending.contains n.val = false then
      ((d.reach (Tbl.get 0 d.lanes.entered n + 150000000)).laneTo n 3).startValues n else d

/-- Is the receiver continuous and powered? -/
def Dev.continuousRx (d : Dev) (n : Nat) : Bool :=
  !d.burstLane n && decide (3 ≤ d.get F.SLN_STAT_STATE n) && !d.lanes.descending.contains n

/-- Loss of signal on a continuous receiver (R268, R277). -/
def execLos (n : LaneNo) (s : State) : Res :=
  run (.los n) s fun d =>
    if d.continuousRx n then
      let d := (d.set F.SLN_STAT_SIG_DET 0 n).flag F.SLN_STAT_LOS n
      if d.get F.SLN_STAT_STATE n = 4 then ((d.laneTo n 3).startValues n).laneLost n else d
    else d

/-- The signal returns (R268): adaptation resumes, and the 20 ms of ACQUIRE run from here. -/
def execSignalReturns (n : LaneNo) (s : State) : Res :=
  run (.signalReturns n) s fun d =>
    if d.continuousRx n && !d.on F.SLN_STAT_SIG_DET n then
      let d := d.set F.SLN_STAT_SIG_DET 1 n
      if d.get F.SLN_STAT_STATE n = 3 then d.laneTo n 3 else d
    else d

/-- A continuous receiver's CDR loses lock (R285). -/
def execCdrLockLost (n : LaneNo) (s : State) : Res :=
  run (.cdrLockLost n) s fun d =>
    if d.continuousRx n && d.on F.SLN_STAT_CDR_LOCK n then (d.set F.SLN_STAT_CDR_LOCK 0 n).flag F.SLN_STAT_LOL n else d

/-- RETRAIN (R270): the host's write, or the windows that have passed, of which the last RETRAIN_WIN have FOMs below
FOM_RETRAIN. -/
def Dev.retrainBy (d : Dev) (n : Nat) (host : Bool) (ws : List RxVals) : Dev :=
  if host then d.hostW fun d => d.writeSlnCtl n (d.slnCtlWith n (d.get F.SLN_CTL_ENABLE n) 1)
  else if d.continuousRx n then
    let d := ws.foldl (Dev.rxWindow n) d
    let w := d.use F.SLN_RXCFG_RETRAIN_WIN n
    let l := (Tbl.get [] d.lanes.foms n).take w
    if l.length = w ∧ l.all (fun f => decide (f < d.use F.SLN_RXCFG_FOM_RETRAIN n)) = true then d.retrain n else d
  else d

/-- RETRAIN. -/
def execRetrain (n : LaneNo) (host : Bool) (ws : List RxVals) (s : State) : Res :=
  run (.retrain n host ws) s fun d => d.retrainBy n host ws

/-! ### What a transmitter sends (R238, R264, R280, R283) -/

/-- TBEN[c] at the instant `at_`, in 2^−16 ns, as far as the bursts sent so far say (R238, R615). -/
def Dev.tben (d : Dev) (c : Nat) (at_ : Int) : Bool :=
  match Tbl.find? d.emus.tben c with
  | some (r, f) => decide (r ≤ at_) && decide (at_ < f)
  | none => false

/-- A pattern generator runs (R279, R280). -/
def Dev.generating (d : Dev) (n : Nat) : Bool := d.mode == 5 && d.on F.SLN_PATCFG_GEN_EN n

/-- A tree lane's framer reaches its own receiver (R283): TEST with LOOP 1, or LOOP 2, which is as LOOP 1. -/
def Dev.nearLoop (d : Dev) (c : Nat) : Bool := d.mode == 5 && (d.use F.SLN_CTL_LOOP c == 1 || d.use F.SLN_CTL_LOOP c == 2)

/-- The far-end loopback drives the balls of lane `n` in TEST (R264, R283). -/
def Dev.loopDrives (d : Dev) (n : Nat) : Bool := d.mode == 5 && d.get F.SLN_CTL_LOOP n == 3

/-- Are the balls of lane `n` at 0 mV at the instant `at_` (R264, R283)? The transmitter is live from the end of calibration on
(R277): in ACQUIRE, RUNNING and FAULT. DEDUCED (log entry 186): R264's "not RUNNING" gives way to R277's table there. In LOOP 1 and
2 what the transmitter sends goes into its own receiver alone. A TX_SUSPECT channel stays squelched (R480). -/
def Dev.squelched (d : Dev) (n : Nat) (at_ : Int) : Bool :=
  let st := d.get F.SLN_STAT_STATE n
  decide (st < 3) || d.lanes.descending.contains n ||
    (decide (n < 128) && (d.mode == 3 || d.arb.squelch || d.on F.STL_CHSTAT_TX_SUSPECT n || (d.termRole n && !d.tben n at_))) ||
    (d.mode == 5 && (d.nearLoop n || (!d.generating n && !d.loopDrives n)))

/-- What drives a transmitter (R264, R280, R283). -/
inductive Source where
  | zero
  | recovered
  | pattern
  | block
  deriving DecidableEq, Repr

/-- The source of lane `n`'s output at the instant `at_`: in LOOP 3 the recovered data, else the pattern generator before the
framer, the MAC or the stitch link (R280). -/
def Dev.source (d : Dev) (n : Nat) (at_ : Int) : Source :=
  if d.squelched n at_ then .zero
  else if d.mode = 5 ∧ d.get F.SLN_CTL_LOOP n = 3 then .recovered
  else if d.generating n then .pattern
  else .block

/-- Symbol `k` of lane `n`'s pattern since its generator started, with the bits of its last injection flipped (R280, R282). -/
def Dev.patOut (d : Dev) (n k : Nat) : Int :=
  let s := patSymbol (d.get F.SLN_PATCFG_PATTERN n) (d.use F.SLN_PATCFG_SQ_HALF n) (d.get F.SLN_USER_PATTERN n) k
  let p := Tbl.get (0, 0) d.lanes.inj n
  let f (i : Nat) : Nat := b2n (decide (p.1 ≤ i) && decide (i < p.1 + p.2))
  pam4 (((if s = -3 then 0 else if s = -1 then 1 else if s = 1 then 3 else 2) : Nat) ^^^ (2 * f (2 * k) + f (2 * k + 1)))

/-- Is a lane's precoding on (R263)? It has an effect on uplink lanes only. -/
def Dev.precodes (d : Dev) (f : Fld) (n : Nat) : Bool := decide (128 ≤ n) && decide (n < 256) && d.useB f n

/-- Symbols as lane `n` puts them on its balls (R263): precoded where that is on, and inverted. -/
def Dev.ballSymbols (d : Dev) (n : Nat) (l : List Int) : List Int :=
  let l := if d.precodes F.SLN_CTL_TX_PRECODE n then (precode 0 (l.map levelOf)).map ofLevel else l
  if d.useB F.SLN_CTL_TX_INV n then l.map (- ·) else l

/-- Symbols as lane `n`'s receiver takes them from its balls (R263). -/
def Dev.rxSymbols (d : Dev) (n : Nat) (l : List Int) : List Int :=
  let l := if d.useB F.SLN_CTL_RX_INV n then l.map (- ·) else l
  if d.precodes F.SLN_CTL_RX_PRECODE n then (unprecode 0 (l.map levelOf)).map ofLevel else l

/-- Symbol `k` that lane `n` sends from its pattern generator since it started (R263, R280, R282). -/
def Dev.genSymbol (d : Dev) (n k : Nat) : Int := (d.ballSymbols n ((List.range (k + 1)).map (d.patOut n))).getD k 0

/-! ### Patterns and injection (R279 to R282) -/

/-- One injection (R282): INJ_LEN + 1 bits flip in what the lane sends next, of its generator or of its framer (log entry 38). -/
def Dev.inject (d : Dev) (n : Nat) : Dev :=
  let len := d.use F.SLN_PATCFG_INJ_LEN n + 1
  let x := d.lanes
  let x := { x with rateAt := Tbl.set x.rateAt n d.clk.cyc }
  let x := if d.generating n then
      { x with inj := Tbl.set x.inj n (laneBits n (d.clk.cyc - Tbl.get d.clk.cyc x.genAt n), len) }
    else { x with owe := Tbl.set x.owe n len }
  ({ d with lanes := x }.set F.SLN_PATCFG_INJ_ONE 0 n).bump F.SLN_CNT_COUNT n 7

/-- A pending INJ_ONE acts in TEST with INJ_MODE 1. -/
def Dev.injectPending (d : Dev) (n : Nat) : Dev :=
  if d.mode = 5 ∧ d.get F.SLN_PATCFG_INJ_MODE n = 1 ∧ d.on F.SLN_PATCFG_INJ_ONE n = true then d.inject n else d

/-- The generator of lane `n` starts, or a rate of injections does (R280, R282). -/
def Dev.genStart (d : Dev) (n : Nat) : Dev :=
  let x := d.lanes
  { d with lanes := { x with
      genAt := Tbl.set x.genAt n d.clk.cyc, inj := Tbl.erase x.inj n, rateAt := Tbl.set x.rateAt n d.clk.cyc } }

/-- Lane `n` enters TEST (R279): what was stored acts. -/
def Dev.testStart (d : Dev) (n : Nat) : Dev := (d.genStart n).injectPending n

/-- May SLN_PATCFG hold what it holds (R280, R289)? -/
def Dev.patOk (d : Dev) (n : Nat) : Bool :=
  decide (d.get F.SLN_PATCFG_PATTERN n < 8) && d.get F.SLN_PATCFG_INJ_MODE n != 3

/-- A write of SLN_PATCFG (R279 to R282, R289): CHK_EN going from 0 to 1 clears the checker's counts. -/
def Dev.writePatCfg (d : Dev) (n v : Nat) : Dev :=
  let e := d.store RegOf.SLN_PATCFG n 0 (setBits v F.SLN_PATCFG_INJ_ONE.lo 1 0)
  if e.patOk n then
    let e := if !d.on F.SLN_PATCFG_CHK_EN n && e.on F.SLN_PATCFG_CHK_EN n then
        (e.set F.SLN_PATERR_ERRORS 0 n).set F.SLN_PATBITS_BITS 0 n
      else if d.on F.SLN_PATCFG_CHK_EN n && !e.on F.SLN_PATCFG_CHK_EN n then e.patStop n else e
    let e := if (!d.on F.SLN_PATCFG_GEN_EN n && e.on F.SLN_PATCFG_GEN_EN n) ||
        (d.get F.SLN_PATCFG_INJ_MODE n != 2 && e.get F.SLN_PATCFG_INJ_MODE n == 2) then e.genStart n else e
    if written F.SLN_PATCFG_INJ_ONE v = 1 then (e.set F.SLN_PATCFG_INJ_ONE 1 n).injectPending n else e
  else d.flag F.SLN_STAT_REFUSED n

/-- Does SLN_TXCFG keep to R262: tap magnitudes that sum to at most 64, and c(0) of 16 to 64? -/
def Dev.tapsOk (d : Dev) (n : Nat) : Bool :=
  let mag (f : Fld) : Nat := (sgn 7 (d.get f n)).natAbs
  let m := d.get F.SLN_TXCFG_MAIN n
  decide (mag F.SLN_TXCFG_PRE3 + mag F.SLN_TXCFG_PRE2 + mag F.SLN_TXCFG_PRE1 + m + mag F.SLN_TXCFG_POST1 ≤ 64) && decide (16 ≤ m)

/-- A write of SLN_TXCFG (R262, R265, R286): at the next frame boundary on a tree lane in head role, at once elsewhere. -/
def Dev.writeTxCfg (d : Dev) (n v : Nat) : Dev :=
  let e := if n < 128 ∧ d.headRole n then d.storeHeld RegOf.SLN_TXCFG n 0 v else d.store RegOf.SLN_TXCFG n 0 v
  if e.tapsOk n then e else d.flag F.SLN_STAT_REFUSED n

/-- INJ_ONE: the write is stored, and acts in TEST. -/
def execInjOne (n : LaneNo) (s : State) : Res :=
  run (.injOne n) s fun d => d.hostW fun d => (d.set F.SLN_PATCFG_INJ_ONE 1 n).injectPending n

/-- A rate injection falls, 2^INJ_RATE bits after the one before; an INJ_ONE that falls on it merges. -/
def execRateInjection (n : LaneNo) (s : State) : Res :=
  run (.rateInjection n) s fun d =>
    if d.mode = 5 ∧ d.get F.SLN_PATCFG_INJ_MODE n = 2 then
      (d.reach (Tbl.get d.clk.cyc d.lanes.rateAt n + laneCycles n (2 ^ d.use F.SLN_PATCFG_INJ_RATE n))).inject n
    else d

/-- 1,024 symbols without error. -/
def execPatSyncSet (n : LaneNo) (s : State) : Res :=
  run (.patSyncSet n) s fun d =>
    if d.checking n && !d.on F.SLN_STAT_PAT_SYNC n then
      { d with lanes := { d.lanes with patAt := Tbl.set d.lanes.patAt n d.clk.cyc } }.set F.SLN_STAT_PAT_SYNC 1 n
    else d

/-- PAT_SYNC clears, with the bits compared and in error since it set or since the counts were last brought up to date. -/
def execPatSyncCleared (n : LaneNo) (nbits : Fin (2 ^ 40)) (errs : Fin (2 ^ 40)) (s : State) : Res :=
  run (.patSyncCleared n nbits errs) s fun d =>
    if d.checking n && d.on F.SLN_STAT_PAT_SYNC n then
      let d := d.set F.SLN_PATERR_ERRORS (d.get F.SLN_PATERR_ERRORS n + errs) n
      (d.set F.SLN_PATBITS_BITS (d.get F.SLN_PATBITS_BITS n + nbits) n).set F.SLN_STAT_PAT_SYNC 0 n
    else d

/-! ### Presets (R272 to R276, R291) -/

/-- A stored preset. -/
def Dev.preset (d : Dev) (i : Nat) : Preset := Tbl.get { value := 0, state := 0, since := 0 } d.lanes.presets i

/-- Replace a preset; its mirror is due. -/
def Dev.setPreset (d : Dev) (i : Nat) (p : Preset) : Dev :=
  let dirty := if i < 16384 ∧ d.lanes.dirty.contains i = false then d.lanes.dirty ++ [i] else d.lanes.dirty
  { d with lanes := { d.lanes with presets := Tbl.set d.lanes.presets i p, dirty := dirty } }

/-- A preset's age in frames, saturating at 255. -/
def Dev.presetAge (d : Dev) (i : Nat) : Nat := min 255 ((d.frameNow + 2 ^ 48 - (d.preset i).since) % 2 ^ 48)

/-- A preset as the host may write it (R291). -/
def presetOk (v : Nat) : Bool :=
  bits v 15 1 == 0 && recBytes v 2 2 == 0 &&
    (List.range 11).all fun k =>
      let t := sgn 8 (recBytes v (5 + k) 1)
      decide (-32 ≤ t) && decide (t ≤ 31)

/-- A host write or erase wins over the write-back of a burst whose load came before it (R276). -/
def Dev.overBurst (d : Dev) (i : Nat) : Dev :=
  let t := d.lanes.loaded.map fun e => (e.1, if e.2.term = i then { e.2 with beaten := true } else e.2)
  { d with lanes := { d.lanes with loaded := t, hostAt := Tbl.set d.lanes.hostAt i d.clk.cyc } }

/-- A write of SLN_PRE_CTL with GO at 1 (R291). -/
def Dev.presetAccess (d : Dev) (index : Nat) (dflt : Bool) (op : Nat) : Dev :=
  if d.on F.SLN_PRE_CTL_BUSY then d
  else
    let d := ((d.set F.SLN_PRE_CTL_INDEX index).set F.SLN_PRE_CTL_DEFAULT (b2n dflt)).set F.SLN_PRE_CTL_OP op
    let c := if dflt then index % 128 else index / 128
    let i := if dflt then 16384 + c else index
    let v := d.readData F.SLN_PRE_DATA_DATA 2
    let refused := op == 3 || (op == 2 && dflt) || d.termRole c || (op == 1 && !presetOk v)
    if refused then (d.flag F.SLN_STAT_REFUSED c).flag F.SLN_PRE_CTL_REFUSED 0 0 false
    else match op with
      | 0 =>
        let d := d.showData F.SLN_PRE_DATA_DATA 2 (d.preset i).value
        (d.set F.SLN_PRE_CTL_STATE (d.preset i).state).set F.SLN_PRE_CTL_AGE (d.presetAge i)
      | 1 => (d.setPreset i { value := v, state := 1, since := d.frameNow }).overBurst i
      | _ => (d.setPreset i { value := 0, state := 0, since := d.frameNow }).overBurst i

/-- SLN_PRE_CTL GO with OP 0. -/
def execPresetRead (index : Gidx) (dflt : Bool) (s : State) : Res :=
  run (.presetRead index dflt) s fun d => d.hostW fun d => d.presetAccess index dflt 0

/-- SLN_PRE_CTL GO with OP 1. -/
def execPresetWrite (index : Gidx) (dflt : Bool) (s : State) : Res :=
  run (.presetWrite index dflt) s fun d => d.hostW fun d => d.presetAccess index dflt 1

/-- SLN_PRE_CTL GO with OP 2. -/
def execPresetErase (index : Gidx) (dflt : Bool) (s : State) : Res :=
  run (.presetErase index dflt) s fun d => d.hostW fun d => d.presetAccess index dflt 2

end Sys2Proof.Machine
end

