-- ==== Sys2Proof/Machine/Tables.lean ====
section
/-!
DEFINITION. The forwarding tables from the host's and the learning station's side (R324 to R340), and the parser's
rule and fragment tables (R305 to R315).
-/

namespace Sys2Proof.Machine

/-! ### The learning station (R326 to R330) -/

/-- The device is the active one of a pair with the link up: it sends its updates (R326). -/
def Dev.sendsUpdates (d : Dev) : Bool :=
  d.get F.STL_STAT_ROLE == 1 && d.get F.STL_STAT_LINK != 0 && d.useB F.FWD_CFG_PARTNER_LEARN

/-- Send an update to the partner (R326, R328). -/
def Dev.tellPartner (d : Dev) (u : LearnUpd) : Dev :=
  if d.sendsUpdates then { d with fwd := { d.fwd with updates := d.fwd.updates ++ [u] } } else d

/-- The update passes every pipeline: the pair leaves each pending filter (R325). -/
def Dev.clearFilters (d : Dev) (pair : Nat) : Dev :=
  let t := d.fwd.filter.map fun e => (e.1, e.2.filter fun x => x.1 != pair)
  { d with fwd := { d.fwd with filter := t } }

/-- The station's answer makes a pair known as excess to every pipeline, or no longer (R327). -/
def Dev.markExcess (d : Dev) (pair : Nat) (on : Bool) : Dev :=
  foldUpTo 16 (fun p e =>
    let l := Tbl.get [] e.fwd.excess p
    let l2 := l.filter fun x => x != pair
    if on then
      (if l.contains pair then e else { e with fwd := { e.fwd with excess := Tbl.set e.fwd.excess p (l ++ [pair]) } })
    else if l2.length = l.length then e
    else { e with fwd := { e.fwd with excess := Tbl.set e.fwd.excess p l2 } }) d

/-- A dynamic bridge entry for a pair with a destination. -/
def bridgeRec (pair dest : Nat) : Nat :=
  setRec (setRec (setNet 0 0 6 (pair % 2 ^ 48)) 6 2 (pair / 2 ^ 48 % 2 ^ 14 + 2 ^ 15)) 8 4 dest

/-- The ways of a set that hold no VALID entry. -/
def freeWays (t : Tbl Nat) (set : Nat) (valid : Nat → Bool) : List Nat :=
  ((List.range 4).filter fun w => !(valid (Tbl.get 0 t (4 * set + w)))).map fun w => 4 * set + w

/-- Write a new dynamic entry in a free way of its set; none when the set is full (R326). -/
def Dev.addBridge (d : Dev) (pair dest : Nat) : Option Dev :=
  let r := d.pick (freeWays d.fwd.bridge (bridgeSet pair) bridgeValid)
  match r.2 with
  | none => none
  | some i => some (r.1.setBridge i (bridgeRec pair dest))

/-- The station has written the bridge table in this cycle: lookups of the cycle see what stood there before, in `old` (R326). -/
def Dev.stationWrote (d old : Dev) : Dev :=
  let base : Tbl Nat := if old.fwd.seen.1 = d.clk.cyc then old.fwd.seen.2 else []
  let l := (old.fwd.bridge ++ d.fwd.bridge).foldl (fun (t : Tbl Nat) e =>
    let was := Tbl.get 0 old.fwd.bridge e.1
    if was = Tbl.get 0 d.fwd.bridge e.1 ∨ (Tbl.find? t e.1).isSome then t else Tbl.set t e.1 was) base
  { d with fwd := { d.fwd with seen := (d.clk.cyc, l) } }

/-- Is the terminal that a service names at its limit (R326, R327)? -/
def Dev.svcLimit (d : Dev) (s : Nat) (present : Option Nat) : Bool :=
  match svcTerm (d.svc s) with
  | none => false
  | some g => decide (some g ≠ present) && decide (bits (recBytes (d.learnRec g) 0 2) 0 12 ≤ d.learned g)

/-- The station writes a pair's entry for a service (R326), and every pipeline learns of its answer as it passes (R325, R327);
whether an entry was written. -/
def Dev.learnPair (d : Dev) (pair service : Nat) : Dev × Bool :=
  let d := d.clearFilters pair
  match d.findBridge pair with
  | some i =>
    let r := Tbl.get 0 d.fwd.bridge i
    if recBytes r 8 4 = service then (d.setBridge i (setRec r 12 1 0), false)
    else if bridgeStatic r then (d, false)
    else if d.svcLimit service (d.learnTerm r) then ((d.flag F.FWD_STAT_EXCESS).markExcess pair true, false)
    else (((d.setBridge i (bridgeRec pair service)).fwdCount 5).markExcess pair false, true)
  | none =>
    if d.svcLimit service none then ((d.flag F.FWD_STAT_EXCESS).markExcess pair true, false)
    else match d.addBridge pair service with
      | none => (d.flag F.FWD_STAT_FULL, false)
      | some d => ((d.fwdCount 4).markExcess pair false, true)

/-- The station takes its oldest request (R326): in STANDBY the device learns only from its partner, and it comes to nothing
(R330). -/
def Dev.learnStep (d : Dev) : Dev :=
  match d.fwd.queue with
  | [] => d
  | q :: rest =>
    let d := { d with fwd := { d.fwd with queue := rest } }.set F.FWD_STAT_LEARN_QUEUE rest.length
    if d.mode = 3 then d.clearFilters q.pair
    else
      let r := d.learnPair q.pair q.service
      if r.2 then r.1.tellPartner { pair := q.pair, dest := q.service, removed := false } else r.1

/-- The station applies its oldest request; lookups of this cycle see the old entry (R326). -/
def Dev.learnApply (d : Dev) : Dev := d.learnStep.stationWrote d

/-- Remove bridge entry `i`: LEARNED falls, and the partner is told (R328). -/
def Dev.dropBridge (d : Dev) (i : Nat) : Dev :=
  let r := Tbl.get 0 d.fwd.bridge i
  (d.setBridge i 0).tellPartner { pair := bridgePair r, dest := recBytes r 8 4, removed := true }

/-- Remove every dynamic entry that satisfies `p` (R329). -/
def Dev.dropBridges (d : Dev) (p : Nat → Bool) : Dev :=
  d.fwd.bridge.foldl (fun e x =>
    if bridgeValid x.2 && !bridgeStatic x.2 && p x.2 then e.dropBridge x.1 else e) d

/-- The service a bridge entry's DEST names. -/
def destSvc (r : Nat) : Option Nat :=
  if bits (recBytes r 8 4) 30 2 = 0 then some (bits (recBytes r 8 4) 0 17) else none

/-- Remove the entries whose service names terminal `g` (R329). -/
def Dev.dropTerm (d : Dev) (g : Nat) : Dev :=
  d.dropBridges fun r => match destSvc r with
    | some s => svcTerm (d.svc s) == some g
    | none => false

/-- Remove the entries that name service `s`. -/
def Dev.dropSvc (d : Dev) (s : Nat) : Dev := d.dropBridges fun r => destSvc r == some s

/-- Remove the entries of bridge domain `b`. -/
def Dev.dropBd (d : Dev) (b : Nat) : Dev := d.dropBridges fun r => bits (recBytes r 6 2) 0 14 == b

/-- The station's sweep of one entry (R328): one that a source hit of this cycle refreshed keeps AGE 0. An entry that the host
wrote with AGE 3 goes too (log entry 200). -/
def Dev.sweepEntry (d : Dev) (i r : Nat) : Dev :=
  if bridgeStatic r || !bridgeValid r || (d.fwd.hits.1 == d.clk.cyc && d.fwd.hits.2.contains i) then d
  else
    let age := bits (recBytes r 12 1) 0 2
    if 2 ≤ age then (d.dropBridge i).fwdCount 6 else d.setBridge i (setRec r 12 1 (age + 1))

/-- A sweep of the whole table (R328), a third of AGE_S after the one before; AGE_S as it is now holds for the wait that begins
(R335). Its cycle ends with it, so that every source hit of that cycle has come before (log entry 200). -/
def Dev.agingSweep (d : Dev) : Dev :=
  let d := d.reach d.fwd.sweepDue
  let d := d.fwd.bridge.foldl (fun e x => e.sweepEntry x.1 x.2) d
  { d with fwd := { d.fwd with sweepDue := d.clk.cyc + d.use F.FWD_CFG_AGE_S * 500000000 } }.nextCycle

/-- An update from the partner (R330): written under the rules of R326, the limit of its terminal among them. -/
def Dev.applyUpdate (d : Dev) (u : LearnUpd) : Dev :=
  match d.findBridge u.pair with
  | some i =>
    let r := Tbl.get 0 d.fwd.bridge i
    if bridgeStatic r then d
    else if u.removed then d.setBridge i 0
    else (d.learnPair u.pair u.dest).1
  | none => if u.removed then d else (d.learnPair u.pair u.dest).1

/-- The station applies one request. -/
def execLearnApply (s : State) : Res := run .learnApply s Dev.learnApply

/-- Pairs requested 10 µs ago or longer leave a pipeline's pending filter (R325). -/
def execPendingFilterTimeout (pipe : Pipe) (s : State) : Res :=
  run (.pendingFilterTimeout pipe) s fun d =>
    match Tbl.get [] d.fwd.filter pipe with
    | [] => d
    | e :: _ =>
      let d := d.reach (e.2 + 15000)
      let l := (Tbl.get [] d.fwd.filter pipe).filter fun x => decide (d.clk.cyc < x.2 + 15000)
      { d with fwd := { d.fwd with filter := Tbl.set d.fwd.filter pipe l } }

/-- A sweep. -/
def execAgingSweep (s : State) : Res := run .agingSweep s Dev.agingSweep

/-! ### The flush register (R338) -/

/-- Does an index lie beyond its scope? -/
def flushBeyond (id scope : Nat) : Bool := decide (scope % 2 = 0 ∧ 16384 ≤ id)

/-- A write of FWD_FLUSH with GO at 1. -/
def Dev.fwdFlush (d : Dev) (id scope : Nat) : Dev :=
  if d.on F.FWD_FLUSH_BUSY || flushBeyond id scope then
    d.flag F.FWD_STAT_REFUSED
  else
    let d := (d.set F.FWD_FLUSH_ID id).set F.FWD_FLUSH_SCOPE scope
    match scope with
    | 0 => d.dropBd id
    | 1 => d.dropSvc id
    | 2 => d.dropTerm id
    | _ => d.dropBridges fun _ => true

/-- FWD_FLUSH GO. -/
def execFwdFlush (id : Fin (2 ^ 17)) (scope : Fin 4) (s : State) : Res :=
  run (.fwdFlush id scope) s fun d => d.hostW fun d => d.fwdFlush id scope

/-! ### Prefix memory (R333, R334) -/

/-- Slots of region `len`. -/
def Dev.regionSize (d : Dev) (len : Nat) : Nat := Tbl.get 0 d.fwd.regions len

/-- The first slot of region `len`: the regions lie in descending length from index 0. -/
def Dev.regionStart (d : Dev) (len : Nat) : Nat :=
  d.fwd.regions.foldl (fun a e => if len < e.1 then a + e.2 else a) 0

/-- The slots of all regions. -/
def Dev.regionTop (d : Dev) : Nat := d.fwd.regions.foldl (fun a e => a + e.2) 0

/-- Write or clear a prefix slot, with its mirror. -/
def Dev.setPrefix (d : Dev) (i : Nat) (r : Option Nat) : Dev :=
  match r with
  | some v =>
    ({ d with fwd := { d.fwd with prefixes := Tbl.set d.fwd.prefixes i v } }.mirror 0x03000000 32 i 0 24 v).showUse
  | none =>
    ({ d with fwd := { d.fwd with prefixes := Tbl.erase d.fwd.prefixes i } }.mirror 0x03000000 32 i 0 24 0).showUse

/-- The slot of the prefix that has the VRF, AF, LEN and ADDR of a record. -/
def Dev.samePrefix (d : Dev) (r : Nat) : Option Nat :=
  Tbl.first? (fun _ x => recBytes x 0 20 == recBytes r 0 20) d.fwd.prefixes

/-- The holes of region `len`. -/
def Dev.holes (d : Dev) (len : Nat) : List Nat :=
  ((List.range (d.regionSize len)).map fun k => d.regionStart len + k).filter fun i =>
    (Tbl.find? d.fwd.prefixes i).isNone

/-- Move region `len` up by one slot: its first entry goes to the slot just after its last (R334). -/
def Dev.moveRegion (d : Dev) (len : Nat) : Dev :=
  let n := d.regionSize len
  if n = 0 then d
  else
    let a := d.regionStart len
    match Tbl.find? d.fwd.prefixes a with
    | none => d
    | some r => ((d.setPrefix (a + n) (some r)).setPrefix a none).fwdCount 19

/-- Insert a prefix (R334): none when it cannot be placed. -/
def Dev.insertPrefix (d : Dev) (r : Nat) : Option Dev :=
  let len := recBytes r 3 1
  let h := d.pick (d.holes len)
  match h.2 with
  | some i => some (h.1.setPrefix i (some r))
  | none =>
    if 98304 ≤ d.regionTop then none
    else
      let slot := d.regionStart len + d.regionSize len
      let e := (List.range len).foldl Dev.moveRegion d
      let moved := e.fwd.prefixes != d.fwd.prefixes
      let e := { e with fwd := { e.fwd with regions := Tbl.set e.fwd.regions len (d.regionSize len + 1) } }
      if moved then
        let e := { e with fwd := { e.fwd with insert := some (slot, r) } }
        some ((e.set F.FWD_IND_CTL_BUSY 1).set F.FWD_IND_CTL_GO 1)
      else some (e.setPrefix slot (some r))

/-- The last write of an insertion (R334). -/
def Dev.prefixDone (d : Dev) : Dev :=
  match d.fwd.insert with
  | none => d
  | some (i, r) =>
    let d := { d with fwd := { d.fwd with insert := none } }.setPrefix i (some r)
    (d.set F.FWD_IND_CTL_BUSY 0).set F.FWD_IND_CTL_GO 0

/-- The relocation's last write completes. -/
def execPrefixRelocationDone (s : State) : Res := run .prefixRelocationDone s Dev.prefixDone

/-! ### The forwarding port (R340) -/

/-- A destination with no reserved type and nothing where R320 marks zero. -/
def destOk (v : Nat) : Bool := bits v 30 2 != 3 && !(bits v 30 2 == 2 && bits v 0 17 != 0)

/-- Entries of each table. -/
def fwdSize (t : Nat) : Nat := [131072, 1048576, 262144, 98304, 65536, 16384, 16384, 0].getD t 0

/-- Bytes of a record of each table. -/
def fwdLen (t : Nat) : Nat := [48, 16, 32, 24, 8, 8, 8, 0].getD t 0

/-- A record of each table. -/
def Dev.fwdRec (d : Dev) (t i : Nat) : Nat :=
  match t with
  | 0 => d.svc i
  | 1 => Tbl.get 0 d.fwd.bridge i
  | 2 => Tbl.get 0 d.fwd.hosts i
  | 3 => Tbl.get 0 d.fwd.prefixes i
  | 4 => Tbl.get 0 d.fwd.members i
  | 5 => d.learnRec i
  | _ => d.bd i

/-- Some other VALID record of the set has the same key. -/
def dupIn (t : Tbl Nat) (set i : Nat) (p : Nat → Bool) : Bool :=
  (List.range 4).any fun w => 4 * set + w != i && (match Tbl.find? t (4 * set + w) with
    | some r => p r
    | none => false)

/-- May a record be written at `i` of table `t` (R340)? -/
def Dev.fwdOk (d : Dev) (t i r : Nat) : Bool :=
  match t with
  | 0 =>
    let k := recBytes r 0 8
    i / 4 == svcSet k && !dupIn d.fwd.services (svcSet k) i (fun x => svcValid x && recBytes x 0 8 == k) &&
      decide (svcKind r ≤ 3) && svcMode r != 3 && destOk (recBytes r 40 4) &&
      bits (recBytes r 9 1) 4 4 == 0 && bits (recBytes r 10 2) 14 2 == 0 && bits (recBytes r 20 4) 21 11 == 0 &&
      recBytes r 44 4 == 0 && !(svcKind r == 3 && svcTarget r != 0) &&
      !(svcKind r == 2 && decide (k % 65536 < 0xFF00))
  | 1 =>
    let s := bridgeSet (bridgePair r)
    i / 4 == s && !dupIn d.fwd.bridge s i (fun x => bridgeValid x && bridgePair x == bridgePair r) &&
      destOk (recBytes r 8 4) && bits (recBytes r 12 1) 2 6 == 0 && recBytes r 13 3 == 0
  | 2 =>
    let af := bits (recBytes r 2 1) 1 1
    let s := hostSet (recBytes r 0 2) af (recNet r 4 16)
    i / 4 == s && !dupIn d.fwd.hosts s i (fun x => hostValid x && recBytes x 0 2 == recBytes r 0 2 &&
        bits (recBytes x 2 1) 1 1 == af && recNet x 4 16 == recNet r 4 16) &&
      destOk (recBytes r 20 4) && bits (recBytes r 2 1) 2 6 == 0 && recBytes r 3 1 == 0 && recBytes r 30 2 == 0 &&
      !(af == 0 && recBytes r 8 12 != 0)
  | 3 =>
    let len := recBytes r 3 1
    let af := bits (recBytes r 2 1) 0 1
    let a := recNet r 4 16
    bits (recBytes r 2 1) 1 7 == 0 && decide (len ≤ if af = 0 then 32 else 128) && a % 2 ^ (128 - len) == 0 &&
      bits (recBytes r 20 4) 18 13 == 0
  | 4 => recBytes r 7 1 == 0
  | 5 => recBytes r 4 4 == 0 && recBytes r 2 2 == recBytes (d.learnRec i) 2 2
  | 6 => recBytes r 3 5 == 0
  | _ => false

/-- A refused access of the forwarding port: REFUSED of the port and of FWD_STAT, one REFUSALS. -/
def Dev.fwdRefuse (d : Dev) : Dev := (d.flag F.FWD_IND_CTL_REFUSED).flag F.FWD_STAT_REFUSED 0 0 false

/-- The host has written the bridge entry of a pair: a request for it that arrives in this cycle is dropped (R329). -/
def Dev.hostWrote (d : Dev) (pair : Nat) : Dev :=
  let base := if d.fwd.hostPut.1 = d.clk.cyc then d.fwd.hostPut.2 else []
  let q := d.fwd.queue.filter fun x => x.pair != pair || x.at_ != d.clk.cyc
  { d with fwd := { d.fwd with hostPut := (d.clk.cyc, pair :: base), queue := q } }.set F.FWD_STAT_LEARN_QUEUE q.length

/-- The terminal that service `i` names changes: the entries that name the service count for the new one (R326). -/
def Dev.moveLearned (d : Dev) (i : Nat) (a b : Option Nat) : Dev :=
  if a = b then d
  else d.fwd.bridge.foldl (fun e x =>
    if bridgeValid x.2 && !bridgeStatic x.2 && destSvc x.2 == some i then (e.learnAdd a false).learnAdd b true else e) d

/-- Write a record that has been accepted, with its mirror and what its change brings about (R329, R340). -/
def Dev.fwdPut (d : Dev) (t i r : Nat) : Dev :=
  match t with
  | 0 =>
    let old := d.svc i
    let d := if svcValid old && !svcValid r then d.dropSvc i else d.moveLearned i (svcTerm old) (svcTerm r)
    { d with fwd := { d.fwd with services := Tbl.put 0 d.fwd.services i r } }.mirror 0 64 i 0 48 r
  | 1 => (d.setBridge i r).hostWrote (bridgePair r)
  | 2 => ({ d with fwd := { d.fwd with hosts := Tbl.put 0 d.fwd.hosts i r } }.mirror 0x02000000 32 i 0 32 r).showUse
  | 4 => { d with fwd := { d.fwd with members := Tbl.put 0 d.fwd.members i r } }.mirror 0x03400000 8 i 0 8 r
  | 5 => d.setLearn i r
  | 6 =>
    let was := bit (recBytes (d.bd i) 2 1) 0
    let d := { d with fwd := { d.fwd with bds := Tbl.put 0 d.fwd.bds i r } }.mirror 0x03480000 8 i 0 8 r
    if was && !(bit (recBytes r 2 1) 0) then d.dropBd i else d
  | _ => d

/-- Set the fields of FWD_IND_CTL that a write stores. -/
def Dev.fwdCtl (d : Dev) (index table : Nat) (write remove : Bool) : Dev :=
  (((d.set F.FWD_IND_CTL_INDEX index).set F.FWD_IND_CTL_TABLE table).set F.FWD_IND_CTL_WRITE (b2n write)).set
    F.FWD_IND_CTL_REMOVE (b2n remove)

/-- A read access. -/
def Dev.fwdRead (d : Dev) (table index : Nat) : Dev :=
  if fwdSize table ≤ index then d.fwdRefuse else d.showData F.FWD_IND_DATA_DATA 6 (d.fwdRec table index)

/-- A write access: prefixes are placed under R334, and INDEX is ignored for them. -/
def Dev.fwdWrite (d : Dev) (table index : Nat) : Dev :=
  let r := d.readData F.FWD_IND_DATA_DATA 6 % 2 ^ (8 * fwdLen table)
  if table = 7 ∨ (table ≠ 3 ∧ fwdSize table ≤ index) ∨ d.fwdOk table index r = false then d.fwdRefuse
  else if table = 3 then
    match d.samePrefix r with
    | some i => d.setPrefix i (some r)
    | none => match d.insertPrefix r with
      | some d => d
      | none => d.fwdRefuse
  else d.fwdPut table index r

/-- The record at an index is made invalid, where it has a VALID bit. -/
def Dev.fwdInvalid (d : Dev) (table index : Nat) : Dev :=
  let r := d.fwdRec table index
  match table with
  | 0 => d.fwdPut 0 index (setRec r 8 1 (recBytes r 8 1 / 2 * 2))
  | 1 => d.fwdPut 1 index (setRec r 6 2 (recBytes r 6 2 % 2 ^ 15))
  | 2 => d.fwdPut 2 index (setRec r 2 1 (recBytes r 2 1 / 2 * 2))
  | 3 => d.setPrefix index none
  | 6 => d.fwdPut 6 index (setRec r 2 1 (recBytes r 2 1 / 2 * 2))
  | _ => d

/-- A remove access: the prefix the data names, or the record at INDEX made invalid. -/
def Dev.fwdRemove (d : Dev) (table index : Nat) : Dev :=
  if table = 7 ∨ (table ≠ 3 ∧ fwdSize table ≤ index) then d.fwdRefuse
  else if table = 3 then
    match d.samePrefix (d.readData F.FWD_IND_DATA_DATA 6) with
    | some i => d.setPrefix i none
    | none => d
  else d.fwdInvalid table index

/-- A write of FWD_IND_CTL that starts an access: nothing while BUSY is 1 (R340). -/
def Dev.fwdAccess (d : Dev) (index table : Nat) (write remove : Bool) : Dev :=
  if d.on F.FWD_IND_CTL_BUSY then d
  else
    let d := d.fwdCtl index table write remove
    if write && remove then d.fwdRemove table index else if write then d.fwdWrite table index else d.fwdRead table index

/-- FWD_IND_CTL GO with WRITE 0. -/
def execFwdIndRead (table : Fin 8) (index : Fin (2 ^ 20)) (s : State) : Res :=
  run (.fwdIndRead table index) s fun d => d.hostW fun d => d.fwdAccess index table false false

/-- FWD_IND_CTL GO with WRITE 1. -/
def execFwdIndWrite (table : Fin 8) (index : Fin (2 ^ 20)) (s : State) : Res :=
  run (.fwdIndWrite table index) s fun d => d.hostW fun d => d.fwdAccess index table true false

/-- FWD_IND_CTL GO with WRITE and REMOVE 1. -/
def execFwdIndRemove (table : Fin 8) (index : Fin (2 ^ 20)) (s : State) : Res :=
  run (.fwdIndRemove table index) s fun d => d.hostW fun d => d.fwdAccess index table true true

/-! ### The rule and fragment tables (R305 to R315) -/

/-- A refused access of the parser's port. -/
def Dev.parRefuse (d : Dev) : Dev :=
  ((d.bump F.PAR_CNT_COUNT 0 12).flag F.PAR_STAT_REFUSED 0 0 false).flag F.PAR_IND_CTL_REFUSED 0 0 false

/-- The record of a fragment entry (R315). -/
def fragRec (e : Frag) : Nat :=
  ofLE (toLE e.dir 1 ++ toLE e.port 1 ++ toLE 0 1 ++ toLE e.proto 1 ++ toLE e.ident 4 ++ toBE e.sip 16 ++
    toBE e.dip 16 ++ toLE 0 8 ++ toLE e.action 16 ++ toLE e.hash 4 ++ toLE e.bytes 4 ++ toLE (e.total.getD 0) 4 ++
    toLE e.stamp 4)

/-- A record of each table of the parser. -/
def Dev.parRec (d : Dev) (t i : Nat) : Nat :=
  match t with
  | 0 => Tbl.get 0 d.par.rules i
  | 1 => Tbl.get 0 d.par.hits i
  | _ => match Tbl.find? d.par.frags i with
    | some e => fragRec e
    | none => 0

/-- Do the bits of an action that R303 marks zero read zero? -/
def actionOk (a : Nat) : Bool :=
  bits (recBytes a 1 1) 7 1 == 0 && recBytes a 3 1 == 0 && recBytes a 12 4 == 0

/-- Rewrite a rule's mirror, making its version odd and then even (R558). -/
def Dev.mirrorRule (d : Dev) (i : Nat) : Dev :=
  let a := 0x59000000 + 256 * i
  let v := ofLE (Mem.readN d.obs (a + 252) 4)
  let d := d.obsWrite (a + 252) (toLE (v + 1) 4)
  let d := d.obsWrite a (toLE (Tbl.get 0 d.par.rules i) 192 ++ toLE (Tbl.get 0 d.par.hits i) 5)
  d.obsWrite (a + 252) (toLE (v + 2) 4)

/-- Rewrite a fragment entry's mirror. -/
def Dev.mirrorFrag (d : Dev) (i : Nat) : Dev := d.mirror 0x0A000000 128 i 0 80 (d.parRec 2 i)

/-- An accepted rule write (R305, R315), with its mirror: packets parsed in this cycle see the old record. -/
def Dev.putParRule (d : Dev) (index r : Nat) : Dev :=
  let old := Tbl.set d.par.rold index (d.ruleSeen index, d.clk.cyc)
  { d with par := { d.par with rules := Tbl.put 0 d.par.rules index r, rold := old } }.mirrorRule index

/-- An access of the parser's port: nothing while BUSY is 1. -/
def Dev.parAccess (d : Dev) (index table : Nat) (write : Bool) : Dev :=
  if d.on F.PAR_IND_CTL_BUSY then d
  else
    let d := ((d.set F.PAR_IND_CTL_INDEX index).set F.PAR_IND_CTL_TABLE table).set F.PAR_IND_CTL_WRITE (b2n write)
    if write then
      let r := d.readData F.PAR_IND_DATA_DATA 24
      if table ≠ 0 ∨ actionOk (recBytes r 176 16) = false then d.parRefuse
      else d.putParRule index r
    else if table = 3 then d.parRefuse
    else d.showData F.PAR_IND_DATA_DATA 24 (d.parRec table index)

/-- A write of PAR_RANGE (R301, R305, R313): one with a reserved SRC is refused; packets of this cycle see the old record. -/
def Dev.writeRange (d : Dev) (i v : Nat) : Dev :=
  if 8 ≤ written F.PAR_RANGE_SRC v then (d.bump F.PAR_CNT_COUNT 0 12).flag F.PAR_STAT_REFUSED 0 0 false
  else
    let old := Tbl.set d.par.gold i (d.rangeCfg i, d.clk.cyc)
    { d with par := { d.par with gold := old } }.store RegOf.PAR_RANGE i 0 v

/-- PAR_IND_CTL GO with WRITE 0. -/
def execParIndRead (table : Fin 4) (index : Fin 8192) (s : State) : Res :=
  run (.parIndRead table index) s fun d => d.hostW fun d => d.parAccess index table false

/-- PAR_IND_CTL GO with WRITE 1. -/
def execParIndWrite (table : Fin 4) (index : Fin 8192) (s : State) : Res :=
  run (.parIndWrite table index) s fun d => d.hostW fun d => d.parAccess index table true

/-- A fragment entry without a hit for TIMEOUT_MS is freed (R307): its age runs by the 32-bit stamp. -/
def Dev.fragTimeout (d : Dev) (i : Nat) : Dev :=
  match Tbl.find? d.par.frags i with
  | none => d
  | some e =>
    let d := { d with par := { d.par with frags := Tbl.erase d.par.frags i } }.showFrags
    d.parFlag F.PAR_STAT_FRAGTO e.dir 10

/-- The sweep frees an entry; the event falls when TIMEOUT_MS has passed since its last hit. -/
def execFragTimeout (i : Fin 8192) (s : State) : Res :=
  run (.fragTimeout i) s fun d =>
    match Tbl.find? d.par.frags i with
    | none => d
    | some e =>
      let age := (sdiff 32 d.stamp e.stamp).toNat
      (d.runTo (d.nowNs + (d.use F.PAR_FRAGCFG_TIMEOUT_MS * 1000000 - age))).fragTimeout i

end Sys2Proof.Machine
end

