-- ==== Sys2Proof/Machine/StSend.lean ====
section
/-!
DEFINITION. Messages to the partner (R463 to R467): when the stitch link carries them, and how they are formed.
-/

namespace Sys2Proof.Machine

/-! ### Roles -/

/-- The device is one of a pair (R33). -/
def Dev.paired (d : Dev) : Bool := d.on F.GLB_MODE_PAIRED

/-- The stitch link carries messages: UP or DEGRADED, with a partner that matches (R463, R464). -/
def Dev.stitchUp (d : Dev) : Bool := d.paired && d.booted && d.get F.STL_STAT_LINK != 0 && !d.stl.mismatch

/-- The active device of a pair: in HEAD, with a partner or solo (R470). -/
def Dev.active (d : Dev) : Bool := d.paired && d.booted && d.mode == 0

/-- The standby device of a pair. -/
def Dev.standby (d : Dev) : Bool := d.paired && d.booted && d.mode == 3

/-- HEALTHY (R465): no TX_SUSPECT channel and no Quill alarm raised. -/
def Dev.healthy (d : Dev) : Bool :=
  d.get F.QUL_ALARM_ACTIVE == 0 && (List.range 128).all fun c => !d.on F.STL_CHSTAT_TX_SUSPECT c

/-! ### Messages (R465 to R467) -/

/-- A stitch message on the link: header, body, CRC-32C, and zeros to a whole number of blocks (R465). -/
def Dev.stWire (d : Dev) (type seq : Nat) (body : List Byte) : List Byte :=
  let fl := b2n (d.on F.STL_STAT_SYNCED) + 2 * b2n (d.on F.STL_STAT_READY) + 4 * b2n d.healthy
  let m := toBE type 1 ++ toBE fl 1 ++ toBE body.length 2 ++ toBE seq 4 ++ toBE d.frameNow 6 ++ toBE 0 2 ++ body
  let m := m ++ toBE (crc32c m) 4
  m ++ List.replicate ((8 - m.length % 8) % 8) 0

/-- Send a message to the partner. -/
def Dev.stSend (d : Dev) (type : Nat) (body : List Byte) : Dev :=
  if d.stitchUp then
    let m : StMsg := { type := type, seq := d.stl.seq, body := d.stWire type d.stl.seq body }
    { d with stl := { d.stl with seq := (d.stl.seq + 1) % 2 ^ 32, sent := d.stl.sent ++ [m] } }
  else d

end Sys2Proof.Machine
end

