-- ==== Sys2Proof/Machine/Cipher.lean ====
section
/-!
DEFINITION. The cipher engine and keys (R410 to R434).
-/

namespace Sys2Proof.Machine

open Sys2Proof.Crypto

/-! ### Slots -/

/-- An EMPTY slot (R412). -/
def emptySlot : Slot := { key := 0, state := 0, tx := 0, rx := none, warned := false, resync := false }

/-- A slot. -/
def Dev.slot (d : Dev) (i : Nat) : Slot := Tbl.get emptySlot d.cry.slots i

/-- The slot of a terminal's KEY_INDEX (R411). -/
def termSlot (g k : Nat) : Nat := 2 * g + k

/-- The slot of a multicast group's KEY_INDEX (R411). -/
def mcastSlot (c m k : Nat) : Nat := 32768 + 2 * (256 * c + m) + k

/-- The slot status of the mirror (R556). -/
def slotStatus (s : Slot) : List Byte :=
  toLE s.state 1 ++ toLE (b2n s.warned + 2 * b2n s.rx.isSome) 1 ++ toLE 0 2 ++ toLE s.tx 6 ++ toLE (s.rx.getD 0) 6

/-- Where a slot's status is mirrored (R556). -/
def slotAddr (i : Nat) : Nat :=
  if i < 32768 then 0x40000000 + i / 2 * 256 + 96 + 16 * (i % 2) else 0x40400000 + 16 * (i - 32768)

/-- Write a slot, and its mirror for a traffic slot. -/
def Dev.setSlot (d : Dev) (i : Nat) (s : Slot) : Dev :=
  let d := { d with cry := { d.cry with slots := Tbl.put emptySlot d.cry.slots i s } }
  if i < 98304 then d.obsWrite (slotAddr i) (slotStatus s) else d

/-- Is `i` a slot that the slot writer has written in this cycle (R414)? -/
def Dev.slotWritten (d : Dev) (i : Nat) : Bool := d.cry.old.1 == d.clk.cyc && (Tbl.find? d.cry.old.2 i).isSome

/-- A slot as an operation that starts now loads it: as it was, in the cycle of a write of the slot writer (R414). -/
def Dev.slotSeen (d : Dev) (i : Nat) : Slot := if d.slotWritten i then Tbl.get emptySlot d.cry.old.2 i else d.slot i

/-- What an operation that starts now does to its slot: in the cycle of a write, to what the slot held before (R414). -/
def Dev.setSeen (d : Dev) (i : Nat) (s : Slot) : Dev :=
  if d.slotWritten i then { d with cry := { d.cry with old := (d.cry.old.1, Tbl.set d.cry.old.2 i s) } } else d.setSlot i s

/-- The slot writer writes slot `i` (R414). -/
def Dev.keepOld (d : Dev) (i : Nat) : Dev :=
  let t : Tbl Slot := if d.cry.old.1 = d.clk.cyc then d.cry.old.2 else []
  let t := if d.slotWritten i then t else Tbl.set t i (d.slot i)
  { d with cry := { d.cry with old := (d.clk.cyc, t) } }

/-- The limit of R420. -/
def keyLimit : Nat := 2 ^ 48 - 2 ^ 25

/-- A flag of CRY_STAT for an occurrence on channel `c`: entry `k` of CRY_CNT counts it too (R434). -/
def Dev.cryFlag (d : Dev) (f : Fld) (c k : Nat) : Dev := (d.flag f).bump F.CRY_CNT_COUNT c k

/-- NO_KEY on channel `c` (R415). -/
def Dev.noKey (d : Dev) (c : Nat) : Dev := d.cryFlag F.CRY_STAT_NOKEY c 4

/-- A slot whose next value reaches the warning level or the limit (R420). -/
def Dev.checkLimit (d : Dev) (i : Nat) : Dev :=
  let s := d.slotSeen i
  let d := if 2 ^ 48 - 2 ^ 32 ≤ s.tx ∧ s.warned = false then
    (d.setSeen i { s with warned := true }).flag F.CRY_STAT_WARN else d
  let s := d.slotSeen i
  if keyLimit ≤ s.tx ∧ s.state = 1 then (d.setSeen i { s with state := 3 }).flag F.CRY_STAT_STOP else d

/-- Consume one value of slot `i` for a segment that channel `c` sends (R65, R412, R415, R420): the key and the
value; none when the segment is discarded with its packet. -/
def Dev.consume (d : Dev) (c i : Nat) : Dev × Option (Nat × Nat) :=
  let s := d.slotSeen i
  match s.state with
  | 1 =>
    if s.tx < keyLimit then ((d.setSeen i { s with tx := s.tx + 1 }).checkLimit i, some (s.key, s.tx))
    else (d.bump F.CRY_CNT_COUNT c 5, none)
  | 3 => (d.bump F.CRY_CNT_COUNT c 5, none)
  | _ => (d.noKey c, none)

/-- The candidates of a received SEQUENCE (R418, R419). -/
def candidates (s : Slot) (seq : Nat) : List Nat :=
  match s.rx with
  | none => [seq]
  | some h =>
    if s.resync then
      let b := (h / 2 ^ 24 + 1) * 2 ^ 24
      [b + seq, b + 2 ^ 24 + seq, b + 2 * 2 ^ 24 + seq]
    else
      let v := h / 65536 * 65536 + seq
      [if h < v then v else v + 65536]

/-- What authenticating a received value came to. -/
inductive Auth where
  /-- Passed: the counter value and what was recovered. -/
  | pass (ctr : Nat) (bytes : List Byte)
  /-- Every candidate failed. -/
  | fail
  /-- The candidate lies at or above the limit (R418). -/
  | beyond
  /-- The slot is EMPTY or ERASING (R415). -/
  | noKey
  deriving DecidableEq, Repr

/-- Try the candidates of a slot in turn (R418, R419): `open_ key ctr` answers the bytes when it authenticates. A pass
moves the high-water and ends resyncing. -/
def Dev.authenticate (d : Dev) (i seq : Nat) (open_ : Nat → Nat → Option (List Byte)) : Dev × Auth :=
  let s := d.slotSeen i
  if s.state = 0 ∨ s.state = 2 then (d, .noKey)
  else
    let cs := (candidates s seq).filter fun v => decide (v < keyLimit)
    match cs with
    | [] => (d, .beyond)
    | _ =>
      match cs.findSome? fun v => (open_ s.key v).map fun l => (v, l) with
      | some (v, l) => (d.setSeen i { s with rx := some v, resync := false }, .pass v l)
      | none => (d, .fail)

/-- The nonce of a segment (R417): direction (0 down, 1 up), the head end's channel, multicast, local number or group,
and the counter value. -/
def segNonce (dir c : Nat) (mcast : Bool) (who ctr : Nat) : Nat :=
  ((0x10 + dir) * 2 ^ 88) + c * 2 ^ 80 + (b2n mcast * 2 ^ 15 + who) * 2 ^ 64 + ctr

/-- The nonce of a circuit region (R417): direction, channel, owner, circuit number and subframe number. -/
def regionNonce (dir c owner n sub : Nat) : Nat :=
  ((0x20 + dir) * 2 ^ 88) + c * 2 ^ 80 + owner * 2 ^ 64 + n * 2 ^ 56 + sub % 2 ^ 50

/-- The keystream of a circuit region (R423): AES-256 of the nonce and the block number, from 0. -/
def regionStream (key nonce n : Nat) : List Byte := keystream key nonce 0 n

/-- The CMAC of a management message (R136, R422): the first four bytes over the counter value and bytes 0–59. -/
def msgMac (key ctr : Nat) (msg : List Byte) : List Byte :=
  (toBE (cmac (cmacKey key) (toBE ctr 6 ++ slice msg 0 60)) 16).take 4

/-! ### Keys in and out (R413, R414, R432) -/

/-- What an import came to. -/
inductive Import where
  | ok
  | refused
  | badWrap
  deriving DecidableEq, Repr

/-- A key that has been unwrapped enters slot `i` (R413). -/
def Dev.loadSlot (d : Dev) (i key : Nat) : Dev :=
  ((d.keepOld i).setSlot i { key := key, state := 1, tx := 0, rx := none, warned := false, resync := false }).bump F.CRY_GCNT_COUNT 10

/-- A key imported on the active device travels to the standby, wrapped under the pair key (R427, R467). -/
def Dev.sendKey (d : Dev) (i key : Nat) : Dev :=
  match d.cry.pairKey with
  | some pk => if d.active then d.stSend 0x0A (toBE i 4 ++ wrap pk key) else d
  | none => d

/-- Import a wrap into slot `i` (R413). -/
def Dev.importSlot (d : Dev) (i : Nat) (w : List Byte) : Dev × Import :=
  match d.cry.importKey with
  | none => (d, .refused)
  | some ik =>
    if (d.slot i).state = 2 then (d, .refused)
    else match unwrap ik w with
      | none => (d.flag F.CRY_STAT_UNWRAP, .badWrap)
      | some k => ((d.loadSlot i k).sendKey i k, .ok)

/-- Does a job still hold the key of slot `i` (R414, R429)? -/
def Dev.slotHeld (d : Dev) (i : Nat) : Bool :=
  decide (98304 ≤ i) && d.cry.jobs.any fun q => q.2.any fun j => j.key == i - 98304 && j.loaded.isSome

/-- Order the erase of a slot (R414): refused on an EMPTY or ERASING one. -/
def Dev.eraseSlot (d : Dev) (i : Nat) : Option Dev :=
  let s := d.slot i
  if s.state = 0 ∨ s.state = 2 then none
  else some (((d.keepOld i).setSlot i { s with state := 2 }).bump F.CRY_GCNT_COUNT 11)

/-- The 40 bytes of the key port's data words. -/
def Dev.keyData (d : Dev) : List Byte := (List.range 5).flatMap fun i => toLE (d.get F.CRY_KEY_DATA_WRAP i) 8

/-- A refused access of the key port: one REFUSALS. -/
def Dev.keyRefuse (d : Dev) : Dev := (d.flag F.CRY_KEY_CTL_REFUSED).flag F.CRY_STAT_REFUSED 0 0 false

/-- Show a slot in the key port (R432). -/
def Dev.showSlot (d : Dev) (i : Nat) : Dev :=
  let s := d.slot i
  let job := decide (98304 ≤ i)
  let d := (d.set F.CRY_KEY_CTL_STATE s.state).set F.CRY_KEY_CTL_WARNED (b2n s.warned)
  let d := d.set F.CRY_KEY_TXCTR_CTR (if job then 0 else s.tx)
  (d.set F.CRY_KEY_RXCTR_CTR (if job then 0 else s.rx.getD 0)).set F.CRY_KEY_RXCTR_RX_VALID
    (if job then 0 else b2n s.rx.isSome)

/-- An access of the key port (R432). -/
def Dev.keyAccess (d : Dev) (index op : Nat) : Dev :=
  if d.on F.CRY_KEY_CTL_BUSY then d
  else
    let d := (d.set F.CRY_KEY_CTL_INDEX index).set F.CRY_KEY_CTL_OP op
    if 3 ≤ op ∨ 98367 < index then d.keyRefuse
    else match op with
      | 0 => d.showSlot index
      | 1 =>
        let r := d.importSlot index d.keyData
        if r.2 = .ok then r.1 else r.1.keyRefuse
      | _ => match d.eraseSlot index with
        | some e => e
        | none => d.keyRefuse

/-- CRY_KEY_CTL GO with OP 0. -/
def execKeyStatusRead (index : Fin (2 ^ 17)) (s : State) : Res :=
  run (.keyStatusRead index) s fun d => d.hostW fun d => d.keyAccess index 0

/-- CRY_KEY_CTL GO with OP 1. -/
def execKeyPortImport (index : Fin (2 ^ 17)) (s : State) : Res :=
  run (.keyPortImport index) s fun d => d.hostW fun d => d.keyAccess index 1

/-- CRY_KEY_CTL GO with OP 2. -/
def execKeyPortErase (index : Fin (2 ^ 17)) (s : State) : Res :=
  run (.keyPortErase index) s fun d => d.hostW fun d => d.keyAccess index 2

/-- The last operation that loaded an ERASING slot has ended: it is zeroized (R414). -/
def Dev.zeroize (d : Dev) (i : Nat) : Dev :=
  if (d.slot i).state = 2 ∧ d.slotHeld i = false then d.setSlot i emptySlot else d

/-- KEY_ZEROIZE. -/
def execKeyZeroize (index : Fin (2 ^ 17)) (s : State) : Res := run (.keyZeroize index) s fun d => d.zeroize index

/-- KEY_IMPORT of a ring (R564). -/
def execKeyImport (ring : RingNo) (s : State) : Res :=
  run (.keyImport ring) s fun d => d.command ring 0x0030 fun t d =>
    if 98367 < t.target then d.endCmd ring t.tag 0x0030 0x03
    else
      let r := d.importSlot t.target (slice t.args 0 40)
      r.1.endCmd ring t.tag 0x0030 (match r.2 with
        | .ok => 0
        | .refused => 1
        | .badWrap => 6)

/-- KEY_ERASE of a ring (R564). -/
def execKeyErase (ring : RingNo) (s : State) : Res :=
  run (.keyErase ring) s fun d => d.command ring 0x0031 fun t d =>
    if 98367 < t.target then d.endCmd ring t.tag 0x0031 0x03
    else match d.eraseSlot t.target with
      | some e => e.endCmd ring t.tag 0x0031 0
      | none => d.endCmd ring t.tag 0x0031 1

/-! ### Host jobs (R428 to R433) -/

/-- A job queue in order. -/
def Dev.jobs (d : Dev) (q : Nat) : List Job := Tbl.get [] d.cry.jobs q

/-- Replace a job queue. -/
def Dev.setJobs (d : Dev) (q : Nat) (l : List Job) : Dev :=
  { d with cry := { d.cry with jobs := Tbl.set d.cry.jobs q l } }

/-- Show a queue's job (R433). -/
def Dev.showJob (d : Dev) (q : Nat) : Dev :=
  match d.jobs q with
  | [] => (d.set F.CRY_JOBSTAT_STATE 0 q).set F.CRY_JOBSTAT_DONE 0 q
  | j :: _ =>
    let st := if d.cry.running = some q then 1 else if j.loaded.isSome then 2 else 3
    (d.set F.CRY_JOBSTAT_STATE st q).set F.CRY_JOBSTAT_DONE j.done q

/-- Process up to `n` blocks of a byte list (R428): the output bytes and the chaining value. -/
def jobBlocks (mode key : Nat) : Nat → Nat → List Byte → List Byte × Nat
  | 0, chain, _ => ([], chain)
  | n + 1, chain, l =>
    if l.isEmpty then ([], chain)
    else
      let r := jobBlock mode key chain (l.take (jobUnit mode))
      let t := jobBlocks mode key n r.2 (l.drop (jobUnit mode))
      (r.1 ++ t.1, t.2)

/-- A job processes up to `n` blocks: none when its source reads uncorrectable (R567). -/
def Dev.jobAdvance (d : Dev) (j : Job) (n : Nat) : Dev × Option Job :=
  let len := min (j.length - j.done) (n * jobUnit j.mode)
  match d.obsRead (j.src + j.done) len with
  | none => (d, none)
  | some l =>
    let r := jobBlocks j.mode (j.loaded.getD 0) n j.chain l
    (d.obsWrite (j.dst + j.done) r.1, some { j with chain := r.2, done := j.done + len })

/-- The present job of queue `q` ends with a completion code. -/
def Dev.jobEnd (d : Dev) (q : Nat) (j : Job) (status : Nat) : Dev :=
  let d := d.setJobs q ((d.jobs q).drop 1)
  let d := { d with cry := { d.cry with running := none } }.endCmd j.ring j.tag 0x0050 status j.id j.done
  (if status = 0 then d.bump F.CRY_GCNT_COUNT 7 else d.flag F.CRY_STAT_JOBERR).showJob q

/-- The most urgent queue whose job can run (R429): with JOB_EN at 0 only one that has started (R431). -/
def Dev.urgent (d : Dev) : Option Nat :=
  ((List.range 16).reverse).find? fun q => (d.jobs q).head?.any fun j => j.loaded.isSome || d.on F.CRY_CFG_JOB_EN

/-- The most urgent job runs or resumes while none runs and JOB_EN is 1 (R429): a job that names an EMPTY job key ends
(R415). -/
def Dev.nextJob : Nat → Dev → Dev
  | 0, d => d
  | fuel + 1, d =>
    match d.cry.running, d.urgent with
    | none, some q =>
      match d.jobs q with
      | [] => d
      | j :: r =>
        if j.loaded.isSome then { d with cry := { d.cry with running := some q } }.showJob q
        else
          let s := d.slotSeen (98304 + j.key)
          if s.state = 1 then
            let d := d.setJobs q ({ j with loaded := some s.key } :: r)
            { d with cry := { d.cry with running := some q } }.showJob q
          else Dev.nextJob fuel ((d.flag F.CRY_STAT_NOKEY).jobEnd q j 7)
    | _, _ => d

/-- The next job, past all that name a job key that is not there. -/
def Dev.startJobs (d : Dev) : Dev := d.nextJob (d.cry.jobs.foldl (fun n q => n + q.2.length) 1)

/-- A write of CRY_CFG (R431): it counts for the segments and jobs that start after it. -/
def Dev.writeCryCfg (d : Dev) (v : Nat) : Dev := (d.store RegOf.CRY_CFG 0 0 v).startJobs

/-- The job buffer area (R554). -/
def inJobArea (a n : Nat) : Bool := decide (0x110000000 ≤ a) && decide (a + n ≤ 0x150000000)

/-- Is a descriptor one that R428 and R430 accept? -/
def jobOk (l : List Byte) : Bool :=
  let mode := le l 0 1
  let len := le l 4 4
  let src := le l 8 8
  let dst := le l 16 8
  decide (1 ≤ mode) && decide (mode ≤ 7) && decide (le l 1 1 < 64) && le l 2 2 == 0 && decide (1 ≤ len) &&
    decide (len ≤ 16777216) && (decide (3 ≤ mode) || len % 16 == 0) && inJobArea src len && inJobArea dst len &&
    (src == dst || decide (src + len ≤ dst) || decide (dst + len ≤ src))

/-- JOB (R428 to R430, R564). -/
def execJob (ring : RingNo) (s : State) : Res :=
  run (.job ring) s fun d => d.command ring 0x0050 fun t d =>
    if !d.on F.CRY_CFG_JOB_EN then d.endCmd ring t.tag 0x0050 1 (le t.args 40 8)
    else if !jobOk t.args then d.endCmd ring t.tag 0x0050 3 (le t.args 40 8)
    else
      let q := ring.val - 48
      let j : Job :=
        { ring := ring, mode := le t.args 0 1, key := le t.args 1 1, length := le t.args 4 4, src := le t.args 8 8,
          dst := le t.args 16 8, chain := be t.args 24 16, id := le t.args 40 8, tag := t.tag, loaded := none, done := 0 }
      ((((d.keepRunning ring t).setJobs q (d.jobs q ++ [j])).showJob q).startJobs)

/-- The running job ends, and the next most urgent runs or resumes (R429). -/
def Dev.jobComplete (d : Dev) : Dev :=
  match d.cry.running with
  | none => d
  | some q =>
    match d.jobs q with
    | [] => d
    | j :: r =>
      let a := d.jobAdvance j j.length
      match a.2 with
      | none => (a.1.jobEnd q j 5).startJobs
      | some k => ((a.1.setJobs q (k :: r)).jobEnd q k 0).startJobs

/-- JOB_COMPLETE. -/
def execJobComplete (s : State) : Res := run .jobComplete s Dev.jobComplete

/-- A more urgent job suspends the running one after `blocks` more blocks (R429). -/
def Dev.jobPreempt (d : Dev) (blocks : Nat) : Dev :=
  match d.cry.running, d.urgent with
  | some q, some u =>
    match d.jobs q with
    | [] => d
    | j :: r =>
      if u ≤ q ∨ j.length ≤ j.done + blocks * jobUnit j.mode then d
      else
        let a := d.jobAdvance j blocks
        match a.2 with
        | none => (a.1.jobEnd q j 5).startJobs
        | some k =>
          let e := a.1.setJobs q (k :: r)
          let e := { e with cry := { e.cry with running := none } }.bump F.CRY_GCNT_COUNT 9
          (e.showJob q).startJobs
  | _, _ => d

/-- JOB_PREEMPT. -/
def execJobPreempt (blocks : Fin (2 ^ 24)) (s : State) : Res := run (.jobPreempt blocks) s fun d => d.jobPreempt blocks

/-! ### Takeover and side moves (R419, R426) -/

/-- The resume value of a copied counter (R419). -/
def resumeValue (v : Nat) : Nat := (v / 2 ^ 24 + 2) * 2 ^ 24

/-- A key slot's resume value: its counter of 48 bits never wraps (R412, R420; log entry 173). -/
def resumeSlot (v : Nat) : Nat := min (2 ^ 48 - 1) (resumeValue v)

/-- Set every send counter to its resume value; one at or beyond the limit stops its slot (R419, R420). -/
def Dev.resumeSlots (d : Dev) : Dev :=
  d.cry.slots.foldl (fun e x =>
    if x.1 < 98304 ∧ (x.2.state = 1 ∨ x.2.state = 3) then
      (e.setSlot x.1 { x.2 with tx := resumeSlot x.2.tx }).checkLimit x.1
    else e) d

/-- Copy both slots of one global index to another, and erase the source's (R426). -/
def Dev.moveSlots (d : Dev) (g g2 : Nat) : Dev :=
  foldUpTo 2 (fun k e =>
    let s := e.slot (termSlot g k)
    (e.keepOld (termSlot g2 k)).setSlot (termSlot g2 k) s) d

/-- Erase both slots of a global index (R131, R426). -/
def Dev.eraseTerm (d : Dev) (g : Nat) : Dev :=
  foldUpTo 2 (fun k e => (e.eraseSlot (termSlot g k)).getD e) d

end Sys2Proof.Machine
end

