-- ==== Sys2Proof/Machine/Words.lean ====
section
/-!
DEFINITION. The words of the microcode engines (R489 to R494, R496 to R498, R501, R503, R504, R506, R507): what a Scribe's and
Quill's patch words do, word by word, and the trace ring (R509). The ROM's words are not published (R505), so a patch that goes
on into ROM goes on with the catalogue's effect of its routine (log entry 167).
-/

namespace Sys2Proof.Machine

/-! ### Scribes -/

/-- An engine with nothing in its registers. -/
def idleEng : Eng :=
  { w := [], stack := [], staging := [], zero := false, neg := false, carry := false, shadow := [],
    restart := { patch := false, addr := 0 }, spaces := [] }

/-- A Scribe with nothing pending. -/
def idleScribe : Scribe :=
  { bcast := 0, inbox := [], todo := [], slots := [], windows := [], holds := [], recoverTo := none, recallAt := none,
    abandons := 0, abandoned := none, lastTick := none, held := [], patches := [], parityAt := [], eng := idleEng }

/-- Channel c's Scribe. -/
def Dev.scribe (d : Dev) (c : Nat) : Scribe := Tbl.get idleScribe d.reg.scribes c

/-- Replace a Scribe's state; RQ_USED shows its ranging slots (R146). -/
def Dev.setScribe (d : Dev) (c : Nat) (s : Scribe) : Dev :=
  { d with reg := { d.reg with scribes := Tbl.set d.reg.scribes c s } }.set F.TCH_LCSTAT_RQ_USED s.slots.length c

/-- The oldest message of a Scribe's queue leaves it, and its buffer is freed. -/
def Dev.inboxPop (d : Dev) (c : Nat) : Dev :=
  match (d.scribe c).inbox with
  | [] => d
  | m :: r =>
    let s := d.scribe c
    (d.setScribe c { s with inbox := r, todo := s.todo.erase (m.loc, .msg) }).release1 m.buf

/-- The subframe number of the present local time: frame counter × 4 + subframe index (R151). -/
def Dev.subNow (d : Dev) : Nat := 4 * d.frameNow + d.clk.ns % 125000 / 31250

/-! ### Tracing (R509, R513) -/

/-- Add a record to the trace ring: with FILTER_EN from the first entry to FILTER_ENTRY to that routine's END (R509). Engine, address, kind, event class and local number, data, and how many stores are
staged. A Scribe counts cycles of 1,500 MHz, Quill of 25 MHz. -/
def Dev.traceMicro (d : Dev) (engine addr kind class_ loc data : Nat) (staged : Nat := 0) : Dev :=
  if d.on F.SCR_TRCCFG_ENABLE && d.get F.SCR_TRCCFG_TARGET == engine then
    let filter := d.on F.SCR_TRCCFG_FILTER_EN
    let starts := kind == 0 && addr == d.get F.SCR_TRCCFG_FILTER_ENTRY
    if filter && (d.micro.ended || (!d.micro.running && !starts)) then d
    else
      let cycle := if engine = 128 then d.clk.cyc / 60 else d.clk.cyc
      let r := cycle % 2 ^ 32 + addr % 2 ^ 15 * 2 ^ 32 + kind * 2 ^ 48 + staged % 256 * 2 ^ 56 +
        (class_ % 8 + loc % 128 * 8) * 2 ^ 64 + data % 2 ^ 48 * 2 ^ 80
      let full := decide (1024 ≤ d.micro.trace.length)
      if full && !d.on F.SCR_TRCCFG_WRAP then d
      else
        let l := (if full then d.micro.trace.drop 1 else d.micro.trace) ++ [r]
        let run := if kind == 4 then false else if starts then true else d.micro.running
        let d := { d with micro := { trace := l, running := run, ended := filter && kind == 4 } }
        let d := if full then d.set F.SCR_TRCCFG_WRAPPED 1 else d
        d.set F.SCR_TRCCFG_COUNT l.length
  else d

/-- A place as SCR_STAT.PC and the trace show it: the address, and bit 14 for patch space (R509, R510). -/
def CodeAt.code (p : CodeAt) : Nat := p.addr % 2 ^ 14 + 2 ^ 14 * b2n p.patch

/-! ### The Scribe microword (R491) -/

/-- A Scribe microword taken apart (R491). -/
structure MWord where
  next : Nat
  nsp : Bool
  cond : Nat
  cinv : Bool
  seq : Nat
  op : Nat
  dst : Nat
  sa : Nat
  sb : Nat
  mem : Nat
  width : Nat
  space : Nat
  imm : Nat
  deriving DecidableEq, Repr

/-- The fields of a word of 96 bits (R491). -/
def MWord.of (x : Nat) : MWord :=
  { next := bits x 82 14, nsp := bit x 81, cond := bits x 76 5, cinv := bit x 75, seq := bits x 72 3, op := bits x 66 6,
    dst := bits x 60 6, sa := bits x 54 6, sb := bits x 48 6, mem := bits x 46 2, width := bits x 44 2, space := bits x 40 4,
    imm := bits x 0 40 }

/-- NEXT in NSP: in patch space only 9 bits are used (R491). -/
def MWord.target (m : MWord) : CodeAt := { patch := m.nsp, addr := if m.nsp then m.next % 512 else m.next }

/-- a + 1 in the present space; beyond its end there is none (R492). -/
def CodeAt.succ (p : CodeAt) : Option CodeAt :=
  if p.addr + 1 < (if p.patch then 512 else 16384) then some { p with addr := p.addr + 1 } else none

/-! ### Working registers and memory accesses (R489, R494, R497) -/

/-- A working register; W0 reads as zero. -/
def Eng.reg (e : Eng) (k : Nat) : Nat := if k = 0 then 0 else Tbl.get 0 e.w k

/-- Write a working register: W0 discards, and W56 to W63 are read-only while a routine runs (R489). -/
def Eng.setReg (e : Eng) (k v : Nat) : Eng :=
  if k = 0 ∨ 56 ≤ k then e else { e with w := Tbl.put 0 e.w k (v % 2 ^ 64) }

/-- W1 to W55, which the shadow set copies (R497). -/
def Eng.working (e : Eng) : Tbl Nat := Tbl.keep (fun k _ => decide (k < 56)) e.w

/-- The byte that the youngest staged store to an address holds (R497). DESIGN CHOICE (log entry 168): the lowest byte of a value
lies at the lowest address. -/
def stagedByte (l : List Staged) (space a : Nat) : Option Nat :=
  (l.reverse.find? fun s => s.space == space && decide (s.addr ≤ a ∧ a < s.addr + s.width)).map fun s =>
    s.value >>> (8 * (a - s.addr)) % 256

/-- The register of channel c's TCH block at an offset: DESIGN CHOICE (log entry 168), an address of space 7 is a byte offset in the
block. -/
def tchReg (c a : Nat) : Option (Reg × Nat × Nat) :=
  if a < 0x10000 then findReg (0x400000 + 0x10000 * c + a / 8 * 8) regsTCH else none

/-- A byte that a space holds (R494): of space 4 the routine's message, of space 7 the channel's registers, of the others what words
have stored there, and a free value where nothing has (log entry 168). -/
def Dev.spaceByte (d : Dev) (c : Nat) (e : Eng) (space a : Nat) : Dev × Nat :=
  let held : Option Nat :=
    if space = 4 then (((d.scribe c).inbox.head?).bind fun m => m.bytes[a]?).map BitVec.toNat
    else if space = 7 then (tchReg c a).map fun r => bits (d.getReg r.1 r.2.1 r.2.2) (8 * (a % 8)) 8
    else Tbl.find? e.spaces (space * 2 ^ 64 + a)
  match held with
  | some v => (d, v)
  | none => d.draw 256

/-- A load of `n` bytes: staged bytes go before the space's (R494, R497). -/
def Dev.loadSpace (d : Dev) (c : Nat) (e : Eng) (space a n : Nat) : Dev × Nat :=
  (List.range n).foldl (fun (x : Dev × Nat) k =>
    let at_ := (a + k) % 2 ^ 64
    let y := match stagedByte e.staging space at_ with
      | some v => (x.1, v)
      | none => x.1.spaceByte c e space at_
    (y.1, x.2 + y.2 * 2 ^ (8 * k))) (d, 0)

/-- One byte of a store becomes visible in its space (R494, R497). To a channel's register the Scribe is hardware: its store sets
RO and W1C bits as it says (DESIGN CHOICE, log entry 168), but no RWL field after lock (R15). -/
def storeByte (c space : Nat) (x : Dev × Eng) (a v : Nat) : Dev × Eng :=
  if space = 7 then
    match tchReg c a with
    | some (r, i, j) =>
      let w := setBits (x.1.getReg r i j) (8 * (a % 8)) 8 v
      (r.fields.foldl (fun d f => if f.lo < 8 * (a % 8 + 1) ∧ 8 * (a % 8) < f.lo + f.w ∧ (f.acc ≠ .rwl ∨ x.1.get F.BOOT_STAT_LOCKED = 0)
        then d.set f (bits w f.lo f.w) i j else d) x.1, x.2)
    | none => x
  else (x.1, { x.2 with spaces := Tbl.set x.2.spaces (space * 2 ^ 64 + a) v })

/-- A store becomes visible in its space. -/
def storeSpace (c : Nat) (x : Dev × Eng) (s : Staged) : Dev × Eng :=
  foldUpTo s.width (fun k x => storeByte c s.space x ((s.addr + k) % 2 ^ 64) (s.value >>> (8 * k) % 256)) x

/-! ### A routine's words (R490, R492, R493, R496 to R504) -/

/-- A routine under way: the device, its engine, the place of its next word, the cycles since its last commit or safe point, and
the words executed, one a cycle (R489). -/
structure MRun where
  d : Dev
  e : Eng
  pc : CodeAt
  idle : Nat
  words : Nat

/-- How a routine's patch words leave off: they go on into ROM, the routine ends, it ends at a fault or a staging overflow, or the
watchdog ends it. -/
inductive MStop where
  | rom
  | ended
  | fault (cause : Nat)
  | overflow
  | watchdog
  deriving DecidableEq, Repr

/-- The VALID match register of a Scribe that names a ROM address: the lowest (R490). -/
def Dev.matchOf (d : Dev) (c a : Nat) : Option Nat :=
  (List.range 32).find? fun m => d.on F.SCR_MATCH_VALID c m && d.get F.SCR_MATCH_ROM_ADDR c m == a

/-- The place of the patch word fetched at a place: its own in patch memory, that of the match register in ROM, none where the word
is the ROM's (R490). -/
def Dev.fetchAt (d : Dev) (c : Nat) (p : CodeAt) : Option CodeAt :=
  if p.patch then some p
  else (d.matchOf c p.addr).map fun m => { patch := true, addr := d.get F.SCR_MATCH_PATCH_ADDR c m }

/-- The condition that COND selects, before CINV (R493): 0 is true (R491), and the others are numbered in the order in which R493
lists them (DEDUCED, log entry 169); the numbers 29 to 31 name none of them, and are free. -/
def MRun.cond (r : MRun) (c : Nat) (m : MWord) : MRun × Bool :=
  let e := r.e
  match m.cond with
  | 0 => (r, true)
  | 1 => (r, e.zero)
  | 2 => (r, e.neg)
  | 3 => (r, e.carry)
  | 24 => (r, decide (64 ≤ (Tbl.get [] r.d.tm.mgmt c).length))
  | 25 => (r, r.d.on F.CRY_KEY_CTL_BUSY)
  | 26 => (r, decide (16 ≤ (r.d.scribe c).slots.length))
  | 27 => (r, decide (r.d.subNow % 4 = m.imm % 4))
  | 28 => (r, false)
  | n =>
    if n < 24 then (r, bit (e.reg 55) (n - 4))
    else
      let x := r.d.draw 2
      ({ r with d := x.1 }, x.2 == 1)

/-- The staged stores become visible in program order, the shadow set is taken, and the next word is the restart point (R497). -/
def MRun.commit (r : MRun) (c : Nat) (next : CodeAt) : MRun :=
  let x := r.e.staging.foldl (storeSpace c) (r.d.bump F.SCR_CNT_COUNT c 1, r.e)
  { r with d := x.1, e := { x.2 with staging := [], shadow := x.2.working, restart := next }, idle := 0 }

/-- What the memory access of a word does (R491, R494, R497): the value that a load returns, and how the routine stops, if it does.
In compatibility mode a store goes directly to its space (R501). A store to space 4, which is for loads only, is a fault
(DEDUCED, log entry 169). -/
def MRun.memory (r : MRun) (c : Nat) (compat : Bool) (m : MWord) : MRun × Option Nat × Option MStop :=
  let n := 2 ^ m.width
  if m.mem = 0 then (r, none, none)
  else if 8 < m.space ∨ (m.space = 4 ∧ m.mem ≠ 1) then (r, none, some (.fault 1))
  else if m.mem = 1 then
    let x := r.d.loadSpace c r.e m.space ((r.e.reg m.sb + m.imm) % 2 ^ 64) n
    ({ r with d := x.1 }, some x.2, none)
  else
    let s : Staged :=
      { space := m.space, width := n, addr := if m.mem = 2 then (r.e.reg m.sb + m.imm) % 2 ^ 64 else r.e.reg m.sb,
        value := (if m.mem = 2 then r.e.reg m.sa else m.imm) % 2 ^ (8 * n) }
    if compat then
      let x := storeSpace c (r.d, r.e) s
      ({ r with d := x.1, e := x.2 }, none, none)
    else if 16 ≤ r.e.staging.length then (r, none, some .overflow)
    else ({ r with e := { r.e with staging := r.e.staging ++ [s] } }, none, none)

/-- The result of a word goes to DST: what it loaded, or else the ALU's result, which is free, as the operations are not published
(log entry 169); the flags follow the result. -/
def MRun.result (r : MRun) (m : MWord) (loaded : Option Nat) : MRun :=
  let a := r.e.reg m.sa
  let b := r.e.reg m.sb
  let v := loaded.getD (Config.scribeAlu m.op a b m.imm % 2 ^ 64)
  let e := r.e.setReg m.dst v
  { r with e := { e with zero := v == 0, neg := bit v 63, carry := Config.scribeCarry m.op a b m.imm } }

/-- The word goes to `p`; none is beyond the end of a space, a fault (R492, R504). -/
def MRun.goto (r : MRun) (p : Option CodeAt) : MRun × Option MStop :=
  match p with
  | some p => ({ r with pc := p }, none)
  | none => (r, some (.fault 2))

/-- A trace record at the present word (R509). -/
def MRun.trace (r : MRun) (c kind class_ loc data : Nat) : MRun :=
  { r with d := r.d.traceMicro c r.pc.code kind class_ loc data r.e.staging.length }

/-- The sequencing of a word at `r.pc`, with its condition and the value of SA (R492). A taken branch is traced. -/
def MRun.sequence (r : MRun) (c class_ loc : Nat) (compat : Bool) (m : MWord) (ok : Bool) (sa : Nat) : MRun × Option MStop :=
  let data := r.e.reg m.dst
  let jump (r : MRun) : MRun × Option MStop :=
    if ok then (r.trace c 1 class_ loc data).goto (some m.target) else r.goto r.pc.succ
  match m.seq with
  | 0 => jump r
  | 1 =>
    if !ok then r.goto r.pc.succ
    else if 8 ≤ r.e.stack.length then (r, some (.fault 3))
    else match r.pc.succ with
      | none => (r, some (.fault 2))
      | some a => jump { r with e := { r.e with stack := a :: r.e.stack } }
  | 2 =>
    if !ok then r.goto r.pc.succ
    else match r.e.stack with
      | [] => (r, some (.fault 4))
      | a :: l => ({ r with e := { r.e with stack := l } }.trace c 1 class_ loc data).goto (some a)
  | 3 =>
    let n := m.target
    (r.trace c 1 class_ loc data).goto (some { n with addr := n.addr / 16 * 16 + sa % 16 })
  | 4 =>
    let next := (if ok then some m.target else r.pc.succ).getD r.pc
    jump (if compat then r else (r.trace c 2 class_ loc data).commit c next)
  | 5 => jump { r.trace c 3 class_ loc data with idle := 0 }
  | 6 =>
    let r := r.trace c 4 class_ loc data
    (if compat then r else r.commit c r.pc, some .ended)
  | _ => (r, some (.fault 0))

/-- One patch word at `p` is fetched and executed (R490 to R494): its operands are read before any result is written. -/
def MRun.word (r : MRun) (c class_ loc : Nat) (compat : Bool) (p : CodeAt) : MRun × Option MStop :=
  let d := (r.d.bump F.SCR_CNT_COUNT c 8).set F.SCR_STAT_PC p.code c
  let m := MWord.of (Tbl.get 0 (d.scribe c).patches p.addr)
  let r : MRun := { r with d := d, pc := p, idle := r.idle + 1, words := r.words + 1 }
  if m.seq = 7 then (r, some (.fault 0))
  else
    let k := r.cond c m
    let ok := k.2 != m.cinv
    let sa := r.e.reg m.sa
    let x := k.1.memory c compat m
    match x.2.2 with
    | some s => (x.1, some s)
    | none => (x.1.result m x.2.1).sequence c class_ loc compat m ok sa

/-- A routine's patch words run until they leave off. They go on into ROM at an address that no match register names; IDLE at
0x0000 ends the routine (log entry 167). The fuel bounds a routine that commits for ever, which R500's bounds rule out of every
image that the builder makes; it then ends as the watchdog ends it (log entry 167). -/
def MRun.run (c class_ loc : Nat) (compat : Bool) : Nat → MRun → MRun × MStop
  | 0, r => (r, .watchdog)
  | n + 1, r =>
    if 65536 ≤ r.idle then (r, .watchdog)
    else match r.d.fetchAt c r.pc with
      | none => (r, if r.pc.addr = 0 then .ended else .rom)
      | some p =>
        let x := r.word c class_ loc compat p
        match x.2 with
        | some s => (x.1, s)
        | none => MRun.run c class_ loc compat n x.1

/-- The latched inputs W56 to W63 of an event (R496): the layout of its descriptor is not published, so they are free values. -/
def Dev.descriptor (d : Dev) : Dev × Tbl Nat :=
  (List.range 8).foldl (fun (x : Dev × Tbl Nat) k =>
    let r := x.1.draw (2 ^ 64)
    (r.1, Tbl.put 0 x.2 (56 + k) r.2)) (d, [])

/-- The entry point of the routine that an event runs (R505). -/
def Todo.entry : Todo → Nat
  | .track .. => 0x0340
  | .loss => 0x0380
  | .gasp => 0x03C0
  | .mark | .evidence => 0x0400
  | .takeover => 0x06C0
  | .activate | .activated => 0x0200
  | .doze .. | .dozeEnd => 0x0500
  | .alarm .. => 0x0580
  | .moved _ => 0x04C0
  | .host _ op _ _ => if op = 0x14 then 0x0480 else 0x05C0
  | .keys => 0x0540
  | .msg => 0x0240

/-- The event of a routine is taken though its catalogue effect does not run (R496, R504): the pending bit of the local number, the
oldest message, the discovery window that has passed, or the tick of the subframe. -/
def Dev.dropEvent (d : Dev) (c entry loc : Nat) : Dev :=
  let s := d.scribe c
  if entry = 0x0040 ∨ entry = 0x0640 then d.setScribe c { s with lastTick := some d.subNow }
  else if entry = 0x0240 ∨ entry = 0x0600 then d.inboxPop c
  else if entry = 0x0100 then d.setScribe c { s with windows := s.windows.drop 1 }
  else
    match s.todo.find? fun e => e.1 == loc && e.2.entry == entry with
    | some e => d.setScribe c { s with todo := s.todo.erase e }
    | none => d

/-- A fault ends a routine without restart (R504): FAULTS, a Blotter record and a trace record with the address. DESIGN CHOICE (log
entry 169): causes 0 a reserved SEQ, 1 a reserved SPACE, 2 beyond a space, 3 and 4 the stack, 5 a staging overflow. -/
def MRun.fault (r : MRun) (c class_ loc : Nat) (f : Fld) (cause : Nat) : MRun :=
  let d := (r.d.flag f c).event F.SCR_STAT_FAULT.addr 0x000D c (r.pc.code + 2 ^ 16 * cause)
  { r with d := d.traceMicro c r.pc.code 6 class_ loc cause r.e.staging.length, e := { r.e with staging := [] } }

/-- A routine whose entry point is diverted into patch memory (R490): its patch words, and then, where they go on into ROM, the
catalogue's effect `f`, after which what they had staged is committed with it. -/
def Dev.runPatch (d : Dev) (c entry class_ loc m : Nat) (f : Dev → Dev) : Dev :=
  let compat := d.on F.SCR_MATCH_COMPAT c m
  let x := d.descriptor
  let e := { idleEng with w := x.2, spaces := (d.scribe c).eng.spaces, restart := { patch := false, addr := entry } }
  let y := MRun.run c class_ loc compat (2 ^ 32) { d := x.1, e := e, pc := { patch := false, addr := entry }, idle := 0, words := 0 }
  let r := { y.1 with d := y.1.d.runCycles y.1.words }
  let close (r : MRun) : Dev := r.d.setScribe c { r.d.scribe c with eng := { r.e with staging := [], stack := [] } }
  match y.2 with
  | .rom =>
    let z := r.e.staging.foldl (storeSpace c) (f r.d, r.e)
    let r := { r with d := z.1, e := z.2 }
    (if compat then r.d else r.d.bump F.SCR_CNT_COUNT c 1) |> fun d => (close { r with d := d }).traceMicro c entry 4 class_ loc 0
  | .ended => (close r).dropEvent c entry loc
  | .fault n => (close (r.fault c class_ loc F.SCR_STAT_FAULT n)).dropEvent c entry loc
  | .overflow => (close (r.fault c class_ loc F.SCR_STAT_STAGEOVF 5)).dropEvent c entry loc
  | .watchdog => (close { r with d := r.d.flag F.SCR_STAT_WDOG c }).dropEvent c entry loc

/-- A routine that had been abandoned has passed a commit, or is ended: the Scribe is idle, and R500's count starts anew. -/
def Dev.runEnded (d : Dev) (c : Nat) : Dev :=
  let d := (d.setScribe c { d.scribe c with abandons := 0, abandoned := none }).set F.SCR_STAT_PROTECT 0 c
  if d.get F.SCR_STAT_STATE c = 3 then d else d.set F.SCR_STAT_STATE 0 c

/-- A routine of channel c's Scribe runs from its entry point to its END and commits (R496, R497, R505): the catalogue's effect `f`,
or its patch words where a match register diverts the entry point (R490). -/
def Dev.routine (d : Dev) (c entry class_ loc : Nat) (f : Dev → Dev) : Dev :=
  let d := ((d.bump F.SCR_CNT_COUNT c 0).set F.SCR_STAT_ENTRY entry c).set F.SCR_STAT_PC entry c
  let d := d.traceMicro c entry 0 class_ loc 0
  let d := match d.matchOf c entry with
    | some m => d.runPatch c entry class_ loc m f
    | none => ((f d).bump F.SCR_CNT_COUNT c 1).traceMicro c entry 4 class_ loc 0
  if (d.scribe c).abandoned = some (entry, loc) then d.runEnded c else d

/-! ### Quill's words (R506, R507) -/

/-- A Quill microword taken apart (R506). -/
structure QWord where
  next : Nat
  nsp : Bool
  cond : Nat
  cinv : Bool
  seq : Nat
  op : Nat
  dst : Nat
  sa : Nat
  imm : Nat
  deriving DecidableEq, Repr

/-- The fields of a word of 48 bits (R506). -/
def QWord.of (x : Nat) : QWord :=
  { next := bits x 36 12, nsp := bit x 35, cond := bits x 30 5, cinv := bit x 29, seq := bits x 26 3, op := bits x 22 4,
    dst := bits x 18 4, sa := bits x 14 4, imm := bits x 0 14 }

/-- NEXT in NSP: in patch space only 6 bits are used (R506). -/
def QWord.target (m : QWord) : CodeAt := { patch := m.nsp, addr := if m.nsp then m.next % 64 else m.next }

/-- a + 1 in Quill's present space (R489). -/
def CodeAt.qsucc (p : CodeAt) : Option CodeAt :=
  if p.addr + 1 < (if p.patch then 64 else 4096) then some { p with addr := p.addr + 1 } else none

/-- A register of Quill; Q0 reads as zero (R489). -/
def Dev.qreg (d : Dev) (k : Nat) : Nat := if k = 0 then 0 else Tbl.get 0 d.quill.regs k

/-- Write a register of Quill; Q0 discards (R489). -/
def Dev.setQreg (d : Dev) (k v : Nat) : Dev :=
  if k = 0 then d else { d with quill := { d.quill with regs := Tbl.put 0 d.quill.regs k (v % 2 ^ 32) } }

/-- The patch word that Quill fetches at a place, or none where the word is the ROM's (R490). In VIGIL, which does not keep patch
memory (R39), the match registers divert nothing (DEDUCED, log entry 138). -/
def Dev.qfetchAt (d : Dev) (p : CodeAt) : Option CodeAt :=
  if p.patch then some p
  else if d.mode = 4 then none
  else
    ((List.range 8).find? fun m => d.on F.QUL_MATCH_VALID m && d.get F.QUL_MATCH_ROM_ADDR m == p.addr).map fun m =>
      { patch := true, addr := d.get F.QUL_MATCH_PATCH_ADDR m }

/-- Where a Quill word goes on: at a place, or nowhere (END, false) or at a fault (true). -/
inductive QGo where
  | at (p : CodeAt)
  | stop (fault : Bool)
  deriving DecidableEq, Repr

/-- A place, or a fault where there is none. -/
def QGo.of : Option CodeAt → QGo
  | some p => .at p
  | none => .stop true

/-- One patch word of Quill at `p` (R506, R507). Neither the numbers of its conditions and operations nor when they hold are
published, so the condition, the result and whether the word is an action write are free (log entry 170); a WAIT is over when its
condition holds, or at its timeout where IMM is not zero. -/
def Dev.quillWord (d : Dev) (p : CodeAt) : Dev × QGo :=
  let m := QWord.of (Tbl.get 0 d.quill.patches p.addr)
  let d := (d.set F.QUL_STAT_PC p.addr).set F.QUL_STAT_PC_PATCH 1
  let x := d.draw 2
  let ok := (x.2 == 1) != m.cinv
  let sa := x.1.qreg m.sa
  let d := x.1.setQreg m.dst (Config.quillAlu m.op sa m.imm)
  let trace (kind : Nat) : Dev := d.traceMicro 128 (p.code) kind 0 0 (d.qreg m.dst)
  match m.seq with
  | 0 => if ok then (trace 1, .at m.target) else (d, QGo.of p.qsucc)
  | 1 =>
    if !ok then (d, QGo.of p.qsucc)
    else if 4 ≤ d.quill.stack.length then (d, .stop true)
    else match p.qsucc with
      | none => (d, .stop true)
      | some a =>
        let e := trace 1
        ({ e with quill := { e.quill with stack := a :: e.quill.stack } }, .at m.target)
  | 2 =>
    if !ok then (d, QGo.of p.qsucc)
    else match d.quill.stack with
      | [] => (d, .stop true)
      | a :: l =>
        let e := trace 1
        ({ e with quill := { e.quill with stack := l } }, .at a)
  | 3 => (trace 7, if ok ∨ m.imm = 0 then .at m.target else QGo.of p.qsucc)
  | 4 =>
    let n := m.target
    (trace 1, .at { n with addr := n.addr / 16 * 16 + sa % 16 })
  | 5 => (trace 4, .stop false)
  | _ => (d, .stop true)

/-- Quill's patch words run: does the ROM's effect of the entry point follow? The fuel bounds words that go on for ever, after
which nothing of the entry point's effect follows (log entry 170). -/
def Dev.quillWords : Nat → Dev → CodeAt → Dev × Bool
  | 0, d, _ => (d, false)
  | n + 1, d, p =>
    match d.qfetchAt p with
    | none => (d.set F.QUL_STAT_PC_PATCH 0, true)
    | some p =>
      let x := d.quillWord p
      match x.2 with
      | .at q => Dev.quillWords n x.1 q
      | .stop false => (x.1, false)
      | .stop true =>
        let e := x.1.traceMicro 128 p.code 6 0 0 0
        let e := { e with quill := { e.quill with stack := [] } }
        (((e.set F.QUL_STAT_SEQ 0).set F.QUL_STAT_PC 0).set F.QUL_STAT_PC_PATCH 0, false)

/-- Quill reaches an entry point of its ROM (R505): does the ROM's effect follow? Where a match register diverts it, its patch
words run first (R490). A fault takes the sequencer to RESET (DESIGN CHOICE, log entry 170). -/
def Dev.quillPatch (d : Dev) (entry : Nat) : Dev × Bool :=
  let d := d.traceMicro 128 entry 0 0 0 0
  let p : CodeAt := { patch := false, addr := entry }
  if (d.qfetchAt p).isNone then (d, true) else Dev.quillWords (2 ^ 16) d p

end Sys2Proof.Machine
end

