-- ==== Sys2Proof/Machine/Registry.lean ====
section
/-!
DEFINITION. The terminal registry and what every Scribe routine shares (R105 to R147, R495): registry records, state
changes, management messages, ranging slots and windows.
-/

namespace Sys2Proof.Machine

/-! ### Timing terms (R105 to R107) -/

/-- T_RESP in bit times. -/
def tResp : Nat := 3683328

/-- The device is the active one of a pair on SIDE 1, or solo there: it sends ADVANCE early (R476). -/
def Dev.advance (d : Dev) (c : Nat) : Int :=
  if d.on F.GLB_MODE_PAIRED ∧ d.on F.STL_CFG_SIDE ∧ (d.get F.STL_STAT_ROLE = 1 ∨ d.get F.STL_STAT_ROLE = 2) then
    sgn 32 (d.get F.STL_CHSTAT_DELTA c)
  else 0

/-- The effective EqRT of a channel (R106, R144, R476). -/
def Dev.eqrt (d : Dev) (c : Nat) : Int := min (d.use F.RUL_CHCFG_EQRT c) 84863877 + 2 * d.advance c

/-- ceil((EqRT + 2 subframes) / 1 frame) (R123, R130, R421). -/
def Dev.leadFrames (d : Dev) (c : Nat) : Nat := cdiv ((d.eqrt c).toNat + 2 * tResp) (4 * tResp)

/-- The frame at which a change announced now may take effect (R123, R130, R421). -/
def Dev.effFrame (d : Dev) (c : Nat) : Nat := d.frameNow + d.leadFrames c + 1

/-- DIST_MIN_KM and DIST_MAX_KM as used (R145). -/
def Dev.reachKm (d : Dev) (c : Nat) : Nat × Nat :=
  let a := d.use F.TCH_DISCCFG_DIST_MIN_KM c
  let b := d.use F.TCH_DISCCFG_DIST_MAX_KM c
  if b < a ∨ 40 < b - a then (0, 20) else (a, b)

/-- SPREAD in blocks (R114). -/
def Dev.spread (d : Dev) (c : Nat) : Nat :=
  let r := d.reachKm c
  cdiv ((r.2 - r.1) * 1153913) 66

/-- The back-off slots n of a discovery window (R114). -/
def Dev.backoff (d : Dev) (c : Nat) : Nat := min (d.use F.TCH_DISCCFG_BACKOFF_SLOTS c) ((714342 - d.spread c) / 640)

/-- PRE_EQD (R115). -/
def Dev.preEqd (d : Dev) (c : Nat) : Int := d.eqrt c - tResp - (d.reachKm c).2 * 1153913

/-- A field of TCH_BRXCFG as it is in force at the instant `t` in ns (R102). -/
def Dev.brxAt (d : Dev) (f : Fld) (c t : Nat) : Nat :=
  if ((Tbl.find? d.lines.brx c).bind (·.cfgAt)).any fun b => decide (b ≤ t) then d.asked f c else d.use f c

/-- The adjustment limit A (R122). -/
def Dev.adjLimit (d : Dev) (c : Nat) : Nat :=
  max 4 (min (d.use F.TCH_LCCFG_ADJ_MAX c) (d.brxAt F.TCH_BRXCFG_WINDOW c d.nowNs - 1))

/-! ### Scribes -/

/-- A life-cycle counter. -/
def Dev.lcCount (d : Dev) (c k : Nat) : Dev := d.bump F.TCH_LCCNT_COUNT c k

/-- A W1C flag of TCH_LCSTAT. -/
def Dev.lcFlag (d : Dev) (f : Fld) (c : Nat) : Dev := d.flag f c

/-- MSG_DISCARD. -/
def Dev.msgDiscard (d : Dev) (c : Nat) : Dev := d.lcCount c 23

/-- Kinds of work that merge into one pending bit for a local number (R495). -/
def Todo.merges : Todo → Bool
  | .loss | .gasp | .mark | .evidence | .activate | .dozeEnd => true
  | _ => false

/-- A Scribe gets an event for a local number. -/
def Dev.addTodo (d : Dev) (c loc : Nat) (t : Todo) : Dev :=
  let s := d.scribe c
  if t.merges && s.todo.contains (loc, t) then d else d.setScribe c { s with todo := s.todo ++ [(loc, t)] }

/-! ### Terminals -/

/-- A local number that holds no terminal. -/
def freeTerm : Term :=
  { st := .free, cause := 0, eqd := 0, serial := 0, rtd := 0, white := none, gasp := false, tunable := false,
    canDoze := false, period := 0, phase := 0, dozeFrom := 0, dozeEnd := none, allowed := 0, heldKib := 0, marks := [],
    changed := 0, adjusts := 0, attempts := 0, back := .free, ask := none, adj := none, drift := [], challenge := none,
    held := 0, keepFrom := none, grants := 0, judged := none, found := false, low := 0, txLevel := 0, keyIdx := 0, keySwitch := none,
    rekey := none, lastBurst := 0, lastReport := 0, alarm := none, actFrom := 0, txns := [], xid := 0, move := none,
    disables := 0, silenced := 0, rogueRaised := false, reason := 0 }

/-- The registry entry of a global terminal index. -/
def Dev.term (d : Dev) (g : Nat) : Term := Tbl.get freeTerm d.reg.terms g

/-- An empty whitelist entry. -/
def noWhite : White :=
  { serial := 0, pinTree := none, pinLoc := none, hint := 0, flagged := false, lastCh := none, wraps := [] }

/-- A whitelist entry. -/
def Dev.white (d : Dev) (w : Nat) : White := Tbl.get noWhite d.reg.white w

/-- The mirror of a whitelist entry (R539, R556). -/
def whiteRec (w : White) : List Byte :=
  toLE w.serial 8 ++ toLE (w.pinTree.getD 0xFF) 1 ++ toLE (w.pinLoc.getD 0xFF) 1 ++ toLE (b2n w.flagged) 1 ++
    toLE (w.lastCh.getD 0xFF) 1 ++ toLE w.hint 4

/-- Write a whitelist entry, and its mirror. -/
def Dev.setWhite (d : Dev) (i : Nat) (w : White) : Dev :=
  { d with reg := { d.reg with white := Tbl.set d.reg.white i w } }.obsWrite (0x40500000 + 16 * i) (whiteRec w)

/-- The whitelist entry of a serial. -/
def Dev.findWhite (d : Dev) (serial : Nat) : Option Nat := Tbl.first? (fun _ w => w.serial == serial) d.reg.white

/-- The rogue marks of a terminal that fall within the last 8,000 frames (R125). -/
def Dev.marksNow (d : Dev) (t : Term) : List Nat := t.marks.filter fun f => decide (d.frameNow < f + 8000)

/-- The attempts of the pending request (R143): those of a ranging, else the most that an open message has taken. DESIGN CHOICE
(log entry 153): further attempts alone are counted, so the first shows 0. -/
def Term.tries (t : Term) : Nat := if t.ask.isSome then t.attempts else t.txns.foldl (fun a x => max a x.tries) 0

/-- The terminal state record (R143). -/
def Dev.termRec (d : Dev) (g : Nat) (t : Term) : List Byte :=
  let w := t.white.map d.white
  let flags := b2n t.white.isSome + 2 * b2n (w.any fun x => x.pinLoc.isSome) + 4 * b2n (w.any fun x => x.flagged) +
    8 * b2n t.gasp + 16 * b2n t.adj.isSome + 32 * b2n t.canDoze + 64 * b2n t.tunable
  toLE t.st.code 1 ++ toLE t.cause 1 ++ toLE (g % 128) 1 ++ toLE flags 1 ++ toLE t.eqd 4 ++ toLE t.serial 8 ++
    toLE t.rtd 4 ++ toLE (if t.st = .doze then t.period else 0) 2 ++ toLE (d.marksNow t).length 2 ++ toLE t.changed 4 ++
    toLE t.adjusts 2 ++ toLE t.tries 1 ++ toLE 0 1

/-- The KEY_INDEX of terminal `g` now (R421): a switch takes effect at its frame. -/
def Dev.downKey (d : Dev) (g : Nat) : Nat :=
  let t := d.term g
  match t.keySwitch with
  | some (k, f) => if f ≤ d.frameNow then k else t.keyIdx
  | none => t.keyIdx

/-- Is the state one whose RTD counts (R144)? -/
def Reg_.served : Reg_ → Bool
  | .active | .doze | .hold => true
  | _ => false

/-- Is a terminal registered beyond FREE? -/
def Term.registered (t : Term) : Bool := t.st != .free

/-- The terminals of a channel that are listed. -/
def Dev.termsOf (d : Dev) (c : Nat) : List (Nat × Term) :=
  List.filter (fun e : Nat × Term => decide (e.1 / 128 = c)) d.reg.terms

/-- Show ACTIVE_TERMS, RTD_MIN and RTD_MAX of a channel (R144, R146). -/
def Dev.showTerms (d : Dev) (c : Nat) : Dev :=
  let l := d.termsOf c
  let n := (l.filter fun e => e.2.st == .active || e.2.st == .doze).length
  let r := (l.filter fun e => e.2.st.served).map fun e => e.2.rtd
  let d := d.set F.TCH_LCSTAT_ACTIVE_TERMS n c
  (d.set F.RUL_CHSTAT_RTD_MIN (r.foldl min 0xFFFFFFFF) c).set F.RUL_CHSTAT_RTD_MAX (r.foldl max 0) c

/-- Write a registry entry, and its mirror. -/
def Dev.setTerm (d : Dev) (g : Nat) (t : Term) : Dev :=
  let d := { d with reg := { d.reg with terms := Tbl.put freeTerm d.reg.terms g t } }
  (d.obsWrite (0x40000000 + g * 256) (d.termRec g t)).showTerms (g / 128)

/-- Change the state of a registry entry (R109, R143). -/
def Dev.toState (d : Dev) (g : Nat) (st : Reg_) (cause : Nat) : Dev :=
  let t := d.term g
  d.setTerm g { t with st := st, cause := cause, changed := d.frameNow % 2 ^ 32 }

/-- Release a ranging slot, and the window reserved for it. -/
def Dev.freeSlotOf (d : Dev) (c loc : Nat) : Dev :=
  let s := d.scribe c
  d.setScribe c { s with slots := s.slots.filter fun x => x != loc }

/-- The recall flag of a terminal's whitelist entry is set or cleared (R128). -/
def Dev.flagRecall (d : Dev) (g : Nat) (v : Bool) : Dev :=
  match (d.term g).white with
  | none => d
  | some w =>
    let d := d.setWhite w { d.white w with flagged := v }
    d.setTerm g (d.term g)

/-- A registration ends in FREE (R109, R112, R210, R275, R329): the hint is written where R112 says, the queues are
flushed, the learned entries go, and the preset is erased. -/
def Dev.endTerm (d : Dev) (g cause : Nat) : Dev :=
  let t := d.term g
  let hint := t.st == .activating || t.st == .active || t.st == .doze || t.st == .hold
  let d := match t.white with
    | some w => if hint then d.setWhite w { d.white w with hint := t.eqd } else d
    | none => d
  let d := d.freeSlotOf (g / 128) (g % 128)
  let d := (d.flushNode g).dropTerm g
  let d := d.setPreset g { value := 0, state := 0, since := d.frameNow }
  let d := { d with reg := { d.reg with errs := Tbl.erase d.reg.errs g } }
  d.setTerm g { freeTerm with cause := cause, changed := d.frameNow % 2 ^ 32, marks := t.marks }

/-- A terminal enters HOLD (R126, R127): the entry is counted, the recall flag set, and a recovery period may start. An
adjustment that is pending stays so (R109). -/
def Dev.enterHold (d : Dev) (g cause : Nat) : Dev :=
  let c := g / 128
  let t := d.term g
  let d := d.freeSlotOf c (g % 128)
  let d := d.setTerm g { t with
    st := .hold, cause := cause, changed := d.frameNow % 2 ^ 32, held := d.frameNow, keepFrom := none, ask := none,
    attempts := 0, drift := [], grants := 0, judged := none, alarm := none, dozeEnd := none, move := none }
  let d := (d.lcCount c 13).flagRecall g true
  let s := d.scribe c
  let l := s.holds ++ [d.frameNow]
  let l := l.filter fun f => decide (d.frameNow < f + 1000)
  let d := d.setScribe c { s with holds := l }
  let rec_ := d.on F.TCH_LCSTAT_RECOVERY c
  if rec_ ∨ d.use F.TCH_RCVCFG_RECOVERY_TRIGGER c ≤ l.length then
    let e := d.frameNow + d.use F.TCH_RCVCFG_RECOVERY_FRAMES c
    (d.setScribe c { d.scribe c with recoverTo := some e }).set F.TCH_LCSTAT_RECOVERY 1 c
  else d

/-! ### Management messages (R136 to R140) -/

/-- The 60 bytes of a message before its CMAC: TYPE, FLAGS, LOCAL, XID and the body. -/
def msgBytes (type : Nat) (auth : Bool) (loc xid : Nat) (body : List Byte) : List Byte :=
  toBE type 1 ++ toBE (b2n auth) 1 ++ toBE loc 1 ++ toBE xid 1 ++ slice body 0 56

/-- Does channel c's management queue have room for `n` more (R211)? -/
def Dev.mgmtRoom (d : Dev) (c n : Nat) : Bool := decide ((Tbl.get [] d.tm.mgmt c).length + n ≤ 64)

/-- Is frame `f` an awake frame of a dozing terminal (R133): one from the effective frame on, at the phase? -/
def Term.awake (t : Term) (f : Nat) : Bool := t.period == 0 || (decide (t.dozeFrom ≤ f) && f % t.period == t.phase)

/-- The next awake frame after `f` (R133). -/
def Term.nextAwake (t : Term) (f : Nat) : Nat :=
  let n := max (f + 1) t.dozeFrom
  if t.period = 0 then f + 1 else n + (t.phase + t.period - n % t.period) % t.period

/-- Does a terminal hear in its awake frames only? One that is ranged again from DOZE dozes until it has its RANGE_REQ (R134). -/
def Term.dozes (t : Term) : Bool := t.st == .doze || (t.st == .ranging && t.back == .doze)

/-- Put a message in channel c's management queue, in a buffer of MG c; refused one, it is dropped and counted (R343, R344). -/
def Dev.pushMgmt (d : Dev) (c : Nat) (m : MgmtMsg) : Dev :=
  let a := d.alloc (askPort (384 + c)) (384 + c) 64
  match a.2 with
  | none => a.1
  | some b =>
    let d := a.1
    let l := Tbl.get [] d.tm.mgmt c ++ [{ m with buf := b }]
    { d with tm := { d.tm with mgmt := Tbl.set d.tm.mgmt c l } }.set F.TMG_CHSTAT_MGMT_DEPTH l.length c

/-- Send a message: a dozing terminal's unicast messages wait for its awake frames (R211). -/
def Dev.sendMsg (d : Dev) (c : Nat) (m : MgmtMsg) : Dev :=
  let t := d.term (128 * c + m.dest)
  if m.dest < 128 ∧ t.dozes ∧ t.awake d.frameNow = false then
    let s := d.scribe c
    d.setScribe c { s with held := s.held ++ [m] }
  else d.pushMgmt c m

/-- Broadcast a message (R136). -/
def Dev.broadcast (d : Dev) (c type : Nat) (body : List Byte) : Dev :=
  d.pushMgmt c { bytes := msgBytes type false 0xFF 0 body, dest := 128 }

/-- Send a message that no answer is expected to, or whose answer is a ranging burst. -/
def Dev.unicast (d : Dev) (c loc type xid : Nat) (body : List Byte) : Dev :=
  d.sendMsg c { bytes := msgBytes type true loc xid body, dest := loc }

/-- Send a message that expects an answer: it is resent under R140 until one comes. A transaction of the same type that
is still open is replaced. -/
def Dev.askX (d : Dev) (c loc type xid : Nat) (body : List Byte) : Dev :=
  let g := 128 * c + loc
  let t := d.term g
  let x : Txn := { type := type, xid := xid, body := body, tries := 0, sent := none, granted := none, due := false }
  let d := d.setTerm g { t with txns := (t.txns.filter fun y => y.type != type) ++ [x] }
  d.unicast c loc type xid body

/-- The same with the next transaction number of the terminal. -/
def Dev.ask (d : Dev) (c loc type : Nat) (body : List Byte) : Dev :=
  let g := 128 * c + loc
  let t := d.term g
  (d.setTerm g { t with xid := (t.xid + 1) % 256 }).askX c loc type t.xid body

/-- End the transaction of a type. -/
def Term.endTxn (t : Term) (type : Nat) : Term := { t with txns := t.txns.filter fun y => y.type != type }

/-! ### Ranging (R118, R119) -/

/-- The order in which free slots go to requests (R118). DESIGN CHOICE (log entry 192): a side move's request comes last. -/
def Ask.order : Ask → Nat
  | .rerange => 0
  | .discovery => 1
  | .recalled => 2
  | .move => 3

/-- Ranging slots left for a request of a kind, once those that wait before it have theirs (R118). -/
def Dev.slotsFor (d : Dev) (c : Nat) (a : Ask) : Nat :=
  let s := d.scribe c
  let waiting := (List.filter (fun e : Nat × Term =>
    (e.2.ask.any fun r => decide (r.ask.order < a.order) && !r.refused) && !s.slots.contains (e.1 % 128)) (d.termsOf c)).length
  16 - s.slots.length - waiting

/-- Windows already reserved in an upstream subframe. -/
def Dev.windowsAt (d : Dev) (c sub : Nat) : Nat :=
  (List.filter (fun e : Nat × Term => (e.2.ask.bind fun r => r.window) == some sub) (d.termsOf c)).length

/-- Blocks of discovery windows in an upstream subframe (R114, R167). -/
def Dev.discBlocks (d : Dev) (c sub : Nat) : Nat :=
  (d.scribe c).windows.foldl (fun a w =>
    let last := w.sub * 55808 + w.blocks
    a + (min last ((sub + 1) * 55808) - max (w.sub * 55808) (sub * 55808))) 0

/-- Blocks that a discovery window opening at upstream frame `f` will take in an upstream subframe, where one is due there that
has not been announced (R114, R167). -/
def Dev.discDue (d : Dev) (c sub f : Nat) : Nat :=
  let period := if d.on F.TCH_LCSTAT_RECOVERY c then 8 else d.use F.TCH_DISCCFG_DISC_PERIOD c
  let known := (d.scribe c).windows.any fun w => w.sub == 4 * f
  if d.useB F.TCH_DISCCFG_DISC_EN c = false ∨ f % period ≠ 0 ∨ f ≤ d.frameNow ∨ known ∨ d.preEqd c < 0 then 0
  else
    let last := 4 * f * 55808 + d.spread c + d.backoff c * 640
    min last ((sub + 1) * 55808) - max (4 * f * 55808) (sub * 55808)

/-- Blocks of discovery windows in an upstream subframe, open and to come: a window spans at most four frames. -/
def Dev.discAhead (d : Dev) (c sub : Nat) : Nat :=
  d.discBlocks c sub + (List.range 4).foldl (fun a k => if k ≤ sub / 4 then a + d.discDue c sub (sub / 4 - k) else a) 0

/-- The length of a ranging window (R119). -/
def Dev.rangeLen (d : Dev) (c : Nat) : Nat := 596 + 2 * d.use F.TCH_RCVCFG_RANGE_SLACK c

/-- Is there room for another ranging window in an upstream subframe (R119, R167)? -/
def Dev.windowRoom (d : Dev) (c sub : Nat) : Bool :=
  let n := d.windowsAt c sub
  decide (n < d.use F.TCH_RCVCFG_RANGE_PER_SF c) && decide (d.discAhead c sub + (n + 1) * d.rangeLen c ≤ 55808)

/-- The first upstream subframe from `sub` with room; `fuel` bounds the search. -/
def Dev.firstWindow (d : Dev) (c sub : Nat) : Nat → Nat
  | 0 => sub
  | fuel + 1 => if d.windowRoom c sub then sub else d.firstWindow c (sub + 1) fuel

/-- A ranging request takes a slot and a window, and its ASSIGN or RANGE_REQ is sent (R118, R119): the window lies at
least two subframes after the message's, in a subframe whose map is still to be built (log entry 24). The slots stand in the
order of the reservations (R167). DEDUCED (log entry 87): the message of a terminal that dozes goes in its next awake frame, and the
window lies after that. -/
def Dev.sendRange (d : Dev) (c loc : Nat) : Dev :=
  let g := 128 * c + loc
  let t := d.term g
  match t.ask with
  | none => d
  | some r =>
    let heard := if t.dozes ∧ t.awake d.frameNow = false then 4 * t.nextAwake d.frameNow + 3 else d.subNow
    let w := d.firstWindow c (max r.after (heard + 3)) 4096
    let s := d.scribe c
    let d := d.setScribe c { s with slots := (s.slots.filter fun x => x != loc) ++ [loc] }
    let d := d.setTerm g { t with ask := some { r with window := some w, xid := t.xid }, xid := (t.xid + 1) % 256 }
    let target := w % 65536
    if r.again then d.unicast c loc 0x03 t.xid (toBE r.eqd 4 ++ toBE target 2)
    else match r.ask with
    | .discovery =>
      (d.broadcast c 0x02 (toBE t.serial 8 ++ toBE loc 1 ++ toBE (d.downKey g) 1 ++ toBE r.eqd 4 ++ toBE target 2 ++
        toBE 0 1)).lcCount c 6
    | .recalled =>
      (d.broadcast c 0x02 (toBE t.serial 8 ++ toBE loc 1 ++ toBE (d.downKey g) 1 ++ toBE r.eqd 4 ++ toBE target 2 ++
        toBE 1 1)).lcCount c 6
    | _ => d.unicast c loc 0x03 t.xid (toBE r.eqd 4 ++ toBE target 2)

/-- A ranging request as it begins. -/
def Ranging.of (a : Ask) (eqd : Nat) : Ranging :=
  { ask := a, eqd := eqd, window := none, again := false, after := 0, xid := 0, refused := false }

/-- A ranging request is sent where a slot is free for it, or held by it, and its message has room (R118, R211); else it waits. -/
def Dev.tryRange (d : Dev) (c loc : Nat) (a : Ask) : Dev :=
  if ((d.scribe c).slots.contains loc ∨ 0 < d.slotsFor c a) ∧ d.mgmtRoom c 1 then d.sendRange c loc else d

/-- Ask for a ranging: at once where that can be, else it waits (R118). -/
def Dev.askRange (d : Dev) (c loc : Nat) (a : Ask) (eqd : Nat) : Dev :=
  let g := 128 * c + loc
  let t := d.term g
  (d.setTerm g { t with ask := some (.of a eqd) }).tryRange c loc a

/-- Set a terminal RANGING for a re-range (R122, R124): its adjustment and doze end, its bursts are not granted. A DISABLE or
doze end that waits stays. DESIGN CHOICE (log entry 194): a re-range for which no offset calls states the EqD held. -/
def Dev.rerange (d : Dev) (c loc eqd cause : Nat) : Dev :=
  let g := 128 * c + loc
  let t := d.term g
  let d := d.setTerm g { t with
    back := t.st, st := .ranging, cause := cause, changed := d.frameNow % 2 ^ 32, adj := none, drift := [], attempts := 0,
    dozeEnd := none, txns := t.txns.filter fun x => x.type != 0x04 }
  let d := if t.st = .doze then d.addTodo c loc .dozeEnd else d
  (d.lcCount c 12).askRange c loc .rerange eqd

/-- EqD would be negative (R109): FREE, TOO_FAR. -/
def Dev.tooFar (d : Dev) (c loc : Nat) : Dev := (d.endTerm (128 * c + loc) 11).lcFlag F.TCH_LCSTAT_TOOFAR c

/-- Ruling re-ranges a terminal after an arrival offset beyond the adjustment limit (R122); where its EqD would be negative, RANGING
ends in FREE (R109). -/
def Dev.rerangeBy (d : Dev) (c loc : Nat) (o : Int) : Dev :=
  let g := 128 * c + loc
  let e := (((d.term g).eqd : Nat) : Int) - o
  if 0 ≤ e then d.rerange c loc e.toNat 14
  else ((d.toState g .ranging 14).lcCount c 12).tooFar c loc

/-! ### Local numbers (R113) -/

/-- Is a local number pinned by some whitelist entry of the channel (R113)? -/
def Dev.pinnedOn (d : Dev) (c loc : Nat) : Bool :=
  d.reg.white.any fun e => e.2.pinLoc == some loc && (e.2.pinTree == none || e.2.pinTree == some (c / 2))

/-- The local number for a whitelist entry on a channel (R113). -/
def Dev.localFor (d : Dev) (c w : Nat) : Option Nat :=
  match (d.white w).pinLoc with
  | some n => if (d.term (128 * c + n)).st = .free then some n else none
  | none => (List.range 128).find? fun n => (d.term (128 * c + n)).st == .free && !d.pinnedOn c n

/-- The local numbers, over all channels, at which a serial is registered beyond FREE. -/
def Dev.withSerial (d : Dev) (serial : Nat) : List Nat :=
  (List.filter (fun e : Nat × Term => e.2.serial == serial && e.2.registered) d.reg.terms).map (·.1)

/-- Where a serial is registered beyond FREE. -/
def Dev.findSerial (d : Dev) (serial : Nat) : Option Nat :=
  Tbl.first? (fun _ t => t.serial == serial && t.registered) d.reg.terms

/-- The wrap of KEY_INDEX `k` in a whitelist entry; none where the entry holds no key (R539). -/
def White.wrap (w : White) (k : Nat) : Option (List Byte) :=
  let l := slice w.wraps (40 * k) 40
  if l.all fun b => b == 0 then none else some l

/-- The keys of whitelist entry `w` enter the EMPTY slots of terminal `g` (R112, R413, log entry 26). -/
def Dev.whiteKeys (d : Dev) (g w : Nat) : Dev :=
  foldUpTo 2 (fun k d => match (d.white w).wrap k with
    | none => d
    | some l => if (d.slot (termSlot g k)).state = 0 then (d.importSlot (termSlot g k) l).1 else d) d

/-- A terminal's registration begins (R91, R113, R275): its preset takes the channel default's contents, with no
write-back yet; its downstream key index is the lower one that is LOADED. -/
def Dev.register (d : Dev) (c loc w : Nat) (tunable doze : Bool) (cause : Nat) : Dev :=
  let g := 128 * c + loc
  let k := if (d.slot (termSlot g 0)).state = 1 then 0 else if (d.slot (termSlot g 1)).state = 1 then 1 else 0
  let d := d.setPreset g { value := (d.preset (16384 + c)).value, state := 0, since := d.frameNow }
  d.setTerm g { freeTerm with
    st := .ranging, cause := cause, changed := d.frameNow % 2 ^ 32, serial := (d.white w).serial, white := some w,
    tunable := tunable, canDoze := doze, keyIdx := k, back := .free, marks := (d.term g).marks }

/-! ### Side moves that wait (R118, R130) -/

/-- What a side move needs: the target's channel, local number and whitelist entry, and its EqD (R130). -/
def Dev.movePlan (d : Dev) (c loc : Nat) : Option (Nat × Nat × Nat × Int) :=
  let t := d.term (128 * c + loc)
  let c2 := if c % 2 = 0 then c + 1 else c - 1
  let e := d.eqrt c2 - tResp - t.rtd
  if t.st ≠ .active ∨ t.tunable = false ∨ d.headRole c2 = false then none
  else match t.white with
    | none => none
    | some w => (d.localFor c2 w).map fun n => (c2, n, w, e)

/-- Does a side move wait for a ranging slot of its target (R118, R130)? -/
def Dev.moveWaits (d : Dev) (c loc : Nat) : Bool := (d.movePlan c loc).any fun p => d.slotsFor p.1 .move == 0

/-! ### The order of a terminal's events (R110) -/

/-- Does an arrival offset make Ruling re-range its terminal (R122, R124)? -/
def Dev.reranges (d : Dev) (c loc : Nat) (o : Int) (f : Nat) : Bool :=
  let far := decide (d.adjLimit c < o.natAbs)
  match (d.term (128 * c + loc)).adj with
  | none => far
  | some a =>
    if f < a.frame then false
    else if o.natAbs < 2 ∨ decide (0 < o) == decide (0 < a.delta) then far
    else a.resent

/-- The place of an event among those of one terminal that fall together (R110): DISABLE by host or rogue rule, DYING_GASP, loss,
re-range, then all others. -/
def Dev.rankOf (d : Dev) (c loc : Nat) (t : Todo) : Nat :=
  match t with
  | .host _ 0x11 _ _ => 0
  | .mark => if d.use F.TCH_LCCFG_ROGUE_MARKS c ≤ (d.marksNow (d.term (128 * c + loc))).length + 1 then 0 else 4
  | .gasp => 1
  | .loss => 2
  | .host _ 0x15 _ _ => 3
  | .track o f => if d.reranges c loc o f then 3 else 4
  | _ => 4

/-- The events of `loc` that the Scribe can take, in order of arrival: a side move that waits for a slot of its target holds up no
other. -/
def Dev.todoOf (d : Dev) (c loc : Nat) : List Todo :=
  let waits := d.moveWaits c loc
  let is (t : Todo) : Bool := match t with
    | .host _ 0x14 _ _ => waits
    | _ => false
  ((d.scribe c).todo.filter fun e => e.1 == loc && !is e.2).map (·.2)

/-- Is no event of `loc` pending that R110 takes before those of rank `n`? -/
def Dev.clear (d : Dev) (c loc n : Nat) : Bool := (d.todoOf c loc).all fun t => decide (n ≤ d.rankOf c loc t)

/-- Has a message to `loc` run out of attempts so that a re-range is due (R140)? -/
def Dev.rerangeDue (d : Dev) (c loc : Nat) : Bool :=
  let t := d.term (128 * c + loc)
  !(d.todoOf c loc).contains .msg &&
    t.txns.any fun x => x.type == 0x04 && x.due && decide (d.use F.TCH_LCCFG_RETRIES c ≤ x.tries)

/-- The event of `loc` that comes next: the first of those that R110 puts first. -/
def Dev.nextTodo (d : Dev) (c loc : Nat) : Option Todo :=
  let l := d.todoOf c loc
  let r := (List.range 4).find? fun n => l.any fun t => d.rankOf c loc t == n
  match r with
  | some n => l.find? fun t => d.rankOf c loc t == n
  | none => if d.rerangeDue c loc then none else l.head?

/-- Does the next event of `loc` satisfy `p`? -/
def Dev.turn (d : Dev) (c loc : Nat) (p : Todo → Bool) : Bool := (d.nextTodo c loc).any p

/-- Take the next event of local number `loc`, where it satisfies `p`. -/
def Dev.takeTodo (d : Dev) (c loc : Nat) (p : Todo → Bool) : Dev × Option Todo :=
  match (d.nextTodo c loc).filter p with
  | none => (d, none)
  | some t =>
    let s := d.scribe c
    (d.setScribe c { s with todo := s.todo.erase (loc, t) }, some t)

end Sys2Proof.Machine
end

