-- ==== Sys2Proof/Machine/Traffic.lean ====
section
/-!
DEFINITION. Downstream traffic management (R207 to R232): the scheduler, the shapers, the meter sweep, and the indirect
port to its tables.
-/

namespace Sys2Proof.Machine

/-! ### Nodes and queues -/

/-- A node that has been in no share. -/
def emptyN : NSt := { creditC := 0, creditP := 0, tagC := 0, tagE := 0, inC := false, inE := false }

/-- A node's state. -/
def Dev.nst (d : Dev) (n : Nat) : NSt := Tbl.get emptyN d.tm.nst n

/-- Replace a node's state. -/
def Dev.setN (d : Dev) (n : Nat) (x : NSt) : Dev := { d with tm := { d.tm with nst := Tbl.set d.tm.nst n x } }

/-- A node's configuration in force (R217, R230). -/
def Dev.nc (d : Dev) (n : Nat) : Nat := Tbl.get (Tbl.get 0 d.tm.ncfg n) d.tm.nold n

/-- A rate or size field of a record: bits [23:0] of four bytes. -/
def rec24 (r o : Nat) : Nat := bits (recBytes r o 4) 0 24

/-- Is a node open (R210)? -/
def Dev.nodeOpen (d : Dev) (n : Nat) : Bool :=
  if n < 16384 then
    let t := d.term n
    t.st == .active || (t.st == .doze && t.awake d.frameNow && decide (d.subNow % 4 < 3))
  else d.useB F.TCH_FRMCFG_TX_EN (n - 16384)

/-- Is a downstream queue eligible (R211)? -/
def Dev.qEligible (d : Dev) (q : Nat) : Bool :=
  let x := d.qst q
  d.qValid q && !x.h.isEmpty && (rec24 (d.qc q) 8 == 0 || decide (0 ≤ x.credit))

/-- A weight as used (R212). -/
def weight (w : Nat) : Nat := max 1 w

/-- PRIO of a queue: its low two bits. -/
def Dev.qPrio (d : Dev) (q : Nat) : Nat := recBytes (d.qc q) 5 1 % 4

/-- The member with the least tag, ties to the lower index (R211). -/
def leastTag (tag : Nat → Nat) (l : List Nat) : Option Nat :=
  l.foldl (fun a n => match a with
    | none => some n
    | some m => if sdiff 32 (tag n) (tag m) < 0 then some n else some m) none

/-- The nodes of channel `c` in order. -/
def chNodes (c : Nat) : List Nat :=
  ((List.range 128).map fun k => 128 * c + k) ++ [16384 + c]

/-- Has a node an eligible queue? -/
def Dev.nodeBusy (d : Dev) (n : Nat) : Bool := (d.queuesOf n).any fun q => d.qEligible q

/-- Is a node a member of the committed share now (R211, R215)? -/
def Dev.inCommitted (d : Dev) (n : Nat) : Bool :=
  rec24 (d.nc n) 0 != 0 && decide (0 ≤ (d.nst n).creditC) && d.nodeOpen n && d.nodeBusy n

/-- Is a node a member of the excess share now (R211, R215)? -/
def Dev.inExcess (d : Dev) (n : Nat) : Bool :=
  (rec24 (d.nc n) 4 == 0 || decide (0 ≤ (d.nst n).creditP)) && d.nodeOpen n && d.nodeBusy n

/-- Members of the committed share join and leave it (R213). -/
def Dev.joinC (v : Nat) (d : Dev) (n : Nat) : Dev :=
  let x := d.nst n
  let e := d.inCommitted n
  if e = x.inC then d
  else d.setN n { x with inC := e, tagC := if e then later x.tagC v else x.tagC }

/-- Members of the excess share join and leave it (R213). -/
def Dev.joinE (v : Nat) (d : Dev) (n : Nat) : Dev :=
  let x := d.nst n
  let e := d.inExcess n
  if e = x.inE then d
  else d.setN n { x with inE := e, tagE := if e then later x.tagE v else x.tagE }

/-- Queues of a node's priority share join and leave it (R213, R223). -/
def Dev.joinQ (v : Nat) (d : Dev) (q : Nat) : Dev :=
  let x := d.qst q
  let e := d.qEligible q
  if e = x.joined then d
  else d.setQ q { x with joined := e, tag := if e then later x.tag v else x.tag }

/-- What the scheduler picks before it charges: the node, whether from the committed share. -/
def Dev.pickNode (d : Dev) (c : Nat) : Dev × Option (Nat × Bool) :=
  let l := chNodes c
  let d := l.foldl (Dev.joinC (d.get F.TMG_CHVT_V_COM c)) d
  match leastTag (fun n => (d.nst n).tagC) (l.filter fun n => (d.nst n).inC) with
  | some n => (d, some (n, true))
  | none =>
    let d := l.foldl (Dev.joinE (d.get F.TMG_CHVT_V_EXC c)) d
    match leastTag (fun n => (d.nst n).tagE) (l.filter fun n => (d.nst n).inE) with
    | some n => (d, some (n, false))
    | none => (d, none)

/-- Pick a queue of node `n` (R211): levels 3 down to 0. -/
def Dev.pickQueue (d : Dev) (n : Nat) : Nat → Dev × Option Nat
  | 0 => (d, none)
  | p + 1 =>
    let l := (d.queuesOf n).filter fun q => d.qPrio q == p
    let d := l.foldl (Dev.joinQ (Tbl.get 0 d.tm.vprio (4 * n + p))) d
    match leastTag (fun q => (d.qst q).tag) (l.filter fun q => (d.qst q).joined) with
    | some q => (d, some q)
    | none => d.pickQueue n p

/-- The tag after a pick (R212). -/
def nextTag (tag c w : Nat) : Nat := (tag + c * 4096 / weight w) % 2 ^ 32

/-- Charge a pick: the node's shares and shapers, the queue's, and the channel's (R212, R215). -/
def Dev.charge (d : Dev) (ch n q : Nat) (com : Bool) (c : Nat) : Dev :=
  let cost : Int := (c * 1000000 : Nat)
  let r := d.nc n
  let x := d.nst n
  let d := d.set (if com then F.TMG_CHVT_V_COM else F.TMG_CHVT_V_EXC) (if com then x.tagC else x.tagE) ch
  let x := if com then { x with tagC := nextTag x.tagC c (recBytes r 16 1), creditC := x.creditC - cost }
    else { x with tagE := nextTag x.tagE c (recBytes r 16 1) }
  let d := d.setN n (if rec24 r 4 = 0 then x else { x with creditP := x.creditP - cost })
  let y := d.qst q
  let qr := d.qc q
  let d := { d with tm := { d.tm with vprio := Tbl.set d.tm.vprio (4 * n + d.qPrio q) y.tag } }
  let y := { y with tag := nextTag y.tag c (recBytes qr 6 1) }
  let d := d.setQ q (if rec24 qr 8 = 0 then y else { y with credit := y.credit - cost })
  if d.use F.TMG_CHCFG_CH_RATE ch = 0 then d
  else { d with tm := { d.tm with chCredit := Tbl.set d.tm.chCredit ch (Tbl.get 0 d.tm.chCredit ch - cost) } }

/-- Keep a selection for the framer (R214). -/
def Dev.keepSel (d : Dev) (c : Nat) (x : Sel) : Dev :=
  { d with tm := { d.tm with ahead := Tbl.set d.tm.ahead c (Tbl.get [] d.tm.ahead c ++ [x]) } }

/-- Does a channel's framer run: framed in head role, and in STANDBY where its lane is squelched (R32, R53)? -/
def Dev.schedules (d : Dev) (c : Nat) : Bool := d.framing c || (d.mode == 3 && d.enabled c)

/-- A channel's scheduler makes one selection (R211, R214). -/
def Dev.select (d : Dev) (c : Nat) : Dev :=
  if d.schedules c = false ∨ 2 ≤ (Tbl.get [] d.tm.ahead c).length then d
  else if d.use F.TMG_CHCFG_CH_RATE c ≠ 0 ∧ Tbl.get 0 d.tm.chCredit c < 0 then d
  else match Tbl.get [] d.tm.mgmt c with
    | m :: r =>
      let d := { d with tm := { d.tm with mgmt := Tbl.set d.tm.mgmt c r } }.set F.TMG_CHSTAT_MGMT_DEPTH r.length c
      (d.keepSel c (.mgmt m)).bump F.TMG_CHCNT_COUNT c 2
    | [] =>
      if !d.useB F.TMG_CHCFG_SCHED_EN c then d
      else
        let k := d.pickNode c
        match k.2 with
        | none => k.1
        | some (n, com) =>
          let z := k.1.pickQueue n 4
          match z.2 with
          | none => z.1
          | some q =>
            let r := z.1.popQ q
            match r.2 with
            | none => z.1
            | some p =>
              let l := z.1.charged q p.len
              let d := ((r.1.charge c n q com l).headWait q).tracePkt p 2 q
              let d := (d.bump F.TMG_CHCNT_COUNT c 0).bump F.TMG_CHCNT_COUNT c 1 l
              let d := if com then d.bump F.TMG_CHCNT_COUNT c 3 else d
              d.keepSel c (.pkt q p)

/-- SCHEDULER_SELECT. -/
def execSchedulerSelect (c : Ch) (s : State) : Res := run (.schedulerSelect c) s fun d => d.select c

/-! ### Shapers and meters -/

/-- A shaper's credit after a refill (R216). -/
def refilled (credit : Int) (rate size ns : Nat) : Int :=
  if rate = 0 then credit else min (credit + (rate * ns : Nat)) ((max 2048 size * 1000000 : Nat) : Int)

/-- A queue leaves the share that it was in: it will join (R213). -/
def Dev.leaveShare (d : Dev) (q : Nat) : Dev := d.setQ q { d.qst q with joined := false }

/-- Put in force of a queue's record what R217 says takes effect at a refill boundary: everything but PARENT. A queue whose
PRIO changes comes to another share. -/
def Dev.applyQ (d : Dev) (q : Nat) : Dev :=
  let new := Tbl.get 0 d.tm.qcfg q
  let was := d.qPrio q
  let now := setRec new 0 4 (recBytes (d.qc q) 0 4)
  let d := { d with tm := { d.tm with qold := if now = new then Tbl.erase d.tm.qold q else Tbl.set d.tm.qold q now } }
  if d.qPrio q = was then d else d.leaveShare q

/-- Is a queue one that receives packets: a downstream queue, or one of a port's first lane-port (R224)? -/
def Dev.qUsed (d : Dev) (q : Nat) : Bool := decide (q < 65536) || d.isFirst ((q - 65536) / 8)

/-- Refill a queue's shaper. -/
def Dev.refillQ (ns : Nat) (d : Dev) (q : Nat) : Dev :=
  let r := d.qc q
  if rec24 r 8 = 0 ∨ d.qUsed q = false then d
  else
    let x := d.qst q
    d.setQ q { x with credit := refilled x.credit (rec24 r 8) (rec24 r 12) ns }

/-- Refill a node's shapers. -/
def Dev.refillN (ns : Nat) (d : Dev) (n : Nat) : Dev :=
  let r := d.nc n
  let x := d.nst n
  d.setN n { x with
    creditC := refilled x.creditC (rec24 r 0) (rec24 r 8) ns, creditP := refilled x.creditP (rec24 r 4) (rec24 r 12) ns }

/-- Refill a channel's shaper. -/
def Dev.refillC (ns : Nat) (c : Nat) (d : Dev) : Dev :=
  let d := d.release RegOf.TMG_CHCFG c 0
  let k := refilled (Tbl.get 0 d.tm.chCredit c) (d.use F.TMG_CHCFG_CH_RATE c) (d.use F.TMG_CHCFG_CH_BURST c) ns
  if d.use F.TMG_CHCFG_CH_RATE c = 0 then d
  else { d with tm := { d.tm with chCredit := Tbl.set d.tm.chCredit c k } }

/-- A refill boundary: time runs to it, waiting configuration takes effect, and every shaper gains (R216, R217). -/
def Dev.refillAll (d : Dev) : Dev :=
  let ns := d.use F.TMG_GLB_REFILL_NS
  let d := d.runTo ((d.nowNs / ns + 1) * ns)
  let d := (d.tm.qold.map (·.1)).foldl Dev.applyQ d
  let d := { d with tm := { d.tm with nold := [] } }
  let d := (d.tm.qcfg.map (·.1)).foldl (Dev.refillQ ns) d
  let d := (d.tm.ncfg.map (·.1)).foldl (Dev.refillN ns) d
  foldUpTo 128 (Dev.refillC ns) d

/-- REFILL. -/
def execRefill (s : State) : Res := run .refill s Dev.refillAll

/-- Refill one meter's buckets. -/
def Dev.sweepMeter (d : Dev) (m : Nat) : Dev :=
  { d with tm := { d.tm with mst := Tbl.set d.tm.mst m (d.meterRefill m) } }

/-- The background sweep refills every meter (R219): one that nothing has configured holds no bytes, and only its stamp
moves. -/
def Dev.meterSweep (d : Dev) : Dev :=
  let d := ((d.tm.mcfg ++ d.tm.mst).map (·.1)).foldl Dev.sweepMeter d
  { d with tm := { d.tm with swept := d.stamp } }

/-- METER_SWEEP. -/
def execMeterSweep (s : State) : Res := run .meterSweep s Dev.meterSweep

/-- Local time runs to a multiple of `n` ns, unless it is at one (log entry 21). -/
def Dev.toMultiple (d : Dev) (n : Nat) : Dev :=
  if d.nowNs % n = 0 ∧ d.clk.frac = 0 then d else d.runTo ((d.nowNs / n + 1) * n)

/-- A frame boundary: time runs to it (log entry 21). -/
def Dev.toFrame (d : Dev) : Dev := d.toMultiple 125000

/-- A queue's PARENT takes effect at a frame boundary (R218): it keeps its packets, and joins its new parent's share. -/
def Dev.reparent (d : Dev) (q : Nat) : Dev :=
  match Tbl.find? d.tm.qold q with
  | none => d
  | some old =>
    let new := Tbl.get 0 d.tm.qcfg q
    let d := d.toFrame
    let now := setRec old 0 4 (recBytes new 0 4)
    let moved := decide (recBytes old 0 4 ≠ recBytes new 0 4)
    let d := { d with tm := { d.tm with qold := if now = new then Tbl.erase d.tm.qold q else Tbl.set d.tm.qold q now } }
    if moved then d.leaveShare q else d

/-- QUEUE_REPARENT. -/
def execQueueReparent (q : Fin 65536) (s : State) : Res := run (.queueReparent q) s fun d => d.reparent q

/-! ### The indirect port (R228 to R232) -/

/-- Records in a table of the port. -/
def tmgSize : Nat → Nat
  | 0 => 66560
  | 1 => 66560
  | 2 => 16512
  | 3 => 16512
  | 4 => 131072
  | 5 => 131072
  | 6 => 256
  | _ => 0

/-- The channel whose REFUSALS a refused access counts in (R228). -/
def Dev.tmgCh (d : Dev) (table index : Nat) : Nat :=
  if tmgSize table ≤ index then 0
  else if table < 2 ∧ index < 65536 then min 127 (d.qCh index)
  else if table = 2 ∨ table = 3 then nodeCh index
  else 0

/-- A refused access. -/
def Dev.tmgRefuse (d : Dev) (table index : Nat) : Dev :=
  (d.flag F.TMG_CHSTAT_REFUSED (d.tmgCh table index)).flag F.TMG_IND_CTL_REFUSED 0 0 false

/-- A queue's state record (R229): it reads zero where the queue receives no packets (R224). -/
def Dev.queueRec (d : Dev) (q : Nat) : Nat :=
  if d.qUsed q = false then 0 else
  let x := d.qst q
  let ahead := d.tm.ahead.any fun e => e.2.any fun s => match s with
    | .pkt k _ => k == q
    | .mgmt _ => false
  let el := if q < 65536 then d.qEligible q else d.egEligible ((q - 65536) / 8) (q % 8)
  let fl := b2n el + 2 * b2n (x.h.isEmpty && !x.m.isEmpty) + 4 * b2n ahead
  ofLE (toLE (d.depth q) 4 ++ toLE x.all.length 4 ++ toLE x.avg 4 ++ toLE x.tag 4 ++ toLE (unsgn 64 x.credit) 8 ++
    toLE fl 1)

/-- A node's state record (R230). -/
def Dev.nodeRec (d : Dev) (n : Nat) : Nat :=
  let x := d.nst n
  let qs := d.queuesOf n
  let fl := b2n (d.nodeOpen n) + 2 * b2n (d.inCommitted n) + 4 * b2n (d.inExcess n)
  ofLE (toLE (unsgn 64 x.creditC) 8 ++ toLE (unsgn 64 x.creditP) 8 ++ toLE x.tagC 4 ++ toLE x.tagE 4 ++
    toLE (qs.foldl (fun a q => a + d.depth q) 0) 4 ++ toLE (qs.filter fun q => !(d.qst q).all.isEmpty).length 2 ++
    toLE fl 1)

/-- A meter's state record (R231). -/
def Dev.meterRec (d : Dev) (m : Nat) : Nat := Tbl.get (d.tm.swept * 2 ^ 96) d.tm.mst m

/-- A congestion profile's record (R232). -/
def Dev.profile (d : Dev) (i : Nat) : Nat := Tbl.get profileDefault d.tm.prof i

/-- A record as the port reads it. -/
def Dev.tmgRec (d : Dev) (table i : Nat) : Nat :=
  match table with
  | 0 => Tbl.get 0 d.tm.qcfg i
  | 1 => d.queueRec i
  | 2 => Tbl.get 0 d.tm.ncfg i
  | 3 => d.nodeRec i
  | 4 => Tbl.get 0 d.tm.mcfg i
  | 5 => d.meterRec i
  | _ => d.profile i

/-- The mask of the fields that each configuration record has (R229 to R232): the rest is zero. -/
def tmgMask (table : Nat) : Nat :=
  let l : List Nat := match table with
    | 0 => [0xFF, 0x7F, 0, 0, 3, 0xFF, 0xFF, 0xFF, 0xFF, 0xFF, 0xFF, 0, 0xFF, 0xFF, 0xFF, 0, 1, 0xFF]
    | 2 => [0xFF, 0xFF, 0xFF, 0, 0xFF, 0xFF, 0xFF, 0, 0xFF, 0xFF, 0xFF, 0, 0xFF, 0xFF, 0xFF, 0, 0xFF]
    | 4 => [0xFF, 0xFF, 0xFF, 0, 0xFF, 0xFF, 0xFF, 0, 0xFF, 0xFF, 0xFF, 0, 0xFF, 0xFF, 0xFF, 0, 1]
    | _ => List.replicate 14 0xFF ++ [0, 0] ++ List.replicate 9 0xFF
  ofLE (l.map fun v => BitVec.ofNat 8 v)

/-- Is a configuration record one that the port takes (R228)? -/
def tmgOk (table i r : Nat) : Bool :=
  decide (i < tmgSize table) &&
    match table with
    | 0 => decide (65536 ≤ i) || decide (bits r 0 15 ≤ 16511)
    | 2 => true
    | 4 => decide (rec24 r 0 ≤ rec24 r 4)
    | 6 => decide (recBytes r 4 4 < recBytes r 8 4) && decide (recBytes r 16 4 < recBytes r 20 4)
    | _ => false

/-- Write a queue's configuration (R217, R218, R229): VALID, ECN, CPROF and ADJUST apply at once, PARENT at the next
frame boundary (at once for an egress queue, which ignores it), the rest at the next refill boundary. The packets of an egress
queue made invalid are flushed; FLUSHED is a channel's counter, and they count nowhere (DEDUCED, log entry 166). -/
def Dev.writeQueue (d : Dev) (q r : Nat) : Dev :=
  let old := d.qc q
  let was := bit (recBytes old 4 1) 0
  let now := setRec (setRec (setRec old 4 1 (recBytes r 4 1)) 7 1 (recBytes r 7 1)) 17 1 (recBytes r 17 1)
  let now := if 65536 ≤ q then setRec now 0 4 (recBytes r 0 4) else now
  let d := if was ∧ bit (recBytes r 4 1) 0 = false then
      (if q < 65536 then d.flushQ q else (d.emptyQueue q 0).1).leaveShare q else d
  { d with tm := { d.tm with
      qcfg := Tbl.set d.tm.qcfg q r
      qold := if now = r then Tbl.erase d.tm.qold q else Tbl.set d.tm.qold q now } }

/-- Write a configuration record of table `table`, and its mirror. -/
def Dev.tmgWrite (d : Dev) (table i r : Nat) : Dev :=
  match table with
  | 0 => (d.writeQueue i r).mirror 0x05000000 64 i 0 32 r
  | 2 =>
    let old := d.nc i
    let tm := { d.tm with ncfg := Tbl.set d.tm.ncfg i r, nold := Tbl.set d.tm.nold i old }
    { d with tm := tm }.mirror 0x06000000 64 i 0 32 r
  | 4 =>
    let tm := { d.tm with mcfg := Tbl.set d.tm.mcfg i r, mold := Tbl.set d.tm.mold i (d.meterCfg i, d.clk.cyc) }
    { d with tm := tm }.mirror 0x07000000 64 i 0 32 r
  | _ => { d with tm := { d.tm with prof := Tbl.set d.tm.prof i r } }.mirror 0x08000000 32 i 0 32 r

/-- An access of the traffic-management port: nothing while BUSY is 1. -/
def Dev.tmgAccess (d : Dev) (table index : Nat) (write : Bool) : Dev :=
  if d.on F.TMG_IND_CTL_BUSY then d
  else
    let d := ((d.set F.TMG_IND_CTL_INDEX index).set F.TMG_IND_CTL_TABLE table).set F.TMG_IND_CTL_WRITE (b2n write)
    if write then
      let r := d.readData F.TMG_IND_DATA_DATA 4 &&& tmgMask table
      if tmgOk table index r then d.tmgWrite table index r else d.tmgRefuse table index
    else if tmgSize table ≤ index then d.tmgRefuse table index
    else d.showData F.TMG_IND_DATA_DATA 4 (d.tmgRec table index)

/-- TMG_IND_CTL GO with WRITE 0. -/
def execTmgIndRead (table : Fin 8) (index : Fin (2 ^ 17)) (s : State) : Res :=
  run (.tmgIndRead table index) s fun d => d.hostW fun d => d.tmgAccess table index false

/-- TMG_IND_CTL GO with WRITE 1. -/
def execTmgIndWrite (table : Fin 8) (index : Fin (2 ^ 17)) (s : State) : Res :=
  run (.tmgIndWrite table index) s fun d => d.hostW fun d => d.tmgAccess table index true

end Sys2Proof.Machine
end

