-- ==== Sys2Proof/Machine/Circuits.lean ====
section
/-!
DEFINITION. Timed circuits (R181 to R206): the mapper, the receiver, and circuit frames.
-/

namespace Sys2Proof.Machine

open Sys2Proof.Crypto

/-! ### Circuits -/

/-- A circuit that carries nothing. -/
def idleCir : Cir :=
  { frames := [], nextSeq := none, cursor := none, p := 0, fresh := true, playing := false, bad := 0, overran := false,
    txBip := 0, rei := 0, filed := [], nextSub := none, acc := 0, ptr1 := none, ptr2 := none, invalid := 0, lop := false,
    defect := false, rxBip := none, spanAt := none, out := [], outN := 0, outAt := (0, 0), outAis := false, outSeq := 0,
    formed := [], formedTo := none }

/-- A circuit's state. -/
def Dev.cir (d : Dev) (i : Nat) : Cir := Tbl.get idleCir d.cirs i

/-- The bytes in a circuit's buffer. -/
def Cir.held (x : Cir) : Nat := x.frames.foldl (fun a f => a + f.rest.length) 0

/-- Replace a circuit's state, and show it (R204). -/
def Dev.setCir (d : Dev) (i : Nat) (x : Cir) : Dev :=
  let d := { d with cirs := Tbl.set d.cirs i x }
  ((d.set F.CIR_STAT_TX_PTR x.p i).set F.CIR_STAT_RX_PTR x.acc i).set F.CIR_FILL_BYTES x.held i

/-- N of a circuit. -/
def Dev.cirN (d : Dev) (i : Nat) : Nat := d.use F.CIR_CFG_N i

/-- Blocks of a circuit's region (R184). -/
def Dev.cirBlocks (d : Dev) (i : Nat) : Nat := 1 + cdiv (d.cirN i) 8

/-- Bytes of a circuit's buffer (R198). -/
def Dev.cirBuffer (d : Dev) (i : Nat) : Nat := d.cirN i * (cdiv (d.use F.CIR_TIMING_DELAY_NS i) 31250 + 4)

/-- The circuits of channel `c` whose downstream direction is enabled, in order. -/
def Dev.cirsDown (d : Dev) (c : Nat) : List Nat :=
  ((List.range 8).map fun n => 8 * c + n).filter fun i => d.useB F.CIR_CFG_DN_EN i

/-- CIRCUIT_BLOCKS of channel `c` (R184). -/
def Dev.circuitBlocks (d : Dev) (c : Nat) : Nat := (d.cirsDown c).foldl (fun a i => a + d.cirBlocks i) 0

/-- The fill byte (R202). -/
def Dev.cirFill (d : Dev) (i : Nat) : Byte := if d.useB F.CIR_CFG_FILL i then 0xFF else 0

/-- The owner's local number (R181, R202). -/
def Dev.cirLocal (d : Dev) (i : Nat) : Nat := d.use F.CIR_CFG_LOCAL i

/-- The emulated terminal of a terminal-role channel that owns circuit `i`: the one that holds its local number (R181). -/
def Dev.cirHolder (d : Dev) (i : Nat) : Option Nat := d.localTerm (i / 8) (d.cirLocal i)

/-- The global index whose key slots a circuit uses (R190, R244): the owner's, which in terminal role is that of the emulated
terminal holding its local number. -/
def Dev.cirOwner (d : Dev) (i : Nat) : Nat :=
  128 * (i / 8) + (if d.termRole (i / 8) then (d.cirHolder i).getD (d.cirLocal i) else d.cirLocal i)

/-- Bit `k` of upstream subframe `t` at the balls of channel `c`, in 2^−16 ns of local time (R79, R106): the subframe begins one
EqRT after the boundary of its downstream subframe, which on side 1 leaves ADVANCE early (R476). -/
def Dev.up16 (d : Dev) (c t : Nat) (k : Int) : Int := ((t * 31250 * 65536 : Nat) : Int) + bits16 (d.eqrt c - d.advance c + k)

/-- The same in ns. -/
def Dev.upNs (d : Dev) (c t : Nat) (k : Int) : Nat := (d.up16 c t k / 65536).toNat

/-- The start of upstream subframe `t`, in ns. -/
def Dev.upStart (d : Dev) (c t : Nat) : Nat := d.upNs c t 0

/-! ### The mapper (R183 to R187, R197, R198) -/

/-- Has a byte fallen due before `e` ns: byte `k` at the nominal rate after `base`, of a circuit of `n` bytes (R197)? -/
def dueBefore (n base k e : Nat) : Bool := decide (base * n + k * 31250 < e * n)

/-- Take up to `fuel` due bytes from a circuit's buffer: the circuit, the bytes newest first, whether one was absent,
and how many sequence numbers fell due without arriving (R197). -/
def takeDue (n e : Nat) (fill : Byte) : Nat → Cir → List Byte → Bool → Nat → Cir × List Byte × Bool × Nat
  | 0, x, l, a, lost => (x, l, a, lost)
  | fuel + 1, x, l, a, lost =>
    let absent (x : Cir) : Cir × List Byte × Bool × Nat :=
      match x.cursor with
      | some (base, k) =>
        if dueBefore n base k e then takeDue n e fill fuel { x with cursor := some (base, k + 1) } (fill :: l) true lost
        else (x, l, a, lost)
      | none => (x, l, a, lost)
    match x.frames with
    | [] => absent x
    | f :: r =>
      let follows := decide (0 < f.sent) || x.nextSeq == some f.seq || x.nextSeq.isNone
      let gap := match x.cursor with
        | some (base, k) => dueBefore n base k f.start
        | none => false
      if !follows && gap then absent x
      else if dueBefore n f.start f.sent e then
        let lost := if f.sent = 0 then lost + (sdiff 16 f.seq (x.nextSeq.getD f.seq)).toNat else lost
        let g : CFrame := { f with sent := f.sent + 1, rest := f.rest.drop 1 }
        let x := { x with
          frames := if g.rest.isEmpty then r else g :: r
          nextSeq := some ((f.seq + 1) % 65536)
          cursor := some (f.start, f.sent + 1) }
        takeDue n e fill fuel x (f.rest.headD fill :: l) a lost
      else (x, l, a, lost)

/-- How a region justifies (R186). -/
inductive Just where
  | none
  | positive
  | negative
  deriving DecidableEq, Repr

/-- What a region carries: how it justifies, its carriers with NJO apart, PTR, NDF new, and AIS. -/
structure Region where
  just : Just
  njo : Byte
  area : List Byte
  ptr : Nat
  new : Bool
  ais : Bool
  deriving DecidableEq, Repr

/-- A region of `n` payload bytes with pointer `p` and carriers `l`, filled up where they are too few (R186, R187). -/
def mkRegion (n p : Nat) (just : Just) (new ais : Bool) (fill : Byte) (l : List Byte) : Region :=
  let pad (k : Nat) (l : List Byte) : List Byte := l ++ List.replicate (k - l.length) fill
  match just with
  | .none => { just := just, njo := 0, area := pad n l, ptr := p, new := new, ais := ais }
  | .positive => { just := just, njo := 0, area := 0 :: pad (n - 1) l, ptr := p ^^^ 0xAAAA, new := new, ais := ais }
  | .negative => { just := just, njo := l.headD fill, area := pad n (l.drop 1), ptr := p ^^^ 0x5555, new := new, ais := ais }

/-- A region without justification. -/
def plainRegion (n ptr : Nat) (new ais : Bool) (fill : Byte) (l : List Byte) : Region := mkRegion n ptr .none new ais fill l

/-- The same region with fill for carriers, and AIS (R189, R199): its pointer and its justification stand. -/
def Region.dark (r : Region) (n : Nat) (fill : Byte) : Region :=
  { mkRegion n 0 r.just r.new true fill [] with ptr := r.ptr }

/-- The mapper empties its buffer and waits (R198): numbers missing among the frames it drops count as lost (DEDUCED: R197
counts each number that fell due without arriving, and what is dropped here will not fall due). -/
def Cir.emptied (x : Cir) : Cir × Nat :=
  let r := x.frames.foldl (fun (a : Option Nat × Nat) f =>
    (some ((f.seq + 1) % 65536), if f.sent = 0 then a.2 + (sdiff 16 f.seq (a.1.getD f.seq)).toNat else a.2)) (x.nextSeq, 0)
  ({ x with frames := [], nextSeq := r.1, cursor := none, playing := false, bad := 0 }, r.2)

/-- CF_LOST and its flag. -/
def Dev.cirLost (d : Dev) (i n : Nat) : Dev :=
  if n = 0 then d else (d.flag F.CIR_STAT_SEQGAP i 0 false).bump F.CIR_CNT_COUNT i 12 n

/-- Map the due bytes of circuit `i` into the region of the subframe that starts at `s0` ns (R186, R187, R197, R198). At a start, P is
the index of the byte that falls due at `s0` (R183), or, where that is carrier N, the last carrier (DESIGN CHOICE, log entry 197). -/
def Dev.mapRegion (d : Dev) (i s0 : Nat) : Dev × Region :=
  let n := d.cirN i
  let e := s0 + 31250
  let fill := d.cirFill i
  let x := d.cir i
  if x.playing then
    let r := takeDue n e fill (n + 1) x [] false 0
    let x := r.1
    let l := r.2.1.reverse
    let absent := r.2.2.1 || decide (l.length + 1 < n)
    let d := d.cirLost i r.2.2.2
    let d := if absent then d.flag F.CIR_STAT_UNDERRUN i else d
    let bad := if absent ∨ x.overran then x.bad + 1 else 0
    let just : Just := if l.length + 1 ≤ n then .positive else if l.length = n then .none else .negative
    let p := match just with
      | .positive => (x.p + 1) % n
      | .none => x.p
      | .negative => (x.p + n - 1) % n
    let x := { x with bad := bad, overran := false }
    let y := if 8 ≤ bad then x.emptied else (x, 0)
    ((d.cirLost i y.2).setCir i { y.1 with p := p }, mkRegion n x.p just false false fill l)
  else
    match x.frames.find? fun f => decide (f.start < e) with
    | some f =>
      let pad := min n ((f.start - s0) * n / 31250)
      let p := min (n - 1) (cdiv ((s0 - f.start) * n) 31250)
      let r := takeDue n e fill (n - pad) { x with cursor := none } [] false 0
      let absent := r.2.2.1 || decide (r.2.1.length + pad + 1 < n)
      let d := d.cirLost i r.2.2.2
      let d := if absent then d.flag F.CIR_STAT_UNDERRUN i else d
      let bad := if absent ∨ x.overran then 1 else 0
      let y := { r.1 with p := p, fresh := false, playing := true, bad := bad, overran := false }
      (d.setCir i y, plainRegion n p true false fill (List.replicate pad fill ++ r.2.1.reverse))
    | none =>
      (d.setCir i { x with fresh := false, overran := false }, plainRegion n x.p x.fresh true fill [])

/-- A region that a squelched framer forms (R201): nothing is sent, so the circuit still owes its NDF new, and frames that fall
due pass by. -/
def Dev.squelchedRegion (d : Dev) (i s0 : Nat) : Dev × Region :=
  let x := d.cir i
  (d.setCir i { x with frames := x.frames.filter fun f => decide (s0 + 31250 ≤ f.start), playing := false, fresh := true },
    plainRegion (d.cirN i) x.p true true (d.cirFill i) [])

/-- The bytes of a region before line scrambling (R185, R190, R192): NDF, key, pointer, parity and status, and the
payload area, encrypted where the circuit's ENC is 1. -/
def Dev.regionBytes (d : Dev) (dir i sub keyIdx owner : Nat) (r : Region) : Dev × List Byte :=
  let c := i / 8
  let n := d.cirN i
  let pad := 8 * cdiv n 8
  let sl := d.slotSeen (termSlot owner keyIdx)
  let enc := d.useB F.CIR_CFG_ENC i
  let keyed := sl.state == 1 || sl.state == 3
  let fill := d.cirFill i
  let r := if enc && !keyed then r.dark n fill else r
  let area := r.area ++ List.replicate (pad - r.area.length) 0
  let peer := if dir = 0 then c else d.use F.TCH_TRMCFG_PEER_CHANNEL c
  let body := if enc && keyed then
      xorB (r.njo :: area) (regionStream sl.key (regionNonce dir peer (d.cirLocal i) (i % 8) sub) (1 + pad))
    else r.njo :: area
  let x := d.cir i
  let oh := toLE ((if r.new then 0x90 else 0x60) + 8 * keyIdx + i % 8) 1 ++ toBE r.ptr 2 ++ toLE x.txBip 1 ++
    toLE (min 255 x.rei) 1 ++ toLE sub 1 ++ toLE (b2n r.ais + 2 * b2n x.defect) 1 ++ body.take 1
  let l := oh ++ body.drop 1
  let d := d.setCir i { x with txBip := bip8 l, rei := 0 }
  let d := if enc then (if keyed then d.bump F.CRY_CNT_COUNT c 6 (1 + pad) else d.noKey c) else d
  (d, l)

/-- A circuit's downstream region in subframe number `sub`, which starts at `s0` ns (R184 to R187, R190, R199, R201). -/
def Dev.downRegion (d : Dev) (i sub s0 : Nat) : Dev × List Byte :=
  let g := d.cirOwner i
  let t := d.term g
  let r := if d.arb.squelch ∨ d.on F.STL_CHSTAT_TX_SUSPECT (i / 8) then d.squelchedRegion i s0 else d.mapRegion i s0
  let up := t.st == .active || t.st == .doze
  let reg := if up then r.2 else r.2.dark (r.1.cirN i) (r.1.cirFill i)
  r.1.regionBytes 0 i sub (d.downKey g) g reg

/-! ### Circuit frames (R196, R197) -/

/-- Where the body of a frame begins: past its tags and its EtherType. -/
def bodyAt (c : ParCfg) (l : List Byte) (o : Nat) : Nat → Nat
  | 0 => o + 2
  | fuel + 1 => if c.isTag (be l o 2) then bodyAt c l (o + 4) fuel else o + 2

/-- Insert a circuit frame in order of playout. -/
def insertFrame (f : CFrame) : List CFrame → List CFrame
  | [] => [f]
  | g :: r => if f.start < g.start then f :: g :: r else g :: insertFrame f r

/-- Is circuit `i` fed by circuit frames: its direction out of this device is enabled (R197)? -/
def Dev.cirFed (d : Dev) (i : Nat) : Bool :=
  if d.termRole (i / 8) then d.useB F.CIR_CFG_UP_EN i else d.useB F.CIR_CFG_DN_EN i

/-- A circuit frame's body comes to the mappers (R197, R198). -/
def Dev.circuitFrame (d : Dev) (b : List Byte) : Dev :=
  let i := be b 0 2 % 1024
  if !d.cirFed i then d.bump F.CIR_GLBCNT_UNKNOWN_CF
  else
    let fl := be b 8 1
    let d := d.bump F.CIR_CNT_COUNT i 6
    let d := if bit fl 0 then d.flag F.CIR_STAT_AISRX i else d
    let d := d.bump F.CIR_CNT_COUNT i 4 (be b 9 1)
    let due := sdiff 32 (be b 4 4 + d.use F.CIR_TIMING_DELAY_NS i) d.stamp
    let pay := slice b 12 (be b 10 2)
    let x := d.cir i
    if due < 0 then d.flag F.CIR_STAT_LATE i
    else if d.cirBuffer i < x.held + pay.length then (d.setCir i { x with overran := true }).flag F.CIR_STAT_OVERRUN i
    else if pay.isEmpty then d
    else
      let f : CFrame := { seq := be b 2 2, start := (d.nowNs + due).toNat, sent := 0, rest := pay }
      d.setCir i { x with frames := insertFrame f x.frames }

/-- The mapper takes the circuit frame at the front of those that the parser handed over. -/
def Dev.takeCircuitFrame (d : Dev) : Dev :=
  match d.cirIn with
  | [] => d
  | (_, l) :: r => { d with cirIn := r }.circuitFrame (l.drop (bodyAt (d.parCfg 0) l 12 4))

/-- CIRCUIT_FRAME_RX. -/
def execCircuitFrameRx (s : State) : Res := run .circuitFrameRx s Dev.takeCircuitFrame

/-- The stamp of the byte `k` bytes after a span's first, in a circuit of `n` bytes (R196). -/
def stampAt (at_ : Nat × Nat) (n : Nat) : Nat := (at_.1 + at_.2 * 31250 / max 1 n) % 2 ^ 32

/-- Send the circuit frame that circuit `i` has filled (R196): its first CF_BYTES bytes. Its header and tags come from the
service entry, and it goes into queue 7 of that entry's port. -/
def Dev.sendCircuitFrame (d : Dev) (i : Nat) : Dev :=
  let x := d.cir i
  let s := d.use F.CIR_CF_SERVICE i
  let e := d.svc s
  let other := if d.termRole (i / 8) then d.useB F.CIR_CFG_UP_EN i else d.useB F.CIR_CFG_DN_EN i
  let rei := if other then 0 else min 255 x.rei
  let rdi := !other && x.defect
  let n := min x.outN (d.use F.CIR_CF_CF_BYTES i)
  let body := toBE i 2 ++ toBE x.outSeq 2 ++ toBE (stampAt x.outAt (d.cirN i)) 4 ++ toBE (b2n x.outAis + 2 * b2n rdi) 1 ++
    toBE rei 1 ++ toBE n 2 ++ (x.out.drop (x.outN - n)).reverse
  let x := { x with
    out := x.out.take (x.outN - n), outN := x.outN - n, outAt := (x.outAt.1, x.outAt.2 + n),
    outAis := x.outAis && n != x.outN, outSeq := (x.outSeq + 1) % 65536, rei := if other then x.rei else 0 }
  let d := d.setCir i x
  if svcValid e ∧ svcKind e = 0 then
    let q := 65536 + 8 * d.firstPort (svcTarget e % 128) + 7
    let l := toBE (svcPeer e) 6 ++ toBE (svcRouter e) 6 ++ toBE (d.use F.CIR_GLB_ETHERTYPE) 2 ++ body
    let r := d.alloc (askPort (256 + i / 8)) (d.qOwner q) l.length
    match r.2 with
    | none => r.1
    | some b =>
      let p : Pkt :=
        { bytes := l, tc := 7, colour := 0, de := false, service := s, label := 0, hash := 0, buf := b, passedMem := false,
          tag := none }
      (r.1.pushTo q p).bump F.CIR_CNT_COUNT i 5
  else d

/-- Hand carriers to the client stream: `starts` are the indices at which a span begins, and `s0` the source instant of
the span of this region (R196). Bytes before the first span are not stamped and not carried. -/
def Dev.feed (d : Dev) (i n s0 : Nat) (starts : List Nat) (ais : Bool) : Nat → List Byte → Dev
  | _, [] => d
  | k, b :: r =>
    let x := d.cir i
    let sp := if starts.contains k then some (s0, 0) else x.spanAt
    match sp with
    | none => d.feed i n s0 starts ais (k + 1) r
    | some (base, m) =>
      let x := { x with
        spanAt := some (base, m + 1), out := b :: x.out, outN := x.outN + 1, outAis := x.outAis || ais
        outAt := if x.outN = 0 then (base, m) else x.outAt }
      let d := { d with cirs := Tbl.set d.cirs i x }
      let d := foldUpTo (x.outN / d.use F.CIR_CF_CF_BYTES i) (fun _ d => d.sendCircuitFrame i) d
      d.feed i n s0 starts ais (k + 1) r

/-! ### The receiver (R188, R189, R192, R195) -/

/-- What a region is decided to be (R188). -/
inductive Decision where
  | invalid
  | newPtr
  | positive
  | negative
  | normal
  | adopted
  deriving DecidableEq, Repr

/-- Decide a region's pointer (R188, R200). -/
def Cir.decideRegion (x : Cir) (n : Nat) (bad : Bool) (ndf ptr : Nat) : Decision :=
  let i := popcount ((ptr ^^^ x.acc) &&& 0xAAAA) 16
  let dd := popcount ((ptr ^^^ x.acc) &&& 0x5555) 16
  if bad then .invalid
  else if popcount (ndf ^^^ 9) 4 ≤ 1 ∧ ptr < n then .newPtr
  else if ptr < n ∧ x.ptr1 = some ptr ∧ x.ptr2 = some ptr ∧ x.lop then .adopted
  else if x.lop then .invalid
  else if 5 ≤ i ∧ dd ≤ 3 then .positive
  else if 5 ≤ dd ∧ i ≤ 3 then .negative
  else if ptr = x.acc then .normal
  else if ptr < n ∧ x.ptr1 = some ptr ∧ x.ptr2 = some ptr then .adopted
  else .invalid

/-- The places among a region's carriers at which a span starts (R187), and the accepted pointer after. -/
def spanStarts (k : Decision) (n acc ptr : Nat) : List Nat × Nat :=
  match k with
  | .newPtr => ([ptr], ptr)
  | .adopted => ([ptr], ptr)
  | .positive => (if acc + 1 = n then [] else [acc], (acc + 1) % n)
  | .negative => (if acc = 0 then [0, n] else [acc], (acc + n - 1) % n)
  | .normal => ([acc], acc)
  | .invalid => ([acc], acc)

/-- A receiver takes a region of circuit `i` for subframe `sub`, whose source instant is `s0` ns (R188 to R192). -/
def Dev.rxRegion (d : Dev) (dir i sub s0 owner : Nat) (l : List Blk) : Dev :=
  let c := i / 8
  let n := d.cirN i
  let x := d.cir i
  let bs := bytesOfBlocks (l.map (·.pay))
  let bad := (l.head?.map (·.bad)).getD true
  let ctrl := be bs 0 1
  let ptr := be bs 1 2
  let k := x.decideRegion n bad (ctrl / 16) ptr
  let mis := match x.rxBip with
    | some b => popcount (b ^^^ be bs 3 1) 8
    | none => 0
  let d := d.bump F.CIR_CNT_COUNT i 3 mis
  let d := if mis = 0 then d else d.flag F.CIR_STAT_BIPERR i
  let d := if bad then d else d.bump F.CIR_CNT_COUNT i 4 (be bs 4 1)
  let ais := !bad && bit (be bs 6 1) 0
  let d := if ais then d.flag F.CIR_STAT_AISRX i else d
  let d : Dev := match k with
    | .positive => d.bump F.CIR_CNT_COUNT i 0
    | .negative => d.bump F.CIR_CNT_COUNT i 1
    | .newPtr => d.bump F.CIR_CNT_COUNT i 2
    | .adopted => d.bump F.CIR_CNT_COUNT i 2
    | _ => d
  let inv := if k = .invalid then x.invalid + 1 else 0
  let lop := if k = .invalid then x.lop || decide (8 ≤ inv) else false
  let d := if lop && !x.lop then d.flag F.CIR_STAT_LOP i else d
  let sl := d.slotSeen (termSlot owner (ctrl / 8 % 2))
  let enc := d.useB F.CIR_CFG_ENC i
  let keyed := sl.state == 1 || sl.state == 3
  let d := if enc then (if keyed then d.bump F.CRY_CNT_COUNT c 6 (1 + 8 * cdiv n 8) else d.noKey c) else d
  let peer := if dir = 1 then c else d.use F.TCH_TRMCFG_PEER_CHANNEL c
  let body := bs.drop 7
  let body := if enc && keyed then
      xorB body (regionStream sl.key (regionNonce dir peer (d.cirLocal i) (i % 8) sub) body.length)
    else body
  let st := spanStarts k n x.acc ptr
  let m := match k with
    | .positive => n - 1
    | .negative => n + 1
    | _ => n
  let dark := lop || ais || (enc && !keyed)
  let car := if dark then List.replicate m (d.cirFill i)
    else match k with
      | .positive => (body.drop 2).take (n - 1)
      | .negative => body.take (n + 1)
      | _ => (body.drop 1).take n
  let d := d.setCir i { x with
    acc := st.2, ptr1 := if bad then none else some ptr, ptr2 := x.ptr1, invalid := inv, lop := lop,
    defect := lop || ais, rxBip := some (bip8 bs), rei := min 255 (x.rei + mis) }
  let d := d.feed i n s0 st.1 dark 0 car
  d.setCir i (d.cir i)

/-- File an upstream region by SF_NUM (R195): one for a subframe already played out is discarded, and a standby, whose regions are
lost at a takeover, files none (R201, R474). -/
def Dev.fileRegion (d : Dev) (i sub : Nat) (l : List Blk) : Dev :=
  if d.mode = 3 then d
  else
  let x := d.cir i
  let near := x.nextSub.getD sub
  let sf := be (bytesOfBlocks (l.map (·.pay))) 5 1
  let delta := sgn 8 (sf + 256 - near % 256)
  if delta < 0 then d else d.setCir i { x with filed := x.filed ++ [((near + delta).toNat, l)] }

/-- The upstream subframe that arrives at the balls of channel `c` at `t` ns of local time. -/
def Dev.upSubAt (d : Dev) (c t : Nat) : Nat := ((((t * 65536 : Nat) : Int) - bits16 (d.eqrt c - d.advance c)) / 2048000000).toNat

/-- The upstream subframe that arrives now. -/
def Dev.upSub (d : Dev) (c : Nat) : Nat := d.upSubAt c d.nowNs

/-- The source instant of upstream subframe `t` (R196). -/
def Dev.sourceAt (d : Dev) (c t : Nat) : Nat := ((((t * 31250 * 65536 : Nat) : Int) + bits16 (- d.advance c)) / 65536).toNat

/-- The head end's receiver takes the region of the subframe that comes next, once it has been filed. -/
def Dev.headRegion (d : Dev) (i : Nat) : Dev :=
  let x := d.cir i
  match x.nextSub with
  | none => d
  | some t =>
    match x.filed.find? fun e => e.1 == t with
    | none => d
    | some e =>
      let d := d.setCir i { x with filed := x.filed.filter (fun f => f.1 != t), nextSub := some (t + 1) }
      d.rxRegion 1 i t (d.sourceAt (i / 8) t) (d.cirOwner i) e.2

/-- A terminal-role receiver takes the next region of the subframe from its line; one whose local number no emulated terminal
holds is for nobody here. -/
def Dev.termRegion (d : Dev) (i : Nat) : Dev :=
  let c := i / 8
  let r? := Tbl.find? d.lines.rx c
  match r? with
  | none => d
  | some r =>
    let next := ((d.cirsDown c).filter fun k => decide (r.nextCir ≤ k % 8)).head?
    let n := d.cirBlocks i
    if next ≠ some i ∨ r.circuits < n ∨ r.queue.length < n then d
    else
      let sub := r.ctr * 4 + r.qd / 48832
      let l := r.queue.take n
      let r := { r with queue := r.queue.drop n, qd := r.qd + n, circuits := r.circuits - n, nextCir := i % 8 + 1 }
      let d := { d with lines := { d.lines with rx := Tbl.set d.lines.rx c r } }
      if (d.cirHolder i).isNone then d
      else d.rxRegion 0 i sub (sub * 31250) (d.cirOwner i) l

/-- CIRCUIT_REGION_RX. -/
def execCircuitRegionRx (i : Fin 1024) (s : State) : Res :=
  run (.circuitRegionRx i) s fun d =>
    if d.termRole (i / 8) then d.termRegion i
    else if d.headRole (i / 8) ∧ d.useB F.CIR_CFG_UP_EN i then d.headRegion i else d

/-- The region of the subframe that comes next is missing at the end of subframe t + 16 (R195). -/
def Dev.regionMiss (d : Dev) (i : Nat) : Dev :=
  let x := d.cir i
  match x.nextSub with
  | none => d
  | some t =>
    if x.filed.any fun e => e.1 == t then d
    else
      let d := (d.runTo (d.upStart (i / 8) (t + 17))).flag F.CIR_STAT_REGMISS i
      let n := d.cirN i
      let d := d.setCir i { x with nextSub := some (t + 1), defect := true, rxBip := none }
      let d := d.feed i n (d.sourceAt (i / 8) t) [x.acc] true 0 (List.replicate n (d.cirFill i))
      d.setCir i (d.cir i)

/-- REGION_MISS. -/
def execRegionMiss (i : Fin 1024) (s : State) : Res :=
  run (.regionMiss i) s fun d => if d.headRole (i / 8) ∧ d.useB F.CIR_CFG_UP_EN i then d.regionMiss i else d

/-! ### Upstream regions of a terminal-role channel (R194) -/

/-- A terminal's upstream KEY_INDEX in frame `f` (R190, R421). -/
def Emu.keyIn (e : Emu) (f : Nat) : Nat :=
  match e.keySwitch with
  | some (k, at_) => if at_ ≤ f then k else e.keyUp
  | none => e.keyUp

/-- A terminal forms the region of upstream subframe `sub`: 16 are held, and the oldest is discarded. -/
def Dev.formRegion (d : Dev) (i sub : Nat) : Dev :=
  let g := d.cirOwner i
  let r := d.mapRegion i (sub * 31250)
  let b := r.1.regionBytes 1 i sub ((r.1.emu g).keyIn (sub / 4)) g r.2
  let x := b.1.cir i
  let l := x.formed ++ [(sub, blocksOf b.2 (d.cirBlocks i))]
  b.1.setCir i { x with formed := l.drop (l.length - 16), formedTo := some sub }

/-- Form the regions of the upstream subframes up to `sub` that have not been formed, in order. -/
def Dev.formTo (d : Dev) (i sub : Nat) : Dev :=
  let next := match (d.cir i).formedTo with
    | some t => t + 1
    | none => sub
  foldUpTo (sub + 1 - next) (fun k d => d.formRegion i (next + k)) d

/-- The circuits of terminal-role channel `c` with an owner here form the regions of the upstream subframes that have gone
by. -/
def Dev.formRegions (d : Dev) (c : Nat) : Dev :=
  (((List.range 8).map fun n => 8 * c + n).filter fun i => d.useB F.CIR_CFG_UP_EN i && (d.cirHolder i).isSome).foldl
    (fun d i => d.formTo i (d.subNow - 1)) d

/-! ### Configuration at a frame boundary (R198, R199, R201) -/

/-- Show the reserve in use, in KiB (R206). -/
def Dev.showCirBuf (d : Dev) : Dev :=
  let n := (List.range 1024).foldl (fun a i =>
    if d.useB F.CIR_CFG_DN_EN i || d.useB F.CIR_CFG_UP_EN i then a + d.cirBuffer i else a) 0
  d.set F.CIR_GLBSTAT_BUF_USED (cdiv n 1024)

/-- A mapper that has just been enabled or disabled. -/
def Cir.freshMapper (x : Cir) : Cir :=
  { x with frames := [], nextSeq := none, cursor := none, p := 0, fresh := true, playing := false, bad := 0, overran := false,
           txBip := 0, formed := [], formedTo := none }

/-- A receiver that has just been enabled or disabled; `next` is the first upstream subframe whose region it awaits (R195). -/
def Cir.freshReceiver (x : Cir) (next : Option Nat) : Cir :=
  { x with filed := [], nextSub := next, acc := 0, ptr1 := none, ptr2 := none, invalid := 0, lop := false, defect := false,
           rxBip := none, spanAt := none, out := [], outN := 0 }

/-- Is the direction that circuit `i` sends enabled, and the one that it receives? The head end maps downstream, a terminal
upstream (R194, R197). -/
def Dev.cirDirs (d : Dev) (i : Nat) : Bool × Bool :=
  let dn := d.useB F.CIR_CFG_DN_EN i
  let up := d.useB F.CIR_CFG_UP_EN i
  if d.termRole (i / 8) then (up, dn) else (dn, up)

/-- Writes to a circuit's configuration take effect at a frame boundary (R199): a direction that is enabled starts
afresh, one that is disabled gives its buffer back. A head end's receiver awaits the regions of every upstream subframe from
the first in which UP_EN is in use (R195). -/
def Dev.applyCircuit (i : Nat) (d : Dev) : Dev :=
  let was := d.cirDirs i
  let d := (d.release RegOf.CIR_CFG i 0).release RegOf.CIR_TIMING i 0
  let now := d.cirDirs i
  let next := if now.2 && d.headRole (i / 8) then some d.subNow else none
  let x := d.cir i
  let x := if was.1 = now.1 then x else x.freshMapper
  let x := if was.2 ≠ now.2 then x.freshReceiver next
    else if x.nextSub.isNone && next.isSome then { x with nextSub := next } else x
  if x = d.cir i then d else d.setCir i x

/-- Every circuit whose configuration waits takes it. -/
def Dev.applyCircuits (d : Dev) : Dev := (foldUpTo 1024 Dev.applyCircuit d).showCirBuf

/-- At takeover every circuit starts with NDF new and an empty buffer, and awaits the upstream regions from the end of the frame of the
partner's last RENEW on: those of the gap are lost and count as missing (R195, R201). -/
def Dev.cirTakeover (d : Dev) : Dev :=
  { d with cirs := d.cirs.map fun e =>
      let next := match d.stl.heard with
        | some f => d.upSubAt (e.1 / 8) ((f + 1) * 125000)
        | none => d.upSub (e.1 / 8)
      (e.1, { e.2 with
        frames := [], nextSeq := none, cursor := none, fresh := true, playing := false, bad := 0, overran := false, filed := []
        nextSub := e.2.nextSub.map fun _ => next }) }

/-- Do the enabled circuits of `i`'s channel keep to 156,250 bytes in each direction, and all buffers to the reserve, once what
stands written takes effect (R181, R198)? -/
def Dev.circuitsFit (d : Dev) (i : Nat) : Bool :=
  let tot (f : Fld) : Nat := (List.range 8).foldl (fun a k =>
    let j := 8 * (i / 8) + k
    if d.on f j then a + d.asked F.CIR_CFG_N j else a) 0
  let buf := (List.range 1024).foldl (fun a j =>
    if d.on F.CIR_CFG_DN_EN j || d.on F.CIR_CFG_UP_EN j then
      a + d.asked F.CIR_CFG_N j * (cdiv (d.asked F.CIR_TIMING_DELAY_NS j) 31250 + 4) else a) 0
  decide (tot F.CIR_CFG_DN_EN ≤ 156250) && decide (tot F.CIR_CFG_UP_EN ≤ 156250) &&
    decide (buf ≤ d.use F.CIR_GLB_BUF_MIB * 2 ^ 20)

/-- A write of CIR_CFG (R193, R198, R199): refused where the reserve or the container does not allow it, or where it
changes N, LOCAL or UP_INDEX of an enabled circuit. `contOk` says that the upstream container carries it. -/
def Dev.writeCirCfg (d : Dev) (i v : Nat) (contOk : Bool) : Dev :=
  let w (f : Fld) : Nat := written f v
  let on := d.on F.CIR_CFG_DN_EN i || d.on F.CIR_CFG_UP_EN i
  let changes := w F.CIR_CFG_N != d.get F.CIR_CFG_N i || w F.CIR_CFG_LOCAL != d.get F.CIR_CFG_LOCAL i ||
    w F.CIR_CFG_UP_INDEX != d.get F.CIR_CFG_UP_INDEX i
  let e := d.storeHeld RegOf.CIR_CFG i 0 v
  if (on ∧ changes) ∨ (w F.CIR_CFG_UP_EN = 1 ∧ !contOk) ∨ !e.circuitsFit i then d.flag F.CIR_STAT_REFUSED i
  else e

/-- A write of CIR_TIMING (R198, R203). -/
def Dev.writeCirTiming (d : Dev) (i v : Nat) : Dev :=
  let e := d.storeHeld RegOf.CIR_TIMING i 0 v
  if e.circuitsFit i then e else d.flag F.CIR_STAT_REFUSED i

/-- A write of CIR_CF (R199, R203): SERVICE does not change while the circuit is enabled. -/
def Dev.writeCirCf (d : Dev) (i v : Nat) : Dev :=
  let on := d.on F.CIR_CFG_DN_EN i || d.on F.CIR_CFG_UP_EN i
  if on ∧ written F.CIR_CF_SERVICE v ≠ d.get F.CIR_CF_SERVICE i then d.flag F.CIR_STAT_REFUSED i
  else d.store RegOf.CIR_CF i 0 v

end Sys2Proof.Machine
end

