-- ==== Sys2Proof/Machine/Grants.lean ====
section
/-!
DEFINITION. Upstream grants (R148 to R180): containers, reports, burst maps, and the indirect port to the container table.
-/

namespace Sys2Proof.Machine

/-! ### Sorting -/

/-- Insert by a key, after equal keys. -/
def insertBy {α : Type} (key : α → Nat) (x : α) : List α → List α
  | [] => [x]
  | y :: r => if key x < key y then x :: y :: r else y :: insertBy key x r

/-- Sort by a key, keeping the order of equal keys. -/
def sortBy {α : Type} (key : α → Nat) (l : List α) : List α := l.foldl (fun a x => insertBy key x a) []

/-! ### Container records (R150, R180) -/

/-- LINE_ID of a record. -/
def contId (r : Nat) : Nat := bits (recBytes r 0 2) 0 11
/-- VALID. -/
def contValid (r : Nat) : Bool := bit (recBytes r 2 1) 0
/-- REPORT_EVERY. -/
def contEvery (r : Nat) : Bool := bit (recBytes r 2 1) 1
/-- STORE_FWD. -/
def contStore (r : Nat) : Bool := bit (recBytes r 2 1) 2
/-- WEIGHT as used. -/
def contWeight (r : Nat) : Nat := weight (recBytes r 3 1)
/-- FIXED_BLOCKS. -/
def contFixed (r : Nat) : Nat := bits (recBytes r 4 2) 0 13
/-- FIXED_PERIOD as used. -/
def contPeriod (r : Nat) : Nat := weight (recBytes r 6 1)
/-- FIXED_PHASE. -/
def contPhase (r : Nat) : Nat := recBytes r 7 1
/-- A rate field at offset `o`. -/
def contRate (r o : Nat) : Nat := bits (recBytes r o 4) 0 22
/-- The cap of a credit in 1/64 positions (R150, R152): rate at offset `o`, burst at offset `b`. -/
def contCap (r o b : Nat) : Nat := if recBytes r b 2 = 0 then 16 * contRate r o else 64 * recBytes r b 2

/-- A state record that starts afresh with the channel's virtual times (R173). -/
def freshCont (vNa vBe : Nat) : ContSt :=
  { demand := 0, inflight := 0, assured := 0, na := 0, max := 0, tagNa := vNa, tagBe := vBe, arrears := 0, age := 0,
    granted := false, wantNa := false, wantBe := false, bare := 0 }

/-- A slot's state. -/
def Dev.cont (d : Dev) (k : Nat) : ContSt := Tbl.get (freshCont 0 0) d.gnt.st k

/-- Replace a slot's state. -/
def Dev.setCont (d : Dev) (k : Nat) (x : ContSt) : Dev := { d with gnt := { d.gnt with st := Tbl.set d.gnt.st k x } }

/-- A slot's configuration in force (R173). -/
def Dev.cc (d : Dev) (k : Nat) : Nat := Tbl.get (Tbl.get 0 d.gnt.cfg k) d.gnt.old k

/-- The slots of channel `c` that hold a record or a state. -/
def Dev.allSlots (d : Dev) (c : Nat) : List Nat :=
  ((d.gnt.cfg.map (·.1) ++ d.gnt.st.map (·.1)).filter fun k => decide (k / 512 = c)).dedup

/-- The valid slots of channel `c` in force, in ascending container ID. -/
def Dev.slotsOf (d : Dev) (c : Nat) : List Nat :=
  sortBy (fun k => contId (d.cc k))
    ((d.gnt.cfg.map (·.1)).filter fun k => decide (k / 512 = c) && contValid (d.cc k))

/-- The valid slot of channel `c` that holds a container ID. -/
def Dev.slotWith (d : Dev) (c id : Nat) : Option Nat := (d.slotsOf c).find? fun k => contId (d.cc k) == id

/-- The state record of R180. -/
def contRec (x : ContSt) : Nat :=
  let fl := b2n x.granted + 2 * b2n x.wantNa + 4 * b2n x.wantBe + 8 * (x.arrears / 65536 % 2)
  ofLE (toLE x.demand 4 ++ toLE x.inflight 4 ++ toLE x.assured 4 ++ toLE x.na 4 ++ toLE x.max 4 ++ toLE x.tagNa 4 ++
    toLE x.tagBe 4 ++ toLE x.arrears 2 ++ toLE x.age 1 ++ toLE fl 1)

/-! ### Guaranteed load (R153) -/

/-- A slot's own part of G. -/
def contLoad (r : Nat) : Nat :=
  cdiv ((64 * contFixed r + contRate r 8 * contPeriod r) * 8) (448 * contPeriod r)

/-- G over the records of a channel's valid slots, with POLL_SF. -/
def loadOf (l : List Nat) (pollSf : Nat) : Nat :=
  let own := ((l.filter fun r => contFixed r != 0 || contRate r 8 != 0).map fun r => contId r / 16).dedup
  l.foldl (fun a r => a + contLoad r) 0 + 84 * own.length + cdiv (148 * 128) pollSf

/-- The written records of channel `c`'s valid slots, with slot `k` holding `r`. -/
def Dev.writtenSlots (d : Dev) (c k r : Nat) : List (Nat × Nat) :=
  List.filter (fun e : Nat × Nat => decide (e.1 / 512 = c) && contValid e.2) (Tbl.set d.gnt.cfg k r)

/-- G of channel `c` as its records stand. -/
def Dev.gLoad (d : Dev) (c : Nat) : Nat :=
  loadOf ((List.filter (fun e : Nat × Nat => decide (e.1 / 512 = c) && contValid e.2) d.gnt.cfg).map (·.2))
    (d.asked F.GNT_CHCFG_POLL_SF c)

/-- Show G. -/
def Dev.showLoad (d : Dev) (c : Nat) : Dev := d.set F.GNT_CHSTAT_G_LOAD (d.gLoad c) c

/-! ### Map entries (R168) -/

/-- A burst map entry. -/
def mapEntry (cont start len : Nat) (cold report ranging power last : Bool) (loc : Nat) : Nat :=
  let e := cont * 2 ^ 48 + start * 2 ^ 32 + len % 65536 * 2 ^ 16 + b2n cold * 2 ^ 15 + b2n report * 2 ^ 14 +
    b2n ranging * 2 ^ 13 + b2n power * 2 ^ 12 + b2n last * 2 ^ 11 + loc * 2 ^ 4
  e + mapCheck e

/-- Does an entry pass the checks of R169 other than its block's mark? -/
def entryGood (e : Nat) : Bool :=
  let cont := bits e 48 16
  let loc := bits e 4 7
  let rng := bit e 13
  mapCheck e == bits e 0 4 &&
    (if cont = 0xFFFF then rng && loc == 0
     else if cont = 0xFFFE then rng
     else decide (cont ≤ 0x7FF) && !rng && loc == bits cont 4 7)

/-- Does an entry end a run (R169)? -/
def endsRun (e : Nat) : Bool := bit e 13 || bit e 11

/-! ### Building a map (R161 to R165) -/

/-- The class of a grant, in the order of R165; arrears are fixed. -/
inductive Cls where
  | arrears
  | fixed
  | assured
  | na
  | be
  deriving DecidableEq, Repr

/-- A class's place in the order of entries. -/
def Cls.order : Cls → Nat
  | .arrears => 0
  | .fixed => 0
  | .assured => 1
  | .na => 2
  | .be => 3

/-- A burst under construction: its terminal, preamble, bits, why it was opened, owed positions, answer positions,
rounding positions, and its grants (slot, class, positions) in the order made. -/
structure Draft where
  loc : Nat
  cold : Bool
  report : Bool
  power : Bool
  why : Owed
  owed : Nat
  answers : Nat
  round : Nat
  grants : List (Nat × Cls × Nat)
  deriving DecidableEq, Repr

/-- The map under construction: free blocks, entries counted, drafts in ascending local number, and slots already
counted in DEFERRED. -/
structure Build where
  c : Nat
  target : Nat
  free : Nat
  entries : Nat
  drafts : List Draft
  deferred : List Nat
  deriving DecidableEq, Repr

/-- The positions granted in a draft. -/
def Draft.granted (b : Draft) : Nat := b.grants.foldl (fun a g => a + g.2.2) 0

/-- D of a draft. -/
def Draft.size (b : Draft) : Nat := 2 * b2n b.report + b.answers + b.owed + b.granted + b.round

/-- blocks(D) (R163). -/
def burstBlocks (cold : Bool) (n : Nat) : Nat := (if cold then 532 else 84) + n + 32 * cdiv n 224

/-- What a draft costs: D is at least 32. -/
def Draft.cost (b : Draft) : Nat := burstBlocks b.cold (max 32 b.size)

/-- The draft of a local number. -/
def Build.find (x : Build) (loc : Nat) : Option Draft := x.drafts.find? fun b => b.loc == loc

/-- Put a draft in its place. -/
def Build.put (x : Build) (b : Draft) : Build :=
  { x with drafts := insertBy (·.loc) b (x.drafts.filter fun y => y.loc != b.loc) }

/-- The largest number up to `hi` that satisfies a monotone test, by halving. -/
def largest (p : Nat → Bool) (lo hi : Nat) : Nat → Nat
  | 0 => lo
  | fuel + 1 =>
    if hi ≤ lo then lo
    else
      let m := (lo + hi + 1) / 2
      if p m then largest p m hi fuel else largest p lo (m - 1) fuel

/-- Is a report due in a burst of `loc` (R166)? -/
def Dev.reportDue (d : Dev) (c loc target : Nat) : Bool :=
  decide ((d.term (128 * c + loc)).lastReport + d.use F.GNT_CHCFG_REPORT_SF c ≤ target) ||
    (d.slotsOf c).any fun k => contId (d.cc k) / 16 == loc && contEvery (d.cc k)

/-- Is a burst of global index `g` cold (R91, R163)? -/
def Dev.coldBurst (d : Dev) (g : Nat) : Bool := (d.preset g).state != 1

/-- A draft that a grant opens. -/
def Dev.newDraft (d : Dev) (x : Build) (loc : Nat) : Draft :=
  { loc := loc, cold := d.coldBurst (128 * x.c + loc), report := d.reportDue x.c loc x.target, power := false,
    why := .container, owed := 0, answers := 0, round := 0, grants := [] }

/-- Add a grant to a draft: grants of one slot and class join. -/
def Draft.add (b : Draft) (k : Nat) (cl : Cls) (n : Nat) : Draft :=
  match b.grants.getLast? with
  | some (j, cj, m) =>
    if j = k ∧ cj = cl then { b with grants := b.grants.dropLast ++ [(k, cl, m + n)] }
    else { b with grants := b.grants ++ [(k, cl, n)] }
  | none => { b with grants := [(k, cl, n)] }

/-- Place as much of `n` positions for slot `k` as fits (R161, R163): the build and the amount placed. -/
def Dev.placeIn (d : Dev) (x : Build) (k n : Nat) (cl : Cls) : Dev × Build × Nat :=
  let loc := contId (d.cc k) / 16
  let old := x.find loc
  let b := old.getD (d.newDraft x loc)
  let before := match old with
    | some o => o.cost
    | none => 0
  let fits (m : Nat) : Bool := decide ((b.add k cl m).cost ≤ before + x.free)
  let m := largest fits 0 (min n 55808) 20
  let has := b.grants.any fun g => g.1 == k
  let joins := b.why != .container && b.grants.isEmpty
  let need := if has || joins then 0 else 1
  if m = 0 then (d, x, 0)
  else if x.entries + need > d.use F.GNT_CHCFG_MAP_LIMIT x.c then
    if x.deferred.contains k then (d, x, 0)
    else (d.flag F.GNT_CHSTAT_DEFER x.c, { x with deferred := x.deferred ++ [k] }, 0)
  else
    let b2 := b.add k cl m
    let y := { x.put b2 with free := x.free + before - b2.cost, entries := x.entries + need }
    (d, y, m)

/-- Charge a grant to a slot's state (R152, R157). DESIGN CHOICE (log entry 144): where MAX_RATE is 0 the max credit falls too, to
no less than zero, and what found no credit is not given back. -/
def ContSt.take (s : ContSt) (cl : Cls) (m : Nat) : ContSt :=
  let s := { s with demand := s.demand - m, inflight := s.inflight + m, granted := true }
  let s := if cl = .fixed ∨ cl = .arrears then s
    else { s with max := s.max - 64 * m, bare := s.bare + (64 * m - s.max) }
  match cl with
  | .arrears => { s with arrears := s.arrears - m }
  | .fixed => s
  | .assured => { s with assured := s.assured - 64 * m }
  | .na => { s with na := s.na - 64 * m }
  | .be => s

/-- Place a grant and charge it. -/
def Dev.giveTo (d : Dev) (x : Build) (k n : Nat) (cl : Cls) : Dev × Build × Nat :=
  let r := d.placeIn x k n cl
  if r.2.2 = 0 then r
  else
    let s := (r.1.cont k).take cl r.2.2
    (r.1.setCont k s, r.2.1, r.2.2)

/-- May a container be granted in this map: its terminal is ACTIVE, or dozes with its awake burst here (R108, R149)? -/
def Dev.grantable (d : Dev) (x : Build) (k : Nat) : Bool :=
  let loc := contId (d.cc k) / 16
  let st := (d.term (128 * x.c + loc)).st
  st == .active || (st == .doze && (x.find loc).isSome)

/-- Add to a slot's fixed arrears, dropping what passes the cap (R167). -/
def Dev.addArrears (d : Dev) (c k n : Nat) : Dev :=
  let s := d.cont k
  let cap := 16 * contFixed (d.cc k)
  let a := s.arrears + n
  let d := d.setCont k { s with arrears := min a cap }
  if cap < a then (d.flag F.GNT_CHSTAT_ARRDROP c 0 false).bump F.GNT_CNT_COUNT c 20 (a - cap) else d

/-- max credit as a number of positions: no ceiling where MAX_RATE is 0. -/
def ContSt.maxPos (s : ContSt) (r : Nat) : Nat := if contRate r 16 = 0 then 2 ^ 32 else s.max / 64

/-- The want of a slot in a class. -/
def Dev.want (d : Dev) (k : Nat) (cl : Cls) : Nat :=
  let s := d.cont k
  let r := d.cc k
  match cl with
  | .assured => min s.demand (min (s.assured / 64) (s.maxPos r))
  | .na => min s.demand (min (s.na / 64) (s.maxPos r))
  | .be => min s.demand (s.maxPos r)
  | .arrears => s.arrears
  | .fixed => contFixed r

/-- One pass over the slots in ascending ID (R161): arrears, fixed or assured. -/
def Dev.pass (cl : Cls) (r : Dev × Build) (k : Nat) : Dev × Build :=
  let d := r.1
  let x := r.2
  let due := match cl with
    | .fixed => x.target % contPeriod (d.cc k) == contPhase (d.cc k)
    | _ => true
  let n := d.want k cl
  if !d.grantable x k || !due || n == 0 then r
  else
    let g := d.giveTo x k n cl
    if g.2.2 = n then (g.1, g.2.1)
    else
      let d := g.1.flag F.GNT_CHSTAT_SHORT x.c
      (if cl = .fixed then d.addArrears x.c k (n - g.2.2) else d, g.2.1)

/-- A slot's tag in a shared class. -/
def Dev.tagOf (d : Dev) (cl : Cls) (k : Nat) : Nat := if cl = .na then (d.cont k).tagNa else (d.cont k).tagBe

/-- Set a slot's tag in a shared class. -/
def Dev.setTag (d : Dev) (cl : Cls) (k v : Nat) : Dev :=
  let s := d.cont k
  d.setCont k (if cl = .na then { s with tagNa := v } else { s with tagBe := v })

/-- The loop of R164 over the members `e`; `last` is the tag of the last member placed. -/
def Dev.shareLoop (cl : Cls) (grain : Nat) : Nat → Dev × Build × Option Nat → List Nat → Dev × Build × Option Nat
  | 0, r, _ => r
  | fuel + 1, r, e =>
    match leastTag (r.1.tagOf cl) e with
    | none => r
    | some k =>
      let g := r.1.giveTo r.2.1 k (min grain (r.1.want k cl)) cl
      if g.2.2 = 0 then Dev.shareLoop cl grain fuel (g.1, g.2.1, r.2.2) (e.filter fun j => j != k)
      else
        let t := r.1.tagOf cl k
        let d := g.1.setTag cl k ((t + g.2.2 * 65536 / contWeight (g.1.cc k)) % 2 ^ 32)
        let e := if d.want k cl = 0 then e.filter fun j => j != k else e
        Dev.shareLoop cl grain fuel (d, g.2.1, some t) e

/-- Share a class (R164). -/
def Dev.share (d : Dev) (x : Build) (cl : Cls) : Dev × Build :=
  let v := d.get (if cl = .na then F.GNT_CHVT_V_NA else F.GNT_CHVT_V_BE) x.c
  let all := d.slotsOf x.c
  let e := all.filter fun k => d.grantable x k && d.want k cl != 0
  let d := all.foldl (fun d k =>
    let s := d.cont k
    let w := e.contains k
    let was := if cl = .na then s.wantNa else s.wantBe
    let d := if w && !was then d.setTag cl k (later (d.tagOf cl k) v) else d
    let s := d.cont k
    d.setCont k (if cl = .na then { s with wantNa := w } else { s with wantBe := w })) d
  let r := Dev.shareLoop cl (d.use F.GNT_CHCFG_GRAIN x.c) 60000 (d, x, none) e
  match r.2.2 with
  | some t => (r.1.set (if cl = .na then F.GNT_CHVT_V_NA else F.GNT_CHVT_V_BE) t x.c, r.2.1)
  | none => (r.1, r.2.1)

/-! ### Owed bursts (R160) -/

/-- Is the answer to a message owed in the terminal's first burst of upstream subframe `target` (R140)? -/
def Txn.owed (x : Txn) (target : Nat) : Bool := x.granted.isNone && x.sent.any fun m => decide (m + 1 ≤ target)

/-- Does a terminal owe an answer in upstream subframe `target`? -/
def Term.owesAnswer (t : Term) (target : Nat) : Bool := t.txns.any fun x => x.owed target

/-- Why a terminal is owed a burst in subframe `target` (R160), if it is, and whether it carries a report. DEDUCED (log entry 191): a
MOVING terminal is granted nothing from its change of state on (R173). -/
def Dev.owedBurst (d : Dev) (c loc target : Nat) : Option (Owed × Bool) :=
  let t := d.term (128 * c + loc)
  let f := target / 4
  let here := target % 4 == loc % 4
  let late := (Tbl.get [] d.gnt.moved c).find? fun e => e.1 == loc
  match t.st with
  | .activating =>
    if (t.txns.any fun x => x.type == 0x05 && x.granted.isNone && x.sent.any fun m => decide (m + 2 ≤ target)) &&
      decide (t.actFrom ≤ f) then some (.activation, false) else none
  | .hold =>
    let h := t.keepFrom.getD f
    if (here && (f - h) % d.use F.TCH_LCCFG_HOLD_POLL c == 0) || late == some (loc, .keepalive) then
      some (.keepalive, true)
    else none
  | .doze =>
    if t.alarm.isSome then some (.alarm, true)
    else if decide (t.dozeFrom ≤ f) && t.awake f && (here || late == some (loc, .awake)) then some (.awake, true) else none
  | .active =>
    if t.alarm.isSome then some (.alarm, true)
    else if t.lastBurst + d.use F.GNT_CHCFG_POLL_SF c ≤ target then some (.poll, true)
    else if t.owesAnswer target then some (.answer, true)
    else none
  | _ => none

/-- Remember that an owed burst moves on to the next subframe (R160): an awake burst moves within its frame only. -/
def Dev.moveOn (d : Dev) (c loc target : Nat) (w : Owed) : Dev :=
  let keep := w == .keepalive || (w == .awake && target % 4 != 3)
  let l := (Tbl.get [] d.gnt.moved c).filter fun e => e.1 != loc
  { d with gnt := { d.gnt with moved := Tbl.set d.gnt.moved c (if keep then l ++ [(loc, w)] else l) } }

/-- The keepalives of a terminal in HOLD count from the first frame whose map of its subframe is built (R126). -/
def Dev.startPoll (d : Dev) (c loc target : Nat) : Dev :=
  let g := 128 * c + loc
  let t := d.term g
  if t.st = .hold ∧ t.keepFrom = none ∧ target % 4 = loc % 4 then
    { d with reg := { d.reg with terms := Tbl.set d.reg.terms g { t with keepFrom := some (target / 4) } } }
  else d

/-- Open the owed burst of `loc`, if it has one and it fits (R160, R161). Every answer owed goes with the terminal's first burst
(R140). -/
def Dev.openOwed (r : Dev × Build) (loc : Nat) : Dev × Build :=
  let x := r.2
  let d := r.1.startPoll x.c loc x.target
  match d.owedBurst x.c loc x.target with
  | none => (d, x)
  | some (w, rep) =>
    let g := 128 * x.c + loc
    let t := d.term g
    let ans := t.owesAnswer x.target
    let b : Draft :=
      { loc := loc, cold := w == .keepalive || d.coldBurst g, report := rep, power := w == .keepalive, why := w,
        owed := if rep then 30 else 32, answers := if ans then 9 else 0, round := 0, grants := [] }
    if x.free < b.cost ∨ d.use F.GNT_CHCFG_MAP_LIMIT x.c ≤ x.entries then (d.moveOn x.c loc x.target w, x)
    else
      let txns := t.txns.map fun y => if y.owed x.target then { y with granted := some x.target } else y
      let t : Term := { t with txns := txns, alarm := if w = .alarm then none else t.alarm }
      let d := { d with reg := { d.reg with terms := Tbl.set d.reg.terms g t } }
      let l := (Tbl.get [] d.gnt.moved x.c).filter fun e => e.1 != loc
      let d := { d with gnt := { d.gnt with moved := Tbl.set d.gnt.moved x.c l } }
      let d := if w = .poll then d.bump F.GNT_CNT_COUNT x.c 16 else d
      (d, { x.put b with free := x.free - b.cost, entries := x.entries + 1 })

/-! ### Finishing (R165, R166) -/

/-- Return `n` positions of a draft's last grants to where they came from (R165). -/
def Dev.takeBack (c : Nat) : Nat → Dev → Draft → Nat → Dev × Draft
  | 0, d, b, _ => (d, b)
  | fuel + 1, d, b, n =>
    if n = 0 then (d, b)
    else match b.grants.getLast? with
      | none => (d, b)
      | some (k, cl, m) =>
        let q := min n m
        let s := d.cont k
        let l := b.grants.dropLast
        let some_ := q != m || l.any fun g => g.1 == k
        let s := { s with inflight := s.inflight - q, granted := s.granted && some_ }
        let d : Dev := match cl with
          | .arrears => (d.setCont k s).addArrears c k q
          | .fixed => (d.setCont k s).addArrears c k q
          | _ =>
            let s := { s with demand := s.demand + q, max := s.max + (64 * q - s.bare), bare := s.bare - 64 * q }
            d.setCont k (match cl with
              | .assured => { s with assured := s.assured + 64 * q }
              | .na => { s with na := s.na + 64 * q }
              | _ => s)
        Dev.takeBack c fuel d { b with grants := if q = m then l else l ++ [(k, cl, m - q)] } (n - q)

/-- Complete a draft's last codeword (R165). -/
def Dev.finishDraft (r : Dev × Build) (b : Draft) : Dev × Build :=
  let d := r.1
  let x := r.2
  let m := b.size % 224
  if m = 0 ∨ 32 ≤ m then r
  else
    let b2 := { b with round := b.round + (32 - m) }
    if b2.cost ≤ b.cost + x.free then (d, { x.put b2 with free := x.free + b.cost - b2.cost })
    else
      let z := Dev.takeBack x.c 64 d b m
      (z.1, { x.put z.2 with free := x.free + b.cost - z.2.cost })

/-- The shares of a draft in entry order (R162, R165): (slot's container, grant, length). Owed positions join the first
container entry, rounding positions the last; without any, the burst has its base ID. -/
def Dev.sharesOf (d : Dev) (b : Draft) : List Share :=
  let ks := (b.grants.map (·.1)).dedup
  let first (k : Nat) : Nat := (b.grants.filter fun g => g.1 == k).foldl (fun a g => min a g.2.1.order) 9
  let ks := sortBy (fun k => first k * 65536 + contId (d.cc k)) ks
  let l := ks.map fun k =>
    let n := (b.grants.filter fun g => g.1 == k).foldl (fun a g => a + g.2.2) 0
    ({ cont := contId (d.cc k), len := n, granted := n } : Share)
  match l with
  | [] => [{ cont := 16 * b.loc, len := b.owed + b.round, granted := 0 }]
  | s :: r =>
    let l := { s with len := s.len + b.owed } :: r
    match l.getLast? with
    | some z => l.dropLast ++ [{ z with len := z.len + b.round }]
    | none => l

/-- The entries of a burst (R165, R166, R168). -/
def burstEntries (b : Burst) : List Nat :=
  b.shares.mapIdx fun i s =>
    mapEntry s.cont b.start s.len b.cold (b.report && i == 0) false b.power (i + 1 == b.shares.length) b.loc

/-- Place drafts one after another from block `at_` (R165). -/
def Dev.placeDrafts (d : Dev) (target : Nat) : Nat → List Draft → List Burst
  | _, [] => []
  | at_, b :: r =>
    { sub := target, loc := b.loc, start := at_, cold := b.cold, power := b.power, report := b.report,
      answers := b.answers, shares := d.sharesOf b, why := b.why } :: d.placeDrafts target (at_ + b.cost) r

/-- The windows of upstream subframe `target` in ascending start offset (R167), ranging windows in the order of their
reservations. -/
def Dev.windowsIn (d : Dev) (c target : Nat) : List Window :=
  let db := d.discBlocks c target
  let disc : List Window := if db = 0 then [] else [{ sub := target, start := 0, len := db, loc := none }]
  let len := d.rangeLen c
  let rs := (d.scribe c).slots.filter fun loc =>
    ((d.term (128 * c + loc)).ask.bind fun r => r.window) == some target
  disc ++ rs.mapIdx fun i loc => { sub := target, start := db + i * len, len := len, loc := some loc }

/-- Does a window lie within its subframe? A ranging window reserved before a recovery period opened more discovery windows may
find no room; it gets no entry, and nothing arrives in it (DESIGN CHOICE, log entry 145). -/
def Window.fits (w : Window) : Bool := decide (w.start + w.len ≤ 55808)

/-- The entry of a window (R168). DESIGN CHOICE (log entry 154): COLD and LAST, which the manual does not give for window entries,
are 1. -/
def windowEntry (w : Window) : Nat :=
  match w.loc with
  | none => mapEntry 0xFFFF w.start w.len true false true true true 0
  | some loc => mapEntry 0xFFFE w.start w.len true false true true true loc

/-- Positions granted in a class over all drafts. -/
def Build.classPos (x : Build) (cl : Cls) : Nat :=
  x.drafts.foldl (fun a b => b.grants.foldl (fun a g => if g.2.1 = cl then a + g.2.2 else a) a) 0

/-- The counters of R178 for a finished map. -/
def Dev.countMap (d : Dev) (x : Build) (entries : Nat) (windows : List Window) : Dev :=
  let c := x.c
  let k (i n : Nat) (d : Dev) : Dev := d.bump F.GNT_CNT_COUNT c i n
  let sum (f : Draft → Nat) : Nat := x.drafts.foldl (fun a b => a + f b) 0
  d |> k 0 1 |> k 1 entries |> k 2 x.drafts.length |> k 3 (x.drafts.filter (·.cold)).length
    |> k 4 (x.classPos .fixed) |> k 5 (x.classPos .assured) |> k 6 (x.classPos .na) |> k 7 (x.classPos .be)
    |> k 8 (x.classPos .arrears) |> k 9 (sum fun b => b.owed + b.round) |> k 10 (sum fun b => b.answers)
    |> k 11 (sum fun b => if b.cold then 532 else 84) |> k 12 (sum fun b => 32 * cdiv b.size 224)
    |> k 13 (windows.foldl (fun a w => a + w.len) 0) |> k 14 x.free

/-! ### The snapshot (R152, R158, R159, R173) -/

/-- A slot's written record takes effect (R173): its state starts afresh where an accepted write since the last snapshot gave it
a new container ID or made it VALID. -/
def Dev.applyCont (c : Nat) (d : Dev) (k : Nat) : Dev :=
  match Tbl.find? d.gnt.old k with
  | none => d
  | some _ =>
    let fresh := d.gnt.renew.contains k
    let d := { d with gnt := { d.gnt with old := Tbl.erase d.gnt.old k, renew := d.gnt.renew.filter fun j => j != k } }
    if fresh then
      let d := { d with gnt := { d.gnt with flight := d.gnt.flight.filter fun e => e.slot != k } }
      d.setCont k (freshCont (d.get F.GNT_CHVT_V_NA c) (d.get F.GNT_CHVT_V_BE c))
    else d

/-- A slot's state record meets a new map: no grant in it yet, and its last report one subframe older (R180). -/
def Dev.ageCont (d : Dev) (k : Nat) : Dev :=
  let s := d.cont k
  d.setCont k { s with granted := false, age := min 255 (s.age + 1), bare := 0 }

/-- A slot's credits refill (R152): a max credit stays as it is where MAX_RATE is 0. -/
def Dev.refillCont (c : Nat) (d : Dev) (k : Nat) : Dev :=
  let r := d.cc k
  let s := d.cont k
  let st := (d.term (128 * c + contId r / 16)).st
  let s := if st = .active ∨ st = .doze then
      { s with assured := min (s.assured + contRate r 8) (contCap r 8 20)
               na := min (s.na + contRate r 12) (contCap r 12 22)
               max := if contRate r 16 = 0 then s.max else min (s.max + contRate r 16) (16 * contRate r 16) } else s
  d.setCont k s

/-- A terminal's burst is scheduled: when it last had one, and a report. -/
def Dev.noteBurst (c : Nat) (d : Dev) (b : Burst) : Dev :=
  let g := 128 * c + b.loc
  let t := d.term g
  let t := { t with lastBurst := b.sub, lastReport := if b.report then b.sub else t.lastReport }
  let d := { d with reg := { d.reg with terms := Tbl.set d.reg.terms g t } }
  d.bump F.TCH_BRXCNT_COUNT c 0

/-- A channel's burst receiver with nothing scheduled. -/
def idleBrx : BurstRx :=
  { sched := [], windows := [], last := none, intruded := false, record := none, until_ := none, pulse := none, cfgAt := none }

/-- A channel's burst receiver. -/
def Dev.brx (d : Dev) (c : Nat) : BurstRx := Tbl.get idleBrx d.lines.brx c

/-- Replace a channel's burst receiver. -/
def Dev.setBrx (d : Dev) (c : Nat) (x : BurstRx) : Dev :=
  { d with lines := { d.lines with brx := Tbl.set d.lines.brx c x } }

/-- Data positions of a burst, D (R170). -/
def Burst.positions (b : Burst) : Nat :=
  2 * b2n b.report + b.answers + b.shares.foldl (fun a s => a + s.len) 0

/-- The first block of a burst and the block after its last, counted from upstream subframe 0. -/
def Burst.span (b : Burst) : Nat × Nat :=
  let s := b.sub * 55808 + b.start
  (s, s + burstBlocks b.cold b.positions)

/-- Give a schedule to the burst receiver. -/
def Dev.schedule (d : Dev) (c : Nat) (bs : List Burst) (ws : List Window) : Dev :=
  let r := d.brx c
  let ends := match bs.getLast? with
    | some b => some b.span.2
    | none => r.until_
  bs.foldl (Dev.noteBurst c) (d.setBrx c { r with sched := r.sched ++ bs, windows := r.windows ++ ws, until_ := ends })

/-- When paired, a built map goes to the stitch link too (R159, R467). -/
def Dev.sendMap (d : Dev) (c target : Nat) (es : List Nat) : Dev :=
  if d.active then d.stSend 0x08 (toBE c 1 ++ toBE target 2 ++ toBE es.length 2 ++ es.flatMap fun e => toBE e 8) else d

/-- Compute the map of upstream subframe `target` (R161). -/
def Dev.buildMap (d : Dev) (c target : Nat) : Dev :=
  let all := d.windowsIn c target
  let ws := all.filter Window.fits
  let used := ws.foldl (fun a w => a + w.len) 0
  let x : Build := { c := c, target := target, free := 55808 - used, entries := ws.length, drafts := [], deferred := [] }
  let ks := d.slotsOf c
  let r := (List.range 128).foldl Dev.openOwed (d, x)
  let r := ks.foldl (Dev.pass .arrears) r
  let r := ks.foldl (Dev.pass .fixed) r
  let r := ks.foldl (Dev.pass .assured) r
  let r := r.1.share r.2 .na
  let r := r.1.share r.2 .be
  let r := r.2.drafts.foldl Dev.finishDraft r
  let d := r.1
  let x := r.2
  let bs := d.placeDrafts target used x.drafts
  let es := ws.map windowEntry ++ bs.flatMap burstEntries
  let fl := x.drafts.flatMap fun b => b.grants.map fun g => ({ slot := g.1, loc := b.loc, sub := target, n := g.2.2 } : Flight)
  let gnt := { d.gnt with
    maps := Tbl.set d.gnt.maps c (Tbl.get [] d.gnt.maps c ++ [(target, es)])
    flight := d.gnt.flight ++ fl }
  let d := { d with gnt := gnt }
  let d := (d.schedule c bs all).countMap x es.length ws
  let t := d.draw 20001
  let d := (t.1.set F.GNT_CHSTAT_LAST_ENTRIES es.length c).set F.GNT_CHLAST_LAST_TARGET target c
  let d := (d.allSlots c).foldl (fun d k => { d with gnt := { d.gnt with shown := Tbl.set d.gnt.shown k (contRec (d.cont k)) } }) d
  let d := (d.set F.GNT_CHLAST_LAST_IDLE x.free c).set F.GNT_CHLAST_LAST_BURSTS bs.length c
  (d.set F.GNT_CHLAST_COMPUTE_NS t.2 c).sendMap c target es

/-- Configuration written for channel `c` takes effect (R159, R173). -/
def Dev.applyGnt (d : Dev) (c : Nat) : Dev :=
  let d := d.release RegOf.GNT_CHCFG c 0
  ((((d.gnt.old.map (·.1)).filter fun k => k / 512 == c)).foldl (Dev.applyCont c) d).showLoad c

/-- Time runs to the next subframe boundary at which channel `c` has taken no snapshot. -/
def Dev.toSnapshot (d : Dev) (c : Nat) : Dev :=
  let d := d.toMultiple 31250
  if Tbl.get 0 d.gnt.done c = d.subNow + 1 then d.runTo ((d.nowNs / 31250 + 1) * 31250) else d

/-- The snapshot of channel `c` (R159): time runs to the subframe boundary, configuration written takes effect, credits
refill, and the map is built where GNT_EN is 1. Once VIGIL is entered no map is built any more (R38). -/
def Dev.snapshot (d0 : Dev) (c : Nat) : Dev :=
  let d1 : Dev := d0.toSnapshot c
  let d2 : Dev := { d1 with gnt := { d1.gnt with done := Tbl.set d1.gnt.done c (d1.subNow + 1) } }
  let d3 : Dev := ((d2.allSlots c).foldl Dev.ageCont d2).applyGnt c
  if d3.headRole c then
    let d4 : Dev := (d3.slotsOf c).foldl (Dev.refillCont c) d3
    if d4.useB F.GNT_CHCFG_GNT_EN c && decide (d4.arb.vigilStage < 2) then d4.buildMap c (d4.subNow + 2) else d4
  else d3

/-- SNAPSHOT. -/
def execSnapshot (c : Ch) (s : State) : Res :=
  run (.snapshot c) s fun d => if d.booted then d.snapshot c else d

/-! ### Reports (R154 to R158) -/

/-- The data blocks that an occupancy code stands for (R155). -/
def occupancy (code : Nat) : Nat := code % 8192 * 16 ^ (code / 8192 % 4)

/-- One slot of a report (R157). -/
def Dev.reportSlot (c : Nat) (p : Report) (d : Dev) (j : Nat) : Dev :=
  let id := 16 * p.loc + (bits p.body 60 4 + j) % 16
  match d.slotWith c id with
  | none => d.flag F.GNT_CHSTAT_RPTIGN c
  | some k =>
    let n := occupancy (bits p.body (45 - 15 * j) 15)
    let fl := d.gnt.flight.foldl (fun a e => if e.slot = k ∧ p.sub < e.sub then a + e.n else a) 0
    d.setCont k { d.cont k with demand := n - fl, age := 0 }

/-- The grants of a burst leave INFLIGHT once it is processed or found missing (R180). -/
def Dev.landGrants (d : Dev) (c loc sub : Nat) : Dev :=
  let mine (e : Flight) : Bool := e.slot / 512 == c && e.loc == loc && e.sub == sub
  let d2 := (d.gnt.flight.filter mine).foldl (fun d e =>
    let s := d.cont e.slot
    d.setCont e.slot { s with inflight := s.inflight - e.n }) d
  { d2 with gnt := { d2.gnt with flight := d2.gnt.flight.filter fun e => !mine e } }

/-- The grant engine processes the oldest report of channel `c` (R157, R158), and its burst's grants land (R180). -/
def Dev.reportProcess (d : Dev) (c : Nat) : Dev :=
  match Tbl.get [] d.gnt.reports c with
  | [] => d
  | p :: r =>
    let d := { d with gnt := { d.gnt with reports := Tbl.set d.gnt.reports c r } }.bump F.GNT_CNT_COUNT c 15
    (List.range 4).foldl (Dev.reportSlot c p) (d.landGrants c p.loc p.sub)

/-- REPORT_PROCESS. -/
def execReportProcess (c : Ch) (s : State) : Res := run (.reportProcess c) s fun d => d.reportProcess c

/-! ### The indirect port (R153, R173, R179) -/

/-- The fields of a configuration record (R150). -/
def contMask : Nat :=
  ofLE (([0xFF, 0x07, 0x07, 0xFF, 0xFF, 0x1F, 0xFF, 0xFF, 0xFF, 0xFF, 0x3F, 0, 0xFF, 0xFF, 0x3F, 0, 0xFF, 0xFF, 0x3F, 0,
    0xFF, 0xFF, 0xFF, 0xFF, 0xFF, 0xFF, 0x07] : List Nat).map fun v => BitVec.ofNat 8 v)

/-- GUAR_LIMIT as it stands written. -/
def Dev.guarLimit (d : Dev) (c : Nat) : Nat := d.asked F.GNT_CHCFG_GUAR_LIMIT c

/-- Does the port take record `r` for slot `k` (R179)? -/
def Dev.contOk (d : Dev) (k r : Nat) : Bool :=
  let c := k / 512
  let others := (d.writtenSlots c k r).filter fun e => e.1 != k
  let g := { d with gnt := { d.gnt with cfg := Tbl.set d.gnt.cfg k r } }.gLoad c
  (!contValid r || (others.all (fun e => contId e.2 != contId r) &&
      decide ((others.filter fun e => contId e.2 / 16 == contId r / 16).length < 16))) &&
    decide (g ≤ d.guarLimit c ∨ g ≤ d.gLoad c)

/-- A refused access: one REFUSALS of the slot's channel. -/
def Dev.gntRefuse (d : Dev) (k : Nat) : Dev :=
  (d.flag F.GNT_CHSTAT_REFUSED (k / 512)).flag F.GNT_IND_CTL_REFUSED 0 0 false

/-- Write a slot's configuration record: it applies at the next snapshot. -/
def Dev.writeCont (d : Dev) (k r : Nat) : Dev :=
  let old := d.cc k
  let was := Tbl.get 0 d.gnt.cfg k
  let fresh := contValid r && (!contValid was || contId r != contId was)
  let renew := if fresh && !d.gnt.renew.contains k then d.gnt.renew ++ [k] else d.gnt.renew
  let gnt := { d.gnt with cfg := Tbl.set d.gnt.cfg k r, old := Tbl.set d.gnt.old k old, renew := renew }
  ({ d with gnt := gnt }.showLoad (k / 512)).mirror 0x04000000 64 k 0 32 r

/-- An access of the container port: nothing while BUSY is 1. -/
def Dev.gntAccess (d : Dev) (table index : Nat) (write : Bool) : Dev :=
  if d.on F.GNT_IND_CTL_BUSY then d
  else
    let d := ((d.set F.GNT_IND_CTL_INDEX index).set F.GNT_IND_CTL_TABLE table).set F.GNT_IND_CTL_WRITE (b2n write)
    if write then
      let r := d.readData F.GNT_IND_DATA_DATA 4 &&& contMask
      if table = 0 ∧ d.contOk index r then d.writeCont index r else d.gntRefuse index
    else if 2 ≤ table then d.gntRefuse index
    else d.showData F.GNT_IND_DATA_DATA 4 (if table = 0 then Tbl.get 0 d.gnt.cfg index else Tbl.get 0 d.gnt.shown index)

/-- GNT_IND_CTL GO with WRITE 0. -/
def execGntIndRead (table : Fin 4) (index : Fin 65536) (s : State) : Res :=
  run (.gntIndRead table index) s fun d => d.hostW fun d => d.gntAccess table index false

/-- GNT_IND_CTL GO with WRITE 1. -/
def execGntIndWrite (table : Fin 4) (index : Fin 65536) (s : State) : Res :=
  run (.gntIndWrite table index) s fun d => d.hostW fun d => d.gntAccess table index true

/-- A write of GNT_CHCFG (R153, R175): refused where it would leave G above GUAR_LIMIT. -/
def Dev.writeGntCfg (d : Dev) (c v : Nat) : Dev :=
  let e := d.storeHeld RegOf.GNT_CHCFG c 0 v
  if e.guarLimit c < e.gLoad c then d.flag F.GNT_CHSTAT_REFUSED c else e.showLoad c

/-- Is a container record one that carries a circuit of `n` bytes upstream (R193)? -/
def carriesCircuit (r n : Nat) : Bool :=
  contPeriod r == 1 && contFixed r == 1 + cdiv n 8 && contRate r 8 == 0 && contRate r 12 == 0

/-- Does an upstream container carry circuit `i` of `n` bytes as R193 asks? In terminal role no container table is
used. -/
def Dev.cirContOk (d : Dev) (i loc index n : Nat) : Bool :=
  let c := i / 8
  d.termRole c ||
    match d.slotWith c (16 * loc + index) with
    | none => false
    | some k => carriesCircuit (d.cc k) n

end Sys2Proof.Machine
end

