-- ==== Sys2Proof/Machine/Line.lean ====
section
/-!
DEFINITION. The downstream line (R43 to R78): the framer, and the alignment of a receiver up to decoded codewords.
-/

namespace Sys2Proof.Machine

open Sys2Proof.Crypto

/-! ### The framer (R50 to R60) -/

/-- Data positions of a subframe (R51). -/
def sfData : Nat := 48832

/-- A framer that has sent nothing. -/
def idleTx : TxLine :=
  { frame := 0, sf := 0, d := 0, scr := 0, bip := 0, lastBip := 0, framed := false, part := none, sent := [],
    word := [], line := [] }

/-- A channel's framer. -/
def Dev.tx (d : Dev) (c : Nat) : TxLine := Tbl.get idleTx d.lines.tx c

/-- Replace a channel's framer. -/
def Dev.setTx (d : Dev) (c : Nat) (x : TxLine) : Dev := { d with lines := { d.lines with tx := Tbl.set d.lines.tx c x } }

/-- Frames loop back in TEST: near-end loopback, and TX_EN is 1 (R283). -/
def Dev.testLoop (d : Dev) (c : Nat) : Bool :=
  d.nearLoop c && d.enabled c && d.useB F.TCH_FRMCFG_TX_EN c

/-- The framer of channel `c` runs: in head role, in STANDBY, and in TEST loopback (R53). -/
def Dev.framerRuns (d : Dev) (c : Nat) : Bool :=
  d.booted && (d.headRole c || (d.mode == 3 && d.enabled c) || d.testLoop c)

/-- The framer sends frames, not bare idle blocks (R53, R441). -/
def Dev.framed (d : Dev) (c : Nat) : Bool :=
  d.framing c || (d.framerRuns c && !d.headRole c && d.useB F.TCH_FRMCFG_TX_EN c)

/-- A control block. -/
def ctlBlk (v : Nat) : Blk := { ctl := true, pay := v, bad := false }

/-- A data block. -/
def dataBlk (v : Nat) : Blk := { ctl := false, pay := v, bad := false }

/-- An idle block (R63). -/
def idleBlk : Blk := ctlBlk 0

/-- Send blocks: each payload is scrambled but for the sync words, and enters BIP32 (R50, R58); the last data position of a
codeword sends the codeword with its parity (R47, R48). `plain` is SCR_BYPASS in TEST. -/
def TxLine.emit (plain : Bool) (x : TxLine) : List Blk → TxLine
  | [] => x
  | b :: r =>
    let clear := plain || decide (x.d < 2)
    let k := if clear then (x.scr, 0) else scrWord 64 x.scr 0
    let w := codeBlk b.ctl (b.pay ^^^ k.2) :: x.word
    let full := decide (x.d % 224 = 223)
    TxLine.emit plain { x with
      d := x.d + 1, scr := k.1, bip := x.bip ^^^ bipWord (b.pay ^^^ k.2), word := if full then [] else w,
      line := if full then encodeCw w.reverse else x.line } r

/-- The symbols of the codeword last sent (R43). -/
def TxLine.symbols (x : TxLine) : List Int := lineSymbols x.line

/-- The symbols of the codeword that channel `c` sent last, as they leave its lane (R43, R263). -/
def Dev.lineOut (d : Dev) (c : Nat) : List Int := d.ballSymbols c (d.tx c).symbols

/-- The first `n` line bits of a codeword flip (R282). -/
def flipFirst (n : Nat) (l : List Nat) : List Nat := (List.range n).foldl flipAt l

/-- Send blocks on a channel's line. An injection flips the first bits of the codeword that leaves next (R282, log entry 38). -/
def Dev.emit (d : Dev) (c : Nat) (plain : Bool) (l : List Blk) : Dev :=
  let x := d.tx c
  let y := x.emit plain l
  match Tbl.find? d.lanes.owe c with
  | some n =>
    if y.d / 224 = x.d / 224 then d.setTx c y
    else ({ d with lanes := { d.lanes with owe := Tbl.erase d.lanes.owe c } }).setTx c { y with line := flipFirst n y.line }
  | none => d.setTx c y

/-- SCR_BYPASS acts in TEST only (R74). -/
def Dev.scrBypass (d : Dev) (c : Nat) : Bool := d.mode == 5 && d.useB F.TCH_FRMCFG_SCR_BYPASS c

/-- A TCH_TXCNT counter. -/
def Dev.txCount (d : Dev) (c k : Nat) (n : Nat := 1) : Dev := d.bump F.TCH_TXCNT_COUNT c k n

/-- Fill with idle blocks up to data block index `upto`. -/
def Dev.idleTo (d : Dev) (c upto : Nat) : Dev :=
  let x := d.tx c
  let n := upto - x.d
  (d.emit c (d.scrBypass c) (List.replicate n idleBlk)).txCount c 3 n

/-- Send the blocks of one element of the frame. -/
def Dev.send (d : Dev) (c : Nat) (l : List Blk) : Dev :=
  let d := d.emit c (d.scrBypass c) l
  d.setTx c { d.tx c with sent := l }

/-- The sync words (R54). -/
def syncWords (frame : Nat) : List Blk := [ctlBlk 0xB58E3A27C6D1594F, ctlBlk (0x1E4B * 2 ^ 48 + frame)]

/-- The upstream error count of a terminal (R60). -/
def Dev.errCount (d : Dev) (g : Nat) : Nat := if (d.term g).st = .free then 0 else Tbl.get 0 d.reg.errs g

/-- The frame header content (R55): the side is the channel's in its tree (R8). -/
def Dev.frameHeader (d : Dev) (c frame bip : Nat) : List Byte :=
  let fl := 128 * (c % 2) + 64 * b2n (d.on F.GLB_MODE_PAIRED) + 32 * b2n (d.circuitBlocks c != 0)
  let g := frame % 8
  let errs := (List.range 16).flatMap fun i => toBE (d.errCount (128 * c + 16 * g + i)) 1
  let l := toBE 1 1 ++ toBE fl 1 ++ toBE (d.get F.TCH_FRMID_TREE_ID c) 2 ++ toBE (d.get F.TCH_FRMID_HEAD_EPOCH c) 2 ++
    toBE bip 4 ++ toBE d.clk.sec 6 ++ toBE d.clk.ns 4 ++ toBE g 1 ++ toBE 0 1 ++ errs ++ List.replicate 134 0
  l ++ toBE (crc32c l) 4

/-- The error counts of group `g` have been sent (R60). -/
def Dev.clearErrs (d : Dev) (c g : Nat) : Dev :=
  { d with reg := { d.reg with errs := d.reg.errs.filter fun e => !(e.1 / 128 == c && e.1 % 128 / 16 == g) } }

/-- Channel `c` begins the frame of the present boundary (R52, R53): the last frame is filled with idle blocks, and
where the channel frames, the sync words and the header are sent. -/
def Dev.beginFrame (c : Nat) (d : Dev) : Dev :=
  if !d.framerRuns c then d
  else
    let old := d.tx c
    let d := if old.framed || old.d != 0 then d.idleTo c 195328 else d
    let last := (d.tx c).bip
    let f := d.frameNow
    let on := d.framed c
    let x : TxLine := { d.tx c with
      frame := f, sf := 0, d := 0, scr := scrSeed f, bip := 0, lastBip := last, framed := on, sent := [],
      word := [] }
    let d := (d.setTx c x).set F.TCH_TXFC_FC f c
    if on then
      let h := d.frameHeader c f last
      let d := d.send c (syncWords f ++ (blocksOf h 22).map ctlBlk)
      (d.txCount c 0).clearErrs c (f % 8)
    else d.send c [idleBlk] |>.txCount c 3

/-- Time runs to the next frame boundary that no frame has begun at. -/
def Dev.toNewFrame (d : Dev) : Dev :=
  let d := d.toFrame
  let d := if d.lines.started = some d.nowNs then d.runTo (d.nowNs + 125000) else d
  { d with lines := { d.lines with started := some d.nowNs } }

/-- The subframe header (R56). -/
def subframeHeader (sf entries target circuits : Nat) : List Byte :=
  let l := toBE sf 1 ++ toBE 0 1 ++ toBE entries 2 ++ toBE (target % 65536) 2 ++ toBE circuits 2 ++ List.replicate 52 0
  l ++ toBE (crc32c l) 4

/-- The blocks of one circuit region, and the next (R184); their words cross to the channel's die (R24). -/
def Dev.sendRegions (d : Dev) (c sub s0 : Nat) : List Nat → Dev
  | [] => d
  | i :: r =>
    let k := d.downRegion i sub s0
    let n := k.1.cirBlocks i
    (((k.1.send c ((blocksOf k.2 n).map dataBlk)).txCount c 5 n).sendOut (c / 64) (8 * n)).sendRegions c sub s0 r

/-- Channel `c` begins subframe `sf`: its header, the burst map built for the next upstream subframe, and the circuit
regions (R51, R56, R159, R184), for which it waits while their words cannot cross to its die (R24, R25). -/
def Dev.beginSubframe (d : Dev) (c sf : Nat) : Dev :=
  let x := d.tx c
  if x.framed = false ∨ x.sf ≠ sf ∨ d.framerRuns c = false ∨ (d.outOpen (c / 64) = false ∧ (d.cirsDown c).isEmpty = false) then d
  else
    let d := d.runTo (d.nowNs / 125000 * 125000 + 31250 * sf)
    let s := x.frame * 4 + sf
    let d := if sf = 0 then d else d.idleTo c (sf * sfData)
    let m := (Tbl.get [] d.gnt.maps c).find? fun e => e.1 == s + 1
    let es := (m.map (·.2)).getD []
    let keep := (Tbl.get [] d.gnt.maps c).filter fun e => decide (s + 1 < e.1)
    let d := { d with gnt := { d.gnt with maps := Tbl.set d.gnt.maps c keep } }
    let h := subframeHeader sf es.length (s + 1) (d.circuitBlocks c)
    let d := (d.send c ((blocksOf h 8).map ctlBlk ++ es.map ctlBlk)).txCount c 4 es.length
    let d := d.sendRegions c s (s * 31250) (d.cirsDown c)
    d.setTx c { d.tx c with sf := sf + 1 }

/-- SUBFRAME_START. -/
def execSubframeStart (c : Ch) (sf : Fin 4) (s : State) : Res :=
  run (.subframeStart c sf) s fun d => d.beginSubframe c sf

/-! ### Segments (R61 to R67) -/

/-- A segment header (R62). -/
def segHeader (label len : Nat) (last : Bool) (key : Nat) (enc first : Bool) (seq : Nat) : Nat :=
  let h := label * 2 ^ 48 + len * 2 ^ 34 + b2n last * 2 ^ 33 + key * 2 ^ 32 + b2n enc * 2 ^ 31 + b2n first * 2 ^ 30 +
    seq % 65536 * 2 ^ 14
  h + crc14 h

/-- Blocks of the present subframe still free. -/
def TxLine.room (x : TxLine) : Nat := x.sf * sfData - x.d

/-- The slot of a downstream traffic label: the multicast group's, or the terminal's of its queue; its KEY_INDEX, and
who the nonce names. -/
def Dev.txSlot (d : Dev) (c q label : Nat) : Nat × Nat × Bool × Nat :=
  if 0xFF00 ≤ label then
    let m := label - 0xFF00
    let k := if (d.slotSeen (mcastSlot c m 0)).state = 1 then 0 else 1
    (mcastSlot c m k, k, true, m)
  else
    let g := d.qParent q % 16384
    let k := d.downKey g
    (termSlot g k, k, false, g % 128)

/-- The encrypted segment of `n` bytes of a packet (R61, R416). -/
def segBlocks (key ctr dir c : Nat) (mcast : Bool) (who hdr : Nat) (pt : List Byte) : List Blk :=
  let e := gcmEnc key (segNonce dir c mcast who ctr) (toBE hdr 8) pt
  ctlBlk hdr :: ((blocksOf e.1 (cdiv pt.length 8)).map dataBlk ++ (blocksOf (toBE e.2 16) 2).map dataBlk)

/-- The packet in hand is discarded. -/
def Dev.dropPart (d : Dev) (c : Nat) (p : PartTx) : Dev := (d.setTx c { d.tx c with part := none }).release1 p.pkt.buf

/-- Send the next segment of the packet in hand (R66): the rest where it fits, a fragment of at least 64 bytes where
one fits, else idle blocks to the end of the subframe. -/
def Dev.sendPart (d : Dev) (c : Nat) (p : PartTx) : Dev :=
  let x := d.tx c
  let rest := p.pkt.bytes.drop p.sent
  let room := x.room
  let whole := decide (3 + cdiv rest.length 8 ≤ room)
  let n := if whole then rest.length else 8 * (room - 3)
  if n < 64 ∧ whole = false then (d.setTx c { x with part := some p }).idleTo c (x.sf * sfData)
  else
    let mcast := decide (0xFF00 ≤ p.label)
    let who := if mcast then p.label - 0xFF00 else p.owner % 128
    let slot := if mcast then mcastSlot c (p.label - 0xFF00) p.keyIdx else termSlot p.owner p.keyIdx
    let k := d.consume c slot
    match k.2 with
    | none => k.1.dropPart c p
    | some (key, ctr) =>
      let hdr := segHeader p.label n whole p.keyIdx true (p.sent == 0) ctr
      let l := segBlocks key ctr 0 c mcast who hdr (rest.take n)
      let d := (((k.1.send c l).txCount c 1).txCount c 2 l.length).bump F.CRY_CNT_COUNT c 0
      let d := (d.octets (256 + c) (8 * l.length)).sendOut (c / 64) (8 * l.length)
      if whole then d.dropPart c p else d.setTx c { d.tx c with part := some { p with sent := p.sent + n } }

/-- The transaction of a message that has now been sent (R140). -/
def Dev.markSent (d : Dev) (c : Nat) (m : MgmtMsg) (sub : Nat) : Dev :=
  if 128 ≤ m.dest then d
  else
    let g := 128 * c + m.dest
    let t := d.term g
    let l := t.txns.map fun x =>
      if x.type == be m.bytes 0 1 && x.xid == be m.bytes 3 1 && x.sent.isNone then { x with sent := some sub } else x
    { d with reg := { d.reg with terms := Tbl.put freeTerm d.reg.terms g { t with txns := l } } }

/-- Send a management message (R65, R136, R422): nine blocks, its CMAC computed over the counter value it consumes. -/
def Dev.sendMgmt (d : Dev) (c : Nat) (m : MgmtMsg) : Dev :=
  let x := d.tx c
  let g := 128 * c + m.dest
  let k := if m.dest < 128 then d.downKey g else 0
  let r : Dev × Option (Nat × Nat) :=
    if m.dest < 128 then d.consume c (termSlot g k)
    else
      let s := d.scribe c
      (d.setScribe c { s with bcast := (s.bcast + 1) % 2 ^ 48 }, some (0, s.bcast))
  match r.2 with
  | none => r.1
  | some (key, ctr) =>
    let auth := bit (be m.bytes 1 1) 0
    let l := m.bytes ++ (if auth then msgMac key ctr m.bytes else List.replicate 4 0)
    let hdr := segHeader (min 128 m.dest) 64 true k false true ctr
    let b := ctlBlk hdr :: (blocksOf l 8).map dataBlk
    let d := ((r.1.send c b).txCount c 1).txCount c 2 9
    ((d.octets (256 + c) 72).sendOut (c / 64) 72).markSent c m (x.frame * 4 + (x.sf - 1))

/-- The framer takes what comes next and sends one segment (R66, R214). It never sends a reserved flow label (R64): such a
packet is discarded (DESIGN CHOICE, log entry 141). -/
def Dev.segmentOut (d : Dev) (c : Nat) : Dev :=
  let x := d.tx c
  if x.framed = false ∨ x.sf = 0 ∨ x.room = 0 ∨ d.framerRuns c = false then d
  else match x.part with
    | some p => d.sendPart c p
    | none =>
      match Tbl.get [] d.tm.ahead c with
      | [] => d
      | s :: r =>
        let e := { d with tm := { d.tm with ahead := Tbl.set d.tm.ahead c r } }
        match s with
        | .mgmt m => if x.room < 9 then d.idleTo c (x.sf * sfData) else (e.sendMgmt c m).release1 m.buf
        | .pkt q p =>
          if 16000 < p.bytes.length then (e.txCount c 6).release1 p.buf
          else if 0x80 < p.label ∧ p.label < 0x100 then e.release1 p.buf
          else
            let sl := e.txSlot c q p.label
            e.sendPart c { pkt := p, queue := q, sent := 0, label := p.label, keyIdx := sl.2.1, owner := d.qParent q % 16384 }

/-- A segment crosses to the framer's die when the words toward it have room and no replay runs (R24, R25, R67). -/
def Dev.segmentTx (d : Dev) (c : Nat) : Dev := if d.outOpen (c / 64) then d.segmentOut c else d

/-- SEGMENT_TX. -/
def execSegmentTx (c : Ch) (s : State) : Res := run (.segmentTx c) s fun d => d.segmentTx c

/-! ### The receiver (R69 to R73) -/

/-- The downstream receiver of channel `c` runs: terminal role, or TEST loopback, in which alone TEST carries frames (R32, R74,
R283). -/
def Dev.rxRuns (d : Dev) (c : Nat) : Bool :=
  d.booted && d.enabled c && d.useB F.TCH_FRMCFG_RX_EN c && (d.termRole c || d.nearLoop c)

/-- A TCH_RXCNT counter. -/
def Dev.rxCount (d : Dev) (c k : Nat) (n : Nat := 1) : Dev := d.bump F.TCH_RXCNT_COUNT c k n

/-- The fields of TCH_FRMCFG that the receiver alone uses (R74). -/
def rxFields : List Fld :=
  [F.TCH_FRMCFG_RX_EN, F.TCH_FRMCFG_HUNT_BLOCKS, F.TCH_FRMCFG_LOSS_INVALID, F.TCH_FRMCFG_SYNC_TOL, F.TCH_FRMCFG_CONFIRMS,
   F.TCH_FRMCFG_MISSES, F.TCH_FRMCFG_RETAIN_FRAMES, F.TCH_FRMCFG_RETAIN_SLACK]

/-- The receiver takes a write of TCH_FRMCFG (R73): newly enabled it hunts from offset 0, newly disabled it holds nothing. -/
def Dev.applyRxCfg (d : Dev) (c : Nat) : Dev :=
  let was := d.useB F.TCH_FRMCFG_RX_EN c
  let d := rxFields.foldl (fun d f => d.releaseFld f c) d
  let d := d.setRx c { d.rx c with plain := d.on F.TCH_FRMCFG_SCR_BYPASS c }
  if was = d.useB F.TCH_FRMCFG_RX_EN c then d else d.rxStop c

/-- TCH_FRMCFG takes effect at a frame boundary (R73): for the framer at that of local time, and there too for a receiver that
has no frame position. -/
def Dev.applyFrmCfg (d : Dev) (c : Nat) : Dev :=
  let d := d.toFrame
  let d := (d.releaseFld F.TCH_FRMCFG_TX_EN c).releaseFld F.TCH_FRMCFG_SCR_BYPASS c
  if d.align c < 2 then d.applyRxCfg c else d

/-- FRAMER_CONFIG_APPLY. -/
def execFramerConfigApply (c : Ch) (s : State) : Res := run (.framerConfigApply c) s fun d => d.applyFrmCfg c

/-- Line blocks of a frame (R51). -/
def frameBlocks : Nat := 223232

/-- Do two payloads hold the sync bits within the tolerance (R54, R70)? -/
def syncBits (tol a b : Nat) : Bool :=
  decide (popcount (a ^^^ 0xB58E3A27C6D1594F) 64 + popcount (bits b 48 16 ^^^ 0x1E4B) 16 ≤ tol)

/-- The receiver reaches IN_FRAME at position `p` whose block 1 holds counter `f`. -/
def Dev.inFrame (d : Dev) (c p f : Nat) (fresh : Bool) : Dev :=
  let x := d.rx c
  let x := { x with cands := [], pos := p + frameBlocks, miss := 0, lofSet := false, pred := (f + 1) % 2 ^ 48 }
  let x := if fresh then
      { x with fresh := true, cw := 0, ctr := f, queue := [], qd := 0, circuits := 0, orphan := true, lastBip := none,
                whole := false, skip := false }
    else x
  (d.setRx c x).set F.TCH_FRMSTAT_ALIGN 2 c

/-- Frame alignment after a block whose predecessor stands at position `p` (R70): `m` says that a sync match lies there,
`f` is the counter in its block 1. -/
def Dev.alignStep (d : Dev) (c p : Nat) (m : Bool) (f : Nat) : Dev :=
  let x := d.rx c
  match d.align c with
  | 2 =>
    if p = x.pos then
      let x := { x with pos := x.pos + frameBlocks, pred := (x.pred + 1) % 2 ^ 48, miss := if m then 0 else x.miss + 1 }
      d.setRx c x
    else d
  | 3 =>
    let slack := d.use F.TCH_FRMCFG_RETAIN_SLACK c
    if m ∧ x.pos ≤ p + slack ∧ p ≤ x.pos + slack ∧ f = x.pred then
      (d.inFrame c p f false).set F.TCH_RXFC_SHIFT (unsgn 8 ((p : Int) - x.pos)) c
    else if p = x.pos + slack then
      d.setRx c { x with pos := x.pos + frameBlocks, pred := (x.pred + 1) % 2 ^ 48 }
    else d
  | _ =>
    let hit := x.cands.find? fun k => k.at_ + frameBlocks == p
    let rest := x.cands.filter fun k => k.at_ + frameBlocks != p
    let d := d.setRx c { x with cands := rest }
    let d : Dev := match hit, m with
      | some k, true =>
        if d.use F.TCH_FRMCFG_CONFIRMS c ≤ k.confirms + 1 then d.inFrame c p f true
        else d.setRx c { d.rx c with cands := rest ++ [{ at_ := p, confirms := k.confirms + 1 }] }
      | none, true =>
        if 4 ≤ rest.length then d else d.setRx c { d.rx c with cands := rest ++ [{ at_ := p, confirms := 0 }] }
      | _, _ => d
    if d.align c = 2 then d else d.set F.TCH_FRMSTAT_ALIGN (if (d.rx c).cands.isEmpty then 0 else 1) c

/-- Block lock is lost (R69, R70): HUNT at the present offset, alignment to SEARCH. -/
def Dev.loseLock (d : Dev) (c : Nat) : Dev :=
  let d := d.leaveFrame c 0
  let d := d.setRx c { d.rx c with good := 0, cands := [], prev := none, whole := false }
  (d.set F.TCH_FRMSTAT_BLOCK_LOCK 0 c).flag F.TCH_FRMSTAT_LOB c

/-- A receiver with a frame position takes a write of TCH_FRMCFG at the start of line block 0 there (R73). -/
def Dev.rxBoundary (d : Dev) (c : Nat) : Dev :=
  if 2 ≤ d.align c ∧ (d.rx c).count = (d.rx c).pos then d.applyRxCfg c else d

/-- A receiver takes one block at its candidate offset (R69, R70): `hdr` is the two header bits in the order sent, `pay`
the payload as received. -/
def Dev.takeBlock (d : Dev) (c hdr pay : Nat) : Dev :=
  let x := d.rx c
  let valid := hdr == 1 || hdr == 2
  let y := { x with count := x.count + 1, prev := some (hdr, pay) }
  if !d.on F.TCH_FRMSTAT_BLOCK_LOCK c then
    if !valid then d.setRx c { y with offset := (x.offset + 1) % 66, good := 0 }
    else if x.good + 1 < d.use F.TCH_FRMCFG_HUNT_BLOCKS c then d.setRx c { y with good := x.good + 1 }
    else (d.setRx c { y with good := 0, window := 0, invalid := 0 }).set F.TCH_FRMSTAT_BLOCK_LOCK 1 c
  else
    let inv := x.invalid + b2n (!valid)
    if d.use F.TCH_FRMCFG_LOSS_INVALID c ≤ inv ∧ valid = false then (d.setRx c y).loseLock c
    else
      let w := (x.window + 1) % 64
      let d := d.setRx c { y with window := w, invalid := if w = 0 then 0 else inv }
      match x.prev with
      | none => d
      | some (h0, p0) =>
        let m := h0 == 2 && hdr == 2 && syncBits (d.use F.TCH_FRMCFG_SYNC_TOL c) p0 pay
        d.alignStep c (x.count - 1) m (pay % 2 ^ 48)

/-- Does the block at a receiver's candidate offset begin with a symbol's more significant bit (R43, R69)? -/
def Dev.rxEven (d : Dev) (c : Nat) : Bool := (d.rx c).offset % 2 == 0

/-- BLOCK_RECEIVED: a receiver whose lane is not RUNNING sees no blocks (R278). -/
def execBlockReceived (c : Ch) (hdr : Fin 4) (pay : Fin (2 ^ 64)) (s : State) : Res :=
  run (.blockReceived c hdr pay) s fun d =>
    if d.rxRuns c && d.laneUp c then
      let d := d.rxBoundary c
      let b : LineBlk := if d.useB F.SLN_CTL_RX_INV c then ({ hdr := hdr, pay := pay } : LineBlk).inv (d.rxEven c) else { hdr := hdr, pay := pay }
      if d.rxRuns c then d.takeBlock c b.hdr b.pay else d
    else d

/-- MISSES misses in a row take the receiver out of IN_FRAME (R70): to RETAINED, or to SEARCH where RETAIN_FRAMES
is 0. While the lane is not RUNNING no block comes, and every expected position passes without a match (R278). -/
def Dev.oof (d : Dev) (c : Nat) : Dev :=
  let n := d.use F.TCH_FRMCFG_MISSES c
  let next := if d.use F.TCH_FRMCFG_RETAIN_FRAMES c = 0 then 0 else 3
  if d.align c = 2 ∧ n ≤ (d.rx c).miss then d.leaveFrame c next
  else if d.align c = 2 ∧ d.laneUp c = false then
    (d.reach (Tbl.get 0 d.lanes.entered c + (n - (d.rx c).miss) * 187500)).leaveFrame c next
  else d

/-- OOF. -/
def execOof (c : Ch) (s : State) : Res := run (.oof c) s fun d => if d.rxRuns c then d.oof c else d

/-- Fabric cycles of a frame. -/
def frameCycles : Nat := 187500

/-- RETAIN_FRAMES frames have passed in RETAINED (R70). -/
def Dev.retainExpired (d : Dev) (c : Nat) : Dev :=
  if d.align c = 3 then
    let d := d.reach ((d.rx c).leftAt + d.use F.TCH_FRMCFG_RETAIN_FRAMES c * frameCycles)
    (d.setRx c { d.rx c with cands := [] }).set F.TCH_FRMSTAT_ALIGN 0 c
  else d

/-- RETAIN_EXPIRED. -/
def execRetainExpired (c : Ch) (s : State) : Res :=
  run (.retainExpired c) s fun d => if d.rxRuns c then d.retainExpired c else d

/-- 24 frames without IN_FRAME (R71): LOF sets once per period. -/
def Dev.lof (d : Dev) (c : Nat) : Dev :=
  let x := d.rx c
  if d.align c = 2 ∨ x.lofSet then d
  else ((d.reach (x.leftAt + 24 * frameCycles)).setRx c { x with lofSet := true }).flag F.TCH_FRMSTAT_LOF c

/-- LOF. -/
def execLof (c : Ch) (s : State) : Res := run (.lof c) s fun d => if d.rxRuns c then d.lof c else d

/-- Descramble decoded data positions from index `k` of the frame. -/
def descramble (plain : Bool) : Nat → Nat → List Blk → Nat × List Blk
  | _, s, [] => (s, [])
  | k, s, b :: r =>
    let w := if plain || decide (k < 2) then (s, 0) else scrWord 64 s 0
    let t := descramble plain (k + 1) w.1 r
    (t.1, { b with pay := b.pay ^^^ w.2 } :: t.2)

/-- The counter of a frame whose codeword 0 has been decoded (R72): block 1's where it decodes, else the prediction. -/
def Dev.adoptCounter (d : Dev) (c : Nat) (blk : Option Blk) (bad : Bool) : Dev :=
  let x := d.rx c
  let pred := (x.pred + 2 ^ 48 - 1) % 2 ^ 48
  let got := match blk with
    | some b => if bad then pred else b.pay % 2 ^ 48
    | none => pred
  let jump := got != pred && !x.fresh
  let d := d.setRx c { x with ctr := got, pred := (got + 1) % 2 ^ 48, fresh := false, scr := scrSeed got }
  let d := d.set F.TCH_RXFC_FC got c
  if jump then d.flag F.TCH_FRMSTAT_FCJUMP c else d

/-- A data position as the decoder delivers it. A header 00 or 11 that is left in an uncorrectable codeword marks no control
block: the block is taken as data (DESIGN CHOICE, log entry 142). -/
def decodedBlk (bad : Bool) (b : Nat) : Blk := { ctl := b / 2 ^ 64 == 2, pay := b % 2 ^ 64, bad := bad }

/-- A codeword of the frame decodes (R49, R58, R72): its data positions are delivered, marked where it is
uncorrectable. The frame before is compared only if it was received in frame throughout (R59). -/
def Dev.decodeCw (d : Dev) (c : Nat) (w : CwIn) : Dev :=
  if d.align c < 2 then d
  else
    let w := if d.useB F.SLN_CTL_RX_INV c then w.inv (d.rxEven c) else w
    let d := d.rxCount c 0 w.corrected
    let d := if w.bad then d.flag F.TCH_FRMSTAT_UNCORR c else d
    let l : List Blk := w.output.map (decodedBlk w.bad)
    let x := d.rx c
    let framed := d.align c == 2
    let d := if x.cw == 0 then
        (d.setRx c { x with bip := 0, lastBip := if x.whole then some x.bip else none, whole := framed }).adoptCounter c l[1]? w.bad
      else d.setRx c { x with whole := x.whole && framed }
    let x := d.rx c
    let z := descramble (d.mode == 5 && x.plain) (224 * x.cw) x.scr l
    d.setRx c { x with
      scr := z.1, bip := x.bip ^^^ bip32 (l.map (·.pay)), cw := (x.cw + 1) % 872, queue := x.queue ++ z.2 }

/-- CODEWORD_DECODE. -/
def execCodewordDecode (c : Ch) (w : CwIn) (s : State) : Res :=
  run (.codewordDecode c w) s fun d => if d.rxRuns c then d.decodeCw c w else d

end Sys2Proof.Machine
end

