-- ==== Sys2Proof/Machine/Bursts.lean ====
section
/-!
DEFINITION. Upstream bursts at the burst receiver (R79 to R104): presets, arrival offsets, headers, segments, reassembly
and the record of each burst.
-/

namespace Sys2Proof.Machine

open Sys2Proof.Crypto

/-- The burst receiver of channel `c` runs: in head role and in STANDBY (R102). -/
def Dev.brxRuns (d : Dev) (c : Nat) : Bool :=
  d.booted && d.enabled c && d.useB F.TCH_BRXCFG_RX_EN c && (d.headRole c || d.mode == 3)

/-- A TCH_BRXCNT counter. -/
def Dev.brxCount (d : Dev) (c k : Nat) (n : Nat := 1) : Dev := d.bump F.TCH_BRXCNT_COUNT c k n

/-- The shift of every expected instant on the standby: its DELTA (R474). -/
def Dev.shadowShift (d : Dev) (c : Nat) : Int := if d.mode = 3 then sgn 32 (d.get F.STL_CHSTAT_DELTA c) else 0

/-- The local time in ns at which the delimiter of a burst is expected, moved by `o` bit times (R79, R92). -/
def Dev.expected (d : Dev) (c : Nat) (b : Burst) (o : Int) : Nat :=
  let e : Nat := (b.start + 16 + (if b.cold then 512 else 64)) * 66
  d.upNs c b.sub ((e : Int) + d.shadowShift c + o)

/-- The instant of bit `k` of the burst that is expected from guard block 0 on, in 2^−16 ns of local time (R79, R80, R92). -/
def Dev.burst16 (d : Dev) (c : Nat) (b : Burst) (k : Int) : Int :=
  d.up16 c b.sub (((b.start * 66 : Nat) : Int) + d.shadowShift c + k)

/-- Bit `k` of the burst, in ns of local time. -/
def Dev.burstNs (d : Dev) (c : Nat) (b : Burst) (k : Int) : Nat := (d.burst16 c b k / 65536).toNat

/-! ### Configuration at upstream subframe boundaries (R102, R286) -/

/-- The next upstream subframe boundary of channel `c`, in ns of local time (R79). -/
def Dev.nextUp (d : Dev) (c : Nat) : Nat := d.upStart c (d.upSub c + 1)

/-- Where the boundary has come, what was written takes effect; bursts that passed while the receiver was off leave the
schedule. -/
def Dev.settleBrx (d : Dev) (c : Nat) : Dev :=
  let x := d.brx c
  match x.cfgAt with
  | none => d
  | some t =>
    if d.nowNs < t then d
    else
      let keep := d.useB F.TCH_BRXCFG_RX_EN c
      let sched := if keep then x.sched else x.sched.filter fun b => decide (t ≤ d.upStart c b.sub)
      let d := d.setBrx c { x with cfgAt := none, sched := sched }
      ((d.release RegOf.TCH_BRXCFG c 0).release RegOf.SLN_RXCFG c 0).showPeak c

/-- Time runs to guard block 0 of the burst that comes next; what was written for a boundary before it is in force (R92, R102). -/
def Dev.toBurst (d : Dev) (c : Nat) : Dev :=
  match (d.brx c).sched with
  | [] => d.settleBrx c
  | b :: _ => (d.runTo (d.burstNs c b 0)).settleBrx c

/-- A write that takes effect at the next upstream subframe boundary. -/
def Dev.storeUp (d : Dev) (c : Nat) (r : Reg) (v : Nat) : Dev :=
  let d := (d.settleBrx c).storeHeld r c 0 v
  d.setBrx c { d.brx c with cfgAt := some (d.nextUp c) }

/-! ### Presets (R91 to R94) -/

/-- Set the state of a stored preset. -/
def Dev.presetState (d : Dev) (g st : Nat) : Dev := d.setPreset g { d.preset g with state := st }

/-- A VALID preset becomes STALE. -/
def Dev.staleIfValid (d : Dev) (g : Nat) : Dev := if (d.preset g).state = 1 then d.presetState g 2 else d

/-- The guard block at which RXBRST rises and its width in blocks (R102, R616). DESIGN CHOICE (log entry 161): where their sum is
above 12 both fields are used at their defaults. -/
def Dev.rxPulse (d : Dev) (c : Nat) : Nat × Nat :=
  let a := d.use F.TCH_BRXCFG_RXBRST_START c
  let w := d.use F.TCH_BRXCFG_RXBRST_WIDTH c
  if a + w ≤ 12 then (a, w)
  else (F.TCH_BRXCFG_RXBRST_START.dflt.val c 0, F.TCH_BRXCFG_RXBRST_WIDTH.dflt.val c 0)

/-- The receiver loads the preset of the burst that comes next, from guard block 4 or from the end of the write-back before it,
and RXBRST pulses (R92, R93, R274, R275, R616). -/
def Dev.presetLoad (d : Dev) (c : Nat) (parityBad : Bool) : Dev :=
  match (d.brx c).sched with
  | [] => d
  | b :: _ =>
    let d := d.runTo (max (d.burstNs c b 264) (((d.brx c).last.bind fun l => l.wrote).getD 0))
    let p := d.rxPulse c
    let at_ (n : Nat) : Int := d.burst16 c b ((66 * n : Nat) : Int)
    let d := d.setBrx c { d.brx c with pulse := some (at_ p.1, at_ (p.1 + p.2)) }
    let g := 128 * c + b.loc
    let st := (d.preset g).state
    let d := d.brxCount c 10
    let own := !b.cold && st != 0
    let d := if own && st != 1 then d.flag F.TCH_BRXSTAT_STALELOAD c else d
    let bad := own && parityBad
    let d := if bad then (d.presetState g 2).flag F.SLN_STAT_PRESETPAR c else d
    let mine := own && !bad
    let v := (d.preset (if mine then g else 16384 + c)).value
    let l : Loaded := { term := g, value := v, own := mine, beaten := false, stale := own && (bad || st != 1) }
    { d with lanes := { d.lanes with loaded := Tbl.set d.lanes.loaded c l } }

/-- The load that comes before every burst, where it has not come yet. -/
def Dev.loadFirst (d : Dev) (c : Nat) : Dev :=
  if (Tbl.find? d.lanes.loaded c).isSome then d else d.presetLoad c false

/-- The level of the ball RXBRST[c] (R616). -/
def Dev.rxbrst (d : Dev) (c : Nat) : Bool :=
  (d.brx c).pulse.any fun p => decide (p.1 ≤ ((d.now16 : Nat) : Int)) && decide (((d.now16 : Nat) : Int) < p.2)

/-- PRESET_LOAD: once for each burst. -/
def execPresetLoad (c : Ch) (parityBad : Bool) (s : State) : Res :=
  run (.presetLoad c parityBad) s fun d =>
    let e := d.toBurst c
    if e.brxRuns c && (Tbl.find? e.lanes.loaded c).isNone then e.presetLoad c parityBad else d

/-- PRESET_STALE: PRESET_AGE frames have passed with no write-back (R91). -/
def execPresetStale (g : Gidx) (s : State) : Res :=
  run (.presetStale g) s fun d =>
    if d.booted ∧ (d.preset g).state = 1 then
      let left := d.brxAt F.TCH_BRXCFG_PRESET_AGE (g.val / 128) d.nowNs - d.presetAge g
      (d.runTo ((d.frameNow + left) * 125000)).presetState g 2
    else d

/-! ### The standby's DELTA (R475) -/

/-- The standby's measurement of a channel. -/
def Dev.shadow (d : Dev) (c : Nat) : Shadow := Tbl.get { run := 0, offs := [], frame := 0 } d.lines.shadow c

/-- Set it. -/
def Dev.setShadow (d : Dev) (c : Nat) (x : Shadow) : Dev :=
  { d with lines := { d.lines with shadow := Tbl.set d.lines.shadow c x } }

/-- DELTA takes a new value; a channel whose DELTA is out of range is in RANGE. -/
def Dev.setDelta (d : Dev) (c : Nat) (v : Int) : Dev :=
  let d := d.set F.STL_CHSTAT_DELTA (unsgn 32 v) c
  let eq : Int := min (d.use F.RUL_CHCFG_EQRT c) 84863877
  if 2000000 < v.natAbs ∨ 84863877 < eq + 2 * v then d.set F.STL_CHSTAT_DSTATE 3 c else d

/-- DELTA is acquired: from the hint where there is one (R475). -/
def Dev.acquireDelta (d : Dev) (c : Nat) : Dev :=
  let d := d.set F.STL_CHSTAT_DSTATE 1 c
  let d := d.setShadow c { d.shadow c with run := 0 }
  if d.on F.STL_CHCFG_HINT_VALID c then d.setDelta c (sgn 32 (d.get F.STL_CHCFG_DELTA_HINT c)) else d

/-- No burst has been found on a tracked channel for 64 frames when frame `f` comes: DELTA is acquired again (R475). -/
def Dev.shadowIdle (d : Dev) (c f : Nat) : Dev :=
  if d.mode = 3 ∧ d.get F.STL_CHSTAT_DSTATE c = 2 ∧ (d.shadow c).frame + 64 ≤ f then d.acquireDelta c else d

/-- The sum of offsets divided by their number, rounded toward zero. -/
def meanOf (l : List Int) : Int := if l.isEmpty then 0 else (l.foldl (· + ·) 0).tdiv l.length

/-- A burst is found on the standby in frame `f`: DELTA is fixed by the first without a hint, and then follows the mean
offset of each frame by at most 1 bit time. -/
def Dev.shadowFound (d : Dev) (c f : Nat) (o : Int) : Dev :=
  if d.mode ≠ 3 then d
  else
    let x := d.shadow c
    let old := sgn 32 (d.get F.STL_CHSTAT_DELTA c)
    match d.get F.STL_CHSTAT_DSTATE c with
    | 1 =>
      let d : Dev := if x.run = 0 ∧ d.on F.STL_CHCFG_HINT_VALID c = false then
          let r := d.draw 133
          r.1.setDelta c (old + o + ((r.2 : Nat) : Int) - 66)
        else d
      let d := if 16 ≤ x.run + 1 ∧ d.get F.STL_CHSTAT_DSTATE c = 1 then d.set F.STL_CHSTAT_DSTATE 2 c else d
      d.setShadow c { run := x.run + 1, offs := [o], frame := f }
    | 2 =>
      if x.frame = f then d.setShadow c { x with offs := x.offs ++ [o] }
      else
        let m := meanOf x.offs
        (d.setDelta c (old + max (-1) (min 1 m))).setShadow c { run := x.run + 1, offs := [o], frame := f }
    | _ => d

/-- A burst is not found on the standby in frame `f`: found bursts count anew, and after 64 frames DELTA is acquired again. -/
def Dev.shadowMissed (d : Dev) (c f : Nat) : Dev :=
  if d.mode ≠ 3 then d else (d.setShadow c { d.shadow c with run := 0 }).shadowIdle c f

/-! ### Loss (R126) and what Scribe and Ruling are told -/

/-- A burst of a terminal in frame `f` was found, or was not: of a terminal that dozes, awake frames alone count. -/
def Dev.judge (d : Dev) (c loc f : Nat) (found : Bool) : Dev :=
  let g := 128 * c + loc
  let t := d.term g
  if d.mode = 3 ∨ (t.st ≠ .active ∧ t.st ≠ .doze) ∨ (t.st = .doze ∧ t.awake f = false) then d
  else if found then d.setTerm g { t with judged := some f, found := true, grants := 0 }
  else if t.judged = some f then d
  else
    let t := { t with judged := some f, found := false, grants := t.grants + 1 }
    let d := d.setTerm g t
    let limit := if t.st = .doze then 3 else d.use F.TCH_LCCFG_LOSS_FRAMES c
    if limit ≤ t.grants then d.addTodo c loc .loss else d

/-- The answers that a burst of subframe `sub` owed are due: they came with it or they did not (R140). -/
def Dev.txnsDue (d : Dev) (c loc sub : Nat) : Dev :=
  let g := 128 * c + loc
  let t := d.term g
  if t.txns.any fun x => x.granted == some sub then
    d.setTerm g { t with txns := t.txns.map fun x => if x.granted == some sub then { x with due := true } else x }
  else d

/-- The terminals of a channel that are BLOCKED get evidence that an intruder continues (R125). -/
def Dev.evidenceAll (d : Dev) (c : Nat) : Dev :=
  (d.termsOf c).foldl (fun e x => if x.2.st = .blocked then e.addTodo c (x.1 % 128) .evidence else e) d

/-- A burst with a good header came from local number `y` where another terminal was scheduled (R125): a rogue mark, and where `y` is
BLOCKED evidence too. -/
def Dev.strayBurst (d : Dev) (c y : Nat) : Dev :=
  if d.mode = 3 then d
  else
    let d := d.addTodo c y .mark
    if (d.term (128 * c + y)).st = .blocked then d.addTodo c y .evidence else d

/-! ### Reassembly and segments (R68, R90) -/

/-- A TCH_RXCNT entry for segments. -/
def Dev.segCount (d : Dev) (c k : Nat) : Dev := d.bump F.TCH_RXCNT_COUNT c k

/-- Drop what container `k` (16 × global index + number) holds in reassembly; true where there was something. -/
def Dev.dropReasm (d : Dev) (k : Nat) : Dev :=
  match Tbl.find? d.lines.reasm k with
  | none => d
  | some r => r.bufs.foldl Dev.release1 { d with lines := { d.lines with reasm := Tbl.erase d.lines.reasm k } }

/-- Drop every partial packet of a terminal. -/
def Dev.dropReasmOf (d : Dev) (g : Nat) : Dev := (List.range 16).foldl (fun e i => e.dropReasm (16 * g + i)) d

/-- The fields of a segment header (R62). -/
structure Seg where
  hdr : Nat
  label : Nat
  len : Nat
  last : Bool
  key : Nat
  enc : Bool
  first : Bool
  seq : Nat
  deriving DecidableEq, Repr

/-- Read a segment header. -/
def Seg.of (h : Nat) : Seg :=
  { hdr := h, label := bits h 48 16, len := bits h 34 14, last := bit h 33, key := bits h 32 1, enc := bit h 31,
    first := bit h 30, seq := bits h 14 16 }

/-- Data blocks that follow a segment header (R61). -/
def Seg.data (s : Seg) : Nat := cdiv s.len 8 + 2 * b2n s.enc

/-- The payload and tag of a segment's data blocks. -/
def Seg.split (s : Seg) (l : List Blk) : List Byte × Nat :=
  let p := l.map (·.pay)
  let n := cdiv s.len 8
  ((bytesOfBlocks (p.take n)).take s.len, ofBE (bytesOfBlocks (p.drop n)))

/-- Authenticate and decrypt a segment with a slot (R416 to R418); `nonce` gives the nonce of a counter value. -/
def Dev.openSeg (d : Dev) (c slot : Nat) (s : Seg) (l : List Blk) (nonce : Nat → Nat) : Dev × Option (List Byte) :=
  let p := s.split l
  if !s.enc then (d.segCount c 11, none)
  else
    let r := d.authenticate slot s.seq fun key ctr => gcmDec key (nonce ctr) (toBE s.hdr 8) p.1 p.2
    match r.2 with
    | .pass _ b => (r.1.bump F.CRY_CNT_COUNT c 1, some b)
    | .fail => ((r.1.cryFlag F.CRY_STAT_TAGFAIL c 2).segCount c 11, none)
    | .beyond => ((r.1.bump F.CRY_CNT_COUNT c 5).segCount c 11, none)
    | .noKey => ((r.1.noKey c).segCount c 11, none)

/-- The bytes of a segment whose tag has failed, as a unit that cuts through has decrypted them (R424): under the first candidate;
none where the operation was not performed or the tag held. -/
def Dev.cutSeg (d : Dev) (slot : Nat) (s : Seg) (l : List Blk) (nonce : Nat → Nat) : Option (List Byte) :=
  let p := s.split l
  let x := d.slotSeen slot
  match (d.authenticate slot s.seq fun key ctr => gcmDec key (nonce ctr) (toBE s.hdr 8) p.1 p.2).2 with
  | .fail => ((candidates x s.seq).head?).map fun v => xorB p.1 (keystream x.key (nonce v) 2 p.1.length)
  | _ => none

/-- The cycle by which a failed tag's outcome is known, 40 ns after its last block (R424), and the channel. -/
def Dev.lateMark (d : Dev) (c : Nat) : Nat × Nat := (d.clk.cyc + 60, c)

/-- The configuration record of container `k` (16 × global index + number). -/
def Dev.contRecOf (d : Dev) (c k : Nat) : Nat :=
  match d.slotWith c (k % 2048) with
  | some i => d.cc i
  | none => 0

/-- A complete upstream packet of container `k`: metered with its FCS (R174, R208), then to its U pipeline. -/
def Dev.upPacket (d : Dev) (c k : Nat) (r : Reasm) (fails : Option (Nat × Nat)) : Dev :=
  let pol := recBytes (d.contRecOf c k) 24 4
  let act := bits pol 17 2
  let m : Dev × Option (Nat × Bool) :=
    if act = 0 then (d, some (0, false))
    else
      let q := d.meter (bits pol 0 17) (r.bytes.length + 4) 0
      let e := if q.2 = 0 ∨ (q.2 = 1 ∧ act = 1) then q.1 else q.1.bump F.GNT_CNT_COUNT c (21 + q.2)
      match colourAct act q.2 with
      | some de => (e, some (q.2, de))
      | none => (e, none)
  match m.2 with
  | none => r.bufs.foldl Dev.release1 m.1
  | some (_, de) =>
    m.1.toPipe { bytes := r.bytes, quad := 32 + c / 4, port := c, loc := k / 16 % 128, label := r.label, popPcp := none,
                 bufs := r.bufs, de := de, term := none, fails := fails }

/-- A traffic segment of container `k` that has been decrypted joins its reassembly (R68, R90). A standby keeps the reassembly
without buffers, and lets the packet go when it is whole (R474). With `fails` its tag fails after it was cut through (R424): the
packet it ends goes on, any other is lost. -/
def Dev.joinSeg (d : Dev) (c k : Nat) (s : Seg) (b : List Byte) (fails : Option (Nat × Nat) := none) : Dev :=
  let old := Tbl.find? d.lines.reasm k
  let d := if s.first ∧ old.isSome then (d.dropReasm k).segCount c 13 else d
  let follows := match old with
    | some r => r.label == s.label && r.keyIdx == s.key && decide (0 < sdiff 16 s.seq r.seq)
    | none => false
  if s.first = false ∧ follows = false then (d.dropReasm k).segCount c 13
  else if fails.isSome ∧ s.last = false then d.dropReasm k
  else
    let a : Dev × Option (List Nat) := if d.mode = 3 then (d, some [])
      else let a := d.alloc (askPort (256 + c)) (256 + c) b.length; (a.1, a.2.map fun x => [x])
    match a.2 with
    | none => a.1.dropReasm k
    | some buf =>
      let d := if fails.isSome then a.1 else (a.1.segCount c 9).octets (384 + c) (8 * (1 + s.data))
      let r : Reasm := match Tbl.find? d.lines.reasm k with
        | some r => { r with seq := s.seq, bytes := r.bytes ++ b, bufs := r.bufs ++ buf }
        | none => { label := s.label, keyIdx := s.key, seq := s.seq, bytes := b, bufs := buf }
      if s.last then
        let d := { d with lines := { d.lines with reasm := Tbl.erase d.lines.reasm k } }
        if d.mode = 3 then d else d.upPacket c k r fails
      else { d with lines := { d.lines with reasm := Tbl.set d.lines.reasm k r } }

/-- A management message arrives at a Scribe, whose queue holds 32 (R110, R495): it takes a buffer of MG c, and is dropped and
counted where that is refused (R343, R344). In head role it keeps its place among its terminal's events (R110). -/
def Dev.inboxPut (d : Dev) (c : Nat) (m : InMsg) : Dev :=
  if 32 ≤ (d.scribe c).inbox.length then d.msgDiscard c
  else
    let a := d.alloc (askPort (384 + c)) (384 + c) 64
    match a.2 with
    | none => a.1
    | some b =>
      let s := a.1.scribe c
      let todo := if d.termRole c then s.todo else s.todo ++ [(m.loc, .msg)]
      a.1.setScribe c { s with inbox := s.inbox ++ [{ m with buf := b }], todo := todo }

/-- A whole segment of terminal `g` in a burst, in the share of container `k`, none in the answer positions. -/
def Dev.upSegment (d : Dev) (c g sub : Nat) (k : Option Nat) (s : Seg) (l : List Blk) : Dev :=
  let drop (d : Dev) : Dev := match k with
    | some k => d.dropReasm k
    | none => d
  if l.any (·.bad) ∨ l.length < s.data then drop (d.segCount c 11)
  else if s.label ≤ 0x80 then
    if s.label = g % 128 ∧ s.len = 64 ∧ s.enc = false ∧ s.first ∧ s.last then
      let d := (d.segCount c 9).octets (384 + c) 72
      if d.mode = 3 then d
      else d.inboxPut c { sub := sub, bytes := (s.split l).1, loc := g % 128, keyIdx := s.key, seq := s.seq }
    else d.segCount c 11
  else if s.label < 0x100 ∨ 0xFF00 ≤ s.label then d.segCount c 11
  else
    match k with
    | none => d.segCount c 11
    | some k =>
      let nonce (ctr : Nat) : Nat := segNonce 1 c false (g % 128) ctr
      let r := d.openSeg c (termSlot g s.key) s l nonce
      match r.2 with
      | some b => r.1.joinSeg c k s b
      | none =>
        if d.mode = 3 ∨ d.on F.CRY_CFG_RX_SF ∨ contStore (d.contRecOf c k) ∨ s.enc = false then r.1.dropReasm k
        else match d.cutSeg (termSlot g s.key) s l nonce with
          | some b => r.1.joinSeg c k s b (some (d.lateMark c))
          | none => r.1.dropReasm k

/-- Take the blocks of a share in order (R63, R68). -/
def Dev.upBlocks (c g sub : Nat) (k : Option Nat) : Nat → Dev → List Blk → Dev
  | 0, d, _ => d
  | _, d, [] => d
  | n + 1, d, b :: r =>
    if b.ctl = false then Dev.upBlocks c g sub k n (d.segCount c 12) r
    else
      let s := Seg.of b.pay
      if s.len = 0 then Dev.upBlocks c g sub k n d r
      else if b.bad ∨ crc14 s.hdr ≠ bits s.hdr 0 14 ∨ 16000 < s.len then
        let d := d.segCount c 10
        let d := match k with
          | some k => d.dropReasm k
          | none => d
        Dev.upBlocks c g sub k n d (r.dropWhile fun x => !x.ctl)
      else
        let l := (r.take s.data).takeWhile fun x => !x.ctl
        Dev.upBlocks c g sub k n (d.upSegment c g sub k s l) (r.drop l.length)

/-- The circuit that a container carries upstream (R193). -/
def Dev.cirOf (d : Dev) (c cont : Nat) : Option Nat :=
  ((List.range 8).map fun n => 8 * c + n).find? fun i =>
    d.useB F.CIR_CFG_UP_EN i && d.use F.CIR_CFG_LOCAL i == cont / 16 && d.use F.CIR_CFG_UP_INDEX i == cont % 16

/-- Whole circuit regions at the start of a share (R194). -/
def Dev.upRegions (i sub n : Nat) : Nat → Dev → List Blk → Dev
  | 0, d, _ => d
  | f + 1, d, l =>
    match l with
    | [] => d
    | b :: _ =>
      if b.ctl ∨ l.length < n then d else Dev.upRegions i sub n f (d.fileRegion i sub (l.take n)) (l.drop n)

/-- Is a burst's only share an owed one under the terminal's base ID (R162): 32 positions with its report? DEDUCED (log entry 164):
a terminal in service (`served`) is granted its circuits in every subframe, so that such a share is owed to it only in a keepalive,
which the POWER bit names. -/
def Burst.owedShare (b : Burst) (loc : Nat) (served : Bool) : Bool :=
  match b.shares with
  | [s] => s.cont == 16 * loc && s.len + 2 * b2n b.report == 32 && (b.power || !served)
  | _ => false

/-- The shares of a burst, in order (R170). An owed share under the base ID of a circuit's container holds idle blocks or messages,
no regions (R162); `owed` says that the burst has one. -/
def Dev.upShares (c g sub : Nat) (owed : Bool) : Dev → List Share → List Blk → Dev
  | d, [], _ => d
  | d, s :: r, l =>
    let mine := l.take s.len
    let d : Dev := match (d.cirOf c s.cont).filter fun _ => !owed with
      | some i => Dev.upRegions i sub (max 1 (d.cirBlocks i)) 16 d mine
      | none => Dev.upBlocks c g sub (some (16 * g + s.cont % 16)) (mine.length + 1) d mine
    Dev.upShares c g sub owed d r (l.drop s.len)

/-! ### Headers and reports (R84, R85, R98) -/

/-- A burst header payload whose HDR_CRC passes. -/
def hdrGood (h : Nat) : Bool := crc16 h == bits h 0 16

/-- Descramble a burst header and its data positions with a sender's seed (R89). -/
def descrambleBurst (loc frame hdr : Nat) (l : List Blk) : Nat × List Blk :=
  let w := scrWord 64 (scrBurstSeed loc frame) 0
  (hdr ^^^ w.2, (descramble false 2 w.1 l).2)

/-- The local number whose scrambler start reads the header: the one scheduled, or else the first other whose header
passes with its own LOCAL (DEDUCED). -/
def readAs (loc frame hdr : Nat) : Nat :=
  let h (n : Nat) : Nat := (descrambleBurst n frame hdr []).1
  if hdrGood (h loc) then loc
  else ((List.range 128).find? fun n => hdrGood (h n) && bits (h n) 57 7 == n).getD loc

/-- A codeword of `n` data positions of a burst as the decoder delivers it (R49, R88), whether it is uncorrectable, and its
corrected bits. What has not the length that the schedule gives is no codeword. -/
def burstCw (w : Option CwIn) (n : Nat) : List Blk × Bool × Nat :=
  match w with
  | some w =>
    if w.raw.length = n + 32 then (w.output.map (decodedBlk w.bad), w.bad, w.corrected)
    else (List.replicate n { ctl := false, pay := 0, bad := true }, true, 0)
  | none => (List.replicate n { ctl := false, pay := 0, bad := true }, true, 0)

/-- The codewords of a burst of `n` data positions, in order (R88). -/
def burstCws (l : List CwIn) (n : Nat) : List (List Blk × Bool × Nat) :=
  (List.range (cdiv n 224)).map fun k => burstCw l[k]? (min 224 (n - 224 * k))

/-- The report body of a burst, where it is recognised (R85). -/
def reportOf (l : List Blk) : Option Nat :=
  match l with
  | h :: b :: _ => if popcount (h.pay ^^^ 0x5A3C000000000000) 64 ≤ 4 ∧ b.bad = false then some b.pay else none
  | _ => none

/-! ### The burst record (R101) -/

/-- A burst's entry in its terminal's record. -/
structure BurstOut where
  arrival : Int
  fom : Nat
  flags : Nat
  corr : Nat
  uncorr : Nat
  rei : Option Nat
  hdrFlags : Nat
  missRun : Nat
  delimErr : Nat
  stamp : Nat
  deriving DecidableEq, Repr

/-- What the receiver finds in a burst's place: its offset and the delimiter bits that differ, its codewords' corrected bits and
how many are uncorrectable, and whether its terminator is missing. -/
structure Seen where
  o : Int
  delim : Nat
  corr : Nat
  bad : Nat
  termMiss : Bool
  deriving DecidableEq, Repr

/-- Is the burst outside tolerance (R96)? -/
def Seen.mistimed (x : Seen) : Bool := decide (4 < x.o.natAbs)

/-- MISS_RUN of a terminal. -/
def Dev.missRun (d : Dev) (g : Nat) : Nat := recBytes (Tbl.get 0 d.reg.bursts g) 18 2

/-- Write a terminal's burst record. -/
def Dev.recordBurst (d : Dev) (c : Nat) (b : Burst) (o : BurstOut) : Dev :=
  let g := 128 * c + b.loc
  let old := Tbl.get 0 d.reg.bursts g
  let l := toLE (unsgn 32 o.arrival) 4 ++ toLE (b.sub % 65536) 2 ++ toLE o.fom 1 ++ toLE o.flags 1 ++ toLE o.corr 4 ++
    toLE (cdiv b.positions 224) 2 ++ toLE o.uncorr 2 ++ toLE (o.rei.getD (recBytes old 16 1)) 1 ++ toLE o.hdrFlags 1 ++
    toLE o.missRun 2 ++ toLE o.delimErr 1 ++ toLE (d.preset g).state 1 ++ toLE 0 2 ++ toLE o.stamp 4 ++
    toLE (b.sub / 4 % 2 ^ 32) 4
  let dirty := if d.lanes.dirty.contains g then d.lanes.dirty else d.lanes.dirty ++ [g]
  { d with reg := { d.reg with bursts := Tbl.set d.reg.bursts g (ofLE l) }, lanes := { d.lanes with dirty := dirty } }

/-- The REI of a burst outside the schedule is the last one received from its terminal (R59). -/
def Dev.recordRei (d : Dev) (g rei : Nat) : Dev :=
  let dirty := if d.lanes.dirty.contains g then d.lanes.dirty else d.lanes.dirty ++ [g]
  { d with reg := { d.reg with bursts := Tbl.set d.reg.bursts g (setRec (Tbl.get 0 d.reg.bursts g) 16 1 rei) }
           lanes := { d.lanes with dirty := dirty } }

/-! ### A burst that is not found (R97, R98) -/

/-- What a missing burst and a mismatched one have in common (R97, R98, R126). -/
def Dev.notFound (d : Dev) (c : Nat) (b : Burst) : Dev :=
  let g := 128 * c + b.loc
  let run_ := min 65535 (d.missRun g + 1)
  let d := if d.use F.TCH_BRXCFG_MISS_STALE c ≤ run_ then d.staleIfValid g else d
  let d := d.dropReasmOf g
  let d := if d.mode = 3 then d else ((d.landGrants c b.loc b.sub).txnsDue c b.loc b.sub).judge c b.loc (b.sub / 4) false
  d.shadowMissed c (b.sub / 4)

/-- The instant at which a scheduled burst's delimiter is expected (R92), in 2^−16 ns. -/
def Dev.delim16 (d : Dev) (c : Nat) (b : Burst) : Int := d.burst16 c b (((16 + (if b.cold then 512 else 64)) * 66 : Nat) : Int)

/-- The burst at the head of the schedule has been dealt with: triggers count it, found or not (R450). An intrusion's record gets
its offset (R99). -/
def Dev.passBurst (d : Dev) (c : Nat) (last : LastBurst) : Dev :=
  let d := match (d.brx c).sched with
    | b :: _ => d.trigBurst c b.loc (d.delim16 c b)
    | [] => d
  let x := d.brx c
  let r := if x.intruded then x.record.map fun r => { r with afterAt := last.offset } else x.record
  let d := d.setBrx c { x with sched := x.sched.drop 1, last := some last, intruded := false, record := r }
  { d with lanes := { d.lanes with loaded := Tbl.erase d.lanes.loaded c } }

/-- Flags bits 5 and 6 of a record: cold, and stale load. -/
def Dev.loadFlags (d : Dev) (c : Nat) (b : Burst) : Nat :=
  32 * b2n b.cold + 64 * b2n ((Tbl.find? d.lanes.loaded c).any fun l => l.stale)

/-- No delimiter lies within the window of the schedule's next burst (R97). DESIGN CHOICE (log entry 146): where no header is taken,
HDR_FLAGS bits 4 to 0 of the record are 0. -/
def Dev.burstMissing (d : Dev) (c : Nat) : Dev :=
  match (d.brx c).sched with
  | [] => d
  | b :: _ =>
    let d := d.loadFirst c
    let g := 128 * c + b.loc
    let at_ := d.expected c b 0
    let d := d.runTo at_
    let d := if b.cold then d.brxCount c 13 else d
    let d := d.flag F.TCH_BRXSTAT_MISSING c
    let m := min 65535 (d.missRun g + 1)
    let d := d.notFound c b
    let d := d.recordBurst c b
      { arrival := 0, fom := 0, flags := 1 + d.loadFlags c b, corr := 0, uncorr := 0, rei := none,
        hdrFlags := 32 * b2n (d.brx c).intruded, missRun := m, delimErr := 0, stamp := at_ % 2 ^ 32 }
    d.passBurst c { loc := b.loc, offset := none, termMissing := false, wrote := none }

/-- BURST_MISSING. -/
def execBurstMissing (c : Ch) (s : State) : Res :=
  run (.burstMissing c) s fun d =>
    let e := d.toBurst c
    if e.brxRuns c then e.burstMissing c else d

/-- An intrusion into guard blocks 12 to 15 of the next burst is recorded (R99): both neighbours, and the first's offset. It is a
rogue mark against a neighbour before it that came late or without its terminator (R125). -/
def Dev.guardIntrusion (d : Dev) (c : Nat) : Dev :=
  match (d.brx c).sched with
  | [] => d
  | b :: _ =>
    let d := d.loadFirst c
    let d := d.runTo (d.burstNs c b 1056)
    let x := d.brx c
    let r : Intrusion :=
      { before := x.last.map (·.loc), beforeAt := x.last.bind (·.offset), after := b.loc, afterAt := none }
    let d := (d.setBrx c { x with intruded := true, record := some r }).flag F.TCH_BRXSTAT_GUARD c
    match x.last with
    | some l =>
      if d.mode ≠ 3 ∧ (l.termMissing ∨ l.offset.any fun o => decide (4 < o)) then d.addTodo c l.loc .mark else d
    | none => d

/-- GUARD_INTRUSION. -/
def execGuardIntrusion (c : Ch) (s : State) : Res :=
  run (.guardIntrusion c) s fun d =>
    let e := d.toBurst c
    if e.brxRuns c && !(e.brx c).intruded then e.guardIntrusion c else d

/-! ### A burst received (R92 to R98) -/

/-- The receiver's values after a burst go to the terminal's preset where R94 lets them: a write-back that a host write or erase has
beaten is dropped (R276). Answers whether it was written back. -/
def Dev.writeBack (d : Dev) (c g fom eq : Nat) (ok : Bool) : Dev × Bool :=
  let low := decide (fom < d.use F.TCH_BRXCFG_FOM_MIN c)
  if low then (d.staleIfValid g, false)
  else if ok then
    if (Tbl.find? d.lanes.loaded c).any fun l => l.beaten then (d, false)
    else ((d.setPreset g { value := eq, state := 1, since := d.frameNow }).brxCount c 11, true)
  else (d, false)

/-- TX_LEVEL and FOM of a found burst: POWER_LEVEL after 16 low ones in a row, as soon as it has room (R135, R211). -/
def Dev.powerCheck (d : Dev) (c loc fom : Nat) : Dev :=
  let g := 128 * c + loc
  let t := d.term g
  if d.use F.TCH_BRXCFG_FOM_MIN c ≤ fom then (if t.low = 0 then d else d.setTerm g { t with low := 0 })
  else
    let due := decide (16 ≤ t.low + 1) && decide (t.txLevel < 7) && (t.st == .active || t.st == .doze)
    let wait := due && !d.mgmtRoom c 1
    let d := d.setTerm g { t with low := if wait then 15 else if 16 ≤ t.low + 1 then 0 else t.low + 1 }
    if due && !wait then d.ask c loc 0x0E (toBE (t.txLevel + 1) 1 ++ toBE (d.effFrame c % 65536) 2)
    else d

/-- What the flags of a good header bring about in head role (R110, R126, R135). DEDUCED (log entry 155): DYING_GASP comes before the
find that ends HOLD, is not legal there, and is dropped. -/
def Dev.headerFlags (d : Dev) (c loc h : Nat) : Dev :=
  let g := 128 * c + loc
  let t := d.term g
  let d := if t.txLevel = bits h 27 3 then d else d.setTerm g { t with txLevel := bits h 27 3 }
  if bit h 31 then (if t.st = .hold then d.msgDiscard c else d.addTodo c loc .gasp)
  else if bit h 30 ∧ (t.st = .active ∨ t.st = .doze) then
    let t := d.term g
    d.setTerm g { t with alarm := some (d.subNow + 2) }
  else d

/-- A terminal in HOLD whose burst is found (R109, R122): ACTIVE again at its EqD with its offset for Ruling, or ranged again where
the offset exceeds the adjustment limit. The offset of a frame before a pending adjustment's is ignored. -/
def Dev.foundInHold (d : Dev) (c loc f : Nat) (o : Int) : Dev :=
  let g := 128 * c + loc
  let t := d.term g
  let d := d.setTerm g { t with attempts := 0 }
  if t.adj.any fun a => decide (f < a.frame) then (d.toState g .active 15).flagRecall g false
  else if d.adjLimit c < o.natAbs then d.rerangeBy c loc o
  else ((d.toState g .active 15).flagRecall g false).addTodo c loc (.track o f)

/-- Ruling and Scribe hear of a found burst, in head role. An alarm asks for its burst in the state that the find leaves (R109,
R135). -/
def Dev.tellScribe (d : Dev) (c : Nat) (b : Burst) (fom : Nat) (o : Int) (h : Nat) (hdrOk : Bool) (report : Option Nat) : Dev :=
  let loc := b.loc
  let g := 128 * c + loc
  let f := b.sub / 4
  let d := match report with
    | some r =>
      let x : Report := { sub := b.sub, loc := loc, body := r }
      { d with gnt := { d.gnt with reports := Tbl.upd [] d.gnt.reports c fun l => l ++ [x] } }
    | none => d.landGrants c loc b.sub
  let d := (d.judge c loc f true).txnsDue c loc b.sub
  let t := d.term g
  let gasps := hdrOk && bit h 31
  let d := if gasps then d.headerFlags c loc h else d
  let d := if t.st = .hold then d.foundInHold c loc f o
    else if t.st = .active ∨ t.st = .doze then d.addTodo c loc (.track o f)
    else if t.st = .blocked ∧ hdrOk then d.addTodo c loc .evidence
    else d
  let d := if hdrOk && !gasps then d.headerFlags c loc h else d
  d.powerCheck c loc fom

/-- The flags and counts of a found burst: each row of R98 that applies, for a header of either kind. -/
def Dev.countBurst (d : Dev) (c : Nat) (x : Seen) (hdrBad repBad : Bool) : Dev :=
  let d := if x.mistimed then d.flag F.TCH_BRXSTAT_MISTIMED c else d
  let d := if hdrBad then d.flag F.TCH_BRXSTAT_HDRBAD c else d
  let d := if repBad then d.flag F.TCH_BRXSTAT_REPBAD c else d
  let d := d.brxCount c 8 x.corr
  let d := if x.bad = 0 then d else (d.flag F.TCH_BRXSTAT_UNCORR c 0 false).brxCount c 9 x.bad
  if x.termMiss then d.flag F.TCH_BRXSTAT_TERMMISS c else d

/-- The upstream error count of a terminal rises (R60). -/
def Dev.addErrs (d : Dev) (g n : Nat) : Dev :=
  if n = 0 then d else { d with reg := { d.reg with errs := Tbl.set d.reg.errs g (min 255 (Tbl.get 0 d.reg.errs g + n)) } }

/-- The flags of a found burst's record but those of its header, its load and its write-back (R101). -/
def Seen.flags (x : Seen) : Nat := 2 * b2n x.mistimed + 16 * b2n x.termMiss

/-- A burst whose header names another terminal or map (R98). Its HDR_FLAGS are as a missing burst's (log entry 146). -/
def Dev.mismatched (d : Dev) (c : Nat) (b : Burst) (x : Seen) (fom h at_ : Nat) (repBad : Bool) : Dev :=
  let g := 128 * c + b.loc
  let d := (d.countBurst c x false repBad).flag F.TCH_BRXSTAT_HDRMIS c
  let d := if bits h 57 7 = b.loc then d else d.strayBurst c (bits h 57 7)
  let m := min 65535 (d.missRun g + 1)
  let d := d.notFound c b
  (d.recordBurst c b
    { arrival := x.o, fom := fom, flags := x.flags + 8 + d.loadFlags c b, corr := x.corr, uncorr := x.bad, rei := none,
      hdrFlags := 32 * b2n (d.brx c).intruded, missRun := m, delimErr := x.delim, stamp := at_ % 2 ^ 32 }).passBurst c
    { loc := b.loc, offset := some x.o, termMissing := x.termMiss, wrote := none }

/-- A new active device has found a burst on channel `c` (R480). -/
def Dev.noteFound (d : Dev) (c : Nat) : Dev :=
  if d.stl.begun.isSome && !d.stl.found.contains c then { d with stl := { d.stl with found := d.stl.found ++ [c] } } else d

/-- What a burst carries is discarded under R173 when its terminal has meanwhile been set RANGING, MOVING or BLOCKED, as R98
discards a mismatched burst's payload and report. It is no mismatch, and counts as found (DEDUCED, log entry 158). -/
def Dev.voided (d : Dev) (g : Nat) : Bool :=
  let st := (d.term g).st
  d.mode != 3 && (st == .ranging || st == .moving || st == .blocked)

/-- The payload of a burst goes to its terminal's reassemblies, circuits and Scribe (R90, R170). -/
def Dev.burstPayload (d : Dev) (c : Nat) (b : Burst) (l : List Blk) : Dev :=
  let g := 128 * c + b.loc
  let n := if b.report then 2 else 0
  let d := Dev.upBlocks c g b.sub none (b.answers + 1) d ((l.drop n).take b.answers)
  let served := match (d.term g).st with
    | .active | .doze | .moving => true
    | _ => false
  Dev.upShares c g b.sub (b.owedShare b.loc served) d b.shares (l.drop (n + b.answers))

/-- A found burst lies between neighbours that were on time while its guard was intruded (R125). -/
def Dev.blameless (d : Dev) (c : Nat) (x : Seen) : Bool :=
  let near : Bool := match (d.brx c).last with
    | some x => !x.termMissing && x.offset.any fun o => decide (o.natAbs ≤ 4)
    | none => false
  (d.brx c).intruded && near && !x.termMiss && !x.mistimed && d.mode != 3

/-- A burst found in its place whose header is not mismatched. -/
def Dev.matched (d : Dev) (c : Nat) (b : Burst) (x : Seen) (fom eq h at_ : Nat) (l : List Blk) : Dev :=
  let g := 128 * c + b.loc
  let f := b.sub / 4
  let hdrOk := hdrGood h
  let void := d.voided g
  let rep := if b.report then reportOf l else none
  let d := d.countBurst c x (!hdrOk) (b.report && rep.isNone)
  let d := if hdrOk ∧ x.bad = 0 then d.brxCount c 1 else d
  let d := if void then d else d.addErrs g (x.corr + 255 * x.bad)
  let w : Dev × Bool := if void then (d, false) else d.writeBack c g fom eq (decide (x.bad = 0))
  let d := w.1
  let d := if d.mode = 3 then d.shadowFound c f x.o
    else (d.noteFound c).tellScribe c b fom x.o h hdrOk (if void then none else rep)
  let d := if void then d.dropReasmOf g else d.burstPayload c b l
  let intr := (d.brx c).intruded
  let d := if d.blameless c x then d.evidenceAll c else d
  let flags := x.flags + 4 * b2n (!hdrOk) + d.loadFlags c b + 128 * b2n w.2
  let hf := if hdrOk then b2n (bit h 31) + 2 * b2n (bit h 30) + 4 * bits h 27 3 else 0
  let ends := d.burstNs c b (x.o + (((burstBlocks b.cold b.positions + 4) * 66 : Nat) : Int))
  (d.recordBurst c b
    { arrival := x.o, fom := fom, flags := flags, corr := x.corr, uncorr := x.bad,
      rei := if hdrOk then some (bits h 49 8) else none, hdrFlags := hf + 32 * b2n intr, missRun := 0,
      delimErr := x.delim, stamp := at_ % 2 ^ 32 }).passBurst c
    { loc := b.loc, offset := some x.o, termMissing := x.termMiss, wrote := if w.2 then some ends else none }

/-- A standby that acquires DELTA looks for the delimiter where it sees energy (R475). -/
def Dev.acquiring (d : Dev) (c : Nat) : Bool :=
  d.mode == 3 && d.get F.STL_CHSTAT_DSTATE c == 1 && (d.shadow c).run == 0

/-- Gain, phase and taps after a preamble that starts from the values loaded (R92, R273): a preset preamble reaches a part of them. -/
def Dev.preambleTo (d : Dev) (c value : Nat) (cold : Bool) (l : List Adapt) : Dev × EqVals × Int :=
  let v := EqVals.of value
  let a := Dev.adaptBurst c true (d, v, 0) l
  if cold then a else (a.1, EqVals.reach v a.2)

/-- A found burst is decoded and handled (R92, R98). The receiver's values and FOM show in its registers (R288). -/
def Dev.takeBurst (d : Dev) (c : Nat) (b : Burst) (i : BurstIn) (eq : Nat) (o : Int) (delim : Nat) : Dev :=
  let at_ := d.expected c b o
  let d := d.runTo at_
  let d := if b.cold then d.brxCount c 13 else d
  let f := b.sub / 4
  let ws := burstCws i.words b.positions
  let as_ := readAs b.loc f i.hdr
  let z := descrambleBurst as_ f i.hdr (ws.flatMap (·.1))
  let d := (d.showFom c (fomOf i.err)).showEq c eq
  let x : Seen := { o := o, delim := delim, corr := ws.foldl (fun a w => a + w.2.2) 0,
                     bad := (ws.filter fun w => w.2.1).length, termMiss := !termFound i.term }
  if hdrGood z.1 ∧ (bits z.1 57 7 ≠ b.loc ∨ bits z.1 33 16 ≠ b.sub % 65536) then
    d.mismatched c b x (fomOf i.err) z.1 at_ (b.report && (reportOf z.2).isNone)
  else d.matched c b x (fomOf i.err) eq z.1 at_ z.2

/-- The receiver searches the window of the schedule's next burst (R92, R95): a burst without a delimiter, or on a lane that is not
RUNNING, is missing. -/
def Dev.burstReceived (d : Dev) (c : Nat) (i : BurstIn) : Dev :=
  match (d.brx c).sched with
  | [] => d
  | b :: _ =>
    let d := d.loadFirst c
    let i := if d.useB F.SLN_CTL_RX_INV c then i.inv else i
    let a := d.preambleTo c (((Tbl.find? d.lanes.loaded c).map (·.value)).getD 0) b.cold i.pre
    match findDelim i.search (d.use F.TCH_BRXCFG_WINDOW c) (d.use F.TCH_BRXCFG_DELIM_TOL c) a.2.1.phase a.2.2, d.laneUp c with
    | some r, true =>
      let p := Dev.adaptBurst c false (a.1, a.2.1, 0) i.post
      p.1.takeBurst c b i p.2.1.num (r.1 + if d.acquiring c then i.energy else 0) r.2
    | _, _ => d.burstMissing c

/-- BURST_RECEIVED. -/
def execBurstReceived (c : Ch) (b : BurstIn) (s : State) : Res :=
  run (.burstReceived c b) s fun d =>
    let e := d.toBurst c
    if e.brxRuns c then e.burstReceived c b else d

end Sys2Proof.Machine
end

