-- ==== Sys2Proof/Machine/Scribe.lean ====
section
/-!
DEFINITION. The Scribe's routines in head role (R109 to R142, R421, R505): discovery, ranging, activation, tracking,
loss and recall, side moves, doze, keys, alarms and host commands.
-/

namespace Sys2Proof.Machine

open Sys2Proof.Crypto

/-- An event of channel c's TCH block. -/
def Dev.tchEvent (d : Dev) (c code data : Nat) : Dev :=
  d.event (F.TCH_LCSTAT_RECOVERY.addr + c * F.TCH_LCSTAT_RECOVERY.s1) code c data

/-- DATA bytes of an event, given as little-endian fields (value, size). -/
def dataOf (l : List (Nat × Nat)) : Nat := ofLE (l.flatMap fun e => toLE e.1 e.2)

/-- Is a terminal in service: ACTIVE or DOZE? -/
def Term.inService (t : Term) : Bool := t.st == .active || t.st == .doze

/-! ### Shared steps -/

/-- Body of EQD_ADJ (R139). -/
def adjBody (delta : Int) (frame result : Nat) : List Byte :=
  toBE (unsgn 32 delta) 4 ++ toBE (frame % 65536) 2 ++ toBE result 4

/-- Ruling adjusts a terminal's EqD (R123): it takes the result, and EQD_ADJ is sent with what the result is more than the EqD held.
DESIGN CHOICE (log entry 190): a result that would be negative is 0. -/
def Dev.adjust (d : Dev) (c loc : Nat) (delta : Int) : Dev :=
  let g := 128 * c + loc
  let t := d.term g
  let f := d.effFrame c
  let result := ((t.eqd : Int) + delta).toNat
  let delta := (result : Int) - t.eqd
  let d := d.setTerm g { t with
    eqd := result, adj := some { delta := delta, result := result, frame := f, resent := false, calls := 0 },
    adjusts := min 65535 (t.adjusts + 1), actFrom := f, drift := [] }
  (d.ask c loc 0x04 (adjBody delta f result)).lcCount c 11

/-- The first segment of a burst that is no idle block, with its data blocks, where the header is good (R68). -/
def firstSeg (l : List Blk) : Option (Seg × List Blk) :=
  match l.dropWhile fun b => !(b.ctl && (Seg.of b.pay).len != 0) with
  | [] => none
  | b :: r =>
    let s := Seg.of b.pay
    if b.bad ∨ crc14 s.hdr ≠ bits s.hdr 0 14 ∨ 16000 < s.len ∨ (r.take s.data).any (·.bad) ∨ r.length < s.data then none
    else some (s, r.take s.data)

/-- The message of a burst of a window: a segment of 64 bytes on label `label` (R136). -/
def windowMsg (label : Nat) (l : List Blk) : Option (Seg × List Byte) :=
  (firstSeg l).bind fun r =>
    if r.1.label = label ∧ r.1.len = 64 ∧ r.1.enc = false ∧ r.1.first ∧ r.1.last then some (r.1, (r.1.split r.2).1) else none

/-- The segments of a window's burst as R68 and R78 count them: its one sender sends 64 bytes on label `label` (R136). -/
def Dev.countSegs (c label : Nat) : Nat → Dev → List Blk → Dev
  | 0, d, _ => d
  | _, d, [] => d
  | n + 1, d, b :: r =>
    if b.ctl = false then Dev.countSegs c label n (d.segCount c 12) r
    else
      let s := Seg.of b.pay
      if s.len = 0 then Dev.countSegs c label n d r
      else if b.bad ∨ crc14 s.hdr ≠ bits s.hdr 0 14 ∨ 16000 < s.len then
        Dev.countSegs c label n (d.segCount c 10) (r.dropWhile fun x => !x.ctl)
      else
        let l := (r.take s.data).takeWhile fun x => !x.ctl
        let bad := l.any (·.bad) || decide (l.length < s.data) || s.label != label
        let d := if bad then d.segCount c 11 else (d.segCount c 9).octets (384 + c) (8 * (1 + s.data))
        Dev.countSegs c label n d (r.drop l.length)

/-- A burst of a window as the receiver has it (R95, R117, R120, R267): its arrival offset, the 132 bits there, its header, its
codeword, its FOM, the values adapted from the channel default, and the block at the terminator's place. -/
structure Heard where
  o : Int
  delim : Nat
  hdr : Nat
  word : CwIn
  fom : Nat
  eq : Nat
  term : Nat
  deriving DecidableEq, Repr

/-- The receiver takes what may be a burst in a window, with a cold preamble from the channel default preset (R96). -/
def Dev.hear (d : Dev) (c : Nat) (r : WindowIn) : Dev × Heard :=
  let inv := d.useB F.SLN_CTL_RX_INV c
  let turn (n v : Nat) : Nat := if inv then invBits true n v else v
  let a := d.preambleTo c (d.preset (16384 + c)).value true r.pre
  let p := Dev.adaptBurst c false (a.1, a.2.1, 0) r.post
  (p.1, { o := arrivalOf (r.place + a.2.2) a.2.1.phase, delim := turn 132 r.delim, hdr := turn 64 r.hdr
          word := if inv then r.word.inv true else r.word, fom := fomOf r.err, eq := p.2.1.num, term := turn 64 r.term })

/-- Its FOM and equalizer show in the receiver's registers (R288). -/
def Dev.showHeard (d : Dev) (c : Nat) (r : Heard) : Dev := (d.showFom c r.fom).showEq c r.eq

/-- The positions of a window burst, descrambled with the seed of local number `loc` in frame `f`. -/
def readWindow (w : Heard) (loc f : Nat) : Nat × List Blk :=
  descrambleBurst loc f w.hdr (burstCw (some w.word) 32).1

/-- The delimiter bits that differ where a window's burst may begin, at the instant `t` in ns: none where there is no delimiter
(R95). -/
def Dev.windowDelim (d : Dev) (c t : Nat) (w : Heard) : Option Nat :=
  (delimDiff w.delim).filter fun n => decide (n ≤ d.brxAt F.TCH_BRXCFG_DELIM_TOL c t)

/-- Check a message's CMAC and counter under a key slot (R137, R422). -/
def Dev.checkMsg (d : Dev) (c slot seq : Nat) (l : List Byte) : Dev × Bool :=
  let opens (key ctr : Nat) : Option (List Byte) := if msgMac key ctr l = slice l 60 4 then some [] else none
  if bit (be l 1 1) 0 = false then (d.lcFlag F.TCH_LCSTAT_CMACFAIL c, false)
  else
    let s := d.slotSeen slot
    let r := d.authenticate slot seq opens
    match r.2 with
    | .pass _ _ => (r.1, true)
    | .noKey => (r.1.noKey c, false)
    | .beyond => (r.1.bump F.CRY_CNT_COUNT c 5, false)
    | .fail =>
      let replay := (candidates s seq).any fun v => decide (65536 ≤ v) && (opens s.key (v - 65536)).isSome
      (if replay then r.1.lcCount c 21 else r.1.lcFlag F.TCH_LCSTAT_CMACFAIL c, false)

/-- Block a terminal (R109, R125): DISABLE goes out, `more` further ones follow, one a frame. DESIGN CHOICE (log entry 152): DISABLES
counts a block once, not each message. -/
def Dev.block (d : Dev) (g cause reason more : Nat) : Dev :=
  let c := g / 128
  let t := d.term g
  let d := d.freeSlotOf c (g % 128)
  let d := d.setTerm g { freeTerm with
    st := .blocked, cause := cause, changed := d.frameNow % 2 ^ 32, eqd := t.eqd, serial := t.serial, rtd := t.rtd,
    white := t.white, gasp := t.gasp, tunable := t.tunable, canDoze := t.canDoze, marks := t.marks, adjusts := t.adjusts,
    disables := more, silenced := 0, reason := reason }
  (d.broadcast c 0x07 (toBE t.serial 8 ++ toBE reason 1)).lcCount c 19

/-! ### SUBFRAME_TICK (R114, R115, R118, R125, R133, R134, R211) -/

/-- Requests that wait for a ranging slot, in the order in which free slots go (R118). -/
def Dev.rangeWaiters (d : Dev) (c : Nat) : List Nat :=
  let l := d.termsOf c
  let w (a : Ask) : List Nat := (List.filter (fun e : Nat × Term => e.2.st == .ranging &&
    e.2.ask.any fun r => r.ask == a && r.window.isNone && !r.refused) l).map fun e => e.1 % 128
  w .rerange ++ w .discovery ++ w .recalled ++ w .move

/-- One waiting request takes a slot, if one is free for it. -/
def Dev.grantSlot (c : Nat) (d : Dev) (loc : Nat) : Dev :=
  match (d.term (128 * c + loc)).ask with
  | some r => d.tryRange c loc r.ask
  | none => d

/-- SKIP_MAX as used: at its default where it lies below SKIP_INIT (R145). -/
def Dev.skipMax (d : Dev) (c : Nat) : Nat :=
  let v := d.use F.TCH_DISCCFG_SKIP_MAX c
  if v < d.use F.TCH_DISCCFG_SKIP_INIT c then F.TCH_DISCCFG_SKIP_MAX.dflt.val c 0 else v

/-- Announce the discovery window of upstream frame `f`, where one is due there that has not been announced (R114, R115). -/
def Dev.openDisc (c : Nat) (d : Dev) (f : Nat) : Dev :=
  let period := if d.on F.TCH_LCSTAT_RECOVERY c then 8 else d.use F.TCH_DISCCFG_DISC_PERIOD c
  let known := (d.scribe c).windows.any fun w => w.sub == 4 * f
  if d.useB F.TCH_DISCCFG_DISC_EN c = false ∨ f % period ≠ 0 ∨ known ∨ d.mgmtRoom c 1 = false then d
  else
    let pre := d.preEqd c
    if pre < 0 then (if d.subNow + 4 = 4 * f then d.tchEvent c 0x0009 (dataOf [(c, 1)]) else d)
    else
      let sp := d.spread c
      let n := d.backoff c
      let w : Disc := { sub := 4 * f, blocks := sp + n * 640, sSub := 4 * f + sp / 55808, sOff := sp % 55808, slots := n,
                        preEqd := pre.toNat }
      let s := d.scribe c
      let d := (d.setScribe c { s with windows := s.windows ++ [w] }).lcCount c 0
      d.broadcast c 0x01 (toBE (w.sSub % 65536) 2 ++ toBE w.sOff 2 ++ toBE w.preEqd 4 ++ toBE n 2 ++
        toBE (d.use F.TCH_DISCCFG_SKIP_INIT c) 1 ++ toBE (d.skipMax c) 1)

/-- The two further DISABLE messages of a rogue, one in each of the frames after its block (R125). -/
def Dev.resendDisable (c : Nat) (d : Dev) (e : Nat × Term) : Dev :=
  let t := e.2
  let since := (d.frameNow + 2 ^ 32 - t.changed) % 2 ^ 32
  if t.disables = 0 ∨ since + t.disables < 3 ∨ d.mgmtRoom c 1 = false then d
  else
    let d := d.setTerm e.1 { t with
      disables := t.disables - 1, silenced := if t.disables = 1 then d.frameNow else t.silenced }
    d.broadcast c 0x07 (toBE t.serial 8 ++ toBE t.reason 1)

/-- Bytes held for a dozing terminal in its queues. -/
def Dev.heldBytes (d : Dev) (g : Nat) : Nat := (d.queuesOf g).foldl (fun a q => a + d.depth q) 0

/-- A dozing terminal that holds more downstream bytes than allowed ends its doze (R134). -/
def Dev.dozeLimit (c : Nat) (d : Dev) (e : Nat × Term) : Dev :=
  if e.2.st = .doze ∧ e.2.dozeEnd.isNone ∧ 1024 * e.2.heldKib < d.heldBytes e.1 then d.addTodo c (e.1 % 128) .dozeEnd
  else d

/-- Messages held for dozing terminals go in their awake frames, or when they doze no more, as far as the queue has room (R211). -/
def Dev.sendHeld (d : Dev) (c : Nat) : Dev :=
  let s := d.scribe c
  let ready (m : MgmtMsg) : Bool :=
    let t := d.term (128 * c + m.dest)
    !t.dozes || t.awake d.frameNow
  let l := (s.held.filter ready).take (64 - (Tbl.get [] d.tm.mgmt c).length)
  let d := d.setScribe c { s with held := l.foldl (fun a m => a.erase m) s.held }
  l.foldl (fun e m => e.pushMgmt c m) d

/-- The Scribe's class-0 routine. A DISC_OPEN goes two subframes or more before the map of its window's first subframe, and up to a
frame earlier. Where the management queue is full in the end, something may not have gone: the event stays pending (R211). -/
def Dev.subframeTick (d : Dev) (c : Nat) : Dev :=
  let s := d.subNow
  let d := d.sendHeld c
  let d := (d.termsOf c).foldl (Dev.resendDisable c) d
  let d := (d.termsOf c).foldl (Dev.dozeLimit c) d
  let d := (d.rangeWaiters c).foldl (Dev.grantSlot c) d
  let d := ((List.range 3).filter fun k => decide (s + 4 ≤ 4 * (s / 4 + k) ∧ 4 * (s / 4 + k) ≤ s + 8)).foldl
    (fun d k => Dev.openDisc c d (s / 4 + k)) d
  if d.mgmtRoom c 1 then d.setScribe c { d.scribe c with lastTick := some s } else d

/-- SUBFRAME_TICK: once in a subframe. -/
def execSubframeTick (c : Ch) (s : State) : Res :=
  run (.subframeTick c) s fun d =>
    if d.headScribe c && (d.scribe c).lastTick != some d.subNow then d.routine c 0x0040 0 0 fun d => d.subframeTick c else d

/-! ### DISC_RX (R113, R117) -/

/-- A response that passes the checks of R117. -/
structure DiscResp where
  serial : Nat
  eqd : Int
  caps : Nat
  txLevel : Nat
  deriving DecidableEq, Repr

/-- The upstream frames that a discovery window touches (R114). -/
def Disc.frames (w : Disc) : List Nat :=
  let f := w.sub / 4
  (List.range ((w.sub * 55808 + w.blocks - 1) / 223232 + 1 - f)).map (f + ·)

/-- The header of a response, read as a burst of frame `f`, passes (R117). -/
def discHdr (w : Disc) (r : Heard) (f : Nat) : Bool :=
  let h := (readWindow r 0 f).1
  hdrGood h && bits h 57 7 == 0 && bits h 33 16 == w.sSub % 65536

/-- The frame that holds a response of a window (R89, R117): a frame of the window, counted where the terminal places its burst with
PRE_EQD. The receiver reads the header with each frame of the window in turn, and takes the first that passes (DEDUCED, log entry 76). -/
def discFrame (w : Disc) (r : Heard) : Option Nat := w.frames.find? (discHdr w r)

/-- Check one response of a window (R117). -/
def readDisc (w : Disc) (r : Heard) : Option DiscResp :=
  (discFrame w r).bind fun f =>
    match windowMsg 0x80 (readWindow r 0 f).2 with
    | none => none
    | some (_, m) =>
      if be m 0 1 ≠ 0x81 then none
      else some { serial := be m 4 8, eqd := (w.preEqd : Int) + be m 12 4 - r.o, caps := be m 17 1, txLevel := be m 19 1 }

/-- The segments of a response whose header passes are counted (R68, R117). -/
def Dev.countDisc (d : Dev) (c : Nat) (w : Disc) (r : Heard) : Dev :=
  match discFrame w r with
  | some f => Dev.countSegs c 0x80 33 d (readWindow r 0 f).2
  | none => d

/-- The local number that a window's burst with a good header names, other than 0. -/
def strayOf (loc f : Nat) (r : Heard) : Option Nat :=
  let n := readAs loc f r.hdr
  let h := (readWindow r n f).1
  if hdrGood h ∧ bits h 57 7 ≠ loc then some (bits h 57 7) else none

/-- A discovered terminal is registered and ranged (R113). A registration that restarts in RANGING keeps its EqD and the frame of
its HOLD, for its return there (R109). -/
def Dev.assign (d : Dev) (c loc w : Nat) (r : DiscResp) (attempts : Nat) (old : Option Term) : Dev :=
  let d := (d.whiteKeys (128 * c + loc) w).register c loc w (bit r.caps 0) (bit r.caps 1) 1
  let g := 128 * c + loc
  let t := d.term g
  let t : Term := match old with
    | some o => { t with back := o.back, eqd := o.eqd, held := o.held, rtd := o.rtd, adjusts := o.adjusts }
    | none => t
  let d := d.setTerm g { t with attempts := attempts, txLevel := r.txLevel % 8 }
  d.askRange c loc .discovery r.eqd.toNat

/-- A valid response of a serial that is registered on this channel: the restart of R109. DESIGN CHOICE (log entry 147): RANGING that
a restart enters from ACTIVATING, ACTIVE, DOZE or HOLD, whose registration ends, counts as entered from FREE. -/
def Dev.rediscovered (d : Dev) (c g w : Nat) (r : DiscResp) : Dev :=
  let t := d.term g
  let slot := decide (0 < d.slotsFor c .discovery)
  if t.st = .moving then d.msgDiscard c
  else if t.st = .ranging then
    if (d.scribe c).slots.contains (g % 128) || slot then d.assign c (g % 128) w r (t.attempts + 1) (some t) else d
  else if slot then d.assign c (g % 128) w r 0 none
  else d

/-- The first rule of R113 that matches a valid response. -/
def Dev.discovered (d : Dev) (c : Nat) (all : List DiscResp) (r : DiscResp) : Dev :=
  let held := d.withSerial r.serial
  if held.any fun g => (d.term g).st == .blocked then d.msgDiscard c
  else if 2 ≤ (all.filter fun x => x.serial == r.serial).length then d.lcFlag F.TCH_LCSTAT_DUP c
  else if held.any fun g => decide (g / 128 ≠ c) then d.lcFlag F.TCH_LCSTAT_DUP c
  else
    match d.findWhite r.serial with
    | none =>
      let d := if d.useB F.TCH_DISCCFG_ADMIT_UNKNOWN c then
          d.tchEvent c 0x0007 (dataOf [(r.serial, 8), (c, 1), (unsgn 32 r.eqd, 4)]) else d
      d.lcFlag F.TCH_LCSTAT_UNKNOWN c
    | some w =>
      if (d.white w).pinTree.any fun p => decide (p ≠ c / 2) then d.lcFlag F.TCH_LCSTAT_DUP c
      else if r.eqd < 0 then d.lcFlag F.TCH_LCSTAT_TOOFAR c
      else
        match held with
        | g :: _ => d.rediscovered c g w r
        | [] =>
          match d.localFor c w with
          | none => d.lcFlag F.TCH_LCSTAT_FULL c
          | some loc => if 0 < d.slotsFor c .discovery then d.assign c loc w r 0 none else d

/-- Responses whose delimiter does not lie inside an accepted one's 596 blocks (R117), with what they read as. -/
def discList (w : Disc) : Option Int → List Heard → List (Heard × Option DiscResp)
  | _, [] => []
  | until_, r :: l =>
    if until_.any fun u => decide (r.o < u) then discList w until_ l
    else
      let x := readDisc w r
      (r, x) :: discList w (if x.isSome then some (r.o + (596 - 528) * 66) else until_) l

/-- What a discovery window brings, in order, where a delimiter stands: nothing on a lane that is not RUNNING (R278). -/
def Dev.hearAll (c : Nat) (w : Disc) : Dev → List WindowIn → Dev × List Heard
  | d, [] => (d, [])
  | d, r :: l =>
    let h := d.hear c r
    if d.laneUp c ∧ (d.windowDelim c (d.upNs c w.sSub ((w.sOff * 66 : Nat) + h.2.o)) h.2).isSome then
      let x := Dev.hearAll c w h.1 l
      (x.1, h.2 :: x.2)
    else Dev.hearAll c w d l

/-- A discovery window has passed, with the delimiters found in it in order (R113, R117). -/
def Dev.discRx (d : Dev) (c : Nat) (rs : List WindowIn) : Dev :=
  let s := d.scribe c
  match s.windows with
  | [] => d
  | w :: rest =>
    let h := Dev.hearAll c w d rs
    let d := (h.1.runTo (h.1.upNs c w.sub ((w.blocks * 66 : Nat) : Int))).settleBrx c
    let d := d.setScribe c { d.scribe c with windows := rest }
    let l := discList w none h.2
    let d := l.foldl (fun d r => (d.showHeard c r.1).countDisc c w r.1) d
    let d := d.setBrx c { d.brx c with last := none }
    let all := l.filterMap (·.2)
    l.foldl (fun d r => match r.2 with
      | some x => (d.lcCount c 1).discovered c all x
      | none =>
        let at_ : Int := ((w.sSub * 55808 + w.sOff : Nat) : Int) * 66 + r.1.o
        let d : Dev := match strayOf 0 (at_ / 66 / 223232).toNat r.1 with
          | some y => if (d.term (128 * c + y)).st = .blocked then d.addTodo c y .evidence else d
          | none => d
        d.lcFlag F.TCH_LCSTAT_DISCBAD c) d

/-- DISC_RX. -/
def execDiscRx (c : Ch) (rs : List WindowIn) (s : State) : Res :=
  run (.discRx c rs) s fun d =>
    if d.headScribe c && d.brxRuns c && d.mgmtRoom c rs.length then d.routine c 0x0100 2 0 fun d => d.discRx c rs else d

/-! ### RANGE_RX (R120) -/

/-- How a ranging burst came out. -/
inductive RangeOut where
  | accepted (eqd : Int) (o : Int)
  | displaced (eqd : Int)
  | failed
  deriving DecidableEq, Repr

/-- Check a ranging burst (R120, R137). It is a burst of its terminal: it adds to the upstream error count, and its REI is the last
one received (R59, R60). -/
def Dev.readRange (d : Dev) (c loc w eqd : Nat) (r : Heard) : Dev × RangeOut :=
  let g := 128 * c + loc
  let z := readWindow r loc (w / 4)
  let errs := r.word.corrected + 255 * b2n r.word.bad
  if hdrGood z.1 = false ∨ bits z.1 57 7 ≠ loc then
    match strayOf loc (w / 4) r with
    | some y => (d.strayBurst c y, .failed)
    | none => (d.addErrs g errs, .failed)
  else
    let d := Dev.countSegs c loc 33 ((d.addErrs g errs).recordRei g (bits z.1 49 8)) z.2
    match windowMsg loc z.2 with
    | none => (d, .failed)
    | some (s, m) =>
      let k := d.checkMsg c (termSlot g s.key) s.seq m
      if k.2 = false then (k.1, .failed)
      else if be m 0 1 ≠ 0x82 ∨ be m 4 8 ≠ (d.term g).serial ∨ be m 12 4 ≠ eqd then (k.1, .failed)
      else if r.o.natAbs ≤ d.adjLimit c then (k.1, .accepted ((eqd : Int) - r.o) r.o)
      else (k.1, .displaced ((eqd : Int) - r.o))

/-- Attempts are exhausted, or a recall was not accepted: the slot is free, and the terminal goes where R109 says. -/
def Dev.rangeGivenUp (d : Dev) (c loc : Nat) : Dev :=
  let g := 128 * c + loc
  let d := d.freeSlotOf c loc
  let t := d.term g
  match t.back with
  | .hold => (d.setTerm g { t with ask := none, attempts := 0, keepFrom := none }).toState g .hold 9
  | .active | .doze => d.enterHold g 9
  | _ => d.endTerm g 9

/-- A side move fails at its target (R109, R132): the source, where it is MOVING, enters HOLD. -/
def Dev.failMove (d : Dev) (g : Nat) : Dev :=
  if (d.term g).st = .moving then d.enterHold g 12 else d.setTerm g { d.term g with move := none }

/-- EqD would be negative (R109): FREE, TOO_FAR; the source of a side move to here has failed. -/
def Dev.beyond (d : Dev) (c loc : Nat) : Dev :=
  match (d.term (128 * c + loc)).move with
  | some m => (d.tooFar c loc).failMove m.peer
  | none => d.tooFar c loc

/-- A ranging burst was missing or not accepted (R120). A request that the terminal has refused is not sent again (R141, log entry
163). DESIGN CHOICE (log entry 151): each such window counts in RANGE_FAIL. -/
def Dev.rangeFailed (d : Dev) (c loc : Nat) : Dev :=
  let g := 128 * c + loc
  let d := (d.freeSlotOf c loc).lcCount c 8
  let t := d.term g
  match t.ask with
  | none => d
  | some a =>
    if a.ask = .move then d.addTodo c loc (.moved false)
    else if a.refused then d.setTerm g { t with ask := none }
    else if a.ask = .recalled ∨ d.use F.TCH_LCCFG_RETRIES c ≤ t.attempts then d.rangeGivenUp c loc
    else
      let d := d.setTerm g { t with attempts := t.attempts + 1, ask := some { a with window := none } }
      if 0 < d.slotsFor c a.ask then d.sendRange c loc else d

/-- A ranging burst displaced by more than the adjustment limit (R120). A side move's is not accepted: R132 has one more request, for
which the EqD is corrected too (DESIGN CHOICE, log entry 157). A displaced burst counts in RANGE_FAIL only where the attempts are
exhausted, and one whose EqD would be negative does not (log entry 151). -/
def Dev.rangeDisplaced (d : Dev) (c loc : Nat) (eqd : Int) : Dev :=
  let g := 128 * c + loc
  let t := d.term g
  match t.ask with
  | none => d
  | some a =>
    if eqd < 0 then d.beyond c loc
    else if a.ask = .move then
      let d := (d.freeSlotOf c loc).setTerm g { t with ask := some { a with eqd := eqd.toNat } }
      d.addTodo c loc (.moved false)
    else if d.use F.TCH_LCCFG_RETRIES c ≤ t.attempts then (d.lcCount c 8).rangeGivenUp c loc
    else
      let d := d.setTerm g { t with
        attempts := t.attempts + 1, ask := some { a with eqd := eqd.toNat, window := none, again := true } }
      d.sendRange c loc

/-- The accepted ranging burst's write-back (R94): a host write or erase of the preset since the load, at the cycle `loadAt`, wins
(R276). -/
def Dev.rangeBack (d : Dev) (c g : Nat) (r : Heard) (loadAt : Nat) : Dev :=
  if r.fom < d.use F.TCH_BRXCFG_FOM_MIN c then d.staleIfValid g
  else if r.word.bad ∨ ((Tbl.find? d.lanes.hostAt g).any fun t => decide (loadAt ≤ t)) then d
  else (d.setPreset g { value := r.eq, state := 1, since := d.frameNow }).brxCount c 11

/-- A ranging burst is accepted (R120, R121, R94). -/
def Dev.rangeAccepted (d : Dev) (c loc : Nat) (eqd o : Int) (r : Heard) (loadAt : Nat) : Dev :=
  let g := 128 * c + loc
  if eqd < 0 then d.beyond c loc
  else
    let d := (d.freeSlotOf c loc).lcCount c 7
    let d := d.rangeBack c g r loadAt
    let t := d.term g
    let move := t.ask.any fun a => a.ask == .move
    let d := d.setTerm g { t with
      eqd := eqd.toNat, rtd := (d.eqrt c - tResp - eqd).toNat, ask := none, attempts := 0, drift := [], adj := none,
      actFrom := 0, grants := 0, judged := none }
    let d : Dev := match t.white with
      | some w => d.setWhite w { d.white w with lastCh := some c }
      | none => d
    let d := if o = 0 then d else
      let d := d.setTerm g { d.term g with eqd := (eqd + o).toNat }
      d.adjust c loc (-o)
    if move then d.addTodo c loc (.moved true)
    else match t.back with
      | .active | .doze => d.toState g .active 3
      | _ => (d.toState g .activating 3).addTodo c loc .activate

/-- What the guard after a ranging window is told of its burst (R99). -/
def rangeLast (loc : Nat) (r : Option Heard) : LastBurst :=
  match r with
  | some w => { loc := loc, offset := some w.o, termMissing := !termFound w.term, wrote := none }
  | none => { loc := loc, offset := none, termMissing := false, wrote := none }

/-- The outcome of a terminal's ranging window: nothing found, or a burst (R120). -/
def Dev.rangeRx (d : Dev) (c loc : Nat) (r : Option WindowIn) : Dev :=
  let g := 128 * c + loc
  let t := d.term g
  match t.ask with
  | none => d
  | some a =>
    match a.window with
    | none => d
    | some w =>
      let x := d.brx c
      let here (v : Window) : Bool := v.sub == w && v.loc == some loc
      match x.windows.find? here with
      | none => d
      | some v =>
        let d := (d.runTo (d.upNs c w (((v.start + 4) * 66 : Nat) : Int))).settleBrx c
        let loadAt := d.clk.cyc
        let ends := d.upNs c w (((v.start + v.len) * 66 : Nat) : Int)
        let h := if d.laneUp c then r.map (d.hear c) else none
        let found : Bool := h.any fun p => (d.windowDelim c ends p.2).isSome
        let d : Dev := match h with
          | some p => if found then p.1.showHeard c p.2 else d
          | none => d
        let r := if found then h.map (·.2) else none
        let d := d.runTo ends
        let x := d.brx c
        let d := d.setBrx c { x with windows := x.windows.filter (fun y => !here y && decide (w ≤ y.sub)), last := some (rangeLast loc r) }
        match r with
        | none => d.rangeFailed c loc
        | some b =>
          let k := d.readRange c loc w a.eqd b
          match k.2 with
          | .accepted e o => k.1.rangeAccepted c loc e o b loadAt
          | .displaced e => k.1.rangeDisplaced c loc e
          | .failed => k.1.rangeFailed c loc

/-- RANGE_RX. -/
def execRangeRx (c : Ch) (loc : Loc) (r : Option WindowIn) (s : State) : Res :=
  run (.rangeRx c loc r) s fun d =>
    if d.headScribe c && d.brxRuns c && d.mgmtRoom c 1 && (d.term (128 * c + loc)).st == .ranging then
      d.routine c 0x0180 2 loc fun d => d.rangeRx c loc r
    else d

/-! ### ACTIVATE (R121) -/

/-- Send ACTIVATE, or take its answer. -/
def Dev.activateStep (d : Dev) (c loc : Nat) : Dev :=
  let g := 128 * c + loc
  let k := d.takeTodo c loc fun t => t == .activate || t == .activated
  let d := k.1
  let t := d.term g
  if t.st ≠ .activating then d.msgDiscard c
  else match k.2 with
    | some .activate =>
      let r := d.draw (2 ^ 64)
      let d := r.1.setTerm g { t with challenge := some r.2 }
      d.ask c loc 0x05 (toBE r.2 8 ++ toBE t.allowed 2 ++ toBE t.txLevel 1)
    | _ =>
      let d := (d.setTerm g { d.term g with lastBurst := d.subNow, lastReport := 0, grants := 0, judged := none })
      ((d.toState g .active 4).flagRecall g false).lcCount c 10

/-- ACTIVATE. -/
def execActivate (c : Ch) (loc : Loc) (s : State) : Res :=
  run (.activate c loc) s fun d =>
    if d.headScribe c && d.mgmtRoom c 1 &&
        d.turn c loc (fun t => t == .activate || t == .activated) then
      d.routine c 0x0200 2 loc fun d => d.activateStep c loc
    else d

/-! ### Side moves: failure before F (R131) -/

/-- The reservation of a side move is freed: the target's number and slot. -/
def Dev.cancelMove (d : Dev) (g : Nat) : Dev :=
  match (d.term g).move with
  | some m =>
    let d := d.setTerm g { d.term g with move := none }
    if (d.term m.peer).st = .ranging then d.endTerm m.peer 12 else d
  | none => d

/-! ### MSG_RX (R137 to R141) -/

/-- An ACK ends a transaction (R109, R140). -/
def Dev.acked (d : Dev) (c loc type : Nat) : Dev :=
  let g := 128 * c + loc
  let t := d.term g
  match type with
  | 0x06 => if t.st = .active ∨ t.st = .doze ∨ t.st = .hold then d.endTerm g 5 else d.msgDiscard c
  | 0x09 => d.addTodo c loc .keys
  | 0x0A => d.setTerm g { t with rekey := none }
  | 0x0B => if t.st = .active then d.toState g .moving 12 else d.msgDiscard c
  | 0x0C =>
    if t.st = .active then ((d.setTerm g { t with grants := 0, judged := none }).toState g .doze 13).lcCount c 17
    else d.msgDiscard c
  | 0x0D =>
    let d := d.setTerm g { t with dozeEnd := none }
    if t.st = .doze then (d.setTerm g { d.term g with grants := 0, judged := none }).toState g .active 13 else d
  | _ => d

/-- Does a STATE_REFUSE with this XID name the terminal's ranging request (R141)? -/
def Term.refusesRange (t : Term) (xid : Nat) : Bool :=
  t.ask.any fun a => a.window.isSome && a.xid == xid && (a.again || a.ask == .rerange)

/-- A STATE_REFUSE (R141): the message it names is sent no more, and the registry state stays. DESIGN CHOICE (log entry 193): where the
message is an EQD_ADJ still pending, Ruling takes back the EqD it held before, as the terminal has changed nothing. -/
def Dev.stateRefused (d : Dev) (c loc type xid : Nat) : Dev :=
  let g := 128 * c + loc
  let t := d.term g
  if type = 0x03 ∧ t.refusesRange xid then
    (d.setTerm g { t with ask := t.ask.map fun a => { a with refused := true } }).lcFlag F.TCH_LCSTAT_REFUSED c
  else if t.txns.any fun x => x.type == type && x.xid == xid then
    let d := (d.setTerm g (t.endTxn type)).lcFlag F.TCH_LCSTAT_REFUSED c
    match type with
    | 0x04 =>
      let t := d.term g
      let eqd := match t.adj with
        | some a => ((t.eqd : Int) - a.delta).toNat
        | none => t.eqd
      d.setTerm g { t with eqd := eqd, adj := none, drift := [] }
    | 0x0D => d.setTerm g { d.term g with dozeEnd := none }
    | _ => d
  else d.msgDiscard c

/-- A message that has passed its checks is dispatched. -/
def Dev.dispatchMsg (d : Dev) (c loc : Nat) (l : List Byte) : Dev :=
  let g := 128 * c + loc
  let t := d.term g
  let xid := be l 3 1
  let open_ (type : Nat) : Bool := t.txns.any fun x => x.type == type && x.xid == xid
  match be l 0 1 with
  | 0x83 =>
    if t.st = .activating ∧ t.challenge = some (be l 4 8) then
      (d.setTerm g (t.endTxn 0x05)).addTodo c loc .activated
    else d.msgDiscard c
  | 0x84 =>
    let type := be l 4 1
    if open_ type ∧ type ≠ 0x05 then (d.setTerm g (t.endTxn type)).acked c loc type else d.msgDiscard c
  | 0x85 => if t.inService then d.addTodo c loc (.doze (be l 4 2) xid) else d.msgDiscard c
  | 0x86 => if t.inService then d.addTodo c loc (.alarm xid (be l 4 1) (be l 5 1) (be l 6 2)) else d.msgDiscard c
  | 0x8F => d.stateRefused c loc (be l 4 1) xid
  | _ => d.msgDiscard c

/-- The oldest message of the queue is checked and dispatched. -/
def Dev.msgRx (d : Dev) (c : Nat) : Dev :=
  let s := d.scribe c
  match s.inbox with
  | [] => d
  | m :: _ =>
    let d := d.inboxPop c
    let type := be m.bytes 0 1
    if type < 0x82 ∨ (0x87 < type ∧ type ≠ 0x8F) then d.msgDiscard c
    else
      let k := d.checkMsg c (termSlot (128 * c + m.loc) m.keyIdx) m.seq m.bytes
      if k.2 then k.1.dispatchMsg c m.loc m.bytes else k.1

/-- MSG_RX. -/
def execMsgRx (c : Ch) (s : State) : Res :=
  run (.msgRx c) s fun d =>
    if d.headScribe c && (d.scribe c).inbox.head?.any (fun m => d.turn c m.loc (· == .msg)) then
      d.routine c 0x0240 2 (((d.scribe c).inbox.map (·.loc)).headD 0) fun d => d.msgRx c
    else d

/-! ### MSG_RETRY (R140) -/

/-- The attempts of a message have run out. -/
def Dev.exhausted (d : Dev) (c loc type : Nat) : Dev :=
  let g := 128 * c + loc
  let t := d.term g
  let d := d.setTerm g (t.endTxn type)
  let ev (d : Dev) : Dev := d.tchEvent c 0x000B (dataOf [(loc, 1), (type, 1)])
  match type with
  | 0x04 =>
    let d := d.setTerm g { d.term g with adj := none }
    if t.inService then d.rerange c loc t.eqd 14 else d
  | 0x05 => if t.st = .activating then ev (d.endTerm g 9) else d
  | 0x06 => if t.st = .active ∨ t.st = .doze ∨ t.st = .hold then d.endTerm g 9 else d
  | 0x09 | 0x0A =>
    let d := d.setTerm g { d.term g with rekey := none }
    ev (if t.inService then d.enterHold g 9 else d)
  | 0x0B => ev (d.cancelMove g)
  | 0x0D => ev (d.setTerm g { d.term g with dozeEnd := none })
  | _ => ev d

/-- An unanswered message is sent again, or its exhaustion acted on. -/
def Dev.msgRetry (d : Dev) (c loc type : Nat) : Dev :=
  let g := 128 * c + loc
  let t := d.term g
  match t.txns.find? fun x => x.type == type && x.due with
  | none => d
  | some x =>
    if d.use F.TCH_LCCFG_RETRIES c ≤ x.tries then d.exhausted c loc type
    else
      let f := d.effFrame c
      let body : List Byte := if type = 0x04 then slice x.body 0 4 ++ toBE (f % 65536) 2 ++ slice x.body 6 4 else x.body
      let y : Txn := { x with body := body, tries := x.tries + 1, sent := none, granted := none, due := false }
      let t := { t with txns := t.txns.map fun z => if z.type == type then y else z }
      let t := if type = 0x04 then { t with adj := t.adj.map fun a => { a with frame := f } } else t
      (d.setTerm g t).unicast c loc type x.xid body

/-- MSG_RETRY. -/
def execMsgRetry (c : Ch) (loc : Loc) (type : Fin 256) (s : State) : Res :=
  run (.msgRetry c loc type) s fun d =>
    if d.headScribe c && d.mgmtRoom c 1 && !(d.scribe c).inbox.any (fun m => m.loc == loc.val) &&
        d.clear c loc (if d.rerangeDue c loc then 3 else 4) && (d.term (128 * c + loc)).txns.any (fun x => x.type == type.val && x.due) then
      d.routine c 0x0300 4 loc fun d => d.msgRetry c loc type
    else d

/-! ### TRACK (R122 to R124) -/

/-- Sign of an offset. -/
def sameSign (a b : Int) : Bool := decide (0 < a) == decide (0 < b)

/-- The rows of R122. -/
def Dev.trackOffset (d : Dev) (c loc : Nat) (o : Int) : Dev :=
  let g := 128 * c + loc
  let t := d.term g
  let a := d.adjLimit c
  let n := o.natAbs
  if n ≤ 1 then (if t.drift.isEmpty then d else d.setTerm g { t with drift := [] })
  else if n ≤ 4 then
    let l := if t.drift.all fun x => sameSign x o then t.drift ++ [o] else [o]
    if d.use F.TCH_LCCFG_DRIFT_CONFIRM c ≤ l.length then d.adjust c loc (-(meanOf l))
    else d.setTerm g { t with drift := l }
  else if n ≤ a then d.adjust c loc (-o)
  else d.rerangeBy c loc o

/-- Ruling takes an arrival offset. One that a terminal's entry into HOLD has overtaken is dropped (R110): the burst that ends HOLD
gives Ruling its own. -/
def Dev.track (d : Dev) (c loc : Nat) : Dev :=
  let g := 128 * c + loc
  let k := d.takeTodo c loc fun t => match t with
    | .track _ _ => true
    | _ => false
  match k.2 with
  | some (.track o f) =>
    let d := k.1
    let t := d.term g
    if t.inService = false then d.msgDiscard c
    else match t.adj with
      | none => d.trackOffset c loc o
      | some a =>
        if f < a.frame then d
        else if o.natAbs < 2 ∨ sameSign o a.delta then (d.setTerm g { t with adj := none }).trackOffset c loc o
        else if a.resent then
          (d.setTerm g { t with adj := none }).rerange c loc t.eqd 14
        else if a.calls = 0 then d.setTerm g { t with adj := some { a with calls := 1 } }
        else
          let f := d.effFrame c
          let d := d.setTerm g { t with adj := some { a with frame := f, resent := true, calls := 0 } }
          d.ask c loc 0x04 (adjBody a.delta f a.result)
  | _ => k.1

/-- TRACK. -/
def execTrack (c : Ch) (loc : Loc) (s : State) : Res :=
  run (.track c loc) s fun d =>
    let is (t : Todo) : Bool := match t with
      | .track _ _ => true
      | _ => false
    if d.headScribe c && d.mgmtRoom c 1 && d.turn c loc is then d.routine c 0x0340 1 loc fun d => d.track c loc else d

/-! ### LOSS, GASP and HOLD (R126, R127) -/

/-- Does channel c's Scribe have this event pending for `loc`, with none that R110 takes first? -/
def Dev.hasTodo (d : Dev) (c loc : Nat) (t : Todo) : Bool := d.turn c loc fun x => x == t

/-- A terminal's bursts are lost (R126). -/
def Dev.lossOf (d : Dev) (c loc : Nat) : Dev :=
  let g := 128 * c + loc
  let d := (d.takeTodo c loc fun t => t == .loss).1
  let t := d.term g
  let limit := if t.st = .doze then 3 else d.use F.TCH_LCCFG_LOSS_FRAMES c
  if t.inService = false then d.msgDiscard c
  else if limit ≤ t.grants then d.enterHold g 6 else d

/-- LOSS. -/
def execLoss (c : Ch) (loc : Loc) (s : State) : Res :=
  run (.loss c loc) s fun d =>
    if d.headScribe c && d.hasTodo c loc .loss then d.routine c 0x0380 1 loc fun d => d.lossOf c loc else d

/-- A terminal's dying gasp (R126, R135). -/
def Dev.gaspOf (d : Dev) (c loc : Nat) : Dev :=
  let g := 128 * c + loc
  let d := (d.takeTodo c loc fun t => t == .gasp).1
  let t := d.term g
  if t.inService = false then d.msgDiscard c
  else ((d.setTerm g { t with gasp := true }).enterHold g 7).lcCount c 14

/-- GASP. -/
def execGasp (c : Ch) (loc : Loc) (s : State) : Res :=
  run (.gasp c loc) s fun d =>
    if d.headScribe c && d.hasTodo c loc .gasp then d.routine c 0x03C0 1 loc fun d => d.gaspOf c loc else d

/-- RECOVERY_END (R127). -/
def execRecoveryEnd (c : Ch) (s : State) : Res :=
  run (.recoveryEnd c) s fun d =>
    match (d.scribe c).recoverTo with
    | some f =>
      if d.headRole c ∧ d.booted then
        let d := d.runTo (f * 125000)
        (d.setScribe c { d.scribe c with recoverTo := none }).set F.TCH_LCSTAT_RECOVERY 0 c
      else d
    | none => d

/-- HOLD_EXPIRED (R126). -/
def execHoldExpired (c : Ch) (loc : Loc) (s : State) : Res :=
  run (.holdExpired c loc) s fun d =>
    let g := 128 * c.val + loc.val
    if d.headScribe c && (d.term g).st == .hold then
      let d := d.runTo (((d.term g).held + d.use F.TCH_LCCFG_HOLD_FRAMES c) * 125000)
      (d.lcCount c 15).endTerm g 8
    else d

/-! ### ROGUE (R125) -/

/-- A rogue mark, or evidence against a blocked terminal. -/
def Dev.rogueStep (d : Dev) (c loc : Nat) : Dev :=
  let g := 128 * c + loc
  let k := d.takeTodo c loc fun t => t == .mark || t == .evidence
  let d := k.1
  let t := d.term g
  match k.2 with
  | some .mark =>
    let l := d.marksNow t ++ [d.frameNow]
    let d := (d.setTerm g { t with marks := l }).lcFlag F.TCH_LCSTAT_ROGUE c
    if d.use F.TCH_LCCFG_ROGUE_MARKS c ≤ l.length ∧ t.st ≠ .free ∧ t.st ≠ .blocked then d.block g 10 2 2 else d
  | _ =>
    if t.st ≠ .blocked then d.msgDiscard c
    else if t.silenced ≠ 0 ∧ t.silenced + 64 ≤ d.frameNow ∧ t.rogueRaised = false then
      (d.setTerm g { t with rogueRaised := true }).tchEvent c 0x000A (dataOf [(loc, 1), (t.serial, 8)])
    else d

/-- ROGUE. -/
def execRogue (c : Ch) (loc : Loc) (s : State) : Res :=
  run (.rogue c loc) s fun d =>
    if d.headScribe c && d.mgmtRoom c 1 && (d.hasTodo c loc .mark || d.hasTodo c loc .evidence) then
      d.routine c 0x0400 1 loc fun d => d.rogueStep c loc
    else d

/-! ### RECALL (R129) -/

/-- The whitelist entries that recall visits on a channel, in ascending serial order. -/
def Dev.recallList (d : Dev) (c : Nat) : List (Nat × White) :=
  let mine (w : White) : Bool := match w.lastCh with
    | some k => k == c
    | none => w.pinTree == some (c / 2)
  let l := List.filter (fun e : Nat × White => e.2.flagged && mine e.2 &&
    match d.findSerial e.2.serial with
    | some g => g / 128 == c && (d.term g).st == .hold
    | none => true) d.reg.white
  sortBy (fun e => e.2.serial) l

/-- The entry that the pass visits next. -/
def Dev.recallNext (d : Dev) (c : Nat) : Option (Nat × White) :=
  let l := d.recallList c
  match (d.scribe c).recallAt with
  | none => l.head?
  | some s => ((l.find? fun e => decide (s < e.2.serial)).orElse fun _ => l.head?)

/-- One step of a recall pass. DESIGN CHOICE (log entry 149): a terminal recalled from FREE, which has sent no DISC_RESP, has CAPS 0. -/
def Dev.recallStep (d : Dev) (c : Nat) : Dev :=
  match d.recallNext c with
  | none => d
  | some (w, x) =>
    let d := d.setScribe c { d.scribe c with recallAt := some x.serial }
    match d.findSerial x.serial with
    | some g =>
      let t := d.term g
      let d := d.setTerm g { t with back := .hold, attempts := 0 }
      (d.toState g .ranging 2).askRange c (g % 128) .recalled t.eqd
    | none =>
      match d.localFor c w with
      | none => d
      | some loc => ((d.whiteKeys (128 * c + loc) w).register c loc w false false 2).askRange c loc .recalled x.hint

/-- RECALL. -/
def execRecallStep (c : Ch) (s : State) : Res :=
  run (.recallStep c) s fun d =>
    if d.headScribe c && d.mgmtRoom c 1 && decide (0 < d.slotsFor c .recalled) && (d.recallNext c).isSome then
      d.routine c 0x0440 4 0 fun d => d.recallStep c
    else d

/-! ### Side moves (R130 to R132) -/

/-- The host's MOVE_SIDE is checked; the target is reserved and SIDE_MOVE sent. DESIGN CHOICE (log entry 148): the target channel's
MOVE_TUNE counts. A target EqD that would be negative ends the reservation in FREE, TOO_FAR (R109), and no SIDE_MOVE is sent
(DESIGN CHOICE, log entry 156). -/
def Dev.moveSource (d : Dev) (c loc ring tag : Nat) : Dev :=
  let g := 128 * c + loc
  match d.movePlan c loc with
  | none => d.endCmd ring tag 0x14 0x01
  | some (c2, n, w, e) =>
    let t := d.term g
    let g2 := 128 * c2 + n
    let f := d.effFrame c
    let d := d.register c2 n w t.tunable t.canDoze 12
    if e < 0 then (d.tooFar c2 n).endCmd ring tag 0x14 0 n
    else
      let after := 4 * (f + d.use F.TCH_LCCFG_MOVE_TUNE c2)
      let win := d.firstWindow c2 (max after (d.subNow + 3)) 4096
      let d := d.setTerm g2 { d.term g2 with
        ask := some { Ranging.of .move e.toNat with window := some win, after := after },
        move := some { peer := g, frame := f, taken := false }, keyIdx := d.downKey g, txLevel := t.txLevel }
      let d := d.setScribe c2 { d.scribe c2 with slots := (d.scribe c2).slots ++ [n] }
      let d := d.setTerm g { d.term g with move := some { peer := g2, frame := f, taken := false } }
      let d := d.ask c loc 0x0B
        (toBE (c2 % 2) 1 ++ toBE n 1 ++ toBE (f % 65536) 2 ++ toBE e.toNat 4 ++ toBE (win % 65536) 2)
      d.endCmd ring tag 0x14 0 n

/-- MOVE_SOURCE: a command that waits for a slot of the target stays pending. -/
def execMoveSource (c : Ch) (loc : Loc) (s : State) : Res :=
  run (.moveSource c loc) s fun d =>
    let is (t : Todo) : Bool := match t with
      | .host _ op _ _ => op == 0x14
      | _ => false
    if d.headScribe c && d.mgmtRoom c 1 && d.turn c loc is then
      d.routine c 0x0480 3 loc fun d =>
        let k := d.takeTodo c loc is
        match k.2 with
        | some (.host ring _ tag _) => k.1.moveSource c loc ring tag
        | _ => k.1
    else d

/-- Frame F of a side move (R131): keys and counters are copied, queues re-parented. -/
def Dev.moveEffective (d : Dev) (c loc : Nat) : Dev :=
  let g := 128 * c + loc
  let t := d.term g
  match t.move with
  | none => d
  | some m =>
    let d := d.runTo (m.frame * 125000)
    let d := d.setTerm g { t with move := some { m with taken := true } }
    let d := d.moveSlots g m.peer
    (d.childQueues g).foldl (fun d q =>
      let r := setRec (Tbl.get 0 d.tm.qcfg q) 0 4 m.peer
      let old := Tbl.find? d.tm.qold q
      let tm := { d.tm with
        qcfg := Tbl.set d.tm.qcfg q r
        qold := match old with
          | some o => Tbl.set d.tm.qold q (setRec o 0 4 m.peer)
          | none => d.tm.qold }
      let d := { d with tm := tm }.mirror 0x05000000 64 q 0 32 r
      d.setQ q { d.qst q with joined := false }) d

/-- SIDE_MOVE_EFFECTIVE. -/
def execSideMoveEffective (c : Ch) (loc : Loc) (s : State) : Res :=
  run (.sideMoveEffective c loc) s fun d =>
    let t := d.term (128 * c + loc)
    if d.booted && d.headRole c && t.st == .moving && (t.move.any fun m => !m.taken) then d.moveEffective c loc else d

/-- The target's ranging has ended (R131, R132). -/
def Dev.moveTarget (d : Dev) (c loc : Nat) (ok : Bool) : Dev :=
  let g2 := 128 * c + loc
  let t := d.term g2
  match t.move with
  | none => d
  | some m =>
    let g := m.peer
    if ok then
      let d := d.setTerm g2 { t with move := none, lastBurst := d.subNow }
      let d := (d.toState g2 .active 12).flagRecall g2 false
      let d : Dev := match t.white with
        | some w => d.setWhite w { d.white w with hint := t.eqd }
        | none => d
      let d := if (d.term g).st = .moving then (d.endTerm g 12).eraseTerm g else d
      d.lcCount (g / 128) 16
    else
      match t.ask with
      | some a =>
        if a.again = false then
          let after := a.window.getD d.subNow + 32
          let d := d.setTerm g2 { t with ask := some { a with again := true, window := none, after := after } }
          if 0 < d.slotsFor c .move then d.sendRange c loc else d
        else (d.endTerm g2 9).failMove g
      | none => d

/-- MOVE_TARGET. -/
def execMoveTarget (c : Ch) (loc : Loc) (s : State) : Res :=
  run (.moveTarget c loc) s fun d =>
    let is (t : Todo) : Bool := match t with
      | .moved _ => true
      | _ => false
    if d.headScribe c && d.mgmtRoom c 1 && d.turn c loc is then
      d.routine c 0x04C0 2 loc fun d =>
        let k := d.takeTodo c loc is
        match k.2 with
        | some (.moved ok) => k.1.moveTarget c loc ok
        | _ => k.1
    else d

/-! ### DOZE (R133, R134) -/

/-- End a terminal's doze at its next awake frame, or refuse doze to an ACTIVE one. -/
def Dev.sendDozeEnd (d : Dev) (c loc : Nat) (xid : Option Nat) : Dev :=
  let g := 128 * c + loc
  let t := d.term g
  let f := t.nextAwake d.frameNow
  let d := d.setTerm g { t with dozeEnd := some f }
  let body := toBE (f % 65536) 2
  match xid with
  | some x => d.askX c loc 0x0D x body
  | none => d.ask c loc 0x0D body

/-- Grant, end or refuse doze. DESIGN CHOICE (log entry 150): a DOZE_REQ with a period from a terminal that dozes already, or with
period 0 from one that does not, counts in MSG_DISCARD. -/
def Dev.dozeStep (d : Dev) (c loc : Nat) : Dev :=
  let g := 128 * c + loc
  let k := d.takeTodo c loc fun t => match t with
    | .doze _ _ => true
    | .dozeEnd => true
    | _ => false
  let d := k.1
  let t := d.term g
  match k.2 with
  | some (.doze p xid) =>
    if p = 0 then (if t.st = .doze then d.sendDozeEnd c loc (some xid) else d.msgDiscard c)
    else if t.st ≠ .active then d.msgDiscard c
    else
      let q := min p (min t.allowed 1024)
      if t.canDoze = false ∨ q < 2 then d.sendDozeEnd c loc (some xid)
      else
        let r := d.draw q
        let f := r.1.effFrame c
        let d := r.1.setTerm g { t with period := q, phase := r.2, dozeFrom := f, dozeEnd := none }
        d.askX c loc 0x0C xid (toBE q 2 ++ toBE r.2 2 ++ toBE (f % 65536) 2)
  | some .dozeEnd =>
    if t.st = .doze ∨ (t.st = .ranging ∧ t.back = .doze) then d.sendDozeEnd c loc none else d.msgDiscard c
  | _ => d

/-- DOZE. -/
def execDoze (c : Ch) (loc : Loc) (s : State) : Res :=
  run (.doze c loc) s fun d =>
    let is (t : Todo) : Bool := match t with
      | .doze _ _ => true
      | .dozeEnd => true
      | _ => false
    if d.headScribe c && d.mgmtRoom c 1 && d.turn c loc is then
      d.routine c 0x0500 2 loc fun d => d.dozeStep c loc
    else d

/-! ### KEYS (R421) -/

/-- A rekey begins with KEY_DELIVER, for a slot that is loaded and not in use. -/
def Dev.keyDeliver (d : Dev) (c loc : Nat) (r : KeyReq) : Dev :=
  let g := 128 * c + loc
  let t := d.term g
  if t.inService ∧ (d.slot (termSlot g r.index)).state = 1 ∧ d.downKey g ≠ r.index ∧ t.rekey.isNone then
    let d := d.setTerm g { t with rekey := some { idx := r.index, wrap := r.wrap, switched := false } }
    d.ask c loc 0x09 (toBE r.index 1 ++ [0, 0, 0] ++ slice r.wrap 0 40)
  else d.msgDiscard c

/-- The ACK of KEY_DELIVER has come: KEY_SWITCH for both directions. -/
def Dev.keySwitch (d : Dev) (c loc : Nat) : Dev :=
  let g := 128 * c + loc
  let d := (d.takeTodo c loc fun t => t == .keys).1
  let t := d.term g
  match t.rekey with
  | none => d
  | some r =>
    let f := d.effFrame c
    let now := d.downKey g
    let d := d.setTerm g { t with keyIdx := now, keySwitch := some (r.idx, f), rekey := some { r with switched := true } }
    d.ask c loc 0x0A (toBE r.idx 1 ++ toBE 3 1 ++ toBE (f % 65536) 2)

/-- KEYS. -/
def execKeys (c : Ch) (loc : Loc) (req : Option KeyReq) (s : State) : Res :=
  run (.keys c loc req) s fun d =>
    if d.headScribe c && d.mgmtRoom c 1 then
      match req with
      | some r => d.routine c 0x0540 3 loc fun d => d.keyDeliver c loc r
      | none => if d.hasTodo c loc .keys then d.routine c 0x0540 3 loc fun d => d.keySwitch c loc else d
    else d

/-! ### ALARM (R135) -/

/-- ALARM. -/
def execAlarm (c : Ch) (loc : Loc) (s : State) : Res :=
  run (.alarm c loc) s fun d =>
    let is (t : Todo) : Bool := match t with
      | .alarm _ _ _ _ => true
      | _ => false
    if d.headScribe c && d.mgmtRoom c 1 && d.turn c loc is then
      d.routine c 0x0580 2 loc fun d =>
        let k := d.takeTodo c loc is
        match k.2 with
        | some (.alarm xid q code detail) =>
          if (k.1.term (128 * c + loc)).inService = false then k.1.msgDiscard c
          else
          let d := k.1.unicast c loc 0x0F xid (toBE q 1)
          d.tchEvent c 0x0008 (dataOf [(loc, 1), (q, 1), (code, 1), (detail, 2)])
        | _ => k.1
    else d

/-! ### HOST_CMD (R142) -/

/-- Is a host's terminal command legal (R142)? -/
def cmdLegal (t : Term) (op : Nat) : Bool :=
  match op with
  | 0x11 => t.st != .free && t.st != .blocked
  | 0x12 => t.st == .blocked
  | 0x13 => t.st == .active || t.st == .doze || t.st == .hold
  | 0x15 => t.st == .active
  | 0x16 => t.inService && t.canDoze
  | _ => false

/-- What a legal command does. -/
def Dev.hostAct (d : Dev) (c loc op : Nat) (args : List Byte) : Dev :=
  let g := 128 * c + loc
  let t := d.term g
  match op with
  | 0x11 => (d.cancelMove g).block g 5 1 0
  | 0x12 => (d.broadcast c 0x08 (toBE t.serial 8)).endTerm g 5
  | 0x13 => d.ask c loc 0x06 (toBE 1 1)
  | 0x15 => d.rerange c loc t.eqd 14
  | 0x16 =>
    let p := le args 0 2
    let d := d.setTerm g { t with allowed := min 1024 p, heldKib := le args 2 4 }
    if p = 0 ∧ t.st = .doze then d.addTodo c loc .dozeEnd else d
  | _ => d

/-- HOST_CMD. -/
def execHostCmd (c : Ch) (loc : Loc) (s : State) : Res :=
  run (.hostCmd c loc) s fun d =>
    let is (t : Todo) : Bool := match t with
      | .host _ op _ _ => op != 0x14
      | _ => false
    if d.scribeUp c && d.mgmtRoom c 1 && d.turn c loc is then
      d.routine c 0x05C0 3 loc fun d =>
        let k := d.takeTodo c loc is
        match k.2 with
        | some (.host ring op tag args) =>
          if k.1.headRole c ∧ cmdLegal (k.1.term (128 * c + loc)) op then
            (k.1.hostAct c loc op args).endCmd ring tag op 0
          else k.1.endCmd ring tag op 0x01
        | _ => k.1
    else d

/-! ### TAKEOVER (R476, R479) -/

/-- A terminal's state is resumed: pending transactions are sent again and rangings asked for again as slots are free; on a channel in
RANGE, or one that is TX_SUSPECT, every terminal goes to HOLD with the recall flag set (R476, R480). -/
def Dev.resumeTerm (c : Nat) (inRange : Bool) (d : Dev) (e : Nat × Term) : Dev :=
  let t := e.2
  if inRange ∧ (t.inService ∨ t.st = .activating ∨ t.st = .ranging ∨ t.st = .moving) then d.enterHold e.1 6
  else
    let l := t.txns.map fun x => { x with sent := none, granted := none, due := true }
    let a := t.ask.map fun r => { r with window := none }
    let d := d.setTerm e.1 { t with txns := l, ask := a }
    match t.st, t.ask with
    | .ranging, some r => d.tryRange c (e.1 % 128) r.ask
    | _, _ => d

/-- TAKEOVER. -/
def execTakeover (c : Ch) (s : State) : Res :=
  run (.takeover c) s fun d =>
    if d.headScribe c && d.hasTodo c 128 .takeover then
      d.routine c 0x06C0 1 0 fun d =>
        let d := (d.takeTodo c 128 fun t => t == .takeover).1
        (d.termsOf c).foldl (Dev.resumeTerm c (d.get F.STL_CHSTAT_DSTATE c == 3 || d.on F.STL_CHSTAT_TX_SUSPECT c)) d
    else d

end Sys2Proof.Machine
end

