-- ==== Sys2Proof/Machine/Emu.lean ====
section
/-!
DEFINITION. Emulated terminals (R111, R234, R245 to R249, R254 to R258) and the trunk bundle of CASCADE (R250 to R253,
R259): states, host control, and buckets.
-/

namespace Sys2Proof.Machine

/-! ### Random values (R246) -/

/-- Step an emulated terminal's LFSR and take a value below `n` (R246). -/
def Dev.emuDraw (d : Dev) (g n : Nat) : Dev × Nat :=
  let e := d.emu g
  let s := lfsr32 e.lfsr
  (d.setEmu g { e with lfsr := s }, s % max 1 n)

/-! ### Bindings (R241, R249) -/

/-- The index, BIND and SRC of binding `j`. -/
def Dev.binding (d : Dev) (c t j : Nat) : Nat × Bool × Nat :=
  match j with
  | 0 => (d.use F.TCH_EMUCONT_INDEX0 c t, d.useB F.TCH_EMUCONT_BIND0 c t, d.use F.TCH_EMUCONT_SRC0 c t)
  | 1 => (d.use F.TCH_EMUCONT_INDEX1 c t, d.useB F.TCH_EMUCONT_BIND1 c t, d.use F.TCH_EMUCONT_SRC1 c t)
  | 2 => (d.use F.TCH_EMUCONT_INDEX2 c t, d.useB F.TCH_EMUCONT_BIND2 c t, d.use F.TCH_EMUCONT_SRC2 c t)
  | _ => (d.use F.TCH_EMUCONT_INDEX3 c t, d.useB F.TCH_EMUCONT_BIND3 c t, d.use F.TCH_EMUCONT_SRC3 c t)

/-- The synthetic sources of a terminal start. -/
def Dev.startBinds (d : Dev) (c t : Nat) (which : Nat → Bool) : Dev :=
  foldUpTo 4 (fun j d =>
    let b := d.binding c t j
    let g := 128 * c + t
    if b.2.1 && b.2.2 == 1 && which j then d.setBind g j { startedBind with part := (d.bind g j).part } else d) d

/-! ### Host control (R245, R247, R248, R255, R256) -/

/-- A refused write (R257). -/
def Dev.trmRefuse (d : Dev) (c : Nat) : Dev := d.flag F.TCH_TRMSTAT_REFUSED c

/-- An emulated terminal is switched off (R248): T_INIT at once, from T_SILENT too (log entry 195). -/
def Dev.emuOff (d : Dev) (c t : Nat) : Dev :=
  let g := 128 * c + t
  let d := ((d.set F.TCH_EMUCTL_EMU_EN 0 c t).set F.TCH_EMUCTL_GASP 0 c t)
  let d := (d.set F.TCH_EMUCTL_ALARM 0 c t).set F.TCH_EMUCTL_DOZE 0 c t
  (d.setEmu g { d.emu g with gaspAt := none, gaspBurst := false, alarmAt := none }).emuTo c t 0

/-- The body of an ALARM message for the alarm in hand (R139). -/
def Dev.alarmBody (d : Dev) (c t : Nat) : List Byte :=
  toBE (d.emu (128 * c + t)).alarmSeq 1 ++ toBE (d.get F.TCH_EMUCTL_ALARM_CODE c t) 1 ++
    toBE (d.get F.TCH_EMUCTL_ALARM_DETAIL c t) 2

/-- Queue an unsolicited upstream message (R243). -/
def Dev.emuSend (d : Dev) (c t type : Nat) (body : List Byte) : Dev :=
  let g := 128 * c + t
  let e := d.emu g
  let m := msgBytes type true (d.get F.TCH_EMUSTAT_LOCAL c t) e.upXid body
  d.setEmu g { e with upXid := (e.upXid + 1) % 256, unsol := e.unsol ++ [m] }

/-- GASP, ALARM and DOZE of a write of TCH_EMUCTL act on a terminal that serves (R248). -/
def Dev.emuActions (d : Dev) (c t : Nat) (gasp alarm doze : Bool) : Dev :=
  let g := 128 * c + t
  let st := d.emuSt c t
  if !(gasp || alarm || doze) then d
  else if st = 0 ∨ st = 1 ∨ st = 7 then d.trmRefuse c
  else
    let d := if gasp then
        (d.set F.TCH_EMUCTL_GASP 1 c t).setEmu g { d.emu g with gaspAt := some d.frameNow, gaspBurst := false }
      else d
    let d := if alarm && !d.on F.TCH_EMUCTL_ALARM c t then
        let e := d.emu g
        let d := (d.set F.TCH_EMUCTL_ALARM 1 c t).setEmu g
          { e with alarmSeq := (e.alarmSeq + 1) % 256, alarmAt := some d.frameNow }
        d.emuSend c t 0x86 (d.alarmBody c t)
      else d
    if doze then (d.set F.TCH_EMUCTL_DOZE 1 c t).emuSend c t 0x85 (toBE (d.use F.TCH_EMUCTL_DOZE_PERIOD c t) 2) else d

/-- Would enabling a terminal put two equal serials on a channel (R245)? -/
def Dev.serialClash (d : Dev) (c t : Nat) : Bool :=
  (List.range 128).any fun k => k != t && d.on F.TCH_EMUCTL_EMU_EN c k &&
    d.get F.TCH_EMUSER_SERIAL c k == d.get F.TCH_EMUSER_SERIAL c t

/-- A write of TCH_EMUCTL (R248, R255): a gasp written with EMU_EN 0 goes first. -/
def Dev.writeEmuCtl (d : Dev) (c t v : Nat) : Dev :=
  let was := d.on F.TCH_EMUCTL_EMU_EN c t
  let en := bit v 0
  if en && !was && d.serialClash c t then d.trmRefuse c
  else
    let d := ((d.set F.TCH_EMUCTL_CAP_DOZE (v / 2) c t).set F.TCH_EMUCTL_ALARM_CODE (v / 2 ^ 8) c t)
    let d := (d.set F.TCH_EMUCTL_DOZE_PERIOD (v / 2 ^ 16) c t).set F.TCH_EMUCTL_ALARM_DETAIL (v / 2 ^ 32) c t
    let d := if en && !was then ((d.set F.TCH_EMUCTL_EMU_EN 1 c t).emuTo c t 0).startBinds c t (fun _ => true) else d
    let gasps := bit v 2 && was && d.emuSt c t != 0 && d.emuSt c t != 1 && d.emuSt c t != 7
    let d := d.emuActions c t (bit v 2) (bit v 3) (bit v 4)
    if was && !en && !gasps then d.emuOff c t else d

/-- The present TCH_EMUCTL with EMU_EN at `en` and one more action bit. -/
def Dev.emuCtlWith (d : Dev) (c t en : Nat) (action : Nat) : Nat :=
  setBits (d.getReg RegOf.TCH_EMUCTL c t) 0 8 (en + 2 * d.get F.TCH_EMUCTL_CAP_DOZE c t + action)

/-- A write of TCH_EMUSER (R245). -/
def Dev.writeEmuSer (d : Dev) (c t v : Nat) : Dev :=
  if d.on F.TCH_EMUCTL_EMU_EN c t then d.trmRefuse c else d.set F.TCH_EMUSER_SERIAL v c t

/-- Is a TCH_EMUDLY value one that is taken (R256)? -/
def emuDlyOk (v : Nat) : Bool := decide (bits v 0 32 ≤ 69234780) && decide ((sgn 16 (bits v 32 16)).natAbs ≤ 255)

/-- The instant in 2^−16 ns at which upstream subframe `sub` of a terminal's block `blk` leaves the balls, for a terminal that uses
`eqd` (R236). -/
def Dev.txAt (d : Dev) (c t eqd sub blk : Nat) : Int :=
  let a := (d.rx c).arrived.getD (0, 0)
  let fibre : Int := if d.mode = 2 then (d.use F.TCH_EMUDLY_EXTRA c t : Int) + d.useS F.TCH_EMUDLY_SKEW c t else 0
  ((sub / 4 : Nat) - (a.1 : Nat) : Int) * 125000 * 65536 + a.2 + ((sub % 4 * 31250 * 65536 : Nat) : Int) +
    bits16 ((blk * 66 : Nat) + ((tResp + eqd : Nat) : Int) + fibre)

/-- A TCH_EMUDLY that waits takes effect where the terminal's boundary has come by `now` (R247). -/
def Dev.settleDly (c : Nat) (now : Int) (d : Dev) (t : Nat) : Dev :=
  let g := 128 * c + t
  let e := d.emu g
  if e.dlyAt.any fun b => decide (b ≤ now) then (d.setEmu g { e with dlyAt := none }).release RegOf.TCH_EMUDLY c t else d

/-- A write of TCH_EMUDLY (R247, R256): it takes effect at the terminal's next upstream frame boundary. DESIGN CHOICE (log entry 198): a
terminal that is not enabled, or has no downstream frame, has no boundaries, and a write takes effect at once. -/
def Dev.writeEmuDly (d : Dev) (c t v : Nat) : Dev :=
  if emuDlyOk v = false then d.trmRefuse c
  else
    let g := 128 * c + t
    let now : Int := ((d.now16 : Nat) : Int)
    let d := (Dev.settleDly c now d t).storeHeld RegOf.TCH_EMUDLY c t v
    match (d.rx c).arrived with
    | some a =>
      if d.emuOn c t = false then (d.setEmu g { d.emu g with dlyAt := none }).release RegOf.TCH_EMUDLY c t
      else
        let f0 := d.txAt c t (d.get F.TCH_EMUSTAT_EQD c t) (4 * a.1) 0
        let k : Int := (now - f0) / (125000 * 65536) + 1
        d.setEmu g { d.emu g with dlyAt := some (f0 + k * (125000 * 65536)) }
    | none => (d.setEmu g { d.emu g with dlyAt := none }).release RegOf.TCH_EMUDLY c t

/-- Is a TCH_EMUCONT value one that is taken (R256)? -/
def emuContOk (v : Nat) : Bool :=
  let used := (List.range 4).filter fun j => bit v (8 * j + 4)
  let idx := used.map fun j => bits v (8 * j) 4
  idx.Nodup && (List.range 4).all fun j => decide (bits v (8 * j + 5) 2 < 2)

/-- A write of TCH_EMUCONT (R249, R256): synthetic bindings that take effect start. -/
def Dev.writeEmuCont (d : Dev) (c t v : Nat) : Dev :=
  if emuContOk v = false then d.trmRefuse c
  else
    let on (d : Dev) (j : Nat) : Bool := (d.binding c t j).2.1 && (d.binding c t j).2.2 == 1
    let was := (List.range 4).filter (on d)
    (d.store RegOf.TCH_EMUCONT c t v).startBinds c t fun j => !was.contains j

/-- A host control of an emulated terminal runs in the Scribe's EMU_CTL routine (R505). -/
def Dev.emuCtl (d : Dev) (c t en action : Nat) : Dev :=
  d.routine c 0x0680 3 t fun d => d.writeEmuCtl c t (d.emuCtlWith c t en action)

/-- EMU_ENABLE. -/
def execEmuEnable (c : Ch) (t : Loc) (s : State) : Res :=
  run (.emuEnable c t) s fun d => d.hostW fun d => d.emuCtl c t 1 0

/-- EMU_DISABLE. -/
def execEmuDisable (c : Ch) (t : Loc) (s : State) : Res :=
  run (.emuDisable c t) s fun d => d.hostW fun d => d.emuCtl c t 0 0

/-- EMU_GASP. -/
def execEmuGasp (c : Ch) (t : Loc) (s : State) : Res :=
  run (.emuGasp c t) s fun d => d.hostW fun d => d.emuCtl c t (d.get F.TCH_EMUCTL_EMU_EN c t) 4

/-- EMU_ALARM. -/
def execEmuAlarm (c : Ch) (t : Loc) (s : State) : Res :=
  run (.emuAlarm c t) s fun d => d.hostW fun d => d.emuCtl c t (d.get F.TCH_EMUCTL_EMU_EN c t) 8

/-- EMU_DOZE. -/
def execEmuDoze (c : Ch) (t : Loc) (s : State) : Res :=
  run (.emuDoze c t) s fun d => d.hostW fun d => d.emuCtl c t (d.get F.TCH_EMUCTL_EMU_EN c t) 16

/-- EMU_GASP_TIMEOUT: the gasp burst has gone, or 8 frames have passed without a grant. -/
def execEmuGaspTimeout (c : Ch) (t : Loc) (s : State) : Res :=
  run (.emuGaspTimeout c t) s fun d =>
    let e := d.emu (128 * c + t)
    match e.gaspAt with
    | some f => if d.booted then (if e.gaspBurst then d else d.runTo ((f + 8) * 125000)).emuOff c t else d
    | none => d

/-- EMU_ALARM_RESEND: no ALARM_ACK within 8 frames, and a state in which the terminal can send. -/
def execEmuAlarmResend (c : Ch) (t : Loc) (s : State) : Res :=
  run (.emuAlarmResend c t) s fun d =>
    let g := 128 * c.val + t.val
    match (d.emu g).alarmAt with
    | some f =>
      let st := d.emuSt c t
      if d.termScribe c && d.on F.TCH_EMUCTL_ALARM c t && st != 0 && st != 1 && st != 7 then
        let d := d.runTo ((f + 8) * 125000)
        (d.setEmu g { d.emu g with alarmAt := some d.frameNow }).emuSend c t 0x86 (d.alarmBody c t)
      else d
    | none => d

/-- A channel's TCH_TRMCFG takes effect at a frame boundary: terminals at or above the new EMU_COUNT go (R245, R254). -/
def Dev.applyTrmCfg (c : Nat) (d : Dev) : Dev :=
  let old := d.emuCount c
  let d := d.release RegOf.TCH_TRMCFG c 0
  let now := d.emuCount c
  ((List.range old).filter fun t => decide (now ≤ t)).foldl (fun d t =>
    let g := 128 * c + t
    let d := (d.set F.TCH_EMUCTL_GASP 0 c t).setEmu g { d.emu g with gaspAt := none, gaspBurst := false }
    (if d.emuSt c t = 0 then d else d.emuTo c t 0).flushBound g) d

/-- EMU_COUNT_APPLY. -/
def execEmuCountApply (c : Ch) (s : State) : Res :=
  run (.emuCountApply c) s fun d => if d.booted then d.toFrame.applyTrmCfg c else d

/-! ### Buckets (R251, R259) -/

/-- A write of GLB_CASBKT (R251, R259). -/
def Dev.writeCasBkt (d : Dev) (b v : Nat) : Dev :=
  let m := bits v 0 7
  if d.mode ≠ 1 ∨ d.trunk m = false then d.flag F.GLB_CASSTAT_REFUSED
  else
    let d := d.set F.GLB_CASBKT_HOME m b
    if d.memberUp m then d.moveDue b m else d

/-- A bucket moves at the frame boundary: the old member's queues are marked, and packets that reach the new member are
held (R251). What came to a lost member since its queues were flushed is flushed too. -/
def Dev.bucketMove (d : Dev) (b : Nat) : Dev :=
  match Tbl.find? d.cas.due b with
  | none => d
  | some m =>
    let old := d.get F.GLB_CASBKT_CUR b
    let d := d.toFrame
    let d := if 3 ≤ d.emuSt old 0 ∧ d.emuSt old 0 ≤ 6 then d else d.flushBound (128 * old)
    let marks := (List.range 4).map fun j =>
      let q := 512 * old + j
      (q, (d.qst q).out + (d.qst q).all.length)
    let h : CasHold := Tbl.get { marks := [], pkts := [] } d.cas.holds b
    let h : CasHold := { marks := h.marks ++ marks, pkts := h.pkts.map fun p => (512 * m + p.1 % 4, p.2) }
    let d := { d with cas := { d.cas with due := Tbl.erase d.cas.due b, holds := Tbl.set d.cas.holds b h } }
    (d.set F.GLB_CASBKT_CUR m b).set F.GLB_CASBKT_MOVING 1 b

/-- BUCKET_MOVE. -/
def execBucketMove (b : Fin 256) (s : State) : Res :=
  run (.bucketMove b) s fun d => if d.booted ∧ d.mode = 1 then d.bucketMove b else d

/-- BUCKET_HOLD_END: the old member has sent or flushed everything before the marks, the packet it has begun too (R251). -/
def execBucketHoldEnd (b : Fin 256) (s : State) : Res :=
  run (.bucketHoldEnd b) s fun d =>
    match Tbl.find? d.cas.holds b.val with
    | none => d
    | some h =>
      let gone (m : Nat × Nat) : Bool :=
        let o := (d.qst m.1).out
        decide (m.2 < o) || (m.2 == o && (d.bind (m.1 / 4) (m.1 % 4)).part.isNone)
      if d.booted && h.marks.all gone then
        let d := { d with cas := { d.cas with holds := Tbl.erase d.cas.holds b.val } }
        let d := (d.set F.GLB_CASBKT_MOVING 0 b).bumpIn F.GLB_CASBKT_MOVES b
        h.pkts.foldl (fun d p => d.pushTo p.1 p.2) d
      else d

end Sys2Proof.Machine
end

