-- ==== Sys2Proof/Machine/Host.lean ====
section
/-!
DEFINITION. The host interface (R551 to R580): doorbells, the ring commands that have no block of their own, completions,
the Blotter's ring, interrupts, and the host's accesses of memory and mailbox.
-/

namespace Sys2Proof.Machine

/-- `(a − b) mod e`. -/
def modSub (a b e : Nat) : Nat := (((a : Int) - b) % (e : Int)).toNat

/-! ### Doorbells (R561, R567, R578) -/

/-- A refused write to a register of ring `n` (R578). -/
def Dev.ringRefuse (d : Dev) (n : Nat) : Dev := d.flag F.HST_RINGSTAT_REFUSED n

/-- A write of HST_SQTAIL[n]: entries are published, unless the write would lap the head. -/
def Dev.writeSqTail (d : Dev) (n tail : Nat) : Dev :=
  let e := d.ringEntries n
  let t := d.get F.HST_SQTAIL_TAIL n
  if e ≤ tail ∨ e - 1 < modSub t (d.get F.HST_RINGSTAT_SQ_HEAD n) e + modSub tail t e then d.ringRefuse n
  else Dev.dropUnknown n 2048 (d.set F.HST_SQTAIL_TAIL tail n)

/-- A write of HST_CQHEAD[n]: completion entries are freed, unless some of them are not yet written. -/
def Dev.writeCqHead (d : Dev) (n head : Nat) : Dev :=
  let e := d.ringEntries n
  let h := d.get F.HST_CQHEAD_HEAD n
  if e ≤ head ∨ modSub (d.get F.HST_RINGSTAT_CQ_TAIL n) h e < modSub head h e then d.ringRefuse n
  else Dev.dropUnknown n 2048 (d.set F.HST_CQHEAD_HEAD head n)

/-- A write of HST_RINGCFG[n]: LOG2_ENTRIES stays while ENABLE is 1. -/
def Dev.writeRingCfg (d : Dev) (n v : Nat) : Dev :=
  if d.on F.HST_RINGCFG_ENABLE n ∧ written F.HST_RINGCFG_LOG2_ENTRIES v ≠ d.get F.HST_RINGCFG_LOG2_ENTRIES n then
    d.ringRefuse n
  else Dev.dropUnknown n 2048 (d.store RegOf.HST_RINGCFG n 0 v)

/-- SQ_DOORBELL. -/
def execSqDoorbell (n : RingNo) (tail : Fin 2048) (s : State) : Res :=
  run (.sqDoorbell n tail) s fun d => d.hostW fun d => d.writeSqTail n tail

/-- CQ_HEAD_WRITE. -/
def execCqHeadWrite (n : RingNo) (head : Fin 2048) (s : State) : Res :=
  run (.cqHeadWrite n head) s fun d => d.hostW fun d => d.writeCqHead n head

/-- RING_STOP: ENABLE is written 0, and the ring's other fields as they stand. -/
def execRingStop (n : RingNo) (s : State) : Res :=
  run (.ringStop n) s fun d => d.hostW fun d =>
    d.writeRingCfg n (d.getReg RegOf.HST_RINGCFG n 0 - d.get F.HST_RINGCFG_ENABLE n)

/-! ### Commands (R564) -/

/-- NOP. -/
def execNop (ring : RingNo) (s : State) : Res :=
  run (.nop ring) s fun d => d.command ring 0x0001 fun t d => d.endCmd ring t.tag 0x0001 0

/-- A whitelist entry from its 96 bytes (R539). -/
def whiteOf (l : List Byte) : White :=
  let p := le l 8 1
  let n := le l 9 1
  { serial := le l 0 8, pinTree := if p = 0xFF then none else some p, pinLoc := if n = 0xFF then none else some n,
    hint := le l 12 4, flagged := bit (le l 10 1) 0, lastCh := none, wraps := slice l 16 80 }

/-- Are the fields of a whitelist entry in range (R8, R539)? -/
def whiteOk (l : List Byte) : Bool :=
  let p := le l 8 1
  let n := le l 9 1
  (p == 0xFF || decide (p < 64)) && (n == 0xFF || decide (n < 128)) && decide (le l 10 1 < 2) && le l 11 1 == 0

/-- The keys of an entry pinned to a tree and a local number enter the slots of that terminal on both channels of the tree
(R413, log entry 26). -/
def Dev.pinnedKeys (d : Dev) (w : Nat) : Dev :=
  match (d.white w).pinTree, (d.white w).pinLoc with
  | some p, some n => (d.whiteKeys (256 * p + n) w).whiteKeys (256 * p + 128 + n) w
  | _, _ => d

/-- Does a wrap of an entry fail to unwrap (R413)? -/
def Dev.badWrap (d : Dev) (w : White) : Bool :=
  (List.range 2).any fun k => match w.wrap k, d.cry.importKey with
    | some l, some ik => (Crypto.unwrap ik l).isNone
    | _, _ => false

/-- Does an entry hold a key? -/
def White.hasKey (w : White) : Bool := (List.range 2).any fun k => (w.wrap k).isSome

/-- The first free place of the whitelist of 32,768 entries (R112). -/
def Dev.freeWhite (d : Dev) : Option Nat :=
  (List.range 32768).find? fun i => (Tbl.find? d.reg.white i).isNone

/-- ADMIT (R142, R564): the entry at SRC is added. DEDUCED (log entry 196): a full whitelist ends NO_RESOURCE (R563). -/
def Dev.admitEntry (d : Dev) (ring tag src : Nat) : Dev :=
  let fin (d : Dev) (status : Nat) (result : Nat := 0) : Dev := d.endCmd ring tag 0x0010 status result
  if 2 ^ 33 < src + 96 then fin d 0x03
  else match d.obsRead src 96 with
    | none => fin d 0x05
    | some l =>
      let w := whiteOf l
      if !whiteOk l then fin d 0x03
      else if (d.findWhite w.serial).isSome then fin d 0x01
      else match d.freeWhite with
        | none => fin d 0x04
        | some i =>
          if w.hasKey ∧ d.cry.importKey = none then fin d 0x01
          else if d.badWrap w then fin (d.flag F.CRY_STAT_UNWRAP) 0x06
          else fin ((d.setWhite i w).pinnedKeys i) 0 i

/-- ADMIT. -/
def execAdmitEntry (ring : RingNo) (s : State) : Res :=
  run (.admitEntry ring) s fun d => d.command ring 0x0010 fun t d => d.admitEntry ring t.tag (le t.args 0 8)

/-- A terminal command is taken (R564, R566): it goes to the Scribe of its terminal's channel, whose HOST_CMD or MOVE_SOURCE
routine completes it. -/
def Dev.termCmd (d : Dev) (ring opcode : Nat) : Dev :=
  d.command ring opcode fun t d =>
    if 16384 ≤ t.target then d.endCmd ring t.tag opcode 0x03
    else if 2 < d.mode ∨ d.termRole (t.target / 128) then d.endCmd ring t.tag opcode 0x01
    else (d.keepRunning ring t).addTodo (t.target / 128) (t.target % 128) (.host ring opcode t.tag t.args)

/-- DISABLE. -/
def execDisable (ring : RingNo) (s : State) : Res := run (.disable ring) s fun d => d.termCmd ring 0x0011

/-- ENABLE. -/
def execEnable (ring : RingNo) (s : State) : Res := run (.enable ring) s fun d => d.termCmd ring 0x0012

/-- DEACTIVATE. -/
def execDeactivate (ring : RingNo) (s : State) : Res := run (.deactivate ring) s fun d => d.termCmd ring 0x0013

/-- MOVE_SIDE. -/
def execMoveSide (ring : RingNo) (s : State) : Res := run (.moveSide ring) s fun d => d.termCmd ring 0x0014

/-- RERANGE. -/
def execRerange (ring : RingNo) (s : State) : Res := run (.rerange ring) s fun d => d.termCmd ring 0x0015

/-- DOZE_ALLOW. -/
def execDozeAllow (ring : RingNo) (s : State) : Res := run (.dozeAllow ring) s fun d => d.termCmd ring 0x0016

/-- RECALL_CLEAR (R128, R142): the recall flag of the serial's entry clears. -/
def execRecallClear (ring : RingNo) (s : State) : Res :=
  run (.recallClear ring) s fun d => d.command ring 0x0017 fun t d =>
    match d.findWhite (le t.args 0 8) with
    | none => d.endCmd ring t.tag 0x0017 0x01
    | some w =>
      let d := d.setWhite w { d.white w with flagged := false }
      let d := match d.findSerial (le t.args 0 8) with
        | some g => d.setTerm g (d.term g)
        | none => d
      d.endCmd ring t.tag 0x0017 0

/-! ### Completions (R562) -/

/-- The 32 bytes of a completion entry. -/
def completionBytes (c : Completion) (phase : Bool) : List Byte :=
  toLE c.tag 4 ++ toLE c.opcode 2 ++ toLE c.status 1 ++ toLE (b2n phase) 1 ++ toLE c.result 8 ++ toLE c.frame 6 ++
    toLE 0 2 ++ toLE c.detail 4 ++ toLE 0 4

/-- The first completion that waits on ring `n` is written at CQ_TAIL (R562), and HST_RINGIRQ sets (R576). -/
def Dev.complete (d : Dev) (n : Nat) : Dev :=
  let r := d.ring n
  match r.done with
  | [] => d
  | c :: rest =>
    let i := d.get F.HST_RINGSTAT_CQ_TAIL n
    let d := d.obsWrite (cqAddr n i) (completionBytes c r.phase)
    let last := decide (d.ringEntries n ≤ i + 1)
    let d := d.setRing n { r with done := rest, phase := if last then !r.phase else r.phase }
    let d := d.set F.HST_RINGSTAT_CQ_TAIL (if last then 0 else i + 1) n
    let d := if d.on F.HST_RINGCFG_IRQ_EN n then
        ((d.flagBit F.HST_RINGIRQ_RING n 0 0 false).bumpAt (0x82000 + 8 * n) n 1).msi (2 + n)
      else d
    Dev.dropUnknown n 2048 d

/-- COMMAND_COMPLETE. -/
def execCommandComplete (ring : RingNo) (s : State) : Res := run (.commandComplete ring) s fun d => d.complete ring

/-! ### The Blotter's ring (R570 to R575) -/

/-- BLOTTER_EVENT (R573, R574): a block raises an event. -/
def execBlotterEvent (e : EvIn) (s : State) : Res :=
  run (.blotterEvent e) s fun d =>
    let x : Ev := { source := e.source, event := e.event, inst := e.inst, data := e.data }
    Dev.postN 2 x e.late d

/-- A counter of the Blotter. -/
def Dev.evtCount (d : Dev) (k : Nat) : Dev := d.bump F.EVT_CNT_COUNT k

/-- OPEN shows the entries of the table (R580). -/
def Dev.showOpen (d : Dev) : Dev := d.set F.EVT_STAT_OPEN d.blot.used

/-- The oldest open entry closes COALESCE_US after it opened, and waits for the writer (R573). -/
def Dev.closeEntry (d : Dev) : Dev :=
  match d.blot.opened with
  | [] => d
  | x :: rest =>
    let d := d.reach (x.openedAt + d.use F.EVT_CFG_COALESCE_US * 1500)
    let b := d.blot
    let d := { d with blot := { b with opened := rest, closed := b.closed ++ [{ x with waiting := true }] } }.showOpen
    if d.get F.EVT_STAT_UNREAD = 131072 then d.evtCount 5 else d

/-- BLOTTER_ENTRY_CLOSE. -/
def execBlotterEntryClose (s : State) : Res :=
  run .blotterEntryClose s fun d => if d.blot.stopped then d else d.closeEntry

/-- The record of an entry (R570). -/
def entryRecord (x : BlotEntry) (seq : Nat) : List Byte :=
  toLE seq 4 ++ toLE x.ev.source 2 ++ toLE x.ev.event 2 ++ toLE x.ev.inst 4 ++ toLE x.count 4 ++ toLE x.firstSec 6 ++
    toLE x.firstNs 4 ++ toLE x.last 4 ++ toLE (b2n (decide (1 < x.count)) + 4 * b2n (x.count == 2 ^ 32 - 1)) 2 ++
    toLE x.frame 8 ++ toLE x.ev.data 24

/-- The OVERFLOW record of a source (R574). -/
def lostRecord (src : Nat) (r : LostRec) (seq : Nat) : List Byte :=
  let n := min (2 ^ 32 - 1) r.count
  let sec := r.first / 1000000000
  let ns := r.first % 1000000000
  toLE seq 4 ++ toLE src 2 ++ toLE 0 2 ++ toLE 0 4 ++ toLE n 4 ++ toLE sec 6 ++ toLE ns 4 ++ toLE r.last 4 ++
    toLE (b2n (decide (1 < n)) + 2 + 4 * b2n (n == 2 ^ 32 - 1)) 2 ++ toLE ((sec * 8000 + ns / 125000) % 2 ^ 48) 8 ++ toLE 0 24

/-- A record is written at EVT_PROD (R575). -/
def Dev.putRecord (d : Dev) (l : Nat → List Byte) : Dev :=
  let p := d.get F.EVT_PROD_PROD
  let d := d.obsWrite (0x100000000 + 64 * p) (l (d.get F.EVT_PROD_SEQ))
  let u := d.get F.EVT_STAT_UNREAD + 1
  let d := ((d.set F.EVT_PROD_PROD ((p + 1) % 131072)).set F.EVT_PROD_SEQ (d.get F.EVT_PROD_SEQ + 1)).set F.EVT_STAT_UNREAD u
  let d := { d with blot := { d.blot with ages := d.blot.ages ++ [d.clk.cyc], lastAt := d.clk.cyc } }.evtCount 1
  if u = d.use F.EVT_CFG_IRQ_LEVEL then d.irqBlotter else d

/-- The writer writes one record (R573 to R575): the first closed entry, or with none an OVERFLOW record. -/
def Dev.writeRecord (d : Dev) : Dev :=
  if d.get F.EVT_STAT_UNREAD = 131072 then d
  else match d.blot.closed, d.blot.lost with
    | x :: rest, _ =>
      let d := d.reach (d.blot.lastAt + 64)
      ({ d with blot := { d.blot with closed := rest } }.showOpen).putRecord (entryRecord x)
    | [], (src, r) :: rest =>
      let d := d.reach (d.blot.lastAt + 64)
      ({ d with blot := { d.blot with lost := rest } }.putRecord (lostRecord src r)).evtCount 4
    | [], [] => d

/-- BLOTTER_WRITE. -/
def execBlotterWrite (s : State) : Res :=
  run .blotterWrite s fun d => if d.blot.stopped then d else d.writeRecord

/-- A write of EVT_CONS (R575, R580): one beyond PROD is refused. -/
def Dev.writeCons (d : Dev) (cons : Nat) : Dev :=
  let n := modSub cons (d.get F.EVT_CONS_CONS) 131072
  let u := d.get F.EVT_STAT_UNREAD
  if u < n then d.flag F.EVT_STAT_REFUSED
  else
    let d := (d.set F.EVT_CONS_CONS cons).set F.EVT_STAT_UNREAD (u - n)
    { d with blot := { d.blot with ages := d.blot.ages.drop n } }

/-- EVT_CONS_WRITE. -/
def execEvtConsWrite (cons : Fin 131072) (s : State) : Res :=
  run (.evtConsWrite cons) s fun d => d.hostW fun d => d.writeCons cons

/-- BLOTTER_IRQ_AGE (R575): the oldest unconsumed record grows older than IRQ_AGE_US. -/
def execBlotterIrqAge (s : State) : Res :=
  run .blotterIrqAge s fun d =>
    match d.blot.ages with
    | [] => d
    | a :: _ =>
      if d.blot.stopped || d.on F.HST_IRQSTAT_BLOTTER then d
      else (d.reach (a + d.use F.EVT_CFG_IRQ_AGE_US * 1500 + 1)).irqBlotter

/-! ### Interrupts and the link (R552, R555, R568) -/

/-- A vector is masked. -/
def Dev.msiMasked (d : Dev) (v : Nat) : Bool :=
  if v < 2 then bit (d.get F.HST_IRQMASK_MASK) v else bit (d.get F.HST_RINGMASK_MASK) (v - 2)

/-- MSI_SEND (R568): the message that is owed on vector `v` is sent, IRQ_MOD_US after the vector's last at the earliest. -/
def execMsiSend (v : Fin 66) (s : State) : Res :=
  run (.msiSend v) s fun d =>
    if d.host.linkUp && d.host.msiOwed.contains v.val && !d.msiMasked v then
      let d := match Tbl.find? d.host.msiLast v with
        | some t => d.reach (t + d.use F.HST_CFG_IRQ_MOD_US * 1500)
        | none => d
      let h := { d.host with
        msiOwed := d.host.msiOwed.filter fun x => x != v.val
        msiLast := Tbl.set d.host.msiLast v d.clk.cyc }
      { d with host := h }.bump F.HST_CNT_COUNT 4
    else d

/-- MAILBOX_COMMAND (R552): Identify Memory Device (0x4000) and Get Health Info (0x4200) are answered, every other command is
Unsupported (log entry 27). -/
def execMailboxCommand (op : Fin 65536) (s : State) : Res :=
  run (.mailboxCommand op) s fun d =>
    if d.host.linkUp then
      { d with host := { d.host with mailbox := if op.val = 0x4000 ∨ op.val = 0x4200 then 1 else 2 } }
    else d

/-- May the host write `n` bytes at offset `a` (R555)? -/
def hostMayWrite (a n : Nat) : Bool :=
  let r := a - 0x100800000
  (decide (0x100800000 ≤ a) && decide (r < 0x1000000) && decide (0x1000 ≤ r % 0x40000) &&
    decide (r % 0x40000 + n ≤ 0x21000)) || (decide (0x110000000 ≤ a) && decide (a + n ≤ 0x150000000))

/-- HOST_MEMORY_WRITE (R365, R555): the write enters the write buffer, or is discarded. -/
def execHostMemoryWrite (off : Fin (2 ^ 33)) (bytes : List Byte) (s : State) : Res :=
  run (.hostMemoryWrite off bytes) s fun d =>
    if !d.host.linkUp then d
    else if hostMayWrite off bytes.length then d.memWrite 4 off bytes
    else d.bump F.HST_CNT_COUNT 5

end Sys2Proof.Machine
end

