-- ==== Sys2Proof/Machine/Observe.lean ====
section
/-!
DEFINITION. Counters, sampling and performance monitoring (R581 to R599).
-/

namespace Sys2Proof.Machine

/-! ### Counter sheets (R583 to R585) -/

/-- The 64-bit values of consecutive registers of an array, little-endian. -/
def Dev.regRow (d : Dev) (r : Reg) (i n : Nat) : List Byte := (List.range n).flatMap fun j => toLE (d.getReg r i j) 8

/-- The addresses of every instance of a register. -/
def Reg.addrs (r : Reg) : List Nat :=
  (List.range r.n1).flatMap fun i => (List.range r.n2).map fun j => r.addr + i * r.s1 + j * r.s2

/-- The registers of the global section (R583). -/
def sheetGlobal : List Reg :=
  [RegOf.GLB_D2DREPLAY, RegOf.GLB_D2DUNCOR, RegOf.BOOT_CNT, RegOf.PWR_CNT, RegOf.QUL_CNT, RegOf.QUL_ALMCNT,
   RegOf.TIM_TRIG_STAT, RegOf.TIM_CNT, RegOf.STL_CNT, RegOf.EVT_CNT, RegOf.PMU_GCNT, RegOf.HST_ALERTCNT, RegOf.HST_CNT,
   RegOf.HST_RINGCNT, RegOf.PAR_CNT, RegOf.FWD_CNT, RegOf.BUF_CNT, RegOf.MEM_QOSCNT, RegOf.MEM_CNT, RegOf.CRY_GCNT]

/-- The global section: the registers in ascending BAR0 offset. -/
def Dev.globalSection (d : Dev) : List Byte :=
  (sortBy id (sheetGlobal.flatMap Reg.addrs)).flatMap fun a => match findReg a sheetGlobal with
    | some (r, i, j) => toLE (d.getReg r i j) 8
    | none => toLE 0 8

/-- A section of `n` instances `stride` bytes apart: (offset, bytes). -/
def section_ (base stride n : Nat) (row : Nat → List Byte) : List (Nat × List Byte) :=
  (List.range n).map fun i => (base + i * stride, row i)

/-- Every section of a generation but its header (R583). -/
def Dev.sheetSections (d : Dev) : List (Nat × List Byte) :=
  [(0x1000, d.globalSection)] ++
  section_ 0x2000 0x400 128 (fun c => d.regRow RegOf.TCH_RXCNT c 16 ++ d.regRow RegOf.TCH_TXCNT c 16 ++
    d.regRow RegOf.TCH_BRXCNT c 32 ++ d.regRow RegOf.TCH_LCCNT c 32 ++ d.regRow RegOf.TCH_TRMCNT c 16) ++
  section_ 0x22000 0x100 128 (fun c => d.regRow RegOf.GNT_CNT c 24) ++
  section_ 0x2A000 0x100 128 (fun c => d.regRow RegOf.TMG_CHCNT c 32) ++
  section_ 0x32000 0x40 128 (fun p => d.regRow RegOf.TMG_EGCNT p 8) ++
  section_ 0x34000 0x80 264 (fun n => d.regRow RegOf.SLN_CNT n 16) ++
  section_ 0x40000 0x400 128 (fun p => d.regRow RegOf.UPL_CNT p 64 ++ d.regRow RegOf.UPL_LANECNT p 8) ++
  section_ 0x60000 0x80 1024 (fun i => d.regRow RegOf.CIR_CNT i 16) ++
  section_ 0x80000 0x80 128 (fun c => d.regRow RegOf.CRY_CNT c 16) ++
  section_ 0x84000 0x80 128 (fun s => d.regRow RegOf.SCR_CNT s 16) ++
  section_ 0x88000 8 512 (fun k => toLE (d.getReg RegOf.PMU_BW k 0) 8) ++
  section_ 0x89000 0x48 22 (fun b => toLE (d.getReg RegOf.PMU_CYC b 0) 8 ++ d.regRow RegOf.PMU_PCNT b 8)

/-- The generation header, with its SEAL (R584). -/
def Dev.sheetHeader (d : Dev) (period : Nat) (final : Bool) (mark : Nat) : List Byte :=
  let fl := b2n d.pmu.restart + 2 * b2n d.pmu.gap + 4 * b2n final
  toLE d.pmu.epoch 8 ++ toLE d.clk.sec 6 ++ toLE d.clk.ns 4 ++ toLE d.frameNow 6 ++ toLE period 4 ++ toLE fl 4 ++
    toLE 0 24 ++ toLE mark 8

/-- Write one generation (R583 to R585): the header without its seal, the sections as they were latched, and the seal; a
generation that cannot be written whole is left unsealed. Bytes that no section uses are never written. -/
def Dev.writeSheet (d : Dev) (final : Bool) : Dev :=
  let period := d.use F.PMU_SHEETCFG_PERIOD_US
  let e := d.pmu.epoch
  let a := e % 1024 * 0x100000
  let whole := (List.range 16384).all fun k => d.memUsable (a + 64 * k)
  let rows := d.sheetSections
  let hdr := d.sheetHeader period final 0
  let d := d.obsWrite a hdr
  let d := rows.foldl (fun d r => d.obsWrite (a + r.1) r.2) d
  let d := d.bump F.PMU_GCNT_COUNT 0
  let d := if whole then (d.obsWrite (a + 56) (toLE e 8)).set F.PMU_SHEETSTAT_LAST e else d.flag F.PMU_STAT_UNSEALED
  { d with pmu := { d.pmu with epoch := e + 1, lastT := d.nowNs, restart := false, gap := !whole } }

/-- COUNTER_SHEET (R583): time runs to the next multiple of PERIOD_US. -/
def execCounterSheet (s : State) : Res :=
  run .counterSheet s fun d =>
    if d.booted && d.mode != 4 && d.useB F.PMU_SHEETCFG_EN then
      let p := d.use F.PMU_SHEETCFG_PERIOD_US * 1000
      let d := d.runTo (cdiv d.nowNs p * p)
      let d := if d.pmu.lastT = d.nowNs then d.runTo (d.nowNs + p) else d
      d.writeSheet false
    else d

/-! ### Counters and windows (R581, R587, R588) -/

/-- HALF_RANGE (R581, R582): the statistics counter at `a` holds 2^39 − 1 and counts once more. -/
def execHalfRange (a : Fin (2 ^ 26)) (s : State) : Res :=
  run (.halfRange a) s fun d =>
    match findReg a allRegs with
    | some (r, i, j) =>
      if r.fields.length = 1 ∧ (r.fields.all fun f => f.w == 40 && f.acc == .ro && f.lo == 0) ∧
          d.getReg r i j = 2 ^ 39 - 1 then d.bumpAt a i 1
      else d
    | none => d

/-- A bandwidth window ends, WIN_NS after it began (R588, R589). -/
def Dev.bwWindow (d : Dev) : Dev :=
  let d := d.reach (d.pmu.winStart + cdiv (d.pmu.winNs * 3) 2)
  let n := max 1 d.pmu.winNs
  let d := foldUpTo 512 (fun k e =>
    let o := Tbl.get 0 e.pmu.oct k % 2 ^ 40
    (e.set F.PMU_BW_OCTETS o k).set F.PMU_BW_MBPS (o * 8000 / n) k) d
  let d := (d.set F.PMU_BWSTAMP_STAMP d.stamp).set F.PMU_BWSTAMP_WINDOWS (d.get F.PMU_BWSTAMP_WINDOWS + 1)
  { d with pmu := { d.pmu with oct := [], winStart := d.clk.cyc, winNs := d.use F.PMU_BWCFG_WIN_NS } }

/-- BW_WINDOW: windows run from boot lock. -/
def execBwWindow (s : State) : Res :=
  run .bwWindow s fun d => if d.on F.BOOT_STAT_LOCKED && d.mode != 4 then d.bwWindow else d

/-- Every programmable counter is zeroed (R593). -/
def Dev.pmuClear (d : Dev) : Dev :=
  foldUpTo 22 (fun b e => foldUpTo 8 (fun i e => (e.set F.PMU_PCNT_COUNT 0 b i).set F.PMU_PCNT_WRAPS 0 b i) e) d

/-- PMU_CLEAR: CLEAR of PMU_GCTL is written. -/
def execPmuClear (s : State) : Res := run .pmuClear s fun d => d.hostW fun d => d.pmuClear

/-- A write of PMU_CTL (R598): refused where OFFSET is no multiple of 8 or lies beyond the block. -/
def Dev.writePmuCtl (d : Dev) (b i v : Nat) : Dev :=
  let o := written F.PMU_CTL_OFFSET v
  if o % 8 ≠ 0 ∨ (blockRange.getD b (0, 0)).2 ≤ o then d.flag F.PMU_STAT_REFUSED
  else d.store RegOf.PMU_CTL b i v

end Sys2Proof.Machine
end

