-- ==== Sys2Proof/Machine/Fabric.lean ====
section
/-!
DEFINITION. The package's inside: quads and their moves (R19 to R22), and the fold controller (R524 to R526).
-/

namespace Sys2Proof.Machine

/-! ### Fold pairs (R524, R525) -/

/-- The home quads of the odd pipeline of pair `i`: pairs 0–3 fold D pipelines, 4–7 U pipelines. -/
def pairQuads (i : Nat) : List Nat := (List.range 4).map fun n => 8 * i + 4 + n

/-- The pipeline numbers, within their letter, of the even and the odd pipeline of pair `i`. -/
def pairEven (i : Nat) : Nat := 2 * (i % 4)

/-- The state of pair `i`. -/
def Dev.pairSt (d : Dev) (i : Nat) : Nat := Tbl.get 0 d.fab.pairs i

/-- Set the state of pair `i`. -/
def Dev.setPair (d : Dev) (i st : Nat) : Dev := { d with fab := { d.fab with pairs := Tbl.set d.fab.pairs i st } }

/-- Moves of quads are due at the next frame boundary. -/
def Dev.moveQuads (d : Dev) (l : List Nat) (target : Nat) : Dev :=
  l.foldl (fun d q => { d with fab := { d.fab with due := Tbl.set d.fab.due q target } }) d

/-- Bit of the odd pipeline of pair `i` in PARKED (R535). -/
def Dev.park (d : Dev) (i : Nat) (v : Bool) : Dev :=
  d.set F.PWR_STAT_PARKED (setBits (d.get F.PWR_STAT_PARKED) (2 * i + 1) 1 (b2n v))

/-- Pair `i` folds at the next frame boundary. -/
def Dev.foldPair (d : Dev) (i : Nat) : Dev := (d.moveQuads (pairQuads i) (pairEven i)).setPair i 1

/-- Pair `i` unfolds: its odd pipeline's domain is started. -/
def Dev.wakePair (d : Dev) (i : Nat) : Dev := d.setPair i 3

/-- FOLD_ALL is raised (R520): every open pair folds. -/
def Dev.foldAll (d : Dev) : Dev :=
  foldUpTo 8 (fun i d => if d.pairSt i = 0 ∧ Tbl.get 0 d.fab.wait i = 0 then d.foldPair i else d) d

/-- UNFOLD is raised (R520): every parked pipeline wakes, unless FOLD_ALL is raised too (R521). -/
def Dev.unfoldAll (d : Dev) : Dev :=
  if d.on F.PWR_STAT_FORCED then d else foldUpTo 8 (fun i d => if d.pairSt i = 2 then d.wakePair i else d) d

/-- A pair whose quads have all come to rest settles: folded and parked, unfolded, or back after an abandoned move and
waiting FOLD_HOLD windows. -/
def Dev.settlePair (d : Dev) (i : Nat) : Dev :=
  let qs := pairQuads i
  if qs.any fun q => (Tbl.find? d.fab.moves q).isSome || (Tbl.find? d.fab.due q).isSome then d
  else
    let away := qs.filter fun q => d.get F.GLB_QUADMAP_PIPE q == pairEven i
    match d.pairSt i with
    | 1 => ((d.setPair i 2).park i true).bump F.PWR_CNT_COUNT 0
    | 4 => if away.isEmpty then (d.setPair i 0).bump F.PWR_CNT_COUNT 1 else d.moveQuads away (pairEven i + 1)
    | 5 =>
      if away.isEmpty then
        let d := d.setPair i 0
        { d with fab := { d.fab with wait := Tbl.set d.fab.wait i (d.use F.PWR_FOLDCFG_FOLD_HOLD) } }
      else d.moveQuads away (pairEven i + 1)
    | _ => d

/-- The load of pipelines `ps` in the present window, in bits and packets. -/
def Dev.loadOf (d : Dev) (ps : List Nat) : Nat × Nat :=
  ps.foldl (fun a p => (a.1 + Tbl.get 0 d.fab.load (2 * p), a.2 + Tbl.get 0 d.fab.load (2 * p + 1))) (0, 0)

/-- Is a load below, or above, `pct` percent of 3.072 Tbit/s and 3 Gpps over a window of `us`? -/
def loadBelow (x : Nat × Nat) (pct us : Nat) : Bool :=
  decide (x.1 * 100 < pct * 3072000 * us) && decide (x.2 * 100 < pct * 3000 * us)

/-- Does a load exceed `pct` percent of either figure? -/
def loadAbove (x : Nat × Nat) (pct us : Nat) : Bool :=
  decide (pct * 3072000 * us < x.1 * 100) || decide (pct * 3000 * us < x.2 * 100)

/-- The fold controller judges pair `i` at a window's end (R525). -/
def Dev.judgePair (us : Nat) (i : Nat) (d : Dev) : Dev :=
  let forced := d.on F.PWR_STAT_FORCED
  let heldOpen := d.on F.PWR_STAT_HELD && !forced
  match d.pairSt i with
  | 0 =>
    let w := Tbl.get 0 d.fab.wait i
    let below := loadBelow (d.loadOf [2 * i, 2 * i + 1]) (d.use F.PWR_FOLDCFG_FOLD_PCT) us
    let q := if below then Tbl.get 0 d.fab.quiet i + 1 else 0
    let d := { d with fab := { d.fab with wait := Tbl.set d.fab.wait i (w - 1), quiet := Tbl.set d.fab.quiet i q } }
    if 0 < w then d
    else if forced || (d.useB F.PWR_FOLDCFG_FOLD_EN && !heldOpen && decide (d.use F.PWR_FOLDCFG_FOLD_HOLD ≤ q)) then
      { d.foldPair i with fab := { (d.foldPair i).fab with quiet := Tbl.set d.fab.quiet i 0 } }
    else d
  | 2 =>
    if heldOpen || (!forced && loadAbove (d.loadOf [2 * i]) (d.use F.PWR_FOLDCFG_UNFOLD_PCT) us) then d.wakePair i else d
  | _ => d

/-- A window of WIN_US ends (R525, R535). -/
def Dev.foldWindow (d : Dev) : Dev :=
  let us := max 1 d.fab.winUs
  let d := d.reach (d.fab.winAt + us * 1500)
  let d := foldUpTo 16 (fun p d =>
    let x := d.loadOf [p]
    (d.set F.PWR_LOAD_BITS (min 255 (x.1 * 100 / (3072000 * us))) p).set F.PWR_LOAD_PKTS
      (min 255 (x.2 * 100 / (3000 * us))) p) d
  let d := foldUpTo 8 (Dev.judgePair us) d
  let d := d.release RegOf.PWR_FOLDCFG 0 0
  { d with fab := { d.fab with load := [], winAt := d.clk.cyc, winUs := d.use F.PWR_FOLDCFG_WIN_US } }

/-- FOLD_WINDOW. -/
def execFoldWindow (s : State) : Res :=
  run .foldWindow s fun d => if d.booted && d.mode != 4 then d.foldWindow else d

/-- UNFOLD_LOCKED (R525): the odd pipeline's domain has locked, at most 20 µs after its start request (R29), and its home
quads move back at the next frame boundary. -/
def execUnfoldLocked (p : Fin 8) (s : State) : Res :=
  run (.unfoldLocked p) s fun d =>
    if d.pairSt p = 3 then
      let w := d.draw 30001
      (((w.1.runCycles w.2).park p false).moveQuads (pairQuads p) (pairEven p + 1)).setPair p 4
    else d

/-! ### Moves of quads (R21) -/

/-- The quads that move with quad `q` (R20): both quads of an 800GbE port. -/
def Dev.portQuads (d : Dev) (q : Nat) : List Nat :=
  if q < 32 ∧ d.use F.UPL_QUADCFG_MODE q = 3 then [q / 2 * 2, q / 2 * 2 + 1] else [q]

/-- Packets of quad `q` that its pipeline has not completed, or that are on their way to it. -/
def Dev.quadPending (d : Dev) (q : Nat) : Bool :=
  !(d.onWay q).isEmpty || (Tbl.get [] d.fab.inq (d.pipeOf q)).any fun p => p.quad == q

/-- The traffic held for quad `q` is released to the pipeline that serves it now. -/
def Dev.releaseHeld (d : Dev) (q : Nat) : Dev :=
  (Tbl.get [] d.fab.held q).foldl Dev.leaveEdge { d with fab := { d.fab with held := Tbl.erase d.fab.held q } }

/-- Quad `q` starts to drain, if its move is due. -/
def Dev.startMove (d : Dev) (q : Nat) : Dev :=
  match Tbl.find? d.fab.due q with
  | none => d
  | some t =>
    let m : QuadMove := { target := t, started := d.clk.cyc }
    { d with fab := { d.fab with due := Tbl.erase d.fab.due q, moves := Tbl.set d.fab.moves q m } }.set
      F.GLB_QUADMAP_DRAINING 1 q

/-- The quads of a port start to drain together at a frame boundary. -/
def Dev.quadMove (d : Dev) (q : Nat) : Dev :=
  if (Tbl.find? d.fab.due q).isSome then (d.portQuads q).foldl Dev.startMove d.toFrame else d

/-- QUAD_MOVE. -/
def execQuadMove (q : Fin 64) (s : State) : Res := run (.quadMove q) s fun d => d.quadMove q

/-- The move of quad `q` completes: the new pipeline takes what was held. -/
def Dev.endMove (d : Dev) (q : Nat) : Dev :=
  match Tbl.find? d.fab.moves q with
  | none => d
  | some m =>
    let d := { d with fab := { d.fab with moves := Tbl.erase d.fab.moves q } }
    let d := ((d.set F.GLB_QUADMAP_PIPE m.target q).set F.GLB_QUADMAP_DRAINING 0 q).bumpIn F.GLB_QUADMAP_MOVES q
    d.releaseHeld q

/-- The old pipeline has completed the quads of `q`'s port within 2 µs. -/
def Dev.quadDrained (d : Dev) (q : Nat) : Dev :=
  match Tbl.find? d.fab.moves q with
  | none => d
  | some m =>
    if (d.portQuads q).any d.quadPending ∨ m.started + 3000 < d.clk.cyc then d
    else ((d.portQuads q).foldl Dev.endMove d).settlePair (q / 8)

/-- QUAD_DRAIN_END. -/
def execQuadDrainEnd (q : Fin 64) (s : State) : Res := run (.quadDrainEnd q) s fun d => d.quadDrained q

/-- The move of quad `q` is abandoned: it stays, and takes what was held. -/
def Dev.abandonMove (d : Dev) (q : Nat) : Dev :=
  match Tbl.find? d.fab.moves q with
  | none => d
  | some _ =>
    let d := { d with fab := { d.fab with moves := Tbl.erase d.fab.moves q } }
    (((d.set F.GLB_QUADMAP_DRAINING 0 q).flag F.GLB_QUADMAP_ABANDONED q).flag F.PWR_STAT_ABANDON).releaseHeld q

/-- The drain of quad `q`'s port has not finished in 2 µs: its quads stay, and a pair that was folding goes back. -/
def Dev.quadAbandoned (d : Dev) (q : Nat) : Dev :=
  match Tbl.find? d.fab.moves q with
  | none => d
  | some m =>
    let d := d.reach (m.started + 3000)
    if (d.portQuads q).any d.quadPending then
      let d := (d.portQuads q).foldl Dev.abandonMove d
      let i := q / 8
      let d := if d.pairSt i = 1 then
          let e := d.setPair i 5
          { e with fab := { e.fab with due := Tbl.keep (fun x _ => decide (x / 8 ≠ i)) e.fab.due } }
        else d
      d.settlePair i
    else d

/-- QUAD_MOVE_ABANDONED. -/
def execQuadMoveAbandoned (q : Fin 64) (s : State) : Res := run (.quadMoveAbandoned q) s fun d => d.quadAbandoned q

end Sys2Proof.Machine
end

