-- ==== Sys2Proof/Machine/Pair.lean ====
section
/-!
DEFINITION. What the stitch link and the mode arbiter share (R31 to R40, R462 to R481): messages to the partner, the
change of mode, the tree squelch, entering STANDBY, and taking over.
-/

namespace Sys2Proof.Machine

/-! ### Roles -/

/-- The device is solo (R470). -/
def Dev.solo (d : Dev) : Bool := d.get F.STL_STAT_ROLE == 2

/-- A counter of R488. -/
def Dev.stlCount (d : Dev) (k : Nat) : Dev := d.bump F.STL_CNT_COUNT k

/-- A flag of STL_STAT that is a condition of the alert register (R569). -/
def Dev.stlAlarm (d : Dev) (f : Fld) : Dev := ((d.flag f).alert 4).alertActive 4 true

/-- Set ROLE (R486). -/
def Dev.toRole (d : Dev) (r : Nat) : Dev := d.set F.STL_STAT_ROLE r

/-- Show the lease end, E or E_s (R486). -/
def Dev.showLease (d : Dev) : Dev :=
  d.set F.STL_STAT_LEASE_END ((if d.mode = 3 then d.stl.promise else d.stl.lease) % 2 ^ 24)

/-- The channels that the pair serves. -/
def Dev.pairChannels (d : Dev) : List Nat := (List.range 128).filter fun c => d.enabled c

/-- Show READY (R473). -/
def Dev.showReady (d : Dev) : Dev :=
  let r := d.mode == 3 && d.on F.STL_STAT_SYNCED && d.get F.TIM_STAT_STATE == 2 &&
    d.pairChannels.all fun c => d.get F.STL_CHSTAT_DSTATE c == 2
  d.set F.STL_STAT_READY (b2n r)

/-! ### HELLO -/

/-- The body of HELLO. -/
def Dev.helloBody (d : Dev) : List Byte :=
  toBE (d.get F.STL_CFG_SIDE) 1 ++ toBE d.mode 1 ++ toBE (d.get F.TCH_FRMID_HEAD_EPOCH 0) 2 ++ toBE d.stl.pairId 16 ++
    toBE d.stl.digest 16

/-- Send HELLO: at link-up, and when the mode changes, since the partner judges by it (R463, R478; DEDUCED). -/
def Dev.sendHello (d : Dev) : Dev := d.stSend 0x01 d.helloBody

/-! ### Mode changes (R33, R36) -/

/-- The block address of the mode registers. -/
def glbMode : Nat := 0x10

/-- The MODE event (R572). -/
def Dev.modeEvent (d : Dev) (old new cause : Nat) : Dev := d.event glbMode 0x0003 0 (old + 256 * new + 65536 * cause)

/-- A transition completes (R33). -/
def Dev.toMode (d : Dev) (target cause : Nat) : Dev :=
  let old := d.mode
  let d := ((d.set F.GLB_MODE_CURRENT target).set F.GLB_MODE_TRANSITION 0).set F.GLB_MODE_TARGET 0
  ((d.set F.GLB_MODE_LAST_CAUSE cause).bumpIn F.GLB_MODE_TRANSITIONS).modeEvent old target cause

/-- A transition begins (R33, R36). -/
def Dev.beginTrans (d : Dev) (t : Trans) : Dev :=
  ({ d with arb := { d.arb with trans := some t } }.set F.GLB_MODE_TRANSITION 1).set F.GLB_MODE_TARGET t.target

/-- The command of a transition completes. -/
def Dev.endTrans (d : Dev) (status : Nat) : Dev :=
  match d.arb.trans with
  | none => d
  | some t =>
    let d := { d with arb := { d.arb with trans := none } }
    match t.cmd with
    | some (ring, tag, op) => d.endCmd ring tag op status
    | none => d

/-- TRIGGER_DROPPED (R36, R572). -/
def Dev.dropTrigger (d : Dev) (cause : Nat) : Dev := d.event glbMode 0x0004 0 cause

/-- Squelch every tree lane (R37). -/
def Dev.squelch (d : Dev) : Dev := { d with arb := { d.arb with squelch := true, startAt := none } }

/-- The device enters STANDBY (R35): it holds no lease, is not SYNCED, and awaits a bulk copy (R484). -/
def Dev.enterStandby (d : Dev) (cause : Nat) : Dev :=
  let stl := { d.stl with
    heard := none, copy := 1, recs := [], apply := [], wasActive := true, waiting := false, alone := none, begun := none,
    found := [], bulkBy := none }
  let d := { d.squelch with stl := stl, lines := { d.lines with shadow := [] } }
  let d := ((d.set F.STL_STAT_SYNCED 0).set F.STL_STAT_LEASE 0).set F.STL_STAT_READY 0
  let d := foldUpTo 128 (fun c e => e.set F.STL_CHSTAT_DSTATE 0 c) d
  ((d.toRole 3).toMode 3 cause).showLease.sendHello

/-! ### Releasing the lease (R40, R477) -/

/-- Send the delta of frame `f` and the COMMIT that closes it (R472, R473): the manual gives no layout of the records, so their
bytes and number are free (log entry 25). -/
def Dev.sendDelta (d : Dev) (f : Nat) : Dev :=
  let recs := Config.copyOut d.free
  let n := Config.freeValue d.free
  let d := { d with free := d.free + 1 }
  (d.stSend 0x06 (toBE f 6 ++ recs)).stSend 0x07 (toBE f 6 ++ toBE n 4 ++ toBE (crc32c recs) 4)

/-- The active device sends nothing from frame `p` on: it squelches, sends the last delta, its COMMIT and RELEASE, and
its lease ends. -/
def Dev.releaseLease (d : Dev) (p : Nat) : Dev :=
  let d := d.squelch.sendDelta (p - 1)
  let d := d.stSend 0x04 (toBE p 6)
  let arb := { d.arb with releaseAt := none }
  ({ d with arb := arb, stl := { d.stl with lease := p } }.set F.STL_STAT_LEASE 0).showLease

/-- The release due at boundary `p` (R40, R477): an active device with STANDBY as its target enters it with the cause of a
planned switch-over; one on its way to VIGIL or TEST goes on. -/
def Dev.runRelease (d : Dev) (p : Nat) : Dev :=
  let d := d.releaseLease p
  match d.arb.trans with
  | some t => if t.target = 3 then (d.enterStandby 2).endTrans 0 else d
  | none => d.enterStandby 2

/-! ### Taking over (R476, R478, R479) -/

/-- Meters full (R472). -/
def Dev.fullMeters (d : Dev) : Dev :=
  let t := d.tm.mst.map fun e =>
    let c := Tbl.get 0 d.tm.mcfg e.1
    let x := setRec (setRec e.2 0 6 (bits (recBytes c 8 4) 0 24 * 1000000)) 6 6 (bits (recBytes c 12 4) 0 24 * 1000000)
    (e.1, setRec x 12 4 d.stamp)
  { d with tm := { d.tm with mst := t } }

/-- Scheduler tags at V (R213, R472). -/
def Dev.tagsAtV (d : Dev) : Dev :=
  let ns := d.tm.nst.map fun e =>
    let c := nodeCh e.1
    (e.1, { e.2 with tagC := d.get F.TMG_CHVT_V_COM c, tagE := d.get F.TMG_CHVT_V_EXC c })
  let qs := d.tm.qst.map fun e =>
    (e.1, { e.2 with tag := Tbl.get e.2.tag d.tm.vprio (4 * d.qParent e.1 + d.qPrio e.1) })
  { d with tm := { d.tm with nst := ns, qst := qs } }

/-- The downstream queues of a new active device start empty (R479). -/
def Dev.emptyQueues (d : Dev) : Dev :=
  (d.tm.qst.map (·.1)).foldl (fun d q =>
    if q < 65536 ∧ (d.qst q).all ≠ [] then (d.emptyQueue q 0).1 else d) d

/-- HEAD_EPOCH rises, and every send counter takes its resume value (R419, R479), the broadcast counter modulo 2^48 (R65). -/
def Dev.raiseEpoch (d : Dev) : Dev :=
  let d := foldUpTo 128 (fun c e =>
    let e := e.set F.TCH_FRMID_HEAD_EPOCH (e.get F.TCH_FRMID_HEAD_EPOCH c + 1) c
    let s := e.scribe c
    e.setScribe c { s with bcast := resumeValue s.bcast % 2 ^ 48 }) d
  d.resumeSlots

/-- The device takes over in HEAD (R479): it transmits from frame `start`. -/
def Dev.takeOver (d : Dev) (cause role start : Nat) : Dev :=
  let d := (d.toMode 0 cause).raiseEpoch
  let d := (((d.cirTakeover).emptyQueues).fullMeters).tagsAtV
  let d := if d.get F.TIM_STAT_STATE = 3 then d else d.holdover
  let d := d.pairChannels.foldl (fun e c => e.addTodo c 128 .takeover) d
  let stl := { d.stl with
    lease := start, copy := 0, recs := [], apply := [], heard := none, begun := some start, found := [], wasActive := true,
    waiting := false, alone := none }
  let d := { d with stl := stl, arb := { d.arb with squelch := true, startAt := some start } }
  ((((d.set F.STL_STAT_SYNCED 0).set F.STL_STAT_READY 0).set F.STL_STAT_LEASE 0).toRole role).sendHello

/-- A frame boundary that a new active device waits for has come: it transmits (R477, R478). -/
def Dev.startTx (d : Dev) : Dev :=
  match d.arb.startAt with
  | some f => if f ≤ d.frameNow then { d with arb := { d.arb with squelch := false, startAt := none } } else d
  | none => d

end Sys2Proof.Machine
end

