-- ==== Sys2Proof/Machine/Modes.lean ====
section
/-!
DEFINITION. The mode arbiter and the transitions it runs (R31 to R40), and the commands that ask for one.
-/

namespace Sys2Proof.Machine

/-! ### The arbiter (R36) -/

/-- The frame counter of the first frame boundary after now. -/
def Dev.nextFrame (d : Dev) : Nat := d.frameNow + 1

/-- The first frame boundary at least one frame from now (R477). -/
def Dev.laterFrame (d : Dev) : Nat :=
  if d.nowNs % 125000 = 0 ∧ d.clk.frac = 0 then d.frameNow + 1 else d.frameNow + 2

/-- The rank of a trigger when several coincide (R36): Quill's "shut down" and the trip, planned switch-over, host command,
and a wake, which comes in VIGIL only. -/
def Trig_.rank : Trig_ → Nat
  | .shutdown | .trip => 0
  | .release | .switchOver _ => 3
  | .setMode .. => 4
  | .wake => 5

/-- The cause of a trigger (R34). -/
def Trig_.cause : Trig_ → Nat
  | .shutdown | .release => 5
  | .trip => 7
  | .switchOver _ => 2
  | .setMode .. => 1
  | .wake => 6

/-- The first of the triggers with the least rank. -/
def firstTrig : List Trig_ → Option Trig_
  | [] => none
  | x :: r => match firstTrig r with
    | none => some x
    | some y => if y.rank < x.rank then some y else some x

/-- A command (ring, tag, opcode) ends with STATE_REFUSED. -/
def Dev.refuseCmd (d : Dev) (ring tag op : Nat) : Dev := d.endCmd ring tag op 0x01

/-- A trigger is not taken: its command ends refused. -/
def Dev.refuseTrig (d : Dev) : Trig_ → Dev
  | .switchOver (some (ring, tag)) => d.refuseCmd ring tag 0x0041
  | .setMode _ ring tag => d.refuseCmd ring tag 0x0040
  | _ => d

/-- An action of Quill that cannot act (R520). -/
def Dev.actionVoid (d : Dev) : Dev := d.bump F.QUL_CNT_COUNT 7

/-- The transition in progress is preempted (R36): its command waits for the entry into VIGIL to end. -/
def Dev.preempt (d : Dev) : Dev :=
  match d.arb.trans with
  | none => d
  | some t =>
    let r := match t.cmd with
      | some x => d.arb.refused ++ [x]
      | none => d.arb.refused
    { d with arb := { d.arb with trans := none, refused := r } }

/-- A standby resigns (R467, R470). -/
def Dev.resign (d : Dev) (cause : Nat) : Dev :=
  if d.standby then { d with stl := { d.stl with resigned := cause } }.stSend 0x05 (toBE cause 1) else d

/-- The entry into VIGIL is decided (R38): an active device with a partner releases its lease at the next boundary (R40). -/
def Dev.decideVigil (d : Dev) (cause : Nat) (cmd : Option (Nat × Nat × Nat)) : Dev :=
  let d := d.resign (if cause = 5 then 1 else 3)
  let d := d.beginTrans { cause := cause, target := 4, cmd := cmd }
  let p := if d.active ∧ !d.solo then some d.nextFrame else none
  { d with arb := { d.arb with vigilStage := 1, releaseAt := p } }

/-- The entry into TEST is decided (R35). -/
def Dev.decideTest (d : Dev) (ring tag : Nat) : Dev :=
  let d := d.resign 2
  let d := d.beginTrans { cause := 1, target := 5, cmd := some (ring, tag, 0x0040) }
  if d.active ∧ !d.solo then { d with arb := { d.arb with releaseAt := some d.nextFrame } } else d

/-- An active device of a pair whose partner is READY (R36, R40). -/
def Dev.partnerReady (d : Dev) : Bool := d.stitchUp && d.on F.STL_STAT_PARTNER_READY

/-- Has a hand-back run within HANDBACK_HOLD_MS (R477)? -/
def Dev.handbackHeld (d : Dev) : Bool :=
  match d.stl.handback with
  | some t => decide (d.clk.cyc < t + d.use F.STL_CFG_HANDBACK_HOLD_MS * 1500000)
  | none => false

/-- A planned switch-over is decided (R477): boundary P is at least one frame ahead. -/
def Dev.decideSwitch (d : Dev) (p : Nat) (cmd : Option (Nat × Nat × Nat)) : Dev :=
  let d := d.beginTrans { cause := 2, target := 3, cmd := cmd }
  { d with arb := { d.arb with releaseAt := some p } }

/-- SHUTDOWN or a thermal trip (R36, R522). It preempts a wake too: before WAKE the device stays in VIGIL, and after it the boot
under way ends, with PHASE 0, and the entry into VIGIL runs (DESIGN CHOICE, log entry 184). -/
def Dev.takeShutdown (d : Dev) (x : Trig_) : Dev :=
  let entering := d.arb.trans.any fun t => t.target == 4
  let waking := d.arb.trans.any fun t => t.cause == 6
  if entering || (d.mode == 4 && !waking) then (if x = .trip then d else d.actionVoid)
  else if d.mode = 4 then
    let d := if x = .trip then d else d.bump F.QUL_CNT_COUNT 9
    let d := { d.preempt with quill := { d.quill with bySelf := true } }
    (d.set F.GLB_MODE_TRANSITION 0).set F.GLB_MODE_TARGET 0
  else
    let d := if x = .trip then d else d.bump F.QUL_CNT_COUNT 9
    let d := { d.preempt with quill := { d.quill with bySelf := true } }
    let d := if waking then d.set F.BOOT_STAT_PHASE 0 else d
    d.decideVigil x.cause none

/-- SET_MODE to VIGIL or TEST (R35, R36, R40). -/
def Dev.takeSetMode (d : Dev) (m ring tag : Nat) : Dev :=
  if d.arb.trans.isSome ∨ 3 < d.mode ∨ (d.active ∧ !d.solo ∧ !d.partnerReady) then d.refuseCmd ring tag 0x0040
  else if m = 4 then
    { d with quill := { d.quill with bySelf := false } }.decideVigil 1 (some (ring, tag, 0x0040))
  else d.decideTest ring tag

/-- A planned switch-over (R477). -/
def Dev.takeSwitch (d : Dev) (cmd : Option (Nat × Nat)) : Dev :=
  let x : Trig_ := .switchOver cmd
  if d.arb.trans.isSome ∨ !d.active ∨ d.solo ∨ !d.partnerReady then d.refuseTrig x
  else d.decideSwitch d.laterFrame (cmd.map fun e => (e.1, e.2, 0x0041))

/-- Quill's "release lease" (R40, R520). -/
def Dev.takeRelease (d : Dev) : Dev :=
  if d.arb.trans.isSome ∨ !d.active ∨ d.solo ∨ !d.partnerReady then d.actionVoid
  else d.decideSwitch d.nextFrame none

/-- Quill's "wake" (R520, R527). -/
def Dev.takeWake (d : Dev) : Dev :=
  if d.mode = 4 ∧ d.arb.trans.isNone then d.beginTrans { cause := 6, target := d.get F.GLB_MODE_BOOT_MODE, cmd := none }
  else d.actionVoid

/-- The arbiter takes the trigger that wins. -/
def Dev.takeTrig (d : Dev) (x : Trig_) : Dev :=
  match x with
  | .shutdown => d.takeShutdown x
  | .trip => d.takeShutdown x
  | .release => d.takeRelease
  | .switchOver cmd => d.takeSwitch cmd
  | .setMode m ring tag => d.takeSetMode m ring tag
  | .wake => d.takeWake

/-- Every trigger of this cycle is dropped for one that goes before them, each with an event (R36). -/
def Dev.dropAsked (d : Dev) : Dev :=
  let rest := d.arb.asked
  rest.foldl (fun d y => (d.dropTrigger y.cause).refuseTrig y) { d with arb := { d.arb with asked := [] } }

/-- Triggers that coincide are taken in the order of R36; the others are dropped, each with an event. -/
def Dev.arbitrate (d : Dev) : Dev :=
  match firstTrig d.arb.asked with
  | none => d
  | some x =>
    let rest := d.arb.asked.erase x
    let d := { d with arb := { d.arb with asked := [] } }.takeTrig x
    { d with arb := { d.arb with asked := rest } }.dropAsked

/-- A trigger is posted to the arbiter. -/
def Dev.askTrig (d : Dev) (x : Trig_) : Dev := { d with arb := { d.arb with asked := d.arb.asked ++ [x] } }

/-- A "shut down" is among the triggers of this cycle. -/
def Dev.shutdownAsked (d : Dev) : Bool := d.arb.asked.any fun x => x.rank == 0

/-- The arbiter takes triggers once the device has booted, in VIGIL, and during a warm boot, which is a transition. -/
def Dev.arbiterRuns (d : Dev) : Bool := d.booted || d.mode == 4 || d.arb.trans.isSome

/-- MODE_TRIGGER. -/
def execModeTrigger (s : State) : Res := run .modeTrigger s fun d => if d.arbiterRuns then d.arbitrate else d

/-! ### The host's commands (R36, R477, R564) -/

/-- SET_MODE: the mode it names is 4 or 5; another mode is a transition absent from R35, and what names no mode is out of range
(R36, R563; DEDUCED, log entry 185). -/
def execSetMode (ring : RingNo) (s : State) : Res :=
  run (.setMode ring) s fun d => d.command ring 0x0040 fun t d =>
    let m := le t.args 0 1
    if m = 4 ∨ m = 5 then ((d.keepRunning ring t).askTrig (.setMode m ring t.tag)).arbitrate
    else d.endCmd ring t.tag 0x0040 (if m < 4 then 0x01 else 0x03)

/-- SWITCH_OVER: on the active device a trigger, on a standby that is READY forwarded to the active device. -/
def execSwitchOver (ring : RingNo) (s : State) : Res :=
  run (.switchOver ring) s fun d => d.command ring 0x0041 fun t d =>
    let held := d.handbackHeld
    if d.standby then
      if held ∨ d.arb.trans.isSome ∨ d.stl.forwarded.isSome ∨ !d.stitchUp ∨ !d.on F.STL_STAT_READY then
        d.endCmd ring t.tag 0x0041 0x01
      else
        let d := d.keepRunning ring t
        { d with stl := { d.stl with forwarded := some (ring.val, t.tag) } }
    else if held ∨ !d.active then d.endCmd ring t.tag 0x0041 0x01
    else ((d.keepRunning ring t).askTrig (.switchOver (some (ring.val, t.tag)))).arbitrate

/-! ### VIGIL (R38) -/

/-- Time runs to the boundary at which a transition acts: the frame of a release that is due, or the next boundary. -/
def Dev.toBoundary (d : Dev) : Dev :=
  match d.arb.releaseAt with
  | some p => (d.runTo (p * 125000)).runRelease p
  | none => d.toFrame

/-- VIGIL_ENTRY: at the frame boundary tree transmit stops, and bursts are no longer granted. -/
def execVigilEntry (s : State) : Res :=
  run .vigilEntry s fun d =>
    if d.arb.vigilStage = 1 then
      let d := d.toBoundary.squelch
      { d with arb := { d.arb with vigilStage := 2 } }
    else d

/-- The packets of a list of selections. -/
def selPkts (l : List Sel) : List Pkt :=
  l.filterMap fun s => match s with
    | .pkt _ p => some p
    | .mgmt _ => none

/-- Packets that have left their queues and not the device: selected ahead of the framer, begun by it or by a binding, and held for
a moved bucket (R214, R66, R241, R251). -/
def Dev.drainBegun (d : Dev) : Dev :=
  let d := d.tm.ahead.foldl (fun d e => d.flushPkts e.1 (selPkts e.2)) d
  let d := { d with tm := { d.tm with ahead := [] } }
  let d := d.lines.tx.foldl (fun d e => match e.2.part with
    | some p => (d.setTx e.1 { d.tx e.1 with part := none }).flushPkts e.1 [p.pkt]
    | none => d) d
  let d := d.emus.terms.foldl (fun d e => foldUpTo 4 (fun j d => d.flushPart e.1 j) d) d
  let d := d.cas.holds.foldl (fun d e => e.2.pkts.foldl (fun d p => d.flushPkts (d.qCh p.1) [p.2]) d) d
  { d with cas := { d.cas with holds := [] } }

/-- Packets in reassembly, upstream and downstream: each counts as one that its receiver discards (R68). -/
def Dev.drainReasm (d : Dev) : Dev :=
  let d := d.lines.reasm.foldl (fun d e => (d.dropReasm e.1).segCount (e.1 / 2048) 13) d
  d.lines.rx.foldl (fun d e =>
    let l := e.2.reasm
    let d := (l.flatMap (·.2.bufs)).foldl Dev.release1 d
    if l = [] then d else (d.setRx e.1 { d.rx e.1 with reasm := [] }).bump F.TCH_RXCNT_COUNT e.1 13 l.length) d

/-- Traffic that the device still holds is discarded and counted: at the edge in FOLD_DROP, in queues and on its way out of them as a
flush, in reassembly in REASM_DISCARD (log entry 28). -/
def Dev.drainAll (d : Dev) : Dev :=
  let l := (d.fab.inq ++ d.fab.held).flatMap (·.2) ++ d.fab.links.flatMap (·.2.pkts)
  let bufs := l.flatMap (·.bufs)
  let due := d.fab.moves.foldl (fun t e => Tbl.set t e.1 e.2.target) d.fab.due
  let d := d.fab.moves.foldl (fun d e => d.set F.GLB_QUADMAP_DRAINING 0 e.1) d
  let d := { d with fab := { d.fab with inq := [], held := [], links := [], moves := [], due := due } }
  let d := ((bufs.foldl Dev.release1 d).bump F.PWR_CNT_COUNT 3 0 l.length).drainBegun.drainReasm
  (d.tm.qst.map (·.1)).foldl (fun d q =>
    if (d.qst q).all = [] then d
    else if q < 65536 then d.flushQ q
    else
      let r := d.emptyQueue q (cntAt F.UPL_CNT_COUNT ((q - 65536) / 8) 49)
      r.1.uplCount ((q - 65536) / 8) 49 r.2) d

/-- The writer writes closed entries while there is space. -/
def Dev.writeClosed : Nat → Dev → Dev
  | 0, d => d
  | n + 1, d => if d.blot.closed.isEmpty then d else Dev.writeClosed n d.writeRecord

/-- The entries of MODE events close at once, so that the MODE record is written (R575). -/
def Dev.closeMode (d : Dev) : Dev :=
  let is (x : BlotEntry) : Bool := x.ev.source == 0 && x.ev.event == 3
  let b := d.blot
  { d with blot := { b with opened := b.opened.filter fun x => !is x, closed := b.closed ++ b.opened.filter is } }

/-- Every completion that waits is written (R566). -/
def Dev.completeAll (d : Dev) : Dev :=
  foldUpTo 64 (fun n d => foldUpTo (d.ring n).done.length (fun _ d => d.complete n) d) d

/-- The last steps before power-down: held traffic goes, the final sheet and the MODE event are written, the Blotter's writer
stops, and the commands of this transition and of one it preempted complete before the host link goes down (R38, R566,
R575). -/
def Dev.vigilDrained (d : Dev) : Dev :=
  let d := (d.drainAll.writeSheet true).settleWrites
  let d := d.modeEvent d.mode 4 ((d.arb.trans.map (·.cause)).getD 1)
  let d := Dev.writeClosed 2048 (Dev.writeClosed 2048 d).closeMode
  let d := match d.arb.trans.bind (·.cmd) with
    | some (ring, tag, op) => d.endCmd ring tag op 0
    | none => d
  let d := d.arb.refused.foldl (fun d x => d.refuseCmd x.1 x.2.1 x.2.2) d
  let tr := d.arb.trans.map fun t => { t with cmd := none }
  let arb := { d.arb with trans := tr, refused := [], vigilStage := 3 }
  { d.completeAll with arb := arb, blot := { d.completeAll.blot with stopped := true } }

/-- VIGIL_DRAINED: transmit has stopped, and what is held drains. -/
def execVigilDrained (s : State) : Res :=
  run .vigilDrained s fun d => if d.arb.vigilStage = 2 then d.vigilDrained else d

/-- The registers that VIGIL keeps (R39, R379, R388, R553, R575, R577): always-on blocks, the Blotter's indexes, the alert
registers, the unit maps and the stacks' states. -/
def keptKey (k : Nat) : Bool :=
  let a := k / 64
  decide (a < 0x40000) || a == 0x60008 || a == 0x60010 || k == F.EVT_STAT_UNREAD.key 0 0 || a == 0x80040 || a == 0x80048 ||
    (decide (0x80080 ≤ a) && decide (a < 0x80100)) || (decide (0x1900300 ≤ a) && decide (a < 0x1900320)) ||
    (decide (0x1901000 ≤ a) && decide (a < 0x1901200))

/-- A condition of R569 is no longer present when no flag of it is set. -/
def Dev.refreshAlerts (d : Dev) : Dev :=
  let off (b : Nat) (v : Bool) (d : Dev) : Dev := if v then d else d.alertActive b false
  let d := off 4 (d.on F.STL_STAT_LEASELOST || d.on F.STL_STAT_LOSS || d.on F.STL_STAT_TXFAULT || d.on F.STL_STAT_DUALACT) d
  let d := off 5 (d.on F.MEM_STAT_HOT || d.on F.MEM_STAT_FAILED) d
  let d := off 7 ((List.range 9).any fun l => d.on F.GLB_D2DSTAT_UNCORR l) d
  let d := off 6 ((List.range 128).any fun c => d.get F.SCR_STAT_STATE c == 3) d
  off 8 (d.on F.EVT_STAT_OVERFLOW) d

/-- The powered-off domains lose what they held (R39): what stays is the always-on domain, the stacks with the observation
region, and the flash. Patch memory goes, and the links to the unpowered edge dies are no longer trained (R27, R38). -/
def Dev.powerDown (d : Dev) : Dev :=
  let z := Dev.reset d.boot.fuses d.boot.flash d.boot.powerGood
  let d := foldUpTo 4 (fun l d => d.set F.GLB_D2DSTAT_LINK_UP 0 l) d
  { z with
    regs := Tbl.keep (fun k _ => keptKey k) d.regs
    imgApplied := d.imgApplied
    obs := d.obs
    free := d.free
    clk := { z.clk with cyc := d.clk.cyc }
    blot := { z.blot with ages := d.blot.ages, lastAt := d.blot.lastAt, stopped := true }
    boot := d.boot
    fab := { z.fab with due := d.fab.due, pairs := d.fab.pairs, wait := d.fab.wait, quiet := d.fab.quiet }
    mem := { z.mem with
      poison := d.mem.poison, coolSince := d.mem.coolSince, hotInVigil := d.mem.hotInVigil, mig := d.mem.mig, migWait := d.mem.migWait }
    pmu := { z.pmu with epoch := d.pmu.epoch, restart := true, gap := d.pmu.gap }
    quill := { d.quill with vigilAt := d.clk.cyc, patches := [], stack := [], hostLevel := 0, levelAt := none } }.refreshAlerts

/-- The controllers issue every buffered write and pay every owed refresh (R379). -/
def Dev.payAll (d : Dev) : Dev :=
  foldUpTo 128 (fun pc d =>
    if d.stackUp (pc / 32) then (foldUpTo (d.owed pc) (fun _ d => d.refreshOne pc) d).showOwed (pc / 32) else d) d.settleWrites

/-- VIGIL_POWER_DOWN: stacks in self-refresh, lanes, pipelines, edge dies and host link off, CURRENT 4. -/
def execVigilPowerDown (s : State) : Res :=
  run .vigilPowerDown s fun d =>
    if d.arb.vigilStage = 3 then
      let cause := (d.arb.trans.map (·.cause)).getD 1
      let d := d.payAll
      let d := foldUpTo 4 (fun n d => if d.stackUp n then d.set F.MEM_STACK_STATE 2 n else d) d
      let d := ((d.set F.GLB_MODE_CURRENT 4).set F.GLB_MODE_TRANSITION 0).set F.GLB_MODE_TARGET 0
      ((d.set F.GLB_MODE_LAST_CAUSE cause).bumpIn F.GLB_MODE_TRANSITIONS).powerDown
    else d

/-! ### WAKE (R39, R527) -/

/-- A boot begins (R14, R536, R542): PHASE is 1, and no configuration of a former image stands. -/
def Dev.beginBoot (d : Dev) (warm : Bool) : Dev :=
  let b := { d.boot with slots := [], records := [], bundle := [], flashOp := none, fuseTodo := [], resetHeld := false }
  let d := { d.dropImage with boot := b, imgApplied := false }
  let d := ((d.set F.BOOT_STAT_PHASE 1).set F.BOOT_STAT_LOCKED 0).set F.BOOT_STAT_FALLBACK 0
  let d := ((d.set F.BOOT_STAT_WARM (b2n warm)).set F.BOOT_FLCTL_BUSY 0).set F.BOOT_FLCTL_GO 0
  d.bump F.BOOT_CNT_COUNT (b2n warm)

/-- What was raised in VIGIL in blocks without power does not stand (R38, R39, R553): registers, events and messages (DEDUCED, log entry
208). -/
def Dev.dropUnpowered (d : Dev) : Dev :=
  { d with
    regs := Tbl.keep (fun k _ => keptKey k) d.regs
    blot := { d.blot with opened := [], closed := [], lost := [] }
    host := { d.host with msiOwed := [] } }

/-- WAKE: a warm boot starts from VIGIL. The transition to the boot mode ends with boot lock (R33, R35). -/
def execWake (s : State) : Res :=
  run .wake s fun d =>
    if d.mode = 4 ∧ (d.arb.trans.any fun t => t.cause == 6) then
      let d := d.bump F.QUL_CNT_COUNT 10
      let d := (d.set F.GLB_MODE_CURRENT 0).dropUnpowered
      let d := { d with arb := { Arb.idle with trans := d.arb.trans, asked := d.arb.asked }, blot := { d.blot with stopped := false } }
      d.beginBoot true
    else d

/-! ### TEST (R35) -/

/-- TEST_ENTRY: at the frame boundary the device enters TEST. -/
def execTestEntry (s : State) : Res :=
  run .testEntry s fun d =>
    if d.arb.trans.any fun t => t.target == 5 then
      let d := ((d.toBoundary.toMode 5 1).toRole 0).set F.STL_STAT_LEASE 0
      let d := { d with arb := { d.arb with squelch := false, startAt := none } }.sendHello.endTrans 0
      foldUpTo 264 (fun n d => d.testStart n) d
    else d

/-! ### The lease (R37, R468) -/

/-- The lease is lost (R37, R468): the move to STANDBY follows through the arbiter. A "shut down" of the same cycle goes before
it, and every other trigger of the cycle is dropped (R36). DESIGN CHOICE (log entry 139): a planned switch-over that is
already in progress then is dropped with TRIGGER_DROPPED, its command ends STATE_REFUSED, and STANDBY is entered with
cause 3; the manual settles only the same cycle (R471). -/
def Dev.loseLease (d : Dev) : Dev :=
  let elsewhere := d.arb.trans.any fun t => t.target != 3
  if d.shutdownAsked || elsewhere then d.dropTrigger 3
  else
    let d := d.dropAsked
    match d.arb.trans with
    | some t => ((d.dropTrigger t.cause).endTrans 1).enterStandby 3
    | none => d.enterStandby 3

/-- The lease end has come: the tree lanes squelch in that cycle, and LEASELOST sets. -/
def Dev.expireLease (d : Dev) : Dev :=
  let d := (d.runTo (d.stl.lease * 125000)).squelch
  let d := (d.set F.STL_STAT_LEASE 0).stlAlarm F.STL_STAT_LEASELOST
  { d with arb := { d.arb with releaseAt := none } }

/-- LEASE_EXPIRY: at the boundary of frame E the active device squelches in that cycle, and moves to STANDBY unless a "shut
down" of the same cycle goes before it, or a transition to VIGIL or TEST runs. -/
def execLeaseExpiry (s : State) : Res :=
  run .leaseExpiry s fun d =>
    if d.active && d.get F.STL_STAT_ROLE == 1 && d.on F.STL_STAT_LEASE then d.expireLease.loseLease else d

end Sys2Proof.Machine
end

