-- ==== Sys2Proof/Machine/Quill.lean ====
section
/-!
DEFINITION. Quill, the always-on sequencer (R506, R507, R515 to R523, R533): samples and filters, rules and actions, the
thermal trip, and the port of its tables.
-/

namespace Sys2Proof.Machine

/-! ### Samples and filters (R515 to R517) -/

/-- A channel that has not been sampled: ABSENT. -/
def noSample : QSample := { raw := 0, filt := 0, status := 1, fails := 0, hist := [], restart := true }

/-- A sample channel. -/
def Dev.sample (d : Dev) (k : Nat) : QSample := Tbl.get noSample d.quill.samples k

/-- Set it. -/
def Dev.setSample (d : Dev) (k : Nat) (x : QSample) : Dev :=
  { d with quill := { d.quill with samples := Tbl.set d.quill.samples k x } }

/-- Is a channel a flag channel of an optics slot? -/
def flagChannel (k : Nat) : Bool := decide (64 ≤ k) && k % 4 == 3

/-- A field of a filter record in its range, or else what the filter uses (log entry 30). -/
def filterField (v lo hi field : Nat) : Nat :=
  if lo ≤ v ∧ v ≤ hi then v else lo + Config.filterDefault field % (hi + 1 - lo)

/-- The filtered value after a new raw value joined `hist` (R517). -/
def filterValue (cfg k : Nat) (old raw : Int) (hist : List Int) : Int :=
  let window := filterField (recBytes cfg 2 1) 1 64 1
  let l := hist.take window
  match recBytes cfg 0 1 with
  | 1 => if flagChannel k then raw else old + (raw - old) / (2 ^ filterField (recBytes cfg 1 1) 1 8 0 : Nat)
  | 2 =>
    if flagChannel k then ((l.foldl (fun a x => a ||| x.toNat) 0 : Nat) : Int)
    else l.foldl max raw
  | 3 => l.foldl min raw
  | _ => raw

/-- A channel takes a new raw value: its filter goes on, or restarts from it (R517). -/
def Dev.takeSample (d : Dev) (k : Nat) (raw : Int) : Dev :=
  let x := d.sample k
  if x.restart ∨ x.status ≠ 0 then
    d.setSample k { raw := raw, filt := raw, status := 0, fails := 0, hist := [raw], restart := false }
  else
    let h := (raw :: x.hist).take 64
    let f := filterValue (Tbl.get 0 d.quill.filters k) k x.filt raw h
    d.setSample k { x with raw := raw, filt := f, fails := 0, hist := h }

/-- A read of a channel failed: after three in a row the channel is FAILED and keeps its last values (R516). -/
def Dev.failSample (d : Dev) (k : Nat) : Dev :=
  let x := d.sample k
  let n := x.fails + 1
  if 3 ≤ n ∧ x.status ≠ 2 then (d.setSample k { x with fails := n, status := 2 }).flag F.QUL_STAT_SAMPFAIL
  else d.setSample k { x with fails := n }

/-- Take a list of values on successive channels. -/
def Dev.takeSamples (d : Dev) (first : Nat) (l : List (Fin 65536)) : Dev :=
  l.zipIdx.foldl (fun d e => d.takeSample (first + e.2) (sgn 16 e.1.val)) d

/-- The external ADC inputs: the first ADC_COUNT are sampled. -/
def Dev.takeAdc (d : Dev) (l : List (Option (Fin 65536))) : Dev :=
  l.zipIdx.foldl (fun d e =>
    let k := 36 + e.2
    if d.use F.QUL_CFG_ADC_COUNT ≤ e.2 then d.setSample k noSample
    else match e.1 with
      | some v => d.takeSample k (sgn 16 v.val)
      | none => (d.bump F.QUL_CNT_COUNT 5).failSample k) d

/-- Seconds since VIGIL entry, 0 outside VIGIL. Past what 16 bits hold the manual states no value. -/
def Dev.vigilSeconds (d : Dev) : Dev × Int :=
  if d.mode ≠ 4 then (d, 0)
  else
    let n := (d.clk.cyc - d.quill.vigilAt) / 1500000000
    if n < 32768 then (d, ((n : Nat) : Int))
    else
      let r := d.draw 65536
      (r.1, sgn 16 r.2)

/-- The trip's samples: two in a row at or above 160 °C on a die sensor, and in a row below it on every one (R522). -/
def Dev.tripSample (d : Dev) (l : List (Fin 65536)) : Dev :=
  let hot := l.zipIdx.foldl (fun a e => a + (if 1280 ≤ sgn 16 e.1.val then 2 ^ e.2 else 0)) 0
  let q := d.quill
  let cool := if hot = 0 then q.cool + 1 else 0
  let armed := q.armed || decide (2 ≤ cool)
  let d := { d with quill := { q with hot := hot, hotTwice := q.hot &&& hot != 0, cool := cool, armed := armed } }
  if armed && !q.armed then d.alertActive 3 false else d

/-- The sequencer's state and its address: the ROM's contents are not published, so the address is open (R505, R530). -/
def Dev.showSeq (d : Dev) (st : Nat) : Dev :=
  let r := d.draw 4096
  ((r.1.set F.QUL_STAT_SEQ st).set F.QUL_STAT_PC r.2).set F.QUL_STAT_PC_PATCH 0

/-- FILTER's patch words have taken the place of its effect (R490, R505): the filtered values stay as they were. -/
def Dev.keepFilters (d : Dev) (old : Tbl QSample) : Dev :=
  let l := List.map (fun e : Nat × QSample => (e.1, { e.2 with filt := (Tbl.get noSample old e.1).filt })) d.quill.samples
  { d with quill := { d.quill with samples := l } }

/-- SAMPLE_LOOP and FILTER: one sample of every sensor (R515 to R517), as far as no patch takes their place (R490, R505). -/
def Dev.sampleLoop (d : Dev) (x : QuillIn) : Dev :=
  let old := d.quill.samples
  let k := d.quillPatch 0x010
  if k.2 = false then k.1
  else
    let d := ((k.1.takeSamples 0 x.dies).takeSamples 24 x.supplies).takeSamples 32 x.hbm
    let r := (d.takeAdc x.adc).vigilSeconds
    let z := (r.1.takeSample 52 r.2).quillPatch 0x200
    if z.2 then z.1.showSeq 1 else z.1.keepFilters old

/-- Quill runs: it is not held at RESET by a second parity failure (R507). -/
def Dev.quillRuns (d : Dev) : Bool := !d.boot.resetHeld && !d.on F.QUL_STAT_PATCH_OFF

/-- The next instant of the 32 µs grid of samples, in fabric cycles. -/
def Dev.sampleAt (d : Dev) : Nat := (d.clk.cyc / 48000 + 1) * 48000

/-- QUILL_SAMPLE. The die sensors feed the trip whether Quill runs or not. -/
def execQuillSample (x : QuillIn) (s : State) : Res :=
  run (.quillSample x) s fun d =>
    if d.boot.resetHeld then d
    else
      let d := (d.reach d.sampleAt).tripSample x.dies
      if d.quillRuns then d.sampleLoop x else d

/-- Is module `m` the next that its bus polls (R516)? A bus polls its slots in ascending order, so the slots below `m` have been polled
once more than it, and those above as often. -/
def Dev.pollDue (d : Dev) (m : Nat) : Bool :=
  match Tbl.find? d.quill.slots m with
  | none => false
  | some s => d.quill.slots.all fun e =>
      e.2.bus != s.bus || e.1 == m ||
        Tbl.get 0 d.quill.polls e.1 == (if e.1 < m then Tbl.get 0 d.quill.polls m + 1 else Tbl.get 0 d.quill.polls m)

/-- A module is polled, OPT_POLL_MS after its last poll (R515). -/
def Dev.pollStart (d : Dev) (m : Nat) : Dev :=
  let d := match Tbl.find? d.quill.polledAt m with
    | some t => d.reach (t + d.use F.QUL_CFG_OPT_POLL_MS * 1500000)
    | none => d
  { d with quill := { d.quill with
      polls := Tbl.set d.quill.polls m (Tbl.get 0 d.quill.polls m + 1), polledAt := Tbl.set d.quill.polledAt m d.clk.cyc } }

/-- OPTICS_POLL (R516): a module that the image names is read, or is not. -/
def execOpticsPoll (m : Fin 128) (x : Option OptIn) (s : State) : Res :=
  run (.opticsPoll m x) s fun d =>
    if d.quillRuns && d.pollDue m then
      let k := 64 + 4 * m.val
      let d := d.pollStart m
      match x with
      | some o =>
        let d := (d.takeSample k (sgn 16 o.temp.val)).takeSample (k + 1) (sgn 16 o.supply.val)
        (d.takeSample (k + 2) (sgn 16 o.rx.val)).takeSample (k + 3) ((o.flags.val : Nat) : Int)
      | none => foldUpTo 4 (fun v d => d.failSample (k + v)) (d.bump F.QUL_CNT_COUNT 4)
    else d

/-! ### Rules (R518, R519) -/

/-- The rule record in force. -/
def Dev.rule (d : Dev) (i : Nat) : Nat := Tbl.get 0 d.quill.rules i

/-- The rule record last written, which takes effect at the next pass (R519). -/
def Dev.ruleRec (d : Dev) (i : Nat) : Nat := (Tbl.find? d.quill.held i).getD (d.rule i)

/-- VALID of a rule. -/
def ruleValid (r : Nat) : Bool := bit (recBytes r 15 1) 0

/-- The channels of a rule's group, in member order. -/
def ruleGroup (r : Nat) : List Nat :=
  let lo := recBytes r 0 2
  let hi := recBytes r 2 2
  let st := max 1 (recBytes r 4 1)
  (List.range ((hi - lo) / st + 1)).map fun j => lo + j * st

/-- The action of a rule, and its argument. -/
def ruleAction (r : Nat) : Nat := recBytes r 7 1

/-- ARG. -/
def ruleArg (r : Nat) : Nat := recBytes r 14 1

/-- Does a value meet a rule's raise condition? -/
def raiseMet (r : Nat) (v : Int) : Bool :=
  let t := sgn 16 (recBytes r 8 2)
  match recBytes r 6 1 with
  | 0 => decide (t < v)
  | 1 => decide (v < t)
  | _ => unsgn 16 v &&& recBytes r 8 2 != 0

/-- Does a value meet a rule's clear condition? -/
def clearMet (r : Nat) (v : Int) : Bool :=
  let t := sgn 16 (recBytes r 8 2)
  let h : Int := ((recBytes r 10 2 : Nat) : Int)
  match recBytes r 6 1 with
  | 0 => decide (v ≤ t - h)
  | 1 => decide (t + h ≤ v)
  | _ => unsgn 16 v &&& recBytes r 8 2 == 0

/-- What the members of a list of channels say of a rule: whether they meet the raise and the clear condition. ABSENT
members take no part; a FAILED member meets the raise condition under FAIL_MEETS, and otherwise takes no part (DEDUCED). -/
def Dev.verdict (d : Dev) (r : Nat) (l : List Nat) : Bool × Bool :=
  let xs := l.map d.sample
  if xs.any (fun x => x.status == 2) && bit (recBytes r 15 1) 1 then (true, false)
  else
    match (xs.filter fun x => x.status == 0).map (·.filt) with
    | [] => (false, false)
    | v :: vs =>
      let w := if recBytes r 5 1 = 1 then vs.foldl min v else vs.foldl max v
      (raiseMet r w, clearMet r w)

/-- A rule's state. -/
def Dev.qstate (d : Dev) (i : Nat) : QState := Tbl.get { raised := false, hold := 0, up := [], holds := [] } d.quill.states i

/-- Set it. -/
def Dev.setQstate (d : Dev) (i : Nat) (x : QState) : Dev :=
  { d with quill := { d.quill with states := Tbl.set d.quill.states i x } }

/-- Is some rule with an action raised, and named by `p`? -/
def Dev.anyRaised (d : Dev) (p : Nat → Bool) : Bool :=
  (List.range 64).any fun i => (d.qstate i).raised && ruleValid (d.rule i) && p (d.rule i)

/-! ### Actions (R520, R521) -/

/-- A pass in progress: the device, the slots whose transmitters are turned off, and those turned on again. -/
structure Pass where
  d : Dev
  off : List Nat
  on : List Nat

/-- QUL_ALARM bit `b` is set active and latched. -/
def Dev.raiseAlarm (d : Dev) (b : Nat) : Dev :=
  let was := bit (d.get F.QUL_ALARM_ACTIVE) b
  let d := (d.set F.QUL_ALARM_ACTIVE (d.get F.QUL_ALARM_ACTIVE ||| 2 ^ b)).flagBit F.QUL_ALARM_LATCHED b (0x30400 + 8 * b) b
  if was then d else (d.alert 2).alertActive 2 true

/-- The event of a rule (R572). -/
def Dev.ruleEvent (d : Dev) (i : Nat) (raised : Bool) : Dev :=
  d.event 0x30000 0x000E 0 (i + 256 * ruleAction (d.rule i) + 65536 * b2n raised)

/-- The throttle falls to the greatest of the host's level and those of the raised rules. -/
def Dev.lowerThrottle (d : Dev) : Dev :=
  let l := (List.range 64).map fun i =>
    if (d.qstate i).raised && ruleAction (d.rule i) == 2 && decide (ruleArg (d.rule i) ≤ 3) then ruleArg (d.rule i) else 0
  let n := l.foldl max d.quill.hostLevel
  let d := { d with quill := { d.quill with levelAt := some d.clk.cyc } }
  (d.set F.MEM_THROTTLE_LEVEL n).set F.MEM_THROTTLE_BY_QUILL (b2n (decide (d.quill.hostLevel < n)))

/-- The slot that LASER_OFF turns off: ARG, or the slot of the raised member (R520). -/
def laserSlot (r : Nat) (member : Option Nat) : Option Nat :=
  match member with
  | some ch => if 64 ≤ ch then some ((ch - 64) / 4) else none
  | none => some (ruleArg r)

/-- ACTION is reached (R505, R520): its effect, or the patch words that take its place (R490). -/
def Pass.action (p : Pass) (f : Pass → Pass) : Pass :=
  let k := p.d.quillPatch 0x600
  if k.2 then f { p with d := k.1 } else { p with d := k.1 }

/-- The action of a rule, or a member of it on channel `member`, that is raised. FOLD_ALL and UNFOLD act at the end of the pass. -/
def Pass.act (p : Pass) (i : Nat) (member : Option Nat) : Pass :=
  let d := p.d
  let r := d.rule i
  let arg := ruleArg r
  match ruleAction r with
  | 1 => if arg < 32 then { p with d := (d.raiseAlarm arg).ruleEvent i true } else { p with d := d.actionVoid }
  | 2 =>
    if arg = 0 ∨ 3 < arg ∨ d.mode = 4 then { p with d := d.actionVoid }
    else
      let d := { d with quill := { d.quill with levelAt := some d.clk.cyc } }
      if d.get F.MEM_THROTTLE_LEVEL < arg then
        { p with d := (d.set F.MEM_THROTTLE_LEVEL arg).set F.MEM_THROTTLE_BY_QUILL 1 }
      else { p with d := d }
  | 5 =>
    match laserSlot r member with
    | some m =>
      if (Tbl.find? d.quill.slots m).isSome then { p with d := d.bump F.QUL_CNT_COUNT 8, off := m :: p.off }
      else { p with d := d.actionVoid }
    | none => { p with d := d.actionVoid }
  | 3 | 4 => if d.mode = 4 then { p with d := d.actionVoid } else p
  | 6 => if d.active then { p with d := d.askTrig .release } else { p with d := d.actionVoid }
  | 7 => { p with d := d.askTrig .shutdown }
  | 8 =>
    if d.mode = 4 ∧ (d.quill.bySelf ∨ bit (recBytes r 15 1) 3) then { p with d := d.askTrig .wake }
    else { p with d := d.actionVoid }
  | _ => { p with d := d }

/-- A rule, or a member of it on channel `member`, is raised. -/
def Pass.raise (p : Pass) (i : Nat) (member : Option Nat) : Pass :=
  { p with d := p.d.flag F.QUL_STAT_RAISED }.action fun p => p.act i member

/-- The action of a rule, or a member of it, that is cleared. The rule's state says already whether it is raised still. -/
def Pass.unact (p : Pass) (i : Nat) (member : Option Nat) : Pass :=
  let d := p.d
  let r := d.rule i
  let arg := ruleArg r
  match ruleAction r with
  | 1 =>
    if arg < 32 then
      let d := if d.anyRaised fun x => ruleAction x == 1 && ruleArg x == arg then d
        else d.set F.QUL_ALARM_ACTIVE (setBits (d.get F.QUL_ALARM_ACTIVE) arg 1 0)
      { p with d := (d.alertActive 2 (d.get F.QUL_ALARM_ACTIVE != 0)).ruleEvent i false }
    else { p with d := d }
  | 2 => { p with d := if d.mode = 4 then d else d.lowerThrottle }
  | 5 =>
    match laserSlot r member with
    | some m => if bit (recBytes r 15 1) 2 then { p with d := d, on := m :: p.on } else { p with d := d }
    | none => { p with d := d }
  | _ => { p with d := d }

/-- A rule, or a member of it, is cleared. -/
def Pass.clear (p : Pass) (i : Nat) (member : Option Nat) : Pass :=
  { p with d := p.d.bump F.QUL_CNT_COUNT 2 }.action fun p => p.unact i member

/-- One pass of a member or rule: the new (raised, hold) and whether it is raised (1) or cleared (2) now (R519). -/
def holdStep (n : Nat) (raised : Bool) (hold : Nat) (v : Bool × Bool) : Bool × Nat × Nat :=
  let met := if raised then v.2 else v.1
  if met = false then (raised, 0, 0)
  else if n ≤ hold + 1 then (!raised, 0, if raised then 2 else 1)
  else (raised, hold + 1, 0)

/-- HOLD of a rule. -/
def ruleHold (r : Nat) : Nat := max 1 (recBytes r 12 2)

/-- Member `j` on channel `ch` of rule `i`, under EACH. -/
def Pass.member (i : Nat) (p : Pass) (e : Nat × Nat) : Pass :=
  let j := e.1
  let x := p.d.qstate i
  let was := x.up.contains j
  let h := holdStep (ruleHold (p.d.rule i)) was (Tbl.get 0 x.holds j) (p.d.verdict (p.d.rule i) [e.2])
  let up := if h.1 then (if was then x.up else x.up ++ [j]) else x.up.filter fun k => k != j
  let x := { x with up := up, raised := !up.isEmpty, holds := Tbl.put 0 x.holds j h.2.1 }
  let p := { p with d := p.d.setQstate i x }
  if h.2.2 = 1 then p.raise i (some e.2) else if h.2.2 = 2 then p.clear i (some e.2) else p

/-- A rule that is raised when it is rewritten is cleared first, with its clear action (R519). -/
def Pass.clearOld (p : Pass) (i : Nat) : Pass :=
  let x := p.d.qstate i
  let r := p.d.rule i
  let p := { p with d := p.d.setQstate i { raised := false, hold := 0, up := [], holds := [] } }
  if !x.raised then p
  else if recBytes r 5 1 = 2 then (x.up.map fun j => (ruleGroup r).getD j 0).foldl (fun p ch => p.clear i (some ch)) p
  else p.clear i none

/-- A rule record written since the last pass takes effect, and the rule counts afresh from 0 (R519). -/
def Pass.takeHeld (p : Pass) (i : Nat) : Pass :=
  match Tbl.find? p.d.quill.held i with
  | none => p
  | some r =>
    let p := p.clearOld i
    let q := p.d.quill
    { p with d := { p.d with quill := { q with rules := Tbl.put 0 q.rules i r, held := Tbl.erase q.held i } } }

/-- Rule `i` is evaluated. -/
def Pass.rule (p : Pass) (i : Nat) : Pass :=
  let p := p.takeHeld i
  let r := p.d.rule i
  if !ruleValid r then p
  else if recBytes r 5 1 = 2 then ((ruleGroup r).zipIdx.map fun e => (e.2, e.1)).foldl (Pass.member i) p
  else
    let x := p.d.qstate i
    let h := holdStep (ruleHold r) x.raised x.hold (p.d.verdict r (ruleGroup r))
    let p := { p with d := p.d.setQstate i { x with raised := h.1, hold := h.2.1 } }
    if h.2.2 = 1 then p.raise i none else if h.2.2 = 2 then p.clear i none else p

/-- What a pass leaves to its end: transmitters, and the fold actions, of which FOLD_ALL wins while both are raised (R520, R521); an
UNFOLD that is raised still acts when FOLD_ALL clears (DEDUCED, log entry 175). -/
def Pass.finish (p : Pass) : Dev :=
  let kept := p.d.quill.laserOff.filter fun m => !p.on.contains m
  let d : Dev := { p.d with quill := { p.d.quill with laserOff := (kept ++ p.off.reverse).eraseDups } }
  let forced := d.anyRaised fun r => ruleAction r == 3
  let held := d.anyRaised fun r => ruleAction r == 4
  let wasF := d.on F.PWR_STAT_FORCED
  let wasH := d.on F.PWR_STAT_HELD
  let d := (d.set F.PWR_STAT_FORCED (b2n forced)).set F.PWR_STAT_HELD (b2n held)
  if d.mode = 4 then d
  else if forced && !wasF then d.foldAll
  else if held && (!wasH || (wasF && !forced)) then d.unfoldAll
  else d

/-- QUILL_PASS: every VALID rule, in ascending index. The triggers of the pass stand before the arbiter in one cycle. -/
def execQuillPass (s : State) : Res :=
  run .quillPass s fun d =>
    if d.quillRuns then
      let k := (d.bump F.QUL_CNT_COUNT 0).quillPatch 0x400
      if k.2 then ((List.range 64).foldl Pass.rule { d := k.1, off := [], on := [] }).finish.showSeq 2 else k.1
    else d

/-! ### Parity and the trip (R507, R522) -/

/-- QUILL_PARITY_RESTART: Quill reloads its patch memory and restarts at RESET; a second failure within 1 s leaves it there. -/
def execQuillParityRestart (s : State) : Res :=
  run .quillParityRestart s fun d =>
    if d.quillRuns then
      let again := d.quill.parityAt.any fun t => decide (d.clk.cyc ≤ t + 1500000000)
      let d := { d with quill := { d.quill with parityAt := some d.clk.cyc } }
      let d := { d with quill := { d.quill with stack := [] } }
      let d := ((d.set F.QUL_STAT_SEQ 0).set F.QUL_STAT_PC 0).set F.QUL_STAT_PC_PATCH 0
      if again then d.set F.QUL_STAT_PATCH_OFF 1 else (d.quillPatch 0).1
    else d

/-- THERMAL_TRIP: once an excursion, in every mode. -/
def execThermalTrip (s : State) : Res :=
  run .thermalTrip s fun d =>
    if d.quill.hotTwice ∧ d.quill.armed ∧ !d.boot.resetHeld then
      let d := { d with quill := { d.quill with armed := false, cool := 0 } }
      (((d.flag F.QUL_STAT_TRIP).alert 3).alertActive 3 true).askTrig .trip
    else d

/-! ### The rule set without a QUILL record (R523) -/

/-- A rule record of its fields. -/
def mkRule (lo hi stride agg cmp act : Nat) (thresh : Int) (hyst hold arg flags : Nat) : Nat :=
  ofLE (toLE lo 2 ++ toLE hi 2 ++ toLE stride 1 ++ toLE agg 1 ++ toLE cmp 1 ++ toLE act 1 ++ toLE (unsgn 16 thresh) 2 ++
    toLE hyst 2 ++ toLE hold 2 ++ toLE arg 1 ++ toLE flags 1)

/-- The rules that the image builder supplies. -/
def defaultRules : Tbl Nat :=
  [(0, mkRule 0 23 1 0 0 7 1200 40 2 0 1), (1, mkRule 0 23 1 0 0 6 1160 40 2 0 1), (2, mkRule 0 23 1 0 0 3 1080 40 4 0 1),
   (3, mkRule 0 23 1 0 0 2 1080 40 4 1 1), (4, mkRule 0 23 1 0 0 1 1000 40 4 0 1), (5, mkRule 32 35 1 0 0 2 760 24 1 2 1),
   (6, mkRule 32 35 1 0 0 1 800 24 1 1 1), (7, mkRule 24 25 1 1 1 1 712 5 4 2 1), (8, mkRule 24 25 1 1 1 7 690 5 4 0 1),
   (9, mkRule 64 572 4 2 0 1 600 24 1 3 1), (10, mkRule 64 572 4 2 0 5 640 40 1 0 5)]

/-! ### The port of Quill's tables (R533) -/

/-- May a rule record be written? -/
def ruleOk (r : Nat) : Bool :=
  let lo := recBytes r 0 2
  let hi := recBytes r 2 2
  decide (recBytes r 5 1 < 3) && decide (recBytes r 6 1 < 3) && decide (recBytes r 7 1 < 9) && decide (lo ≤ hi) &&
    decide (hi < 576) && decide (recBytes r 15 1 < 16) &&
    !(recBytes r 5 1 == 2 && decide (128 < (hi - lo) / max 1 (recBytes r 4 1) + 1))

/-- A rule record is written, and in its mirror (R557): it takes effect at the next pass (R519). -/
def Dev.putRule (d : Dev) (i r : Nat) : Dev :=
  { d with quill := { d.quill with held := Tbl.set d.quill.held i r } }.mirror 0x0C004000 64 i 0 16 r

/-- A filter record is written, FILTER, SHIFT and WINDOW in its bytes 0 to 2 (R533): the filter restarts. -/
def Dev.putFilter (d : Dev) (k r : Nat) : Dev :=
  let d := { d with quill := { d.quill with filters := Tbl.put 0 d.quill.filters k (r % 2 ^ 24) } }
  d.setSample k { d.sample k with restart := true }

/-- A write is refused. -/
def Dev.qulRefuse (d : Dev) : Dev := (d.flag F.QUL_IND_CTL_REFUSED).flag F.QUL_STAT_REFUSED 0 0 false

/-- A record of a table, 32 bytes. Under EACH the manual gives no hold count of the rule as a whole: a free value. -/
def Dev.qulRec (d : Dev) (table i : Nat) : Dev × Nat :=
  match table with
  | 0 => (d, Tbl.get 0 d.quill.filters i)
  | 1 =>
    let x := d.sample i
    (d, if 53 ≤ i ∧ i < 64 then 0 else ofLE (toLE (unsgn 16 x.raw) 2 ++ toLE (unsgn 16 x.filt) 2 ++ toLE x.status 1))
  | 2 => (d, d.ruleRec i)
  | _ =>
    let x := d.qstate i
    if recBytes (d.rule i) 5 1 = 2 then
      let r := d.draw 65536
      let up := x.up.foldl (fun a j => a ||| 2 ^ j) 0
      (r.1, ofLE (toLE (b2n x.raised) 1 ++ toLE 0 1 ++ toLE r.2 2 ++ toLE up 16))
    else (d, ofLE (toLE (b2n x.raised) 1 ++ toLE 0 1 ++ toLE x.hold 2))

/-- Is an index beyond its table? -/
def qulBeyond (table i : Nat) : Bool := if table < 2 then decide (576 ≤ i) else decide (64 ≤ i)

/-- An access of the port. -/
def Dev.qulAccess (d : Dev) (index table : Nat) (write : Bool) : Dev :=
  if d.on F.QUL_IND_CTL_BUSY then d
  else
    let d := ((d.set F.QUL_IND_CTL_INDEX index).set F.QUL_IND_CTL_TABLE table).set F.QUL_IND_CTL_WRITE (b2n write)
    if write then
      let r := d.readData F.QUL_IND_DATA_DATA 2
      if table % 2 = 1 ∨ qulBeyond table index ∨ (table = 2 ∧ ruleOk r = false) then d.qulRefuse
      else if table = 0 then d.putFilter index r
      else d.putRule index r
    else if qulBeyond table index then d
    else
      let r := d.qulRec table index
      r.1.showData F.QUL_IND_DATA_DATA 4 r.2

/-- QUL_IND_CTL GO with WRITE 0. -/
def execQulIndRead (index : Fin 1024) (table : Fin 4) (s : State) : Res :=
  run (.qulIndRead index table) s fun d => d.hostW fun d => d.qulAccess index table false

/-- QUL_IND_CTL GO with WRITE 1. -/
def execQulIndWrite (index : Fin 1024) (table : Fin 4) (s : State) : Res :=
  run (.qulIndWrite index table) s fun d => d.hostW fun d => d.qulAccess index table true

end Sys2Proof.Machine
end

