-- ==== Sys2Proof/Machine/Records.lean ====
section
/-!
DEFINITION. Records written through a block's indirect port by other means than its register: the TABLE records of an
image (R539) and the TABLE_WRITE command (R564); and the state records that the device rewrites in their mirrors (R558).
-/

namespace Sys2Proof.Machine

/-- Bytes of a record that a block's port takes for a table: BLOCK is bits [31:16] of the block's BAR0 base. -/
def recordLen (block table : Nat) : Option Nat :=
  if block = 0x00D0 then (if table = 0 then some 32 else none)
  else if block = 0x0100 then (if table < 7 ∧ table % 2 = 0 then some 32 else none)
  else if block = 0x0140 then (if table = 0 then some 192 else none)
  else if block = 0x0150 then (if table < 7 then some (fwdLen table) else none)
  else if block = 0x0180 then (if table = 0 then some 32 else none)
  else if block = 0x0003 then (if table = 0 ∨ table = 2 then some 16 else none)
  else none

/-- A prefix insertion that is under way ends before the port takes the next record (R334). -/
def Dev.portFree (d : Dev) : Dev := if d.fwd.insert.isSome then d.prefixDone else d

/-- A forwarding record, as FWD_IND_CTL would write it. -/
def Dev.putFwd (d : Dev) (table index r : Nat) : Option Dev :=
  if table = 7 ∨ (table ≠ 3 ∧ fwdSize table ≤ index) ∨ d.fwdOk table index r = false then none
  else if table = 3 then
    match d.samePrefix r with
    | some i => some (d.setPrefix i (some r))
    | none => (d.insertPrefix r).map Dev.portFree
  else some (d.fwdPut table index r)

/-- One record of a table, under the rules of the block's port; none where the port refuses it. -/
def Dev.tablePut (d : Dev) (block table index r : Nat) : Option Dev :=
  if block = 0x00D0 then
    if table = 0 ∧ index < 65536 ∧ d.contOk index (r &&& contMask) then some (d.writeCont index (r &&& contMask)) else none
  else if block = 0x0100 then
    if tmgOk table index (r &&& tmgMask table) then some (d.tmgWrite table index (r &&& tmgMask table)) else none
  else if block = 0x0140 then
    if table ≠ 0 ∨ 8192 ≤ index ∨ actionOk (recBytes r 176 16) = false then none
    else some (d.putParRule index r)
  else if block = 0x0150 then d.portFree.putFwd table index r
  else if block = 0x0180 then
    if table ≠ 0 ∨ 512 < index ∨ recBytes r 28 4 ≠ 0 ∨ d.reservesFit index r = false then none else some (d.setOwner index r)
  else if block = 0x0003 then
    if qulBeyond table index then none
    else if table = 0 then some (d.putFilter index r)
    else if table = 2 ∧ ruleOk r then some (d.putRule index r)
    else none
  else none

/-- The port's refusal of a record (R13). -/
def Dev.tableRefuse (d : Dev) (block table index : Nat) : Dev :=
  if block = 0x00D0 then d.gntRefuse index
  else if block = 0x0100 then d.tmgRefuse table index
  else if block = 0x0140 then d.parRefuse
  else if block = 0x0150 then d.fwdRefuse
  else if block = 0x0180 then d.bufRefuse
  else if block = 0x0003 then d.qulRefuse
  else d

/-- A run of records from `first` on: the records before a refused one stand, and it and those after are not applied.
Answers how many were applied, and whether one was refused. -/
def Dev.tableRun (block table first size : Nat) : Nat → Nat → List Byte → Dev → Dev × Nat × Bool
  | 0, done, _, d => (d, done, false)
  | n + 1, done, l, d =>
    match d.tablePut block table (first + done) (le l 0 size) with
    | some e => Dev.tableRun block table first size n (done + 1) (l.drop size) e
    | none => (d, done, true)

/-- TABLE_WRITE: a table, a size or a place of the data that no port has is a bad argument; data that reads uncorrectable is
a MEM_ERROR (R564, R565, R567). -/
def Dev.tableWrite (d : Dev) (ring tag : Nat) (l : List Byte) : Dev :=
  let block := le l 0 2
  let table := le l 2 1
  let first := le l 4 4
  let count := le l 8 4
  let size := le l 12 4
  let src := le l 16 8
  let fin (d : Dev) (status : Nat) (result : Nat := 0) (detail : Nat := 0) : Dev := d.endCmd ring tag 0x0020 status result detail
  if recordLen block table ≠ some size ∨ le l 3 1 ≠ 0 ∨ 2 ^ 33 < src + count * size then fin d 0x03
  else match d.obsRead src (count * size) with
    | none => fin d 0x05
    | some b =>
      let r := Dev.tableRun block table first size count 0 b d
      if r.2.2 then fin (r.1.tableRefuse block table (first + r.2.1)) 0x03 r.2.1 (first + r.2.1)
      else fin r.1 0 r.2.1

/-- TABLE_WRITE. -/
def execTableWrite (ring : RingNo) (s : State) : Res :=
  run (.tableWrite ring) s fun d => d.command ring 0x0020 fun t d => d.tableWrite ring t.tag t.args

/-! ### Mirrors of state records (R557, R558) -/

/-- Write entry `i` of a table of state records in its mirror. -/
def Dev.mirrorState (off stride at_ len : Nat) (f : Dev → Nat → Nat) (i : Nat) (d : Dev) : Dev :=
  d.mirror off stride i at_ len (f d i)

/-- Quill's sample states and rule states are written in their mirrors (R557). DESIGN CHOICE (log entry 177): with the state records,
since R558 names no time for them. -/
def Dev.mirrorQuill (d : Dev) : Dev :=
  let d := foldUpTo 576 (fun k d => let r := d.qulRec 1 k; r.1.mirror 0x0C000000 16 k 0 16 r.2) d
  foldUpTo 64 (fun i d => let r := d.qulRec 3 i; r.1.mirror 0x0C004000 64 i 16 32 r.2) d

/-- Every container, queue, node, meter, rule and owner state record is written in its mirror. -/
def Dev.mirrorStates (d : Dev) : Dev :=
  let d := foldUpTo 65536 (Dev.mirrorState 0x04000000 64 32 32 fun d i => contRec (d.cont i)) d
  let d := foldUpTo 66560 (Dev.mirrorState 0x05000000 64 32 32 Dev.queueRec) d
  let d := foldUpTo 16512 (Dev.mirrorState 0x06000000 64 32 32 Dev.nodeRec) d
  let d := foldUpTo 131072 (Dev.mirrorState 0x07000000 64 32 32 Dev.meterRec) d
  let d := foldUpTo 8192 (fun i d => d.mirrorRule i) d
  (foldUpTo 513 (Dev.mirrorState 0x0B000000 64 32 32 Dev.ownerState) d).mirrorQuill

/-- MIRROR_STATE_REWRITE (R558). -/
def execMirrorStateRewrite (s : State) : Res :=
  run .mirrorStateRewrite s fun d => if d.booted && d.mode != 4 then d.mirrorStates.settleWrites else d

end Sys2Proof.Machine
end

