-- ==== Sys2Proof/Machine/TermRx.lean ====
section
/-!
DEFINITION. What a downstream receiver does with the frames it has decoded (R57 to R59, R68, R169, R419, R445): frame
headers, subframe headers and maps, and segments.
-/

namespace Sys2Proof.Machine

open Sys2Proof.Crypto

/-- Take `n` blocks off a receiver's queue. -/
def Dev.rxTake (d : Dev) (c n : Nat) : Dev :=
  let x := d.rx c
  d.setRx c { x with queue := x.queue.drop n, qd := (x.qd + n) % 195328 }

/-- Bytes of blocks. -/
def blkBytes (l : List Blk) : List Byte := bytesOfBlocks (l.map (·.pay))

/-- Does the CRC-32C at the end of `n` content bytes hold? -/
def crcHolds (l : List Byte) (n : Nat) : Bool := crc32c (l.take (n - 4)) == be l (n - 4) 4

/-! ### Frame headers -/

/-- The channel's emulated terminals each count BIP mismatches for their REI (R59). -/
def Dev.addRei (d : Dev) (c n : Nat) : Dev :=
  if n = 0 then d else (d.emusOf c).foldl (fun d t =>
    let g := 128 * c + t
    d.setEmu g { d.emu g with rei := min 255 ((d.emu g).rei + n) }) d

/-- A new HEAD_EPOCH: each downstream slot with a valid high-water resyncs (R419). -/
def Dev.resyncSlots (d : Dev) (c : Nat) : Dev :=
  let mine (i : Nat) : Bool := (decide (256 * c ≤ i) && decide (i < 256 * c + 256)) ||
    (decide (32768 + 512 * c ≤ i) && decide (i < 32768 + 512 * c + 512))
  let slots := d.cry.slots.map fun e => if mine e.1 && e.2.rx.isSome then (e.1, { e.2 with resync := true }) else e
  { d with cry := { d.cry with slots := slots } }

/-- The downstream delay of R445 in 2^−16 ns, from an emulated terminal's EqD. -/
def Dev.termDelay (d : Dev) (c : Nat) : Int :=
  let rtd : Int := (d.use F.TIM_TRMCFG_PEER_EQRT c : Int) - 3683328 - d.get F.TCH_EMUSTAT_EQD c 0
  let bits_ : Int := rtd * (500000 + d.useS F.TIM_TRMCFG_ASYM_PPM c) / 1000000
  (bits_ * 125000 * 65536 * 2 + 14733312) / (2 * 14733312) + d.useS F.TIM_TRMCFG_OFFSET_NS c * 65536

/-- Does the servo take its samples from channel `c` (R446, R447)? -/
def Dev.timeFrom (d : Dev) (c : Nat) : Bool :=
  d.use F.TIM_CFG_SRC == 3 &&
    ((d.mode == 1 && d.on F.GLB_CASSTAT_TIME_VALID && d.get F.GLB_CASSTAT_TIME_MEMBER == c) ||
     (d.mode == 2 && d.use F.TIM_CFG_TREE_CH == c && d.emuSt c 0 == 4))

/-- A frame header that passes HDR_CRC is taken: BIP32, identity, ERR_COUNT and time (R55, R58 to R60, R445). -/
def Dev.takeHeader (d : Dev) (c : Nat) (l : List Byte) (at_ : Nat) : Dev :=
  let x := d.rx c
  let n := match x.lastBip with
    | some b => popcount (b ^^^ be l 6 4) 32
    | none => 0
  let d := if n = 0 then d else ((d.rxCount c 2 n).flag F.TCH_FRMSTAT_BIPERR c).addRei c n
  let epoch := be l 4 2
  let d := (d.set F.TCH_FRMID_RX_TREE_ID (be l 2 2) c).set F.TCH_FRMID_HEAD_EPOCH epoch c
  let d := if x.epoch.any fun e => e != epoch then d.resyncSlots c else d
  let d := d.setRx c { d.rx c with epoch := some epoch, arrived := some (x.ctr, at_) }
  let grp := be l 20 1 % 8
  let d := (d.emusOf c).foldl (fun d t =>
    let loc := d.get F.TCH_EMUSTAT_LOCAL c t
    let g := 128 * c + t
    if d.on F.TCH_EMUSTAT_LOCAL_VALID c t ∧ loc / 16 = grp then
      d.setEmu g { d.emu g with errs := be l (22 + loc % 16) 1 }
    else d) d
  let d := if d.mode = 1 ∧ d.on F.GLB_CASSTAT_TIME_VALID ∧ d.get F.GLB_CASSTAT_TIME_MEMBER = c then
      { d with tim := { d.tim with casReady := true } }
    else d
  if d.timeFrom c then
    let frame : Int := ((be l 10 6 * 1000000000 + be l 16 4 : Nat) : Int) * 65536
    { d with tim := { d.tim with sample := some ((at_ : Int) - (frame + d.termDelay c)) } }
  else d

/-- A frame header has been decoded (R55, R57): `ago` is the local time since its frame's first bit arrived at the balls,
in 2^−16 ns. -/
def Dev.frameHeaderRx (d : Dev) (c ago : Nat) : Dev :=
  let x := d.rx c
  if x.qd ≠ 0 ∨ x.queue.length < 24 then d
  else
    let l := blkBytes ((x.queue.take 24).drop 2)
    let d := d.rxTake c 24
    if crcHolds l 176 then d.takeHeader c l (d.now16 - ago) else d.flag F.TCH_FRMSTAT_HDRERR c

/-- FRAME_HEADER_RX. -/
def execFrameHeaderRx (c : Ch) (ago : Fin (2 ^ 34)) (s : State) : Res :=
  run (.frameHeaderRx c ago) s fun d => if d.rxRuns c then d.frameHeaderRx c ago else d

/-! ### Subframe headers and maps -/

/-- Split a map into runs, each ended by an accepted entry that ends one (R169). `none` is an ignored entry. -/
def splitRuns : List (Option Nat) → List (Option Nat) → List (List (Option Nat))
  | acc, [] => if acc.isEmpty then [] else [acc]
  | acc, e :: r => if e.any endsRun then (acc ++ [e]) :: splitRuns [] r else splitRuns (acc ++ [e]) r

/-- A container entry's share. -/
def shareOf (e : Nat) : Share := { cont := bits e 48 16, len := bits e 16 16, granted := bits e 16 16 }

/-- A terminal is granted a burst (R170, R240): its answer positions are for every message owed by then (R140). A grant completes a returning ranging whose burst has gone, and an
activation whose answer has. -/
def Dev.takeGrant (d : Dev) (c t target : Nat) (l : List Nat) : Dev :=
  let g := 128 * c + t
  let e := d.emu g
  let st := d.emuSt c t
  let d := if st = 2 ∧ e.returning ∧ e.rangeSent then d.emuTo c t 4
    else if st = 3 ∧ e.answers.isEmpty ∧ e.owed.isEmpty then d.emuTo c t 4 else d
  let st := d.emuSt c t
  if st ≠ 3 ∧ st ≠ 4 ∧ st ≠ 5 then d
  else
    let e := d.emu g
    let h := l.headD 0
    let owes := e.owed.any fun m => decide (m + 1 ≤ target)
    let b : Burst :=
      { sub := target, loc := bits h 4 7, start := bits h 32 16, cold := bit h 15, power := l.any (bit · 12),
        report := bit h 14, answers := if owes then 9 else 0, shares := l.map shareOf, why := .container }
    d.setEmu g { e with bursts := e.bursts ++ [b], owed := e.owed.filter fun m => decide (target < m + 1) }

/-- A terminal's ranging window stands in the map (R119), with its POWER bit (R168). -/
def Dev.takeRange (d : Dev) (c t target e : Nat) : Dev :=
  let g := 128 * c + t
  let x := d.emu g
  if d.emuSt c t = 2 ∧ x.rangeSub.any (fun r => r % 65536 == target % 65536) then
    d.setEmu g { x with
      rangeSub := some target, rangeAt := some (bits e 32 16 + (bits e 16 16 - 596) / 2), rangePower := bit e 12 }
  else d

/-- One run of a map (R169, R240): voided where an entry of it was ignored. -/
def Dev.takeRun (c target : Nat) (d : Dev) (r : List (Option Nat)) : Dev :=
  let l := r.filterMap id
  let voided := r.any Option.isNone
  let locs := (l.map fun e => bits e 4 7).eraseDups
  locs.foldl (fun d loc =>
    let mine := l.filter fun e => bits e 4 7 == loc && bits e 48 16 != 0xFFFF
    match d.localTerm c loc, mine with
    | some t, e :: _ =>
      if voided then d.flag F.TCH_TRMSTAT_MAPIGN c
      else if bits e 48 16 = 0xFFFE then d.takeRange c t target e
      else d.takeGrant c t target mine
    | _, _ => d) d

/-- The full number of an upstream subframe from its low 16 bits, near `near`. -/
def fullSub (near low : Nat) : Nat := ((near : Int) + sdiff 16 low near).toNat

/-- A subframe header has been decoded, with its map (R56, R57, R169). -/
def Dev.subframeHeaderRx (d : Dev) (c : Nat) : Dev :=
  let x := d.rx c
  let place := x.qd = 24 ∨ x.qd = 48832 ∨ x.qd = 97664 ∨ x.qd = 146496
  if ¬ place ∨ x.queue.length < 8 then d
  else
    let l := blkBytes (x.queue.take 8)
    let n := be l 2 2
    if crcHolds l 64 = false ∨ 256 < n then
      let d := (d.rxTake c 8).flag F.TCH_FRMSTAT_HDRERR c
      d.setRx c { d.rx c with orphan := true, circuits := 0 }
    else if x.queue.length < 8 + n then d
    else
      let es := ((x.queue.drop 8).take n).map fun b =>
        if b.bad = false ∧ b.ctl ∧ entryGood b.pay then some b.pay else none
      let target := fullSub (x.ctr * 4 + be l 0 1 + 1) (be l 4 2)
      let d := d.rxTake c (8 + n)
      let d := d.setRx c { d.rx c with orphan := false, circuits := be l 6 2, nextCir := 0, skip := false }
      if d.termRole c then (splitRuns [] es).foldl (Dev.takeRun c target) d else d

/-- SUBFRAME_HEADER_RX. -/
def execSubframeHeaderRx (c : Ch) (s : State) : Res :=
  run (.subframeHeaderRx c) s fun d => if d.rxRuns c then d.subframeHeaderRx c else d

/-! ### Segments -/

/-- Data blocks from index `qd` to the end of its subframe. -/
def sfLeft (qd : Nat) : Nat :=
  if qd < 48832 then 48832 - qd else if qd < 97664 then 97664 - qd else if qd < 146496 then 146496 - qd else 195328 - qd

/-- Drop what terminal `t`, 128 for multicast, holds in reassembly. -/
def Dev.dropDown (d : Dev) (c t : Nat) : Dev :=
  match Tbl.find? (d.rx c).reasm t with
  | none => d
  | some r => r.bufs.foldl Dev.release1 (d.setRx c { d.rx c with reasm := Tbl.erase (d.rx c).reasm t })

/-- Drop every partial packet of the channel (R68). -/
def Dev.dropDownAll (d : Dev) (c : Nat) : Dev := ((d.rx c).reasm.map (·.1)).foldl (fun d t => d.dropDown c t) d

/-- A decrypted downstream segment joins the reassembly of `t` (R68). With `fails` its tag fails after it was cut through (R424): the
packet it ends goes on, any other is lost. -/
def Dev.joinDown (d : Dev) (c t : Nat) (s : Seg) (b : List Byte) (fails : Option (Nat × Nat) := none) : Dev :=
  let old := Tbl.find? (d.rx c).reasm t
  let d := if s.first ∧ old.isSome then (d.dropDown c t).segCount c 13 else d
  let follows := match old with
    | some r => r.label == s.label && s.seq == (r.seq + 1) % 65536
    | none => false
  if s.first = false ∧ follows = false then (d.dropDown c t).segCount c 13
  else if fails.isSome ∧ s.last = false then d.dropDown c t
  else
    let a := d.alloc (askPort (256 + c)) (256 + c) b.length
    match a.2 with
    | none => a.1.dropDown c t
    | some buf =>
      let d := if fails.isSome then a.1 else (a.1.segCount c 9).octets (384 + c) (8 * (1 + s.data))
      let r : Reasm := match Tbl.find? (d.rx c).reasm t with
        | some r => { r with seq := s.seq, bytes := r.bytes ++ b, bufs := r.bufs ++ [buf] }
        | none => { label := s.label, keyIdx := s.key, seq := s.seq, bytes := b, bufs := [buf] }
      if s.last then
        let d := d.setRx c { d.rx c with reasm := Tbl.erase (d.rx c).reasm t }
        d.toPipe { bytes := r.bytes, quad := 32 + c / 4, port := c, loc := t % 128, label := r.label, popPcp := none,
                   bufs := r.bufs, de := false, term := some t, fails := fails }
      else d.setRx c { d.rx c with reasm := Tbl.set (d.rx c).reasm t r }

/-- The slot, receiver (128: multicast) and nonce owner of a traffic label (R244): none when it is not assigned here. -/
def Dev.rxLabel (d : Dev) (c label key : Nat) : Option (Nat × Nat × Bool × Nat) :=
  if 0xFF00 ≤ label then some (mcastSlot c (label - 0xFF00) key, 128, true, label - 0xFF00)
  else
    match d.findSvc (2 ^ 63 + c * 2 ^ 56 + label) with
    | none => none
    | some i =>
      match svcTerm (d.svc i) with
      | some g =>
        if g / 128 = c ∧ d.emuOn c (g % 128) then
          some (termSlot g key, g % 128, false, d.get F.TCH_EMUSTAT_LOCAL c (g % 128))
        else none
      | none => none

/-- A management segment (R136, R234): one on a unicast label that no emulated terminal holds reaches the Scribe too, which
discards and counts it. -/
def Dev.mgmtSegment (d : Dev) (c : Nat) (s : Seg) (l : List Blk) : Dev :=
  if l.any (·.bad) ∨ l.length < s.data ∨ d.termRole c = false ∨ s.len ≠ 64 ∨ s.enc ∨ s.first = false ∨ s.last = false then
    d.segCount c 11
  else
    let x := d.rx c
    let d := (d.segCount c 9).octets (384 + c) 72
    d.inboxPut c { sub := x.ctr * 4 + x.qd / 48832, bytes := (s.split l).1, loc := s.label, keyIdx := s.key, seq := s.seq }

/-- A whole downstream segment (R68, R244). DESIGN CHOICE (log entry 143): a receiver in TEST loopback, for which the manual
gives no reassembly and no labels, discards every segment and counts it in SEG_DISCARD. -/
def Dev.downSegment (d : Dev) (c : Nat) (s : Seg) (l : List Blk) : Dev :=
  if s.label ≤ 0x80 then d.mgmtSegment c s l
  else if s.label < 0x100 then d.segCount c 11
  else
    match (if d.termRole c then d.rxLabel c s.label s.key else none) with
    | none => d.segCount c 11
    | some (slot, t, mc, who) =>
      if l.any (·.bad) ∨ l.length < s.data then (d.segCount c 11).dropDown c t
      else
        let peer := d.use F.TCH_TRMCFG_PEER_CHANNEL c
        let before := d.get F.CRY_CNT_COUNT c 2
        let nonce (ctr : Nat) : Nat := segNonce 0 peer mc who ctr
        let r := d.openSeg c slot s l nonce
        match r.2 with
        | none =>
          let e := if r.1.get F.CRY_CNT_COUNT c 2 = before then r.1 else r.1.flag F.TCH_TRMSTAT_TAGFAIL c
          if d.on F.CRY_CFG_RX_SF ∨ s.enc = false then e.dropDown c t
          else match d.cutSeg slot s l nonce with
            | some b => e.joinDown c t s b (some (d.lateMark c))
            | none => e.dropDown c t
        | some b => r.1.joinDown c t s b

/-- Are data blocks up to the next control block part of a discarded header (R68)? -/
def Dev.setSkip (d : Dev) (c : Nat) (v : Bool) : Dev := d.setRx c { d.rx c with skip := v }

/-- Is an index where a frame or subframe header stands (R51)? -/
def headerPlace (qd : Nat) : Bool := qd == 0 || qd == 24 || qd == 48832 || qd == 97664 || qd == 146496

/-- The receiver takes what comes next in the subframe: blocks of circuits that no circuit here takes, orphan blocks, idle
blocks, or one segment (R63, R68). After an ignored header every block of the subframe is an orphan block (R57; DESIGN CHOICE, log
entry 188). -/
def Dev.segmentRx (d : Dev) (c : Nat) : Dev :=
  let x := d.rx c
  let left := sfLeft x.qd
  let q := x.queue.take left
  if headerPlace x.qd ∨ q.isEmpty then d
  else if x.orphan then (d.rxTake c q.length).bump F.TCH_RXCNT_COUNT c 12 q.length
  else if x.circuits ≠ 0 then
    if ((d.cirsDown c).any fun i => decide (x.nextCir ≤ i % 8)) then d
    else
      let n := min x.circuits q.length
      (d.rxTake c n).setRx c { (d.rxTake c n).rx c with circuits := x.circuits - n }
  else
    match q with
    | [] => d
    | b :: r =>
      let n := (q.takeWhile fun y => !y.ctl).length
      if n ≠ 0 then (if x.skip then d.rxTake c n else (d.rxTake c n).bump F.TCH_RXCNT_COUNT c 12 n)
      else
        let s := Seg.of b.pay
        if s.len = 0 then
          (d.rxTake c (q.takeWhile fun y => y.ctl && (Seg.of y.pay).len == 0).length).setSkip c false
        else if b.bad ∨ crc14 s.hdr ≠ bits s.hdr 0 14 ∨ 16000 < s.len then
          let d := ((d.segCount c 10).dropDownAll c).setSkip c true
          d.rxTake c (1 + (r.takeWhile fun y => !y.ctl).length)
        else
          let l := (r.take s.data).takeWhile fun y => !y.ctl
          if l.length < s.data ∧ q.length < left ∧ l.length = r.length then d
          else ((d.downSegment c s l).rxTake c (1 + l.length)).setSkip c false

/-- SEGMENT_RX. -/
def execSegmentRx (c : Ch) (s : State) : Res :=
  run (.segmentRx c) s fun d => if d.rxRuns c then d.segmentRx c else d

end Sys2Proof.Machine
end

