-- ==== Sys2Proof/Machine/Stitch.lean ====
section
/-!
DEFINITION. The stitch link (R462 to R484): the partner's messages, the state copy, the standby's schedule, takeover,
latent transmit faults and revival.
-/

namespace Sys2Proof.Machine

open Sys2Proof.Crypto

/-! ### What every message shares -/

/-- What a message's FLAGS tell of the partner (R465, R486). -/
def Dev.partnerFlags (d : Dev) (fl : StFlags) : Dev := d.set F.STL_STAT_PARTNER_READY (b2n fl.ready)

/-- A SWITCH_OVER that this standby forwarded ends (R477). -/
def Dev.endForwarded (d : Dev) (status : Nat) : Dev :=
  match d.stl.forwarded with
  | some (ring, tag) => { d with stl := { d.stl with forwarded := none } }.endCmd ring tag 0x0041 status
  | none => d

/-- The link is DOWN for the pair, or as if (R463, R464): the partner is not READY, and a copy in progress is lost. -/
def Dev.linkGone (d : Dev) : Dev :=
  let stl := { d.stl with recs := [], again := [], partnerMode := none, bulkBy := none }
  ({ d with stl := stl }.set F.STL_STAT_PARTNER_READY 0).endForwarded 0x01

/-- The standby becomes UNSYNCED: it asks for a bulk copy and keeps the last state that it applied (R473, R484). -/
def Dev.unsync (d : Dev) : Dev :=
  let d := (d.set F.STL_STAT_SYNCED 0).flag F.STL_STAT_UNSYNC
  let d := { d with stl := { d.stl with copy := 1, recs := [] } }
  (d.stSend 0x0E []).showReady

/-! ### HELLO (R462, R463, R471) -/

/-- Hand-back: with FAULT_LIMIT suspect channels and a healthy partner the device asks for a planned switch-over (R481), as
soon as the partner can take over (R477). -/
def Dev.handBack (d : Dev) : Dev :=
  let n := ((List.range 128).filter fun c => d.on F.STL_CHSTAT_TX_SUSPECT c).length
  if d.active && !d.solo && d.useB F.STL_CFG_HANDBACK_EN && decide (d.use F.STL_CFG_FAULT_LIMIT ≤ n) && d.stl.healthy &&
      d.partnerReady && !d.handbackHeld && d.arb.trans.isNone && d.arb.asked.isEmpty then
    let d := { d with stl := { d.stl with handback := some d.clk.cyc } }.stlCount 11
    (d.askTrig (.switchOver none)).arbitrate
  else d

/-- Do the identities of both devices make a pair? -/
def Dev.pairs (d : Dev) (h : HelloIn) : Bool :=
  d.stl.pairId == h.pairId.val && d.stl.digest == h.digest.val && d.get F.STL_CFG_SIDE != h.side.val

/-- Both devices are in HEAD: the one with the lower HEAD_EPOCH squelches and enters STANDBY, on equal epochs SIDE 1. A
device that waits for its first ACK has not been active, and the two do not count (R471, R483). -/
def Dev.dualActive (d : Dev) (h : HelloIn) : Dev :=
  let mine := d.get F.TCH_FRMID_HEAD_EPOCH 0
  let loses := decide (mine < h.epoch.val) || (mine == h.epoch.val && d.get F.STL_CFG_SIDE == 1)
  let d := if d.stl.waiting then d else d.stlAlarm F.STL_STAT_DUALACT
  if loses then
    if d.arb.trans.isNone then
      let r := d.draw 8
      r.1.enterStandby r.2
    else d.squelch
  else d

/-- A HELLO that matches. -/
def Dev.takeHello (d : Dev) (h : HelloIn) : Dev :=
  let stl := { d.stl with
    mismatch := false, partnerMode := some h.mode.val, partnerEpoch := h.epoch.val, healthy := h.flags.healthy }
  let d := { d with stl := stl }.partnerFlags h.flags
  if d.mode = 0 ∧ h.mode.val = 0 then d.dualActive h
  else if d.mode = 0 ∧ h.mode.val = 3 then { d with stl := { d.stl with bulkBy := some (d.frameNow + 32) } }
  else d

/-- HELLO. -/
def execHello (h : HelloIn) (s : State) : Res :=
  run (.hello h) s fun d =>
    if d.paired && d.booted && d.get F.STL_STAT_LINK != 0 then
      if d.pairs h then (d.takeHello h).handBack
      else { d with stl := { d.stl with mismatch := true } }.linkGone.stlAlarm F.STL_STAT_MISMATCH
    else d

/-! ### The lease (R468 to R470) -/

/-- RENEW(f) on a standby that is in no transition: the promise, and its ACK. -/
def Dev.takeRenew (d : Dev) (f epoch : Nat) (fl : StFlags) : Dev :=
  let stl := { d.stl with
    promise := max d.stl.promise (f + 4), heard := some d.frameNow, partnerMode := some 0, partnerEpoch := epoch }
  (({ d with stl := stl }.partnerFlags fl).showLease.stSend 0x03 (toBE f 6)).stlCount 1

/-- RENEW. -/
def execRenew (f : Fin (2 ^ 48)) (epoch : Fin 65536) (fl : StFlags) (s : State) : Res :=
  run (.renew f epoch fl) s fun d =>
    if d.standby && d.stitchUp && d.arb.trans.isNone then d.takeRenew f epoch fl else d

/-- ACK(f) on the active device. A lease that has run out is not restored (R468); a solo device leaves solo, and a device
that waits for its first ACK transmits from then on (R470, R483). -/
def Dev.takeAck (d : Dev) (f : Nat) (fl : StFlags) : Dev :=
  let d := { d with stl := { d.stl with healthy := fl.healthy } }.partnerFlags fl
  let holds := d.on F.STL_STAT_LEASE && decide (d.frameNow < d.stl.lease)
  if d.stl.waiting || d.solo || holds || (!d.on F.STL_STAT_LEASE && d.stl.begun.isSome) then
    let e := if d.on F.STL_STAT_LEASE then max d.stl.lease (f + 4) else f + 4
    let w := d.stl.waiting
    let d := { d with stl := { d.stl with lease := e, waiting := false, alone := none } }
    let d := if w then { d with arb := { d.arb with squelch := false } } else d
    ((d.set F.STL_STAT_LEASE 1).toRole 1).showLease
  else d

/-- STITCH_ACK. -/
def execStitchAck (f : Fin (2 ^ 48)) (fl : StFlags) (s : State) : Res :=
  run (.stitchAck f fl) s fun d =>
    if d.active && d.stitchUp && d.arb.releaseAt.isNone && decide (f.val ≤ d.frameNow) then (d.takeAck f fl).handBack else d

/-- RESIGN on the active device: it holds no partner, and is solo. -/
def execResign (cause : Fin 256) (s : State) : Res :=
  run (.resign cause) s fun d =>
    if d.active && d.stitchUp && d.arb.releaseAt.isNone then
      let stl := { d.stl with partnerMode := none, waiting := false, alone := none, bulkBy := none }
      let d := if d.stl.waiting then { d with arb := { d.arb with squelch := false } } else d
      ((({ d with stl := stl }.set F.STL_STAT_LEASE 0).set F.STL_STAT_PARTNER_READY 0).toRole 2).showLease
    else d

/-! ### The state copy (R472, R473, R484) -/

/-- The bytes of a DELTA or BULK record (R467): table, index, length and data. -/
def recWire (r : CopyRec) : List Byte := toBE r.table 1 ++ toBE r.index 4 ++ toBE r.data.length 2 ++ r.data

/-- The registry state of a code. -/
def regOfCode : Nat → Reg_
  | 0 => .free
  | 1 => .ranging
  | 2 => .activating
  | 3 => .active
  | 4 => .doze
  | 5 => .moving
  | 6 => .hold
  | _ => .blocked

/-- A terminal state record of R143 is copied. A preset is no part of the copy: at registration it takes the channel
default's contents, and of a terminal that becomes FREE it is erased (R275). -/
def Dev.copyTerm (d : Dev) (g : Nat) (l : List Byte) : Dev :=
  let t := d.term g
  let st := regOfCode (le l 0 1 % 8)
  let fl := le l 3 1
  let w := if bit fl 0 then d.findWhite (le l 8 8) else none
  let d := match w with
    | some i => if (d.white i).flagged = bit fl 2 then d else d.setWhite i { d.white i with flagged := bit fl 2 }
    | none => d
  let d := if t.st = .free ∧ st ≠ .free then d.setPreset g { d.preset (16384 + g / 128) with state := 0, since := d.frameNow }
    else if t.st ≠ .free ∧ st = .free then d.setPreset g { value := 0, state := 0, since := d.frameNow }
    else d
  let marks := if le l 22 2 = (d.marksNow t).length then t.marks else List.replicate (le l 22 2) d.frameNow
  d.setTerm g { t with
    st := st, cause := le l 1 1, eqd := le l 4 4, serial := le l 8 8, rtd := le l 16 4, white := w, gasp := bit fl 3,
    canDoze := bit fl 5, tunable := bit fl 6, period := if le l 20 2 = 0 then t.period else le l 20 2, marks := marks,
    changed := le l 24 4, adjusts := le l 28 2, attempts := le l 30 1 }

/-- Ruling results of a terminal are copied: EqD, RTD and the pending adjustment. -/
def Dev.copyRuling (d : Dev) (g : Nat) (l : List Byte) : Dev :=
  let v (n : Nat) : Nat := Config.copyField 2 l n
  let a : Option Adj := if v 2 % 2 = 1 then
      some { delta := sgn 32 (v 3), result := v 4 % 2 ^ 32, frame := v 5 % 2 ^ 48, resent := bit (v 6) 0, calls := 0 }
    else none
  d.setTerm g { d.term g with eqd := v 0 % 2 ^ 32, rtd := v 1 % 2 ^ 32, adj := a }

/-- A container's state record of R180 is copied. -/
def Dev.copyCont (d : Dev) (k : Nat) (l : List Byte) : Dev :=
  let fl := le l 31 1
  d.setCont k { d.cont k with
    demand := le l 0 4, inflight := le l 4 4, assured := le l 8 4, na := le l 12 4, max := le l 16 4, tagNa := le l 20 4,
    tagBe := le l 24 4, arrears := le l 28 2 + 65536 * bits fl 3 1, age := le l 30 1, granted := bit fl 0,
    wantNa := bit fl 1, wantBe := bit fl 2 }

/-- A pending transaction of a terminal is copied: message, XID and attempts. -/
def Dev.copyTxn (d : Dev) (g : Nat) (l : List Byte) : Dev :=
  let v (n : Nat) : Nat := Config.copyField 6 l n
  let type := v 0 % 256
  let t := d.term g
  let rest := t.txns.filter fun x => x.type != type
  if v 3 % 2 = 0 then d.setTerm g { t with txns := rest }
  else
    let x : Txn := { type := type, xid := v 1 % 65536, body := toBE (v 4 % 2 ^ 384) 48, tries := v 2 % 256, sent := none,
                     granted := none, due := false }
    d.setTerm g { t with txns := rest ++ [x] }

/-- A slot's send counter, WARNED and state are copied. -/
def Dev.copySlot (d : Dev) (i : Nat) (l : List Byte) : Dev :=
  let v (n : Nat) : Nat := Config.copyField 7 l n
  let s := d.slot i
  let st := if v 2 % 4 = 1 ∨ v 2 % 4 = 3 then (if s.state = 0 then 0 else v 2 % 4) else v 2 % 4
  d.setSlot i { s with tx := v 0 % 2 ^ 48, warned := bit (v 1) 0, state := st, key := if st = 0 then 0 else s.key }

/-- Give the fields of a register the values of a whole register. -/
def Dev.loadReg (d : Dev) (r : Reg) (i v : Nat) : Dev := r.fields.foldl (fun d f => d.set f (bits v f.lo f.w) i) d

/-- A circuit's configuration and its last pointer are copied (R201). -/
def Dev.copyCircuit (d : Dev) (i : Nat) (l : List Byte) : Dev :=
  let v (n : Nat) : Nat := Config.copyField 8 l n
  let d := ((d.loadReg RegOf.CIR_CFG i (v 0)).loadReg RegOf.CIR_TIMING i (v 1)).loadReg RegOf.CIR_CF i (v 2)
  d.setCir i { d.cir i with p := v 3 % 65536, nextSub := if d.useB F.CIR_CFG_UP_EN i then some (d.upSub (i / 8)) else none }

/-- One record of the state copy is applied (R472, log entry 25). -/
def Dev.applyRec (d : Dev) (r : CopyRec) : Dev :=
  let i := r.index.val
  match Config.copyKind r.table with
  | 0 => if i < 16384 then d.copyTerm i r.data else d
  | 1 => if i < 32768 then d.setWhite i { whiteOf r.data with lastCh := (d.white i).lastCh } else d
  | 2 => if i < 16384 then d.copyRuling i r.data else d
  | 3 => if i < 65536 then d.writeCont i (le r.data 0 32) else d
  | 4 => if i < 65536 then d.copyCont i r.data else d
  | 5 => if i < 128 then d.loadReg RegOf.GNT_CHVT i (le r.data 0 8) else d
  | 6 => if i < 16384 then d.copyTxn i r.data else d
  | 7 => if i < 98304 then d.copySlot i r.data else d
  | 8 => if i < 1024 then d.copyCircuit i r.data else d
  | _ => d

/-- The standby applies what its last good COMMITs closed, as a whole (R473). -/
def Dev.applyCopy (d : Dev) : Dev :=
  if d.stl.apply.isEmpty then d
  else
    let l := d.stl.apply
    l.foldl Dev.applyRec { d with stl := { d.stl with apply := [] } }

/-- Take records of a DELTA or BULK. -/
def Dev.takeRecs (d : Dev) (bulk : Bool) (l : List CopyRec) : Dev :=
  { d with stl := { d.stl with recs := d.stl.recs ++ l.map fun r => (bulk, r) } }

/-- DELTA. -/
def execDelta (f : Fin (2 ^ 48)) (recs : List CopyRec) (s : State) : Res :=
  run (.delta f recs) s fun d => if d.standby && d.stitchUp then d.takeRecs false recs else d

/-- BULK: `last` marks the end of the copy, after which a COMMIT makes the standby SYNCED. -/
def execBulk (recs : List CopyRec) (last : Bool) (s : State) : Res :=
  run (.bulk recs last) s fun d =>
    if d.standby && d.stitchUp then
      let d := d.takeRecs true recs
      if last ∧ d.stl.copy = 1 then { d with stl := { d.stl with copy := 2 } } else d
    else d

/-- COMMIT closes the delta of a frame: with its count and its CRC right the delta is applied at the next frame boundary,
and one that follows a whole bulk copy makes the standby SYNCED (R473, R484). -/
def Dev.takeCommit (d : Dev) (count crc : Nat) : Dev :=
  let mine := d.stl.recs.filter fun r => !r.1
  let l := mine.map (·.2)
  if l.length = count ∧ crc32c (l.flatMap recWire) = crc then
    if d.on F.STL_STAT_SYNCED ∨ d.stl.copy = 2 then
      let stl := { d.stl with
        apply := d.stl.apply ++ d.stl.recs.map (·.2), recs := [], copy := 0, heard := some (d.stl.heard.getD d.frameNow) }
      ({ d with stl := stl }.set F.STL_STAT_SYNCED 1).showReady
    else { d with stl := { d.stl with recs := d.stl.recs.map fun r => (true, r.2) } }
  else d.unsync

/-- COMMIT. -/
def execCommit (f : Fin (2 ^ 48)) (count crc : Fin (2 ^ 32)) (s : State) : Res :=
  run (.commit f count crc) s fun d => if d.standby && d.stitchUp then d.takeCommit count crc else d

/-- STITCH_LEARN: the partner's updates in arrival order (R330). -/
def execStitchLearn (us : List LearnIn) (s : State) : Res :=
  run (.stitchLearn us) s fun d =>
    if d.standby && d.stitchUp then
      us.foldl (fun d u => d.applyUpdate { pair := u.pair, dest := u.dest, removed := u.removed }) d
    else d

/-- STITCH_KEY: a key wrapped under the pair key; one that does not unwrap leaves the slot EMPTY (R427). -/
def execStitchKey (slot : Fin (2 ^ 32)) (wrapped : List Byte) (s : State) : Res :=
  run (.stitchKey slot wrapped) s fun d =>
    if d.standby && d.stitchUp && decide (slot.val < 98304) then
      match d.cry.pairKey.bind fun k => unwrap k wrapped with
      | some k => d.loadSlot slot k
      | none => (d.setSlot slot emptySlot).flag F.CRY_STAT_UNWRAP
    else d

/-- RESYNC_REQ: the active device sends a bulk copy within 32 frames. -/
def execResyncReq (s : State) : Res :=
  run .resyncReq s fun d =>
    if d.active && d.stitchUp then { d with stl := { d.stl with bulkBy := some (d.frameNow + 32) } } else d

/-! ### The standby's schedule (R100, R159, R169, R474, R475) -/

/-- The burst that a run of map entries of one terminal schedules. Which bursts owe an answer the map does not say: nine
answer positions or none. -/
def Dev.mapBurst (d : Dev) (sub loc : Nat) (l : List Nat) : Dev × Burst :=
  let h := l.headD 0
  let r := d.draw 2
  (r.1, { sub := sub, loc := loc, start := bits h 32 16, cold := bit h 15, power := l.any (bit · 12), report := bit h 14,
          answers := 9 * r.2, shares := l.map shareOf, why := .container })

/-- The burst of one run of entries, none where an entry of the run is bad, or where it is a window's. -/
def Dev.mapRun (sub : Nat) (r : Dev × List Burst) (l : List (Option Nat)) : Dev × List Burst :=
  let es := l.filterMap id
  match es with
  | [] => r
  | e :: _ =>
    if l.any Option.isNone ∨ 0xFFFE ≤ bits e 48 16 then r
    else
      let x := r.1.mapBurst sub (bits e 4 7) es
      (x.1, r.2 ++ [x.2])

/-- Where a forwarded burst ends at the earliest: with the answer positions that its map does not show left out (DEDUCED, log entry
159). -/
def Burst.leastSpan (b : Burst) : Nat × Nat := { b with answers := 0 }.span

/-- Bursts that begin before the last block of the one before them, in this map or the one before it, are dropped (R100): the place
where the last kept one ends goes along. -/
def Dev.dropOverlaps (c : Nat) (r : Dev × List Burst × Option Nat) (b : Burst) : Dev × List Burst × Option Nat :=
  let z := b.leastSpan
  if r.2.2.any fun u => decide (z.1 + 1 < u) then (r.1.flag F.TCH_BRXSTAT_CONFLICT c, r.2)
  else (r.1, r.2.1 ++ [b], some z.2)

/-- A channel's first forwarded map: DELTA is acquired, from the hint where there is one. -/
def Dev.startDelta (d : Dev) (c : Nat) : Dev :=
  if d.get F.STL_CHSTAT_DSTATE c = 0 then (d.set F.STL_CHSTAT_DELTA 0 c).acquireDelta c else d

/-- A forwarded map. The windows of a map are searched by the active device alone. -/
def Dev.takeMap (d : Dev) (c target : Nat) (entries : List Nat) : Dev :=
  let sub := fullSub d.subNow target
  let l := entries.map fun e => if entryGood e then some e else none
  let r := (splitRuns [] l).foldl (Dev.mapRun sub) (d.startDelta c, [])
  let q := r.2.foldl (Dev.dropOverlaps c) (r.1, [], (r.1.brx c).until_)
  let d := q.1.schedule c q.2.1 []
  d.setBrx c { d.brx c with until_ := q.2.2 }

/-- STITCH_MAP. -/
def execStitchMap (c : Ch) (target : Fin 65536) (entries : List (Fin (2 ^ 64))) (s : State) : Res :=
  run (.stitchMap c target entries) s fun d =>
    if d.standby && d.stitchUp && d.enabled c then d.takeMap c target (entries.map fun e => e.val) else d

/-! ### Time over the link (R448, R467) -/

/-- The bytes of a stamp. -/
def stampBytes (sec ns frac : Nat) : List Byte := toBE sec 6 ++ toBE ns 4 ++ toBE frac 2

/-- The present instant as a stamp. -/
def Dev.stampNow (d : Dev) : List Byte := stampBytes d.clk.sec d.clk.ns (d.clk.frac / 65536)

/-- A stamp in 2^−16 ns. -/
def Stamp.time (t : Stamp) : Int := (((t.sec.val * 1000000000 + t.ns.val) * 65536 + t.frac.val : Nat) : Int)

/-- TIME_REQ: the active device answers with the arrival and the departure. -/
def execTimeReq (t1 : Stamp) (s : State) : Res :=
  run (.timeReq t1) s fun d =>
    if d.active && d.stitchUp then
      d.stSend 0x0D (stampBytes t1.sec t1.ns t1.frac ++ d.stampNow ++ d.stampNow)
    else d

/-- TIME_RESP: the standby's sample is ((t2 − t1) − (t4 − t3)) / 2, corrected by STITCH_ASYM_PS, where t4 is now. The servo
takes the local clock's lead, its negative. -/
def execTimeResp (t1 t2 t3 : Stamp) (s : State) : Res :=
  run (.timeResp t1 t2 t3) s fun d =>
    if d.standby && d.stitchUp then
      let t4 : Int := ((d.now16 : Nat) : Int)
      let asym := d.useS F.TIM_LIMITS_STITCH_ASYM_PS
      let corr := if asym = 0 then 0 else Config.stitchAsym asym
      let p := ((Stamp.time t2 - Stamp.time t1) - (t4 - Stamp.time t3)) / 2 + corr
      { d with tim := { d.tim with sample := some (-p) } }
    else d

/-! ### Lost messages and the link (R464, R466) -/

/-- The body of the last message of a type that was sent since the last frame boundary; HELLO's is formed anew. -/
def Dev.lastBody (d : Dev) (type : Nat) : Option (List Byte) :=
  if type = 0x01 then some d.helloBody
  else if type = 0x04 then some (toBE d.stl.lease 6)
  else match d.stl.sent.reverse.find? fun m => m.type == type with
    | some m => some (slice m.body 16 (be m.body 2 2))
    | none => if type = 0x05 then some (toBE d.stl.resigned 1) else none

/-- MSG_LOST: a message failed twice. HELLO, RELEASE and RESIGN are sent again; a lost DELTA, COMMIT, KEY or CONFIG makes the
standby UNSYNCED; the others have no outcome beyond their absence. -/
def execMsgLost (type : Fin 256) (sent : Bool) (s : State) : Res :=
  run (.msgLost type sent) s fun d =>
    if d.paired && d.booted && d.get F.STL_STAT_LINK != 0 then
      let d := d.flag F.STL_STAT_MSGLOST
      let t := type.val
      if sent then
        let d := d.stlCount 9
        if t = 1 ∨ t = 4 ∨ t = 5 then
          match d.lastBody t with
          | some b => { d with stl := { d.stl with again := d.stl.again ++ [(t, b)] } }
          | none => d
        else d
      else if d.standby ∧ (t = 0x06 ∨ t = 0x07 ∨ t = 0x0A ∨ t = 0x0B) then d.unsync
      else d
    else d

/-- The messages of R466 that are sent again in the frame that begins. -/
def Dev.sendAgain (d : Dev) : Dev :=
  let l := d.stl.again
  l.foldl (fun d m => d.stSend m.1 m.2) { d with stl := { d.stl with again := [] } }

/-- Block lock of stitch lane `i` (R271). -/
def Dev.stLock (d : Dev) (i : Nat) : Lock := Tbl.get Lock.fresh d.lanes.stLock i

/-- Stitch lane `i` receives blocks with these headers at its candidate offset: it locks and loses lock as R69 sets out, with
HUNT_BLOCKS at 64 and LOSS_INVALID at 16 (R271). A lane that is not RUNNING receives none (R278). -/
def Dev.stHeaders (d : Dev) (e : Fin 8 × List (Fin 4)) : Dev :=
  if d.laneUp (256 + e.1) then
    let x := e.2.foldl (fun x h => x.step 64 16 h.val) (d.stLock e.1)
    { d with lanes := { d.lanes with stLock := Tbl.set d.lanes.stLock e.1 x } }
  else d

/-- The stitch lanes that hold block lock. -/
def Dev.stMask (d : Dev) : Nat :=
  (List.range 8).foldl (fun a i => a + if d.laneUp (256 + i) && (d.stLock i).locked then 2 ^ i else 0) 0

/-- STITCH_LINK_CHANGE: at link-up the devices exchange HELLO; a link that goes DOWN carries nothing. -/
def execStitchLinkChange (hdrs : List (Fin 8 × List (Fin 4))) (s : State) : Res :=
  run (.stitchLinkChange hdrs) s fun d =>
    if d.paired && d.booted && d.mode != 4 then
      let old := d.get F.STL_STAT_LINK
      let d := hdrs.foldl Dev.stHeaders d
      let d := d.stitchLanes d.stMask
      let now := d.get F.STL_STAT_LINK
      if now = 0 ∧ old ≠ 0 then d.linkGone
      else if old = 0 ∧ now ≠ 0 then { d with stl := { d.stl with mismatch := false } }.sendHello
      else d
    else d

/-! ### Takeover (R471, R477 to R479) -/

/-- RELEASE(P) on a standby: SYNCED, it applies the state of P − 1, enters HEAD and transmits from P + 2; otherwise it stays
and counts PARTNER_LOSSES (R477). A "shut down" of the same cycle goes before it, and every other trigger of the cycle is
dropped (R36). -/
def Dev.takeLease (d : Dev) (p : Nat) : Dev :=
  if d.on F.STL_STAT_SYNCED && d.shutdownAsked then d.dropTrigger 2
  else if d.on F.STL_STAT_SYNCED then
    (((d.dropAsked.applyCopy.takeOver 2 1 (p + 2)).stlCount 10).endForwarded 0)
  else (d.stlAlarm F.STL_STAT_LOSS).endForwarded 0x01

/-- RELEASE. -/
def execRelease (p : Fin (2 ^ 48)) (s : State) : Res :=
  run (.release p) s fun d =>
    if d.standby && d.stitchUp && d.arb.trans.isNone then d.takeLease p else d

/-- The frame boundary at which the loss of the partner is declared: at once with the link DOWN or a partner that has left
HEAD, and otherwise after two frames without RENEW (R478). -/
def Dev.lossAt (d : Dev) : Option Nat :=
  if !d.stitchUp || (d.stl.partnerMode.any fun m => m != 0) then some d.frameNow
  else d.stl.heard.map fun h => h + 3

/-- LOSS_TAKEOVER: the SYNCED standby takes over at boundary E_s + 2, or at the next boundary + 2. A "shut down" of the same
cycle goes before it, and every other trigger of the cycle is dropped (R36). -/
def Dev.lossTakeover (d : Dev) : Dev :=
  match d.lossAt with
  | none => d
  | some f =>
    if d.shutdownAsked then d.dropTrigger 4
    else
    let d := (d.dropAsked.runTo (f * 125000)).stlAlarm F.STL_STAT_LOSS
    let start := max (d.stl.promise + 2) (d.frameNow + 3)
    let d := (d.runTo (start * 125000)).applyCopy
    (((d.takeOver 4 2 start).stlCount 10).endForwarded 0x01).startTx

/-- LOSS_TAKEOVER. -/
def execLossTakeover (s : State) : Res :=
  run .lossTakeover s fun d =>
    if d.standby && d.on F.STL_STAT_SYNCED && d.arb.trans.isNone then d.lossTakeover else d

/-! ### Latent transmit faults (R480, R481) -/

/-- The optics module that feeds channel `c` has read a transmit fault or a transmit loss of signal (R515, R516). -/
def Dev.opticsFault (d : Dev) (c : Nat) : Bool :=
  d.quill.slots.any fun e =>
    decide (e.2.first ≤ c) && decide (c < e.2.first + e.2.lanes) &&
      match Tbl.find? d.quill.samples (64 + 4 * e.1 + 3) with
      | some x => x.raw.toNat % 4 != 0
      | none => false

/-- No burst has been found on channel `c` in CHECK_FRAMES frames after the first frame, while an ACTIVE terminal is there:
the boundary at which that is so. -/
def Dev.silentAt (d : Dev) (c : Nat) : Option Nat :=
  match d.stl.begun with
  | some b =>
    if d.mode = 0 ∧ !d.stl.found.contains c ∧ ((d.termsOf c).any fun e => e.2.st == .active) then
      some (b + d.use F.STL_CFG_CHECK_FRAMES)
    else none
  | none => none

/-- Channel `c` becomes TX_SUSPECT: it stays squelched, and its terminals go to HOLD with the recall flag set. -/
def Dev.suspect (d : Dev) (c : Nat) : Dev :=
  let d := (d.set F.STL_CHSTAT_TX_SUSPECT 1 c).stlAlarm F.STL_STAT_TXFAULT
  if d.mode = 0 then (d.termsOf c).foldl (fun d e => if e.2.inService then d.enterHold e.1 6 else d) d else d

/-- TX_SUSPECT. -/
def execTxSuspect (c : Ch) (optics : Bool) (s : State) : Res :=
  run (.txSuspect c optics) s fun d =>
    if d.paired && d.booted && d.enabled c && !d.on F.STL_CHSTAT_TX_SUSPECT c then
      if optics then (if d.opticsFault c then (d.suspect c).handBack else d)
      else match d.silentAt c with
        | some f => ((d.runTo (f * 125000)).suspect c).handBack
        | none => d
    else d

/-! ### Revival and a boot alone (R482, R483) -/

/-- REVIVAL: SILENCE_FRAMES silent frames, counted from E + 2, or from E_s + 2 where that is later (R469), let an unsynced standby enter HEAD solo; a HEAD device that
boots alone becomes solo after the same test, which counts from the end of LINK_WAIT_MS. -/
def execRevival (s : State) : Res :=
  run .revival s fun d =>
    let quiet := d.use F.STL_CFG_SILENCE_FRAMES
    if d.standby && !d.on F.STL_STAT_SYNCED && !d.stitchUp && d.stl.wasActive && d.useB F.STL_CFG_REVIVE_EN &&
        d.arb.trans.isNone then
      if d.shutdownAsked then d.dropTrigger 4
      else
      let d := d.dropAsked.runTo ((max d.stl.lease d.stl.promise + 2 + quiet) * 125000)
      let start := d.frameNow + 3
      let d := d.runTo (start * 125000)
      (((d.takeOver 4 2 start).stlCount 12)).startTx
    else if d.active && d.stl.waiting && d.stl.alone.isSome && !d.stitchUp then
      let d := d.runTo ((d.stl.alone.getD 0 + 1 + quiet) * 125000)
      let start := d.frameNow + 3
      let d := d.runTo (start * 125000)
      let stl := { d.stl with waiting := false, alone := none, lease := start }
      ({ d with stl := stl, arb := { d.arb with squelch := false, startAt := none } }.toRole 2).showLease
    else d

/-- LINK_WAIT_EXPIRED: a HEAD device without a link runs the silence test. -/
def execLinkWaitExpired (s : State) : Res :=
  run .linkWaitExpired s fun d =>
    if d.active && d.stl.waiting && !d.stitchUp then
      let d := d.reach (d.stl.waitFrom + d.use F.STL_CFG_LINK_WAIT_MS * 1500000)
      { d with stl := { d.stl with alone := some d.frameNow } }
    else d

end Sys2Proof.Machine
end

