-- ==== Sys2Proof/Machine/Boot.lean ====
section
/-!
DEFINITION. Reset, boot and the configuration image (R536 to R550, R610): resets, the checks of a slot, applying its records,
boot lock, and the flash port.
-/

namespace Sys2Proof.Machine

open Sys2Proof.Crypto

/-! ### Resets (R536, R610) -/

/-- The counters that only power-on resets: BOOT_CNT and HST_ALERTCNT (R550, R569). -/
def powerOnKey (k : Nat) : Bool :=
  let a := k / 64
  (decide (0x10200 ≤ a) && decide (a < 0x10240)) || (decide (0x80080 ≤ a) && decide (a < 0x80100))

/-- A cold reset: fuses stay, and the flash is outside the device; the stacks are initialised and the observation region is
zeroed. A boot begins. -/
def Dev.coldReset (d : Dev) : Dev :=
  let z := Dev.reset d.boot.fuses d.boot.flash true
  let kept := (Tbl.keep (fun k _ => powerOnKey k) d.regs).foldl (fun t e => Tbl.set t e.1 e.2) z.regs
  { z with regs := kept, free := d.free }.beginBoot false

/-- COLD_RESET: PORESET_N was low and is high again. -/
def execColdReset (s : State) : Res :=
  run .coldReset s fun d => if d.boot.powerGood then d.coldReset else d

/-- A write of BOOT_RESET.CODE: 0xC5 starts a cold reset, another value has no effect. -/
def Dev.writeReset (d : Dev) (code : Nat) : Dev :=
  if code = 0xC5 ∧ !d.boot.resetHeld ∧ d.mode ≠ 4 then d.coldReset else d

/-- BOOT_RESET. -/
def execBootReset (code : Fin 256) (s : State) : Res := run (.bootReset code) s fun d => d.writeReset code

/-- POWER_FAIL: the device acts as if PORESET_N were low, in reset. -/
def execPowerFail (s : State) : Res :=
  run .powerFail s fun d =>
    let z := d.coldReset
    ({ z with boot := { z.boot with powerGood := false, resetHeld := true } }.set F.BOOT_STAT_PHASE 0).set F.BOOT_CNT_COUNT
      (d.get F.BOOT_CNT_COUNT 0) 0

/-- SUPPLY_AND_CLOCK_GOOD: a cold reset follows the failure, or power-on. -/
def execSupplyAndClockGood (s : State) : Res :=
  run .supplyAndClockGood s fun d => if d.boot.powerGood then d else d.coldReset

/-! ### Flash and headers (R537 to R539) -/

/-- Bytes of the flash, which reads 0xFF where it is erased. -/
def Dev.flashBytes (d : Dev) (a n : Nat) : List Byte := (Mem.readN d.boot.flash a n).map fun b => b ^^^ 0xFF

/-- The place of a slot. -/
def slotBase (i : Nat) : Nat := i * 0x04000000

/-- The header of a slot. -/
def Dev.header (d : Dev) (i : Nat) : List Byte := d.flashBytes (slotBase i) 64

/-- Is a header valid: MAGIC, FORMAT, DEVICE, REVISION and HDR_CRC (R540)? -/
def headerOk (h : List Byte) : Bool :=
  le h 0 4 == 0x49534552 && le h 4 2 == 1 && le h 6 2 == 0x7164 && le h 8 1 == 0xB0 &&
    crc32c (h.take 60) == le h 60 4

/-- The order of the slots (R538). -/
def Dev.slotOrder (d : Dev) : List Nat :=
  let ok (i : Nat) : Bool := headerOk (d.header i)
  let seq (i : Nat) : Nat := le (d.header i) 20 4
  if ok 1 && (!ok 0 || decide (0 < sdiff 32 (seq 1) (seq 0))) then [1, 0] else [0, 1]

/-- Show the fuses (R548). -/
def Dev.showFuses (d : Dev) : Dev :=
  let f := d.boot.fuses
  let d := (d.set F.BOOT_FUSE_HASH_PRESENT f.hashPresent).set F.BOOT_FUSE_REVOKED f.revoked
  (d.set F.BOOT_FUSE_SEC_MIN (popcount f.version 64)).set F.BOOT_FUSE_ROOT_PRESENT (b2n f.rootPresent)

/-- FUSES_SENSED: what the fuses hold; both headers are read next. -/
def execFusesSensed (f : FuseIn) (s : State) : Res :=
  run (.fusesSensed f) s fun d =>
    if d.get F.BOOT_STAT_PHASE = 1 then
      let x : Fuses :=
        { rootKey := f.rootKey, rootPresent := f.rootPresent, hash0 := f.hash0, hash1 := f.hash1, hashPresent := f.hashPresent,
          revoked := f.revoked, version := f.version }
      let d := { d with boot := { d.boot with fuses := x } }
      let d := { d with boot := { d.boot with slots := d.slotOrder } }
      d.showFuses.set F.BOOT_STAT_PHASE 2
    else d

/-! ### The checks of a slot (R539, R540) -/

/-- The records of an image from offset `off`, and the offset after the last; none where one runs past `stop`. -/
def Dev.readRecords (d : Dev) (base stop : Nat) : Nat → Nat → List ImgRec → Option (List ImgRec × Nat)
  | 0, off, acc => some (acc.reverse, off)
  | n + 1, off, acc =>
    if stop < off + 8 then none
    else
      let h := d.flashBytes (base + off) 8
      let len := le h 4 4
      let next := off + 8 + cdiv len 8 * 8
      if stop < next then none
      else
        let r : ImgRec := { type := le h 0 2, flags := le h 2 2, off := off, body := d.flashBytes (base + off + 8) len }
        Dev.readRecords d base stop n next (r :: acc)

/-- The entries of a key bundle: ID and wrap; none where a body is no whole number of entries. -/
def bundleEntries (l : List Byte) : Option (List (Nat × List Byte)) :=
  if l.length % 42 ≠ 0 then none
  else some ((List.range (l.length / 42)).map fun i => (le l (42 * i) 2, slice l (42 * i + 2) 40))

/-- The keys of a bundle, none where a wrap does not unwrap under the root key. -/
def unwrapAll (root : Nat) (l : List (Nat × List Byte)) : Option (List (Nat × Nat)) :=
  l.mapM fun e => (unwrap root e.2).map fun k => (e.1, k)

/-- Key hash `i` of the fuses is present and not revoked, and KEY_HASH0 is not blank (R540, R545). -/
def Fuses.hashUsable (f : Fuses) (i : Nat) : Bool := bit f.hashPresent 0 && bit f.hashPresent i && !bit f.revoked i

/-- A key hash. -/
def Fuses.hash (f : Fuses) (i : Nat) : Nat := if i = 0 then f.hash0 else f.hash1

/-- What a slot's checks come to: the code of the first that fails (R548), or the accepted image. -/
inductive SlotCheck where
  | bad (code : Nat)
  | good (records : List ImgRec) (bundle : List (Nat × Nat))

/-- The checks after the records have been found: CRC, key hash, signature, version and bundle. -/
def Dev.checkColophon (d : Dev) (base len keyId version : Nat) (rs : List ImgRec) : SlotCheck :=
  let co := len - 208
  let c := d.flashBytes (base + co) 208
  let pub := slice c 8 97
  if le c 0 4 ≠ 0x4C4F4343 ∨ crc32c (d.flashBytes base co) ≠ le c 4 4 then .bad 0x04
  else if !d.boot.fuses.hashUsable keyId ∨ sha384 pub ≠ d.boot.fuses.hash keyId then .bad 0x06
  else if be pub 0 1 ≠ 4 ∨
      !ecdsaVerify (be pub 1 48) (be pub 49 48) (sha384 (d.flashBytes base (co + 112))) (be c 112 48) (be c 160 48) then
    .bad 0x05
  else if version < popcount d.boot.fuses.version 64 then .bad 0x07
  else
    let es := (rs.filter fun r => r.type == 0x0002).mapM fun r => bundleEntries r.body
    match es.bind fun l => if d.boot.fuses.rootPresent ∨ l.flatten = [] then unwrapAll d.boot.fuses.rootKey l.flatten else none with
    | none => .bad 0x08
    | some b => .good rs b

/-- All checks of R540 on slot `i`. -/
def Dev.checkSlot (d : Dev) (i : Nat) (readErr : Bool) : SlotCheck :=
  let base := slotBase i
  let h := d.header i
  let len := le h 12 4
  if readErr then .bad 0x01
  else if !headerOk h then .bad 0x02
  else if 67108864 < len ∨ len < 272 then .bad 0x03
  else match d.readRecords base (len - 208) (le h 16 4) 64 [] with
    | none => .bad 0x03
    | some (rs, e) => if e ≠ len - 208 then .bad 0x03 else d.checkColophon base len (le h 9 1) (le h 24 4) rs

/-- What a failed slot's records had configured goes: everything but the always-on domain and the stacks (R538). Patch memory is
no part of the always-on domain (R39, R508). -/
def Dev.clearConfig (d : Dev) : Dev :=
  { d.powerDown with
    blot := d.blot, host := d.host, quill := { d.quill with patches := [] }, mem := d.mem, clk := d.clk, pmu := d.pmu, imgApplied := false }

/-- Slot `i` has failed with a code: the other slot is tried, or boot fails (R538, R543). It is not the slot booted (R548). -/
def Dev.failSlot (d : Dev) (i code record offset : Nat) : Dev :=
  let d := ((d.set F.BOOT_FAIL_CODE code i).set F.BOOT_FAIL_RECORD record i).set F.BOOT_FAIL_OFFSET offset i
  let rest := d.boot.slots.drop 1
  let d := { d with boot := { d.boot with slots := rest, records := [], bundle := [], fuseTodo := [] } }
  let d := ((d.set F.BOOT_STAT_SLOT 0).set F.BOOT_STAT_IMAGE_SEQ 0).set F.BOOT_BUILD_BUILD_ID 0
  if rest.isEmpty then
    let d := (d.set F.BOOT_STAT_PHASE 8).bump F.BOOT_CNT_COUNT 3
    (d.alert 0).alertActive 0 true
  else ((d.set F.BOOT_STAT_FALLBACK 1).bump F.BOOT_CNT_COUNT 2).set F.BOOT_STAT_PHASE 3

/-- A stack has been initialised, or could not be (R379): it is FAILED then until the next reset. -/
def Dev.stackInit (d : Dev) (n : Nat) (failed : Bool) : Dev :=
  if failed then (((d.set F.MEM_STACK_STATE 5 n).flag F.MEM_STAT_FAILED).alert 5).alertActive 5 true
  else d.set F.MEM_STACK_STATE 1 n

/-- The stacks are trained alongside the boot (R379, R542): a cold reset initialises them, and at a warm boot they leave
self-refresh. One that was too hot during VIGIL goes out of use where the image's map stands (`hotOut`). -/
def Dev.stacksReady (d : Dev) (failed : List (Fin 4)) : Dev :=
  foldUpTo 4 (fun n d =>
    if d.get F.MEM_STACK_STATE n = 0 then d.stackInit n (failed.any fun x => x.val == n)
    else if d.get F.MEM_STACK_STATE n = 2 ∧ !d.mem.hotInVigil.contains n then d.set F.MEM_STACK_STATE 1 n
    else d) d

/-- SLOT_READ_DONE: the slot in turn has been read, and is checked. By now the stacks and the host link have been trained. -/
def execSlotReadDone (r : SlotIn) (s : State) : Res :=
  run (.slotReadDone r) s fun d =>
    if d.get F.BOOT_STAT_PHASE = 2 ∨ d.get F.BOOT_STAT_PHASE = 3 then
      let d := { d with host := { d.host with linkUp := true } }.stacksReady r.failed
      match d.boot.slots with
      | [] => d
      | i :: _ =>
        match d.checkSlot i r.readErr with
        | .bad code => d.failSlot i code 0 0
        | .good rs b =>
          let h := d.header i
          let boot := { d.boot with records := rs, bundle := b, keyId := le h 9 1, version := le h 24 4 }
          let d := ({ d with boot := boot }.set F.BOOT_STAT_SLOT i).set F.BOOT_STAT_IMAGE_SEQ (le h 20 4)
          (d.set F.BOOT_BUILD_BUILD_ID (le h 32 8)).set F.BOOT_STAT_PHASE 4
    else d

/-! ### Applying records (R539, R541) -/

/-- The code of a failure, none where a record is applied. -/
abbrev Applied := Dev × Option Nat

/-- MODE: the boot mode, and PAIRED. A paired device boots in HEAD or STANDBY (R463). -/
def Dev.applyMode (d : Dev) (l : List Byte) : Applied :=
  let m := le l 0 1
  let p := le l 1 1
  if l.length ≠ 2 ∨ 3 < m ∨ 1 < p ∨ (p = 1 ∧ m ≠ 0 ∧ m ≠ 3) then (d, some 0x0A)
  else ((d.set F.GLB_MODE_BOOT_MODE m).set F.GLB_MODE_PAIRED p, none)

/-- KEY_BUNDLE: the import key, the pair key, and the job keys enter the cipher (R411, R427). -/
def Dev.applyBundle (d : Dev) : Dev :=
  d.boot.bundle.foldl (fun d e =>
    if e.1 = 0 then { d with cry := { d.cry with importKey := some e.2 } }
    else if e.1 = 1 then { d with cry := { d.cry with pairKey := some e.2 } }
    else if 0x0100 ≤ e.1 ∧ e.1 < 0x0140 then d.loadSlot (98304 + (e.1 - 0x0100)) e.2
    else d) d

/-- MODE 3 stands on both quads of a pair (R390). -/
def Dev.groupsOk (d : Dev) : Bool :=
  (List.range 16).all fun m =>
    (d.get F.UPL_QUADCFG_MODE (2 * m) == 3) == (d.get F.UPL_QUADCFG_MODE (2 * m + 1) == 3)

/-- PORT_GROUP: quad modes, lane enables and the optics slot map; its layout is not given (log entry 9). -/
def Dev.applyGroups (d : Dev) (l : List Byte) : Applied :=
  let v (n : Nat) : Nat := Config.recordField 3 l n
  let d := foldUpTo 32 (fun q d => d.set F.UPL_QUADCFG_MODE (v q) q) d
  let d := foldUpTo 264 (fun n d => d.set F.SLN_CTL_ENABLE (v (32 + n)) n) d
  let slots := (List.range 128).foldl (fun t m =>
    let o := 296 + 5 * m
    if v o % 2 = 1 then
      Tbl.set t m ({ bus := v (o + 1) % 16, seg := v (o + 2) % 9, first := v (o + 3) % 264, lanes := v (o + 4) % 9 } : OptSlot)
    else t) d.quill.slots
  let d := { d with quill := { d.quill with slots := slots, polls := [], polledAt := [] } }
  if d.groupsOk then (d, none) else (d, some 0x0A)

/-- What the register refuses of a value that a triple has given it in `e` (R541: a record is applied under the rules of the
register it reaches): the flag of the refusal. The owner of a circuit and its container come with later records, and are no
ground here (DEDUCED, log entry 171). -/
def Dev.tripleRefused (d e : Dev) (r : Reg) (i j : Nat) : Option (Fld × Nat) :=
  let on := d.on F.CIR_CFG_DN_EN i || d.on F.CIR_CFG_UP_EN i
  let moved (f : Fld) : Bool := e.get f i != d.get f i
  if r.addr = RegOf.CIR_CFG.addr ∧ on ∧ (moved F.CIR_CFG_N ∨ moved F.CIR_CFG_LOCAL ∨ moved F.CIR_CFG_UP_INDEX) then
    some (F.CIR_STAT_REFUSED, i)
  else if r.addr = RegOf.CIR_CF.addr ∧ on ∧ moved F.CIR_CF_SERVICE then some (F.CIR_STAT_REFUSED, i)
  else if (r.addr = RegOf.CIR_CFG.addr ∨ r.addr = RegOf.CIR_TIMING.addr) ∧ e.circuitsFit i = false then some (F.CIR_STAT_REFUSED, i)
  else if r.addr = RegOf.SLN_TXCFG.addr ∧ e.tapsOk i = false then some (F.SLN_STAT_REFUSED, i)
  else if r.addr = RegOf.PWR_FOLDCFG.addr ∧ e.get F.PWR_FOLDCFG_UNFOLD_PCT ≤ e.get F.PWR_FOLDCFG_FOLD_PCT then
    some (F.QUL_STAT_REFUSED, 0)
  else if r.addr = RegOf.MEM_QOS.addr ∧ 3072 < [1, 3, 5].foldl (fun a k => a + e.get F.MEM_QOS_TAG_RESERVE k) 0 then
    some (F.MEM_STAT_REFUSED, 0)
  else if r.addr = RegOf.PAR_RANGE.addr ∧ 8 ≤ e.get F.PAR_RANGE_SRC i then some (F.PAR_STAT_REFUSED, 0)
  else if r.addr = RegOf.TIM_CFG.addr ∧ 4 ≤ e.get F.TIM_CFG_SRC then some (F.TIM_STAT_REFUSED, 0)
  else if r.addr = RegOf.TIM_PTPCFG.addr ∧ e.get F.TIM_PTPCFG_TRANSPORT = 3 then some (F.TIM_STAT_REFUSED, 0)
  else if (r.addr = RegOf.TIM_TRIG_CTL.addr ∨ r.addr = RegOf.TIM_TRIG_TIME.addr ∨ r.addr = RegOf.TIM_TRIG_WIDTH.addr) ∧
      (5 ≤ e.get F.TIM_TRIG_CTL_MODE i ∨ (e.get F.TIM_TRIG_CTL_MODE i = 2 ∧ e.get F.TIM_TRIG_TIME_PERIOD i ≤ e.get F.TIM_TRIG_WIDTH_WIDTH i)) then
    some (F.TIM_STAT_REFUSED, 0)
  else if r.addr = RegOf.TCH_EMUCONT.addr ∧ emuContOk (e.getReg r i j) = false then some (F.TCH_TRMSTAT_REFUSED, i)
  else if r.addr = RegOf.TCH_EMUDLY.addr ∧ emuDlyOk (e.getReg r i j) = false then some (F.TCH_TRMSTAT_REFUSED, i)
  else if (r.addr = RegOf.TCH_EMUCTL.addr ∨ r.addr = RegOf.TCH_EMUSER.addr) ∧ e.on F.TCH_EMUCTL_EMU_EN i j ∧ e.serialClash i j then
    some (F.TCH_TRMSTAT_REFUSED, i)
  else none

/-- Is a register among a list? -/
def isAmong (r : Reg) (l : List Reg) : Bool := l.any fun x => x.addr == r.addr

/-- The registers of a port (R392): they sit at its first lane-port. -/
def portLevelRegs : List Reg := [RegOf.UPL_MACCFG, RegOf.UPL_TAGCFG, RegOf.UPL_STAT, RegOf.UPL_TXSTAT, RegOf.UPL_CNT]

/-- A port-level register at a lane-port that is not its port's first: it reads zero and ignores writes (R392). -/
def Dev.portHole (d : Dev) (r : Reg) (i : Nat) : Bool := isAmong r portLevelRegs && !d.isFirst i

/-- One triple of a REGISTER record: the fields that the mask names take the value, unless the register refuses it, which then
keeps its own (R541), or ignores writes (R392). One that is not IMG fails. -/
def Dev.applyTriple (d : Dev) (a v mask : Nat) : Option Dev :=
  match findReg a allRegs with
  | none => some d
  | some (r, i, j) =>
    let named := r.fields.filter fun f => bits mask f.lo f.w != 0
    if named.all fun f => f.img then
      let e := named.foldl (fun d f =>
        let m := bits mask f.lo f.w
        d.set f ((d.get f i j &&& (2 ^ f.w - 1 - m)) ||| (bits v f.lo f.w &&& m)) i j) d
      some (if d.portHole r i ∨ (r.addr = RegOf.CIR_GLB.addr ∧ e.circuitsFit 0 = false) then d
        else match d.tripleRefused e r i j with
        | some (f, k) => d.flag f k
        | none => e)
    else none

/-- REGISTER: triples of 24 bytes. -/
def Dev.applyTriples : Nat → List Byte → Dev → Applied
  | 0, _, d => (d, none)
  | n + 1, l, d =>
    match d.applyTriple (le l 0 8) (le l 8 8) (le l 16 8) with
    | some e => Dev.applyTriples n (l.drop 24) e
    | none => (d, some 0x0A)

/-- TABLE: a run of records through a block's port. -/
def Dev.applyTable (d : Dev) (l : List Byte) : Applied :=
  let block := le l 0 2
  let table := le l 2 1
  let count := le l 8 4
  let size := le l 12 4
  if recordLen block table ≠ some size ∨ le l 3 1 ≠ 0 ∨ l.length ≠ 16 + count * size then (d, some 0x0A)
  else
    let r := Dev.tableRun block table (le l 4 4) size count 0 (l.drop 16) d
    (r.1, if r.2.2 then some 0x0A else none)

/-- One entry of a WHITELIST record takes the first free place; a key that does not unwrap leaves its slot EMPTY and
counts. -/
def Dev.applyWhite (d : Dev) (l : List Byte) : Option Dev :=
  if !whiteOk l then none
  else match d.freeWhite with
    | none => none
    | some i =>
      let w := whiteOf l
      let d := d.setWhite i w
      if d.badWrap w ∧ (w.pinTree.isNone ∨ w.pinLoc.isNone) then some (d.flag F.CRY_STAT_UNWRAP) else some (d.pinnedKeys i)

/-- WHITELIST: entries of 96 bytes. -/
def Dev.applyWhites : Nat → List Byte → Dev → Applied
  | 0, _, d => (d, none)
  | n + 1, l, d =>
    match d.applyWhite (l.take 96) with
    | some e => Dev.applyWhites n (l.drop 96) e
    | none => (d, some 0x0A)

/-- EMULATION: each emulated terminal's serial and its key-encryption key, wrapped under the import key (R244). The layout is
not given (log entry 9). -/
def Dev.applyEmu (d : Dev) (l : List Byte) : Dev :=
  (List.range (Config.recordCount 7 l % 16385)).foldl (fun d n =>
    let v (k : Nat) : Nat := Config.recordField 7 l (3 * n + k)
    let g := v 0 % 16384
    let d := d.set F.TCH_EMUSER_SERIAL (v 1) (g / 128) (g % 128)
    match d.cry.importKey.bind fun k => unwrap k (toBE (v 2 % 2 ^ 320) 40) with
    | some k => d.setEmu g { d.emu g with kek := some k }
    | none => d.flag F.CRY_STAT_UNWRAP) d

/-- PAIR: SIDE, PAIR_ID and the configuration digest (R462, log entry 9). -/
def Dev.applyPair (d : Dev) (l : List Byte) : Dev :=
  let v (n : Nat) : Nat := Config.recordField 8 l n
  { d with stl := { d.stl with pairId := v 1 % 2 ^ 128, digest := v 2 % 2 ^ 128 } }.set F.STL_CFG_SIDE (v 0)

/-- PATCH: an engine, the words of its patch memory and its match registers (R508, log entry 9): field 0 the engine, 1 the mask
of Scribes, 2 how many words, 3 a bit for each match register, 4 + k a word and 1,024 + m a match register. More words than
the store fail. -/
def Dev.applyPatch (d : Dev) (l : List Byte) : Applied :=
  let v (n : Nat) : Nat := Config.recordField 9 l n
  let quill := v 0 % 2 = 1
  let n := v 2
  let words (w : Nat) (t : Tbl Nat) : Tbl Nat := (List.range n).foldl (fun t k => Tbl.set t k (v (4 + k) % 2 ^ w)) t
  if (if quill then 64 else 512) < n then (d, some 0x0A)
  else if quill then
    let d := { d with quill := { d.quill with patches := words 48 d.quill.patches } }
    (foldUpTo 8 (fun m d => if bit (v 3) m then d.loadReg RegOf.QUL_MATCH m (v (1024 + m)) else d) d, none)
  else
    (foldUpTo 128 (fun c d =>
      if bit (v 1) c then
        let d := d.setScribe c { d.scribe c with patches := words 96 (d.scribe c).patches }
        foldUpTo 32 (fun m d =>
          if bit (v 3) m then
            RegOf.SCR_MATCH.fields.foldl (fun d f => d.set f (bits (v (1024 + m)) f.lo f.w) c m) d
          else d) d
      else d) d, none)

/-- QUILL: filter and rule records, each with its index (R517, R518, log entry 9). At a warm boot, which keeps Quill's state,
a record that stands already is not written again. -/
def Dev.applyQuill (d : Dev) (l : List Byte) : Applied :=
  (List.range (Config.recordCount 10 l % 641)).foldl (fun (a : Applied) n =>
    let v (k : Nat) : Nat := Config.recordField 10 l (3 * n + k)
    let r := v 2 % 2 ^ 128
    match a.2 with
    | some _ => a
    | none =>
      if v 0 % 2 = 0 then
        (let k := v 1 % 576
         if Tbl.get 0 a.1.quill.filters k = r % 2 ^ 24 then a else (a.1.putFilter k r, none))
      else if ruleOk r = false then (a.1, some 0x0A)
      else if a.1.ruleRec (v 1 % 64) = r then a
      else (a.1.putRule (v 1 % 64) r, none)) (d, none)

/-- The indices that the QUILL records name, of rules (kind 1) or of filters (kind 0). -/
def quillNamed (rs : List ImgRec) (kind : Nat) : List Nat :=
  (rs.filter fun r => r.type == 0x000A).flatMap fun r =>
    ((List.range (Config.recordCount 10 r.body % 641)).filter fun n => Config.recordField 10 r.body (3 * n) % 2 == kind).map fun n =>
      Config.recordField 10 r.body (3 * n + 1) % (if kind = 1 then 64 else 576)

/-- Rules and filters that the image does not name (R523, R547): the rule set of R523 takes the place of a missing QUILL record, and
the others are not VALID, whatever a host had written before a warm boot (DEDUCED, log entry 183). -/
def Dev.quillDefaults (d : Dev) : Dev :=
  let rs := d.boot.records
  let own := rs.any fun r => r.type == 0x000A
  let rules := quillNamed rs 1
  let filters := quillNamed rs 0
  let d := foldUpTo 64 (fun i d =>
    let r := if own then 0 else Tbl.get 0 defaultRules i
    if rules.contains i || d.ruleRec i == r then d else d.putRule i r) d
  foldUpTo 576 (fun k d => if filters.contains k || Tbl.get 0 d.quill.filters k == 0 then d else d.putFilter k 0) d

/-- A fuse operation of a FUSE record (log entry 9): the kind and its value. -/
def fuseOpOf (kind v : Nat) : FuseOp :=
  match kind with
  | 0 => .hash1 (v % 2 ^ 384)
  | 1 => .revoke (v % 2)
  | 2 => .version v
  | _ => .other

/-- May a fuse operation run after the operations `before` it (R546)? KEY_HASH1 is blank no more once one of them writes it. -/
def Dev.fuseOk (d : Dev) (before : List FuseOp) : FuseOp → Bool
  | .hash1 _ => !bit d.boot.fuses.hashPresent 1 && !(before.any fun x => match x with | .hash1 _ => true | _ => false)
  | .revoke i => i != d.boot.keyId
  | .version n => decide (n ≤ d.boot.version)
  | .other => false

/-- FUSE: its operations wait for boot lock; one that may not run fails boot before the first fuse is written. -/
def Dev.applyFuse (d : Dev) (l : List Byte) : Applied :=
  let ops := (List.range (Config.recordCount 0xF0 l % 256)).map fun n =>
    fuseOpOf (Config.recordField 0xF0 l (2 * n)) (Config.recordField 0xF0 l (2 * n + 1))
  let all := d.boot.fuseTodo ++ ops
  if (List.range all.length).all fun n => d.fuseOk (all.take n) (all.getD n .other) then ({ d with boot := { d.boot with fuseTodo := all } }, none)
  else (d, some 0x0A)

/-- One record is applied, under the rules of the register or port it reaches. -/
def Dev.applyImgRec (d : Dev) (r : ImgRec) : Applied :=
  if r.flags % 2 ≠ r.flags then (d, some 0x09)
  else match r.type with
    | 0x0001 => d.applyMode r.body
    | 0x0002 => (d, none)
    | 0x0003 => d.applyGroups r.body
    | 0x0004 => if r.body.length % 24 ≠ 0 then (d, some 0x09) else Dev.applyTriples (r.body.length / 24) r.body d
    | 0x0005 => d.applyTable r.body
    | 0x0006 => if r.body.length % 96 ≠ 0 then (d, some 0x09) else Dev.applyWhites (r.body.length / 96) r.body d
    | 0x0007 => (d.applyEmu r.body, none)
    | 0x0008 => (d.applyPair r.body, none)
    | 0x0009 => d.applyPatch r.body
    | 0x000A => d.applyQuill r.body
    | 0x000B => ({ d with tim := { d.tim with dataset := r.body } }, none)
    | 0x00F0 => d.applyFuse r.body
    | _ => (d, if r.flags = 1 then none else some 0x09)

/-- Apply records in order; answers the index and offset of the one that failed, with its code. -/
def Dev.applyRecords : Nat → Nat → List ImgRec → Dev → Dev × Option (Nat × Nat × Nat)
  | _, _, [], d => (d, none)
  | n, last, r :: rest, d =>
    if r.type < last then (d, some (0x09, n, r.off))
    else
      let a := d.applyImgRec r
      match a.2 with
      | some code => (a.1, some (code, n, r.off))
      | none => Dev.applyRecords (n + 1) r.type rest a.1

/-! ### The checks of the whole configuration (R541) -/

/-- R250: a CASCADE device is not paired and names 1 to 32 trunk members, each with one emulated terminal. -/
def Dev.trunkOk (d : Dev) : Bool :=
  let m := (List.range 128).filter fun c => d.trunk c
  d.get F.GLB_MODE_BOOT_MODE != 1 ||
    (decide (1 ≤ m.length) && decide (m.length ≤ 32) && m.all fun c => d.use F.TCH_TRMCFG_EMU_COUNT c == 1)

/-- R341: the pools and the circuit reserve fit in 256 MiB. -/
def Dev.poolsOk (d : Dev) : Bool :=
  decide (d.get F.BUF_CFG_POOL0_MIB + d.get F.BUF_CFG_POOL1_MIB + d.get F.BUF_CFG_POOL2_MIB + d.get F.BUF_CFG_POOL3_MIB +
    d.get F.CIR_GLB_BUF_MIB ≤ 256)

/-- R344: the reserves of each pool fit in it. -/
def Dev.allReservesFit (d : Dev) : Bool :=
  (List.range 4).all fun j => decide ((List.range 513).foldl (fun a o => a + d.reserve o j) 0 ≤ d.poolCount j)

/-- Is a mask one that R362 allows for bank-address bit `n`: its own base bit, and beside it only row bits? -/
def mapOk (n m : Nat) : Bool := m % 2 ^ 21 == F.MEM_MAP_MASK.dflt.val n 0 % 2 ^ 21 && decide (m < 2 ^ 34)

/-- R362, of every mask. -/
def Dev.masksOk (d : Dev) : Bool := (List.range 11).all fun n => mapOk n (d.get F.MEM_MAP_MASK n)

/-- R153: no channel's G exceeds its GUAR_LIMIT. -/
def Dev.loadsOk (d : Dev) : Bool := (List.range 128).all fun c => decide (d.gLoad c ≤ d.guarLimit c)

/-- The container of every circuit whose UP_EN an image sets is checked once the TABLE records stand (R193): a circuit that it does not
carry keeps the defaults of CIR_CFG, and is REFUSED (log entry 171). -/
def Dev.checkCircuits (d : Dev) : Dev :=
  let head (c : Nat) : Bool := d.get F.GLB_MODE_BOOT_MODE != 2 && !(d.get F.GLB_MODE_BOOT_MODE == 1 && d.trunk c)
  let id (i : Nat) : Nat := 16 * d.get F.CIR_CFG_LOCAL i + d.get F.CIR_CFG_UP_INDEX i
  let carried (i : Nat) : Bool := d.gnt.cfg.any fun e =>
    e.1 / 512 == i / 8 && contValid e.2 && contId e.2 == id i && carriesCircuit e.2 (d.use F.CIR_CFG_N i)
  foldUpTo 1024 (fun i e =>
    if d.on F.CIR_CFG_UP_EN i && head (i / 8) && !carried i then
      (RegOf.CIR_CFG.fields.foldl (fun e f => e.set f (f.dflt.val i 0) i) e).flag F.CIR_STAT_REFUSED i
    else e) d

/-- Every check of the whole configuration. -/
def Dev.configOk (d : Dev) : Bool :=
  d.groupsOk && d.trunkOk && d.poolsOk && d.allReservesFit && d.masksOk && d.loadsOk &&
    !(d.on F.GLB_MODE_PAIRED && d.get F.GLB_MODE_BOOT_MODE != 0 && d.get F.GLB_MODE_BOOT_MODE != 3)

/-! ### The lanes start (R277, R542) -/

/-- Homes of the cascade's buckets: the image's value where it names a trunk member, else the default placement (R259). -/
def Dev.placeBuckets (d : Dev) : Dev :=
  let m := (List.range 128).filter fun c => d.trunk c
  if d.get F.GLB_MODE_BOOT_MODE ≠ 1 then
    foldUpTo 256 (fun b d => { d with regs := Tbl.erase d.regs (F.GLB_CASBKT_HOME.key b 0) }) d
  else
    foldUpTo 256 (fun b d =>
      let h := d.get F.GLB_CASBKT_HOME b
      let given := (Tbl.find? d.regs (F.GLB_CASBKT_HOME.key b 0)).isSome
      let n := if given ∧ m.contains h then h else m.getD (b % max 1 m.length) 0
      let d := if given && n != h then d.bumpAt 0x790 0 1 else d
      (d.set F.GLB_CASBKT_HOME n b).set F.GLB_CASBKT_CUR n b) d

/-- The registers that show what the configuration comes to. -/
def Dev.showConfig (d : Dev) : Dev :=
  let d := foldUpTo 4 (fun j d =>
    (d.set F.BUF_POOLSTAT_FREE (d.poolFree j) j).set F.BUF_POOLSTAT_LOW (d.poolFree j) j) d
  (foldUpTo 128 (fun c d => d.showLoad c) d).showPages

/-- The mirrors of tables that stand empty are empty (R557, R558): what a former configuration left there goes. Those of Quill's rules,
which a boot keeps (R536), stay. -/
def Dev.clearMirrors (d : Dev) : Dev :=
  { d with obs := List.filter (fun (e : Nat × Byte) =>
      decide (e.1 < 0x40000000) || decide (0x5D000000 ≤ e.1) || (decide (0x5C004000 ≤ e.1) && decide (e.1 < 0x5C005000))) d.obs }

/-- The owner records that the image does not name stand at their defaults (R358), and are mirrored as the others are (R558). -/
def Dev.mirrorOwners (d : Dev) : Dev :=
  foldUpTo 513 (fun o d =>
    if (Tbl.find? d.buf.ocfg o).isSome then d else d.mirror 0x0B000000 64 o 0 32 (d.ocfg o)) d

/-- A stack that Quill read above 105 °C during VIGIL leaves self-refresh and goes out of use (R372, R379). -/
def Dev.hotOut (d : Dev) : Dev :=
  let d := d.mem.hotInVigil.foldl (fun d n =>
    if d.get F.MEM_STACK_STATE n = 2 then (d.set F.MEM_STACK_STATE 1 n).stackOut n else d) d
  { d with mem := { d.mem with hotInVigil := [] } }.showMig

/-- The records have been applied: links run, the mirrors hold the configuration, and the enabled lanes start. -/
def Dev.startLanes (d : Dev) : Dev :=
  let d := foldUpTo 4 (fun l d => d.set F.GLB_D2DSTAT_LINK_UP 1 l) d
  let d := d.placeBuckets.showConfig.hotOut.mirrorOwners.settleWrites
  let d := foldUpTo 16 (fun k d => if d.on F.TIM_TRIG_CTL_ENABLE k then d.armTrig k else d) d
  let d := { d with lanes := { d.lanes with imgOn := (List.range 128).filter fun c => d.on F.SLN_CTL_ENABLE c } }
  foldUpTo 264 (fun n d => if d.on F.SLN_CTL_ENABLE n then d.laneOn n else d) d

/-- The code of an image that lacks a record or holds one too often (R540): one MODE record. -/
def Dev.modeRecords (d : Dev) : Nat := (List.filter (fun x : ImgRec => x.type == 0x0001) d.boot.records).length

/-- The checks of the whole configuration after the records. -/
def Dev.checkConfig (d : Dev) (i modes : Nat) : Dev :=
  let e : Dev := d.quillDefaults.checkCircuits
  if modes == 1 && e.configOk then e.startLanes.set F.BOOT_STAT_PHASE 5
  else
    let q := e.draw (2 ^ 24)
    let o := q.1.draw (2 ^ 32)
    let code : Nat := if modes = 1 then 0x0A else 0x09
    o.1.clearConfig.failSlot i code q.2 o.2

/-- RECORDS_APPLIED: the accepted image's records are applied in order; a record or a check that fails fails the slot. -/
def execRecordsApplied (s : State) : Res :=
  run .recordsApplied s fun d =>
    if d.get F.BOOT_STAT_PHASE = 4 then
      let i := d.get F.BOOT_STAT_SLOT
      let d := { d.dropImage with imgApplied := true }.clearMirrors
      let modes := d.modeRecords
      let r := Dev.applyRecords 0 0 d.boot.records d.applyBundle
      match r.2 with
      | some (code, n, off) => r.1.clearConfig.failSlot i code n off
      | none => r.1.checkConfig i modes
    else d

/-! ### Boot lock and the first frame (R15, R441, R483, R546) -/

/-- Blow the lowest version bits that stand until `n` are blown (R546): the fused minimum is their number (R540). -/
def blowVersion (n v : Nat) : Nat :=
  foldUpTo 64 (fun k v => if popcount v 64 < n ∧ !bit v k then v ||| 2 ^ k else v) v

/-- One fuse operation; where its verify fails, what it wrote is open. -/
def Dev.blowFuse (bad : Bool) (d : Dev) (op : FuseOp) : Dev :=
  let w := if bad then d.draw 2 else (d, 1)
  let d := if bad then ((w.1.bump F.BOOT_CNT_COUNT 7).alert 1) else w.1
  if w.2 = 0 then d
  else
    let f := d.boot.fuses
    let f := match op with
      | .hash1 h => { f with hash1 := h, hashPresent := f.hashPresent ||| 2 }
      | .revoke i => { f with revoked := f.revoked ||| 2 ^ i }
      | .version n => { f with version := blowVersion n f.version }
      | .other => f
    { d with boot := { d.boot with fuses := f } }

/-- A paired device comes up squelched: HEAD waits for its first ACK, STANDBY for its partner (R483). -/
def Dev.enterPair (d : Dev) : Dev :=
  let m := d.get F.GLB_MODE_BOOT_MODE
  if !d.paired then d
  else
    let stl := { d.stl with wasActive := m == 0, waiting := m == 0, copy := if m = 3 then 1 else 0, waitFrom := d.clk.cyc }
    let d := { d with stl := stl }.squelch
    (if m = 3 then d.toRole 3 else d).sendHello

/-- BOOT_LOCK: the enabled lanes run; RWL fields lock, the boot mode is entered, the fuse operations run, and bandwidth windows
start (R588). -/
def execBootLock (fuseBad : Bool) (s : State) : Res :=
  run (.bootLock fuseBad) s fun d =>
    if d.get F.BOOT_STAT_PHASE = 5 then
      let warm := d.on F.BOOT_STAT_WARM
      let d := (d.set F.BOOT_STAT_LOCKED 1).set F.BOOT_STAT_PHASE 6
      let d := { d with arb := { d.arb with trans := none } }
      let d := (d.toMode (d.get F.GLB_MODE_BOOT_MODE) (if warm then 6 else 0)).enterPair
      let d := if d.hasSource ∧ d.get F.TIM_STAT_STATE = 0 then d.acquire else d
      let d := d.boot.fuseTodo.foldl (Dev.blowFuse fuseBad) d
      let pmu := { d.pmu with winStart := d.clk.cyc, winNs := d.use F.PMU_BWCFG_WIN_NS }
      { d with boot := { d.boot with fuseTodo := [] }, pmu := pmu }.showFuses
    else d

/-- TOD_WAIT_END: the first time sample has come, or the wait has expired; framing starts at the next boundary. -/
def execTodWaitEnd (s : State) : Res :=
  run .todWaitEnd s fun d =>
    if d.get F.BOOT_STAT_PHASE = 6 then
      let d := d.set F.BOOT_STAT_PHASE 7
      let fab := { d.fab with winAt := d.clk.cyc, winUs := d.use F.PWR_FOLDCFG_WIN_US }
      { d with fab := fab, tim := { d.tim with firstFrame := true }, tm := { d.tm with swept := d.stamp } }
    else d

/-- The STATUS pins (R544). -/
def Dev.statusPins (d : Dev) : Nat :=
  let p := d.get F.BOOT_STAT_PHASE
  if d.boot.resetHeld then 0 else if p = 8 then 7 else if p = 7 then 8 + d.mode else p

/-! ### The flash port (R549) -/

/-- Bytes that the manual leaves open. -/
def Dev.drawBytes (d : Dev) (n : Nat) : Dev × List Byte :=
  ({ d with free := d.free + n }, (List.range n).map fun k => BitVec.ofNat 8 (Config.freeValue (d.free + k)))

/-- A GO of BOOT_FLCTL. -/
def Dev.flashGo (d : Dev) (op a : Nat) : Dev :=
  if d.on F.BOOT_FLCTL_BUSY then d
  else
    let own := d.bootDone && decide (op ≠ 0) && a / 0x04000000 == d.get F.BOOT_STAT_SLOT
    let skew := (op == 1 && a % 256 != 0) || (op == 2 && a % 65536 != 0) || decide (2 ^ 27 < a + 256)
    if op == 3 || skew || own then d.flag F.BOOT_STAT_REFUSED
    else
      let d := ((d.set F.BOOT_FLCTL_ADDR a).set F.BOOT_FLCTL_OP op).bump F.BOOT_CNT_COUNT 4
      let d := (d.set F.BOOT_FLCTL_GO 1).set F.BOOT_FLCTL_BUSY 1
      { d with boot := { d.boot with flashOp := some { op := op, addr := a } } }

/-- The BOOT block takes a host's write whenever the host link is up (R543). -/
def Dev.bootW (d : Dev) (f : Dev → Dev) : Dev := if d.boot.resetHeld ∨ d.mode = 4 then d else f d

/-- FLASH_READ_PAGE. -/
def execFlashReadPage (a : Fin (2 ^ 27)) (s : State) : Res :=
  run (.flashReadPage a) s fun d => d.bootW fun d => d.flashGo 0 a

/-- FLASH_PROGRAM_PAGE. -/
def execFlashProgramPage (a : Fin (2 ^ 27)) (s : State) : Res :=
  run (.flashProgramPage a) s fun d => d.bootW fun d => d.flashGo 1 a

/-- FLASH_ERASE. -/
def execFlashErase (a : Fin (2 ^ 27)) (s : State) : Res :=
  run (.flashErase a) s fun d => d.bootW fun d => d.flashGo 2 a

/-- Put a page in BOOT_FLDATA. -/
def Dev.showPage (d : Dev) (l : List Byte) : Dev := foldUpTo 32 (fun i d => d.set F.BOOT_FLDATA_DATA (le l (8 * i) 8) i) d

/-- The page that BOOT_FLDATA holds. -/
def Dev.pageData (d : Dev) : List Byte := (List.range 32).flatMap fun i => toLE (d.get F.BOOT_FLDATA_DATA i) 8

/-- Write bytes to the flash. -/
def Dev.flashPut (d : Dev) (a : Nat) (l : List Byte) : Dev :=
  { d with boot := { d.boot with flash := Mem.writeN d.boot.flash a (l.map fun b => b ^^^ 0xFF) } }

/-- A page is programmed: an erased byte takes its value; what a byte that is not erased becomes is open (log entry 31). -/
def Dev.programPage (d : Dev) (a : Nat) : Dev :=
  let old := d.flashBytes a 256
  let r := d.drawBytes 256
  let new := (List.range 256).map fun k =>
    if old.getD k 0 = 0xFF ∨ old.getD k 0 = d.pageData.getD k 0 then d.pageData.getD k 0 else r.2.getD k 0
  r.1.flashPut a new

/-- The operation under way ends; what an operation with an error leaves is open. -/
def Dev.flashDone (d : Dev) (op a : Nat) (err : Bool) : Dev :=
  if err then
    let r := d.drawBytes (if op = 2 then 65536 else 256)
    (if op = 0 then r.1.showPage r.2 else r.1.flashPut a r.2).flag F.BOOT_STAT_FLERR
  else match op with
    | 0 => d.showPage (d.flashBytes a 256)
    | 1 => d.programPage a
    | _ => d.flashPut a (List.replicate 65536 0xFF)

/-- FLASH_OP_DONE. -/
def execFlashOpDone (err : Bool) (s : State) : Res :=
  run (.flashOpDone err) s fun d =>
    match d.boot.flashOp with
    | none => d
    | some o =>
      let d := { d with boot := { d.boot with flashOp := none } }
      ((d.set F.BOOT_FLCTL_GO 0).set F.BOOT_FLCTL_BUSY 0).flashDone o.op o.addr err

end Sys2Proof.Machine
end

