-- ==== Sys2Proof/Machine/Micro.lean ====
section
/-!
DEFINITION. The microcode engines beside the routines (R489 to R514): abandoning and restarting a routine, parity
failures, the watchdog, HALT, the trace ring and the indirect port.
-/

namespace Sys2Proof.Machine

/-! ### The running routine (R495, R505) -/

/-- The class of an event (R495). -/
def Todo.cls : Todo → Nat
  | .loss | .gasp | .track .. | .mark | .evidence | .takeover => 1
  | .activate | .activated | .doze .. | .dozeEnd | .alarm .. | .moved _ | .msg => 2
  | .host .. | .keys => 3

/-- A Scribe's pending events and messages in the order of R495: (rank, entry point, class, local number, where: the
place in the list of events, or none for the oldest message). -/
def Dev.pendingOf (d : Dev) (c : Nat) : List (Nat × Nat × Nat × Nat × Option Nat) :=
  let s := d.scribe c
  let ev := (s.todo.mapIdx fun i e => (e, i)).filterMap fun x =>
    if x.1.2 = .msg then none
    else some (x.1.2.cls * 2048 + x.1.1 * 8 + d.rankOf c x.1.1 x.1.2, x.1.2.entry, x.1.2.cls, x.1.1, some x.2)
  let msg := (s.inbox.take 1).map fun m =>
    (2 * 2048 + m.loc * 8 + 4, if d.termRole c then 0x0600 else 0x0240, 2, m.loc, (none : Option Nat))
  ev ++ msg

/-- The event whose routine runs: the highest pending one (R495, R496). -/
def Dev.runningOf (d : Dev) (c : Nat) : Option (Nat × Nat × Nat × Nat × Option Nat) :=
  (d.pendingOf c).foldl (fun a x => match a with
    | none => some x
    | some y => if x.1 < y.1 then some x else a) none

/-- Drop the event of the running routine. -/
def Dev.dropRunning (d : Dev) (c : Nat) : Dev :=
  let s := d.scribe c
  match d.runningOf c with
  | none => d
  | some (_, _, _, _, some i) => (d.setScribe c { s with todo := s.todo.eraseIdx i }).runEnded c
  | some (_, _, _, _, none) => (d.inboxPop c).runEnded c

/-- Does a routine run in compatibility mode (R501)? -/
def Dev.compat (d : Dev) (c entry : Nat) : Bool :=
  (d.matchOf c entry).any fun m => d.on F.SCR_MATCH_COMPAT c m

/-- The alert of a Scribe in HALT is present while one is (R569). -/
def Dev.showHalt (d : Dev) : Dev :=
  d.alertActive 6 ((List.range 128).any fun c => d.get F.SCR_STAT_STATE c == 3)

/-- The running routine is abandoned (R499): its staged stores are discarded, its event stays pending, and it restarts at its entry
point, after 4 times without a commit protected until its next one (R500). -/
def Dev.abandon (d : Dev) (c entry class_ loc : Nat) : Dev :=
  let s := d.scribe c
  let n := if s.abandoned = some (entry, loc) then s.abandons + 1 else 1
  let d := (d.flag F.SCR_STAT_ABANDON c).traceMicro c entry 5 class_ loc 0
  let d := d.setScribe c { s with abandons := n, abandoned := some (entry, loc) }
  let d := ((d.set F.SCR_STAT_STATE 1 c).set F.SCR_STAT_ENTRY entry c).set F.SCR_STAT_PC entry c
  if 4 ≤ n then (d.set F.SCR_STAT_PROTECT 1 c).bump F.SCR_CNT_COUNT c 3 else d

/-! ### ROUTINE_RESTART (R499, R500) -/

/-- A routine that an event of a higher class has interrupted restarts; one that runs protected is not interrupted (R500). How long
the event waited is not fixed. -/
def Dev.routineRestart (d : Dev) (c : Nat) : Dev :=
  match d.runningOf c with
  | none => d
  | some (_, entry, class_, loc, _) =>
    if d.scribeUp c = false ∨ d.on F.SCR_STAT_PROTECT c ∨ d.compat c entry then d
    else
      let d := d.abandon c entry class_ loc
      let w := d.draw 2049
      w.1.set F.SCR_CNT_COUNT (max (w.1.get F.SCR_CNT_COUNT c 11) w.2) c 11

/-- ROUTINE_RESTART. -/
def execRoutineRestart (c : Ch) (s : State) : Res := run (.routineRestart c) s fun d => d.routineRestart c

/-! ### WATCHDOG (R503) -/

/-- WATCHDOG: the routine is ended after 65,536 cycles, and its event is dropped. -/
def execWatchdog (c : Ch) (s : State) : Res :=
  run (.watchdog c) s fun d =>
    if d.scribeUp c then ((d.runCycles 65536).flag F.SCR_STAT_WDOG c).dropRunning c else d

/-! ### Parity failures and HALT (R502, R504) -/

/-- A patch or microcode word at `addr` failed parity: the routine is abandoned, patch memory and match registers are
loaded again in at most 2 µs, and the routine restarts; a compatibility routine is ended. A second failure at the address within 1 ms
halts the Scribe. -/
def Dev.patchReload (d : Dev) (c addr : Nat) : Dev :=
  if d.scribeUp c = false then d
  else
    let s := d.scribe c
    let d := d.flag F.SCR_STAT_PARITY c
    let d : Dev := match d.runningOf c with
      | none => d
      | some (_, entry, class_, loc, _) =>
        if d.compat c entry then ((d.dropRunning c).flag F.SCR_STAT_FAULT c).traceMicro c addr 6 class_ loc 0
        else d.abandon c entry class_ loc
    let again := s.parityAt.any fun p => p.1 == addr && decide (d.clk.cyc ≤ p.2 + 1500000)
    let seen := s.parityAt.filter fun p => p.1 != addr && decide (d.clk.cyc ≤ p.2 + 1500000)
    let at_ := d.clk.cyc
    let w := d.draw 3001
    let d := (w.1.runCycles w.2).bump F.SCR_CNT_COUNT c 9
    let d := d.setScribe c { d.scribe c with parityAt := (addr, at_) :: seen }
    if again then ((((d.runEnded c).set F.SCR_STAT_STATE 3 c)).alert 6).showHalt else d

/-- PATCH_RELOAD_DONE. -/
def execPatchReloadDone (c : Ch) (addr : Fin 32768) (s : State) : Res :=
  run (.patchReloadDone c addr) s fun d => d.patchReload c addr

/-- RESTART of SCR_STAT is written (R504): a Scribe in HALT loads its patch memory, loses every pending event but those of
class 0 and the commands still in their rings, and is idle; outside HALT it is refused. -/
def Dev.scribeRestart (d : Dev) (c : Nat) : Dev :=
  if d.get F.SCR_STAT_STATE c = 3 then
    let s := d.scribe c
    let l := s.todo.filter fun e => match e.2 with
      | .host .. => true
      | _ => false
    let d := s.inbox.foldl (fun d _ => d.inboxPop c) d
    let d := d.setScribe c { d.scribe c with todo := l }
    ((d.set F.SCR_STAT_STATE 0 c).bump F.SCR_CNT_COUNT c 9).showHalt
  else d.flag F.SCR_STAT_REFUSED c

/-- SCRIBE_RESTART. -/
def execScribeRestart (c : Ch) (s : State) : Res :=
  run (.scribeRestart c) s fun d => d.hostW fun d => d.scribeRestart c

/-! ### Tracing and the indirect port (R509, R513, R514) -/

/-- A write of SCR_TRCCFG (R513): it empties the ring. -/
def Dev.writeTrcCfg (d : Dev) (v : Nat) : Dev :=
  if 128 < written F.SCR_TRCCFG_TARGET v then d.flag F.SCR_STAT_REFUSED 0
  else
    let d := d.store RegOf.SCR_TRCCFG 0 0 v
    ({ d with micro := { trace := [], running := false, ended := false } }.set F.SCR_TRCCFG_COUNT 0).set F.SCR_TRCCFG_WRAPPED 0

/-- TRACE_CONFIG. -/
def execTraceConfig (v : Fin (2 ^ 64)) (s : State) : Res :=
  run (.traceConfig v) s fun d => d.hostW fun d => d.writeTrcCfg v

/-- A read through SCR_IND_CTL (R514). -/
def Dev.scrRead (d : Dev) (index table : Nat) : Dev :=
  if d.on F.SCR_IND_CTL_BUSY then d
  else
    let d := (d.set F.SCR_IND_CTL_INDEX index).set F.SCR_IND_CTL_TABLE table
    let bad := table = 3 ∨ (table = 1 ∧ 64 ≤ index) ∨ (table = 2 ∧ 1024 ≤ index)
    if bad then d.flag F.SCR_IND_CTL_REFUSED
    else
      let r := match table with
        | 0 => Tbl.get 0 (d.scribe (index / 512)).patches (index % 512)
        | 1 => Tbl.get 0 d.quill.patches index
        | _ => d.micro.trace.getD index 0
      d.showData F.SCR_IND_DATA_DATA 2 r

/-- SCR_IND_READ. -/
def execScrIndRead (index : Fin 65536) (table : Fin 4) (s : State) : Res :=
  run (.scrIndRead index table) s fun d => d.hostW fun d => d.scrRead index table

end Sys2Proof.Machine
end

