-- ==== Sys2Proof/Machine/RegWrite.lean ====
section
/-!
DEFINITION. A host's reads and writes of BAR0 (R10 to R13, R26, R543): what each register does with a write beyond storing
it, and when it takes effect.
-/

namespace Sys2Proof.Machine

/-! ### Shapes of register writes -/

/-- A write of an indirect port's control register: nothing while BUSY is 1; otherwise the fields are stored, and GO starts the
access that they name. -/
def Dev.portWrite (d : Dev) (r : Reg) (busy go : Fld) (v : Nat) (act : Dev → Dev) : Dev :=
  if d.on busy then d
  else
    let d := d.store r 0 0 (setBits v go.lo 1 0)
    if written go v = 1 then act d else d

/-- A write of TCH_BRXCFG: it takes effect at the next upstream subframe boundary (R102). -/
def Dev.writeBrxCfg (d : Dev) (c v : Nat) : Dev := d.storeUp c RegOf.TCH_BRXCFG v

/-- A write of PWR_FOLDCFG (R534). -/
def Dev.writeFoldCfg (d : Dev) (v : Nat) : Dev :=
  if written F.PWR_FOLDCFG_UNFOLD_PCT v ≤ written F.PWR_FOLDCFG_FOLD_PCT v then d.flag F.QUL_STAT_REFUSED
  else d.storeHeld RegOf.PWR_FOLDCFG 0 0 v

/-- A write of MEM_QOS: the reserves sum to at most 3,072 (R364, R386); those of write ports are used as 0. -/
def Dev.writeQos (d : Dev) (p v : Nat) : Dev :=
  let sum := [1, 3, 5].foldl (fun a k =>
    a + if k = p then written F.MEM_QOS_TAG_RESERVE v else d.get F.MEM_QOS_TAG_RESERVE k) 0
  if 3072 < sum then d.flag F.MEM_STAT_REFUSED else d.store RegOf.MEM_QOS p 0 v

/-- A write of MEM_THROTTLE by the host (R378, R381): where an action of Quill sets LEVEL in the same cycle, the higher level wins. -/
def Dev.writeThrottle (d : Dev) (v : Nat) : Dev :=
  let n := written F.MEM_THROTTLE_LEVEL v
  let d := { d with quill := { d.quill with hostLevel := n } }
  if d.quill.levelAt = some d.clk.cyc ∧ n < d.get F.MEM_THROTTLE_LEVEL then d
  else (d.set F.MEM_THROTTLE_LEVEL n).set F.MEM_THROTTLE_BY_QUILL 0

/-- A write of MEM_RETIRE (R384): one that is refused stores no unit; REFUSED is cleared by its bit in any case. -/
def Dev.writeRetire (d : Dev) (v : Nat) : Dev :=
  if written F.MEM_RETIRE_GO v = 1 then
    let d := if written F.MEM_RETIRE_REFUSED v = 1 then d.set F.MEM_RETIRE_REFUSED 0 else d
    d.retireCmd { s := written F.MEM_RETIRE_STACK v, ch := written F.MEM_RETIRE_CHANNEL v, psid := written F.MEM_RETIRE_PSID v }
  else d.store RegOf.MEM_RETIRE 0 0 v

/-- A write of MEM_MAP (R362, R385): a mask that R362 does not allow is refused. -/
def Dev.writeMap (d : Dev) (n v : Nat) : Dev :=
  if mapOk n (written F.MEM_MAP_MASK v) then d.store RegOf.MEM_MAP n 0 v
  else (d.rwlWrite RegOf.MEM_MAP n 0).flag F.MEM_STAT_REFUSED

/-- A write of TIM_SET_NS (R441, R454). -/
def Dev.writeSetNs (d : Dev) (v : Nat) : Dev :=
  let d := d.store RegOf.TIM_SET_NS 0 0 (setBits v F.TIM_SET_NS_GO.lo 1 0)
  if written F.TIM_SET_NS_GO v = 1 then d.goStep else d

/-- A write of PMU_GCTL (R598). -/
def Dev.writeGctl (d : Dev) (v : Nat) : Dev :=
  let d := d.store RegOf.PMU_GCTL 0 0 (setBits v F.PMU_GCTL_CLEAR.lo 1 0)
  if written F.PMU_GCTL_CLEAR v = 1 then d.pmuClear else d

/-- A write of SLN_RXCFG (R287): at the next upstream subframe boundary on a burst receiver; on a continuous one at the next
4,096-symbol boundary, less than 80 ns on, before any later command (DESIGN CHOICE, log entry 165). -/
def Dev.writeRxCfg (d : Dev) (n v : Nat) : Dev :=
  if d.burstLane n then d.storeUp n RegOf.SLN_RXCFG v else d.store RegOf.SLN_RXCFG n 0 v

/-- A write of FWD_FLUSH (R338): one that names an index beyond its scope is refused, whether GO is set or not. -/
def Dev.writeFlush (d : Dev) (v : Nat) : Dev :=
  if written F.FWD_FLUSH_GO v = 1 then d.fwdFlush (written F.FWD_FLUSH_ID v) (written F.FWD_FLUSH_SCOPE v)
  else if flushBeyond (written F.FWD_FLUSH_ID v) (written F.FWD_FLUSH_SCOPE v) then d.flag F.FWD_STAT_REFUSED
  else d.store RegOf.FWD_FLUSH 0 0 v

/-- A write of SCR_STAT (R504, R511). -/
def Dev.writeScrStat (d : Dev) (c v : Nat) : Dev :=
  let d := d.store RegOf.SCR_STAT c 0 (setBits v F.SCR_STAT_RESTART.lo 1 0)
  if written F.SCR_STAT_RESTART v = 1 then d.scribeRestart c else d

/-- A write of BOOT_FLCTL (R549). One while an operation is under way has no effect, nor has one of BOOT_FLDATA then (DEDUCED, log
entry 176). -/
def Dev.writeFlCtl (d : Dev) (v : Nat) : Dev :=
  if d.on F.BOOT_FLCTL_BUSY then d
  else if written F.BOOT_FLCTL_GO v = 1 then d.flashGo (written F.BOOT_FLCTL_OP v) (written F.BOOT_FLCTL_ADDR v)
  else d.store RegOf.BOOT_FLCTL 0 0 v

/-! ### Which register does what -/

/-- The registers of an emulated terminal (R247, R254 to R257). -/
def Dev.writeEmu (d : Dev) (r : Reg) (c t v : Nat) : Dev :=
  if r.addr = RegOf.TCH_EMUSER.addr then d.writeEmuSer c t v
  else if r.addr = RegOf.TCH_EMUDLY.addr then d.writeEmuDly c t v
  else if r.addr = RegOf.TCH_EMUCONT.addr then d.writeEmuCont c t v
  else d.routine c 0x0680 3 t fun d => d.writeEmuCtl c t v

/-- The indirect ports and the other registers with a GO. -/
def Dev.writePort (d : Dev) (r : Reg) (i v : Nat) : Dev :=
  if r.addr = RegOf.QUL_IND_CTL.addr then
    d.portWrite r F.QUL_IND_CTL_BUSY F.QUL_IND_CTL_GO v fun d =>
      d.qulAccess (written F.QUL_IND_CTL_INDEX v) (written F.QUL_IND_CTL_TABLE v) (written F.QUL_IND_CTL_WRITE v == 1)
  else if r.addr = RegOf.SLN_PRE_CTL.addr then
    d.portWrite r F.SLN_PRE_CTL_BUSY F.SLN_PRE_CTL_GO v fun d =>
      d.presetAccess (written F.SLN_PRE_CTL_INDEX v) (written F.SLN_PRE_CTL_DEFAULT v == 1) (written F.SLN_PRE_CTL_OP v)
  else if r.addr = RegOf.GNT_IND_CTL.addr then
    d.portWrite r F.GNT_IND_CTL_BUSY F.GNT_IND_CTL_GO v fun d =>
      d.gntAccess (written F.GNT_IND_CTL_TABLE v) (written F.GNT_IND_CTL_INDEX v) (written F.GNT_IND_CTL_WRITE v == 1)
  else if r.addr = RegOf.TMG_IND_CTL.addr then
    d.portWrite r F.TMG_IND_CTL_BUSY F.TMG_IND_CTL_GO v fun d =>
      d.tmgAccess (written F.TMG_IND_CTL_TABLE v) (written F.TMG_IND_CTL_INDEX v) (written F.TMG_IND_CTL_WRITE v == 1)
  else if r.addr = RegOf.PAR_IND_CTL.addr then
    d.portWrite r F.PAR_IND_CTL_BUSY F.PAR_IND_CTL_GO v fun d =>
      d.parAccess (written F.PAR_IND_CTL_INDEX v) (written F.PAR_IND_CTL_TABLE v) (written F.PAR_IND_CTL_WRITE v == 1)
  else if r.addr = RegOf.FWD_IND_CTL.addr then
    d.portWrite r F.FWD_IND_CTL_BUSY F.FWD_IND_CTL_GO v fun d =>
      d.fwdAccess (written F.FWD_IND_CTL_INDEX v) (written F.FWD_IND_CTL_TABLE v) (written F.FWD_IND_CTL_WRITE v == 1)
        (written F.FWD_IND_CTL_REMOVE v == 1)
  else if r.addr = RegOf.BUF_IND_CTL.addr then
    d.portWrite r F.BUF_IND_CTL_BUSY F.BUF_IND_CTL_GO v fun d =>
      d.bufAccess (written F.BUF_IND_CTL_INDEX v) (written F.BUF_IND_CTL_TABLE v) (written F.BUF_IND_CTL_WRITE v == 1)
  else if r.addr = RegOf.MEM_RETIRE.addr then d.writeRetire v
  else if r.addr = RegOf.CRY_KEY_CTL.addr then
    d.portWrite r F.CRY_KEY_CTL_BUSY F.CRY_KEY_CTL_GO v fun d =>
      d.keyAccess (written F.CRY_KEY_CTL_INDEX v) (written F.CRY_KEY_CTL_OP v)
  else if r.addr = RegOf.SCR_IND_CTL.addr then
    d.portWrite r F.SCR_IND_CTL_BUSY F.SCR_IND_CTL_GO v fun d =>
      d.scrRead (written F.SCR_IND_CTL_INDEX v) (written F.SCR_IND_CTL_TABLE v)
  else if r.addr = RegOf.FWD_FLUSH.addr then d.writeFlush v
  else if r.addr = RegOf.SCR_STAT.addr then d.writeScrStat i v
  else if r.addr = RegOf.TIM_SET_NS.addr then d.writeSetNs v
  else if r.addr = RegOf.PMU_GCTL.addr then d.writeGctl v
  else d

/-- Registers whose write is more than a store, other than those with a GO. -/
def Dev.writeSpecial (d : Dev) (r : Reg) (i j v : Nat) : Dev :=
  if r.addr = RegOf.GLB_CASBKT.addr then d.writeCasBkt i v
  else if r.addr = RegOf.BOOT_RESET.addr then d.writeReset (written F.BOOT_RESET_CODE v)
  else if r.addr = RegOf.BOOT_FLCTL.addr then d.writeFlCtl v
  else if r.addr = RegOf.BOOT_FLDATA.addr then (if d.on F.BOOT_FLCTL_BUSY then d else d.store r i j v)
  else if r.addr = RegOf.PWR_FOLDCFG.addr then d.writeFoldCfg v
  else if r.addr = RegOf.QUL_MATCH.addr then (let e := d.store r i j v; if d.on F.BOOT_STAT_LOCKED then e.flag F.QUL_STAT_REFUSED else e)
  else if r.addr = RegOf.SCR_MATCH.addr then (let e := d.store r i j v; if d.on F.BOOT_STAT_LOCKED then e.flag F.SCR_STAT_REFUSED i else e)
  else if r.addr = RegOf.TIM_CFG.addr then d.writeTimCfg v
  else if r.addr = RegOf.CRY_CFG.addr then d.writeCryCfg v
  else if r.addr = RegOf.TIM_PTPCFG.addr then d.writePtpCfg v
  else if r.addr = RegOf.EVT_CONS.addr then d.writeCons (written F.EVT_CONS_CONS v)
  else if r.addr = RegOf.PMU_CTL.addr then d.writePmuCtl i j v
  else if r.addr = RegOf.HST_RINGCFG.addr then d.writeRingCfg i v
  else if r.addr = RegOf.HST_SQTAIL.addr then d.writeSqTail i (written F.HST_SQTAIL_TAIL v)
  else if r.addr = RegOf.HST_CQHEAD.addr then d.writeCqHead i (written F.HST_CQHEAD_HEAD v)
  else if r.addr = RegOf.SLN_CTL.addr then d.writeSlnCtl i v
  else if r.addr = RegOf.SLN_PATCFG.addr then d.writePatCfg i v
  else if r.addr = RegOf.SLN_TXCFG.addr then d.writeTxCfg i v
  else if r.addr = RegOf.SLN_RXCFG.addr then d.writeRxCfg i v
  else if r.addr = RegOf.TCH_BRXCFG.addr then d.writeBrxCfg i v
  else if r.addr = RegOf.GNT_CHCFG.addr then d.writeGntCfg i v
  else if r.addr = RegOf.CIR_CFG.addr then
    d.writeCirCfg i v (d.cirContOk i (written F.CIR_CFG_LOCAL v) (written F.CIR_CFG_UP_INDEX v) (written F.CIR_CFG_N v))
  else if r.addr = RegOf.CIR_TIMING.addr then d.writeCirTiming i v
  else if r.addr = RegOf.CIR_CF.addr then d.writeCirCf i v
  else if r.addr = RegOf.MEM_THROTTLE.addr then d.writeThrottle v
  else if r.addr = RegOf.MEM_QOS.addr then d.writeQos i v
  else if r.addr = RegOf.PAR_RANGE.addr then d.writeRange i v
  else if r.addr = RegOf.MEM_MAP.addr then d.writeMap i v
  else d.writeTrcCfg v

/-- Registers of `writeSpecial`. -/
def specialRegs : List Reg :=
  [RegOf.GLB_CASBKT, RegOf.BOOT_RESET, RegOf.BOOT_FLCTL, RegOf.BOOT_FLDATA, RegOf.PWR_FOLDCFG, RegOf.QUL_MATCH, RegOf.SCR_MATCH, RegOf.TIM_CFG, RegOf.CRY_CFG,
   RegOf.TIM_PTPCFG,
   RegOf.EVT_CONS, RegOf.PMU_CTL, RegOf.HST_RINGCFG, RegOf.HST_SQTAIL, RegOf.HST_CQHEAD, RegOf.SLN_CTL, RegOf.SLN_PATCFG,
   RegOf.SLN_TXCFG, RegOf.SLN_RXCFG, RegOf.TCH_BRXCFG, RegOf.GNT_CHCFG, RegOf.CIR_CFG, RegOf.CIR_TIMING, RegOf.CIR_CF, RegOf.MEM_THROTTLE, RegOf.MEM_QOS, RegOf.PAR_RANGE, RegOf.MEM_MAP,
   RegOf.SCR_TRCCFG]

/-- Registers of `writePort`. -/
def portRegs : List Reg :=
  [RegOf.QUL_IND_CTL, RegOf.SLN_PRE_CTL, RegOf.GNT_IND_CTL, RegOf.TMG_IND_CTL, RegOf.PAR_IND_CTL, RegOf.FWD_IND_CTL,
   RegOf.BUF_IND_CTL, RegOf.MEM_RETIRE, RegOf.CRY_KEY_CTL, RegOf.SCR_IND_CTL, RegOf.FWD_FLUSH, RegOf.SCR_STAT,
   RegOf.TIM_SET_NS, RegOf.PMU_GCTL]

/-- Registers whose write takes effect at the next frame boundary or refill (R58, R145, R217, R254). -/
def heldRegs : List Reg :=
  [RegOf.TCH_FRMCFG, RegOf.TCH_LCCFG, RegOf.TCH_DISCCFG, RegOf.TCH_RCVCFG, RegOf.TCH_TRMCFG, RegOf.TMG_CHCFG]

/-- Registers whose flags are conditions of the alert register. -/
def alertRegs : List Reg := [RegOf.STL_STAT, RegOf.MEM_STAT, RegOf.GLB_D2DSTAT, RegOf.EVT_STAT]

/-- Registers of a trigger (R449). -/
def trigRegs : List Reg := [RegOf.TIM_TRIG_CTL, RegOf.TIM_TRIG_START, RegOf.TIM_TRIG_TIME, RegOf.TIM_TRIG_WIDTH]

/-- Registers of an emulated terminal. -/
def emuRegs : List Reg := [RegOf.TCH_EMUSER, RegOf.TCH_EMUCTL, RegOf.TCH_EMUDLY, RegOf.TCH_EMUCONT]

/-- A whole write of a register by software (R12). -/
def Dev.regWrite (d : Dev) (r : Reg) (i j v : Nat) : Dev :=
  if isAmong r portRegs then d.writePort r i v
  else if isAmong r specialRegs then d.writeSpecial r i j v
  else if isAmong r trigRegs then d.writeTrig r i v
  else if isAmong r emuRegs then d.writeEmu r i j v
  else if isAmong r heldRegs then d.storeHeld r i j v
  else if isAmong r alertRegs then (d.store r i j v).refreshAlerts
  else d.store r i j v

/-- A whole write of the register at `a`; one that holds none has no effect (R11). -/
def Dev.writeAt (d : Dev) (a v : Nat) : Dev :=
  match findReg a allRegs with
  | some (r, i, j) => if d.portHole r i then d else d.regWrite r i j v
  | none => d

/-- Is an address in the BOOT block? -/
def inBoot (a : Nat) : Bool := decide (0x10000 ≤ a) && decide (a < 0x20000)

/-- A host's write: outside the BOOT block it has no effect until PHASE is 7 (R543). -/
def Dev.hostWrite (d : Dev) (a v : Nat) : Dev :=
  if inBoot a then d.bootW fun d => d.writeAt a v else d.hostW fun d => d.writeAt a v

/-- Configuration registers, whose accepted writes travel to the standby (R467, R472): those with a field of type RW outside
the blocks of the host's own interface and of boot (DEDUCED). -/
def carried (a : Nat) : Bool :=
  let own := inBoot a || (decide (0x50000 ≤ a) && decide (a < 0x100000))
  !own && match findReg a allRegs with
    | some (r, _, _) => r.fields.any fun f => f.acc == .rw
    | none => false

/-- An active device sends a configuration write on (R472). -/
def Dev.sendConfig (d : Dev) (a v : Nat) : Dev :=
  if d.active && d.bootDone && carried a then d.stSend 0x0B (toBE a 8 ++ toBE v 8) else d

/-- The ACCESS_ERROR event of a narrow or unaligned access (R10, R572). -/
def Dev.accessError (d : Dev) (a size : Nat) (write : Bool) : Dev :=
  d.event a 0x0001 0 (a + 2 ^ 32 * size + 2 ^ 40 * b2n write)

/-- The CONTROL_FAULT event of a host write that failed three times (R26, R572). -/
def Dev.writeFault (d : Dev) (a : Nat) : Dev :=
  d.event a 0x0005 0 (sourceOf a + 65536 * ((findReg a allRegs).map fun x => x.2.1).getD 0)

/-- REGISTER_WRITE: a naturally aligned 64-bit write, which failed `fails` times on its way. -/
def execRegisterWrite (a : Fin (2 ^ 26)) (size : Fin 65) (v : Fin (2 ^ 64)) (fails : Fin 4) (s : State) : Res :=
  run (.registerWrite a size v fails) s fun d =>
    if d.boot.resetHeld ∨ d.mode = 4 then d
    else if size.val ≠ 8 ∨ a.val % 8 ≠ 0 then d.accessError a size true
    else if 3 ≤ fails.val then d.writeFault a
    else (d.hostWrite a v).sendConfig a v

/-- What a host reads at an address that holds a register: write-only fields read zero, the keys with them (R12, R541), and
GLB_MODE reports no mode before PHASE 7 (R543), and GLB_CASBKT reads zero outside CASCADE (R259). -/
def Dev.hostValue (d : Dev) (r : Reg) (i j : Nat) : Nat :=
  let x : Reg := { r with fields := r.fields.filter fun f => f.acc != .wo }
  let v := d.getReg x i j
  if d.portHole r i ∨ (r.addr = RegOf.GLB_CASBKT.addr ∧ d.mode ≠ 1) then 0 else if r.addr = RegOf.GLB_MODE.addr ∧ !d.bootDone then setBits v 0 3 0 else v

/-- What the user page shows at an offset (R592): aliases of PMU_SHEETSTAT, of each block's PMU_CYC and PMU_PCNT, the latter for
counters with USER 1, and of PMU_BW; the whole page reads zero while USER_EN is 0. -/
def Dev.userValue (d : Dev) (a : Nat) : Nat :=
  let b := (a - 0x40) / 0x48
  let k := (a - 0x40) % 0x48 / 8
  if !d.on F.PMU_GCTL_USER_EN then 0
  else if a = 0 then d.getReg RegOf.PMU_SHEETSTAT 0 0
  else if 0x40 ≤ a ∧ b < 22 then
    if k = 0 then d.getReg RegOf.PMU_CYC b 0
    else if d.on F.PMU_CTL_USER b (k - 1) then d.getReg RegOf.PMU_PCNT b (k - 1) else 0
  else if 0x1000 ≤ a ∧ a < 0x2000 then d.getReg RegOf.PMU_BW ((a - 0x1000) / 8) 0
  else 0

/-- A read of the register at `a`, with what a read does beyond returning it: TIM_NOW_NS latches the seconds (R437), and
TIM_CAPNS pops a capture (R452); a checker's counts are brought up to date (R281). -/
def Dev.readAt (d : Dev) (a : Nat) : Dev :=
  match findReg a allRegs with
  | some (r, i, j) =>
    let d := if r.addr = RegOf.TIM_NOW_NS.addr then d.nowRead
      else if r.addr = RegOf.TIM_CAPNS.addr then d.capPop i
      else if r.addr = RegOf.SLN_PATERR.addr ∨ r.addr = RegOf.SLN_PATBITS.addr then d.patSettle i
      else d
    d.readOut (d.hostValue r i j)
  | none => d.readOut (if 0x78000 ≤ a ∧ a < 0x7A000 then d.userValue (a - 0x78000) else 0)

/-- REGISTER_READ: a naturally aligned 64-bit read, which failed `fails` times on its way; a third failure returns poison. -/
def execRegisterRead (a : Fin (2 ^ 26)) (size : Fin 65) (fails : Fin 4) (s : State) : Res :=
  run (.registerRead a size fails) s fun d =>
    if d.boot.resetHeld ∨ d.mode = 4 then d
    else if size.val ≠ 8 ∨ a.val % 8 ≠ 0 then (d.accessError a size false).readOut 0
    else if 3 ≤ fails.val then d.readOut (2 ^ 64 - 1) true
    else d.readAt a

/-- The words of a forwarded write, to successive registers (R467). -/
def Dev.writeWords (a : Nat) : Nat → List Byte → Dev → Dev
  | 0, _, d => d
  | n + 1, l, d => Dev.writeWords (a + 8) n (l.drop 8) (d.writeAt a (be l 0 8))

/-- STITCH_CONFIG: a forwarded configuration write, at the effective point it has on the active device. -/
def execStitchConfig (a : Fin (2 ^ 64)) (data : List Byte) (s : State) : Res :=
  run (.stitchConfig a data) s fun d =>
    if d.standby && d.stitchUp then Dev.writeWords a (data.length / 8) data d else d

end Sys2Proof.Machine
end

