-- ==== Sys2Proof/Machine/TermTx.lean ====
section
/-!
DEFINITION. The terminal side of management and transmission (R111, R116, R141, R234 to R244, R619, R620): messages for
the emulated terminals, their timers, and the bursts they send.
-/

namespace Sys2Proof.Machine

open Sys2Proof.Crypto

/-! ### TERM_RX -/

/-- The full frame counter of 16 bits near a counter. -/
def fullFrame (near low : Nat) : Nat := ((near : Int) + sdiff 16 low near).toNat

/-- Queue an answer to a message of subframe `sub`; `expects` says that the head grants answer positions for it. -/
def Dev.emuAnswer (d : Dev) (g sub : Nat) (m : List Byte) (expects : Bool) : Dev :=
  let e := d.emu g
  d.setEmu g { e with answers := e.answers ++ [(sub, m)], owed := if expects then e.owed ++ [sub] else e.owed }

/-- Is a downstream message legal in a terminal's state (R111, R141)? -/
def downLegal (st : Nat) (rangeSent : Bool) (type : Nat) : Bool :=
  let serving := st == 3 || st == 4 || st == 5
  match type with
  | 0x03 => st == 2 || st == 4 || st == 5
  | 0x04 => serving || (st == 2 && rangeSent)
  | 0x05 => st == 2 || st == 3
  | 0x06 => st == 4 || st == 5
  | 0x09 | 0x0A | 0x0E => serving
  | 0x0C => st == 4
  | 0x0D => st == 4 || st == 5
  | 0x0F | 0x10 => serving || st == 2
  | _ => false

/-- Does a downstream message expect an answer in a burst (R138)? -/
def expectsAnswer (type : Nat) : Bool :=
  type == 0x04 || type == 0x05 || type == 0x06 || (decide (0x09 ≤ type) && decide (type ≤ 0x0E)) || type == 0x10

/-- A RANGE_REQ: a returning ranging where the terminal serves. -/
def Dev.emuRange (d : Dev) (c t near : Nat) (l : List Byte) : Dev :=
  let g := 128 * c + t
  let st := d.emuSt c t
  let e := d.emu g
  let d := d.setEmu g { e with
    returning := e.returning || st != 2, rangeEqd := be l 4 4, rangeSub := some (fullSub near (be l 8 2)), rangeAt := none,
    rangeSent := e.rangeSent && st == 2, since := d.frameNow, bursts := [] }
  if st = 2 then d else d.emuTo c t 2

/-- A legal message's effect, and whether it is answered with an ACK. -/
def Dev.emuEffect (d : Dev) (c t sub type : Nat) (l : List Byte) : Dev × Bool :=
  let g := 128 * c + t
  let e := d.emu g
  let st := d.emuSt c t
  let near := sub / 4
  match type with
  | 0x03 => (d.emuRange c t sub l, false)
  | 0x04 =>
    let d := d.setEmu g { e with eqdNext := some (fullFrame near (be l 8 2), be l 10 4) }
    (if st = 2 ∧ e.returning then d.emuTo c t 4 else d, true)
  | 0x05 =>
    let d := (d.setEmu g { e with level := be l 14 1 % 8 }).set F.TCH_EMUSTAT_TX_LEVEL (be l 14 1) c t
    (if st = 3 then d else d.emuTo c t 3, false)
  | 0x06 => (d.setEmu g { e with deactAt := some d.frameNow }, true)
  | 0x09 =>
    match e.kek with
    | none => (d.flag F.CRY_STAT_UNWRAP, false)
    | some k =>
      match unwrap k (slice l 8 40) with
      | none => (d.flag F.CRY_STAT_UNWRAP, false)
      | some key => (d.loadSlot (termSlot g (be l 4 1 % 2)) key, true)
  | 0x0A =>
    let up := bit (be l 5 1) 1
    (if up then d.setEmu g { e with keySwitch := some (be l 4 1 % 2, fullFrame near (be l 6 2)) } else d, true)
  | 0x0C =>
    (d.setEmu g { e with period := be l 4 2, phase := be l 6 2, dozeAt := some (fullFrame near (be l 8 2)), wakeAt := none },
      true)
  | 0x0D => (d.setEmu g { e with wakeAt := some (fullFrame near (be l 4 2)), dozeAt := none }, true)
  | 0x0E => (d.setEmu g { e with levelAt := some (be l 4 1 % 8, fullFrame near (be l 5 2)) }, true)
  | 0x0F =>
    (if be l 4 1 = e.alarmSeq then (d.setEmu g { e with alarmAt := none }).set F.TCH_EMUCTL_ALARM 0 c t else d, false)
  | _ => (d, false)

/-- A unicast message that has passed its checks reaches its emulated terminal (R141, R243). -/
def Dev.emuMessage (d : Dev) (c t sub : Nat) (l : List Byte) : Dev :=
  let g := 128 * c + t
  let type := be l 0 1
  let xid := be l 3 1
  let loc := d.get F.TCH_EMUSTAT_LOCAL c t
  let d := d.trmCount c 11
  let e := d.emu g
  match e.seen.find? fun x => x.1 == type && x.2.1 == xid with
  | some x => d.emuAnswer g sub x.2.2 (expectsAnswer type)
  | none =>
      let ok := downLegal (d.emuSt c t) e.rangeSent type
      let st := d.emuSt c t
      let r : Dev × Bool := if ok then d.emuEffect c t sub type l else (d, false)
      let m : Option (List Byte) :=
        if !ok then some (msgBytes 0x8F true loc xid (toBE type 1 ++ toBE st 1))
        else if r.2 then some (msgBytes 0x84 true loc xid (toBE type 1))
        else if type = 0x05 then some (msgBytes 0x83 true loc xid (slice l 4 8))
        else if type = 0x10 then some (msgBytes 0x87 true loc xid (slice l 4 8))
        else none
      let d := r.1
      match m with
      | none => d
      | some m =>
        let e := d.emu g
        let d := d.setEmu g { e with seen := (e.seen.filter fun x => x.1 != type) ++ [(type, xid, m)] }
        d.emuAnswer g sub m (expectsAnswer type)

/-- A terminal in T_LISTEN hears DISC_OPEN (R116). -/
def Dev.discOpen (c sub : Nat) (l : List Byte) (d : Dev) (t : Nat) : Dev :=
  let g := 128 * c + t
  if d.emuSt c t ≠ 1 then d
  else
    let init := max 1 (be l 14 1)
    let e := d.emu g
    let d : Dev := match e.skip with
      | none =>
        let r := (d.setEmu g { e with span := init }).emuDraw g init
        r.1.setEmu g { r.1.emu g with skip := some r.2 }
      | some _ =>
        if e.tried then
          let sp := max 1 (min (2 * e.span) (be l 15 1))
          let r := (d.setEmu g { e with span := sp, tried := false }).emuDraw g sp
          r.1.setEmu g { r.1.emu g with skip := some r.2 }
        else d
    let e := d.emu g
    match e.skip with
    | some 0 =>
      let r := d.emuDraw g (be l 12 2)
      let s := fullSub (sub + 4) (be l 4 2)
      let x : DiscTx := { sub := s, start := be l 6 2 + r.2 * 640, delay := r.2 * 42240, eqd := be l 8 4 }
      r.1.setEmu g { r.1.emu g with disc := some x }
    | some n => d.setEmu g { e with skip := some (n - 1) }
    | none => d

/-- The emulated terminal that carries a serial. -/
def Dev.serialTerm (d : Dev) (c serial : Nat) : Option Nat :=
  (d.emusOf c).find? fun t => d.emuOn c t && d.get F.TCH_EMUSER_SERIAL c t == serial

/-- Is a TYPE one that comes to one terminal (R138)? -/
def unicastType (type : Nat) : Bool :=
  decide (3 ≤ type) && decide (type ≤ 0x10) && type != 0x07 && type != 0x08

/-- A terminal takes ASSIGN (R111): it drops what it holds, but no GASP or ALARM of the host (R248). -/
def Dev.emuAssign (d : Dev) (c t sub : Nat) (l : List Byte) : Dev :=
  let g := 128 * c + t
  let e := d.emu g
  let d := d.setEmu g { newEmu with
    kek := e.kek, alarmSeq := e.alarmSeq, upXid := e.upXid, binds := e.binds, lfsr := e.lfsr,
    gaspAt := e.gaspAt, gaspBurst := e.gaspBurst, alarmAt := e.alarmAt, dlyAt := e.dlyAt, attempts := e.attempts
    level := e.level, keyUp := be l 13 1 % 2, rangeEqd := be l 14 4, rangeSub := some (fullSub sub (be l 18 2)),
    since := d.frameNow, lastLocal := some (be l 12 1 % 128) }
  ((d.set F.TCH_EMUSTAT_LOCAL (be l 12 1) c t).set F.TCH_EMUSTAT_LOCAL_VALID 1 c t).emuTo c t 2

/-- A broadcast message (R234). ASSIGN is taken in every state but T_SILENT (R111); no terminal leaves T_INIT before the channel is
calibrated (R237). -/
def Dev.emuBroadcast (d : Dev) (c sub : Nat) (l : List Byte) : Dev :=
  let one (serial : Nat) (f : Dev → Nat → Dev) : Dev := match d.serialTerm c serial with
    | some t => f (d.trmCount c 11) t
    | none => d.msgDiscard c
  match be l 0 1 with
  | 0x01 => (d.emusOf c).foldl (Dev.discOpen c sub l) (d.trmCount c 11)
  | 0x02 => one (be l 4 8) fun d t =>
      if d.emuSt c t = 7 ∨ (d.emuSt c t = 0 ∧ !d.on F.TCH_TRMCAL_CAL_OK c) then d else d.emuAssign c t sub l
  | 0x07 => one (be l 4 8) fun d t => if d.emuSt c t = 0 ∧ !d.on F.TCH_TRMCAL_CAL_OK c then d else d.emuTo c t 7
  | 0x08 => one (be l 4 8) fun d t => if d.emuSt c t = 7 then d.emuTo c t 0 else d
  | _ => d.msgDiscard c

/-- The oldest message of a terminal-role channel's queue goes to the emulated terminals it names (R234). -/
def Dev.termRx (d : Dev) (c : Nat) : Dev :=
  let s := d.scribe c
  match s.inbox with
  | [] => d
  | m :: _ =>
    let d := d.inboxPop c
    if m.loc = 0x80 then d.emuBroadcast c m.sub m.bytes
    else
      match d.localTerm c m.loc with
      | none => d.msgDiscard c
      | some t =>
        if d.emuSt c t = 7 then d
        else if !unicastType (be m.bytes 0 1) then d.msgDiscard c
        else
          let k := d.checkMsg c (termSlot (128 * c + t) m.keyIdx) m.seq m.bytes
          if k.2 then k.1.emuMessage c t m.sub m.bytes else k.1

/-- TERM_RX. -/
def execTermRx (c : Ch) (s : State) : Res :=
  run (.termRx c) s fun d =>
    if d.termScribe c && !(d.scribe c).inbox.isEmpty then d.routine c 0x0600 2 0 fun d => d.termRx c else d

/-! ### TERM_TICK -/

/-- The channel measures its own latencies when its lane runs (R237). -/
def Dev.calibrate (d : Dev) (c : Nat) : Dev :=
  if d.on F.TCH_TRMCAL_CAL_OK c ∨ d.get F.SLN_STAT_STATE c ≠ 4 then d
  else
    let a := d.draw 65536
    let b := a.1.draw 65536
    ((b.1.set F.TCH_TRMCAL_RX_LAT a.2 c).set F.TCH_TRMCAL_TX_LAT b.2 c).set F.TCH_TRMCAL_CAL_OK 1 c

/-- EqD takes the result of an EQD_ADJ (R123, R236). -/
def Dev.emuApplyEqd (d : Dev) (c t : Nat) : Dev :=
  let g := 128 * c + t
  match (d.emu g).eqdNext with
  | some (_, v) => ((d.setEmu g { d.emu g with eqdNext := none }).set F.TCH_EMUSTAT_EQD v c t).trmCount c 13
  | none => d

/-- Changes that come with frame `f` of the terminal (R123, R133, R139, R421): its level, upstream key, doze and its
end. -/
def Dev.emuFrame (d : Dev) (c t f : Nat) : Dev :=
  let g := 128 * c + t
  let e := d.emu g
  let lv := match e.levelAt with
    | some (v, k) => if k ≤ f then some v else none
    | none => none
  let d : Dev := match lv with
    | some v => (d.setEmu g { e with level := v, levelAt := none }).set F.TCH_EMUSTAT_TX_LEVEL v c t
    | none => d
  let e := d.emu g
  let d : Dev := match e.keySwitch with
    | some (i, k) => if k ≤ f then d.setEmu g { e with keyUp := i, keySwitch := none } else d
    | none => d
  let e := d.emu g
  let d := if e.dozeAt.any (fun k => decide (k ≤ f)) ∧ d.emuSt c t = 4 then
      (d.setEmu g { e with dozeAt := none }).emuTo c t 5 else d
  let e := d.emu g
  if e.wakeAt.any fun k => decide (k ≤ f) then
    let d := d.setEmu g { e with wakeAt := none }
    if d.emuSt c t = 5 then d.emuTo c t 4 else d
  else d

/-- One terminal's timers in a subframe; `first` in subframe 0 of a frame. -/
def Dev.tickEmu (c : Nat) (first : Bool) (d : Dev) (t : Nat) : Dev :=
  let g := 128 * c + t
  let locked := d.align c == 2
  let d : Dev := match d.emuSt c t with
    | 0 => if d.emuOn c t && locked && d.on F.TCH_TRMCAL_CAL_OK c then d.emuTo c t 1 else d
    | 3 | 4 | 5 =>
      if locked then d else d.emuHold c t
    | 6 =>
      let e := d.emu g
      if locked then ((d.setEmu g { e with missed := 0 }).set F.TCH_EMUSTAT_HOLD_FRAMES 0 c t).emuTo c t e.prev
      else if first ∧ e.missed < 8 then
        (d.setEmu g { e with missed := e.missed + 1 }).set F.TCH_EMUSTAT_HOLD_FRAMES (e.missed + 1) c t
      else d
    | _ => d
  let f := (d.rx c).ctr
  let d := if (d.emu g).eqdNext.any fun k => decide (k.1 + 6 < f) then d.emuApplyEqd c t else d
  d.emuFrame c t f

/-- TERM_TICK: once in a subframe. -/
def execTermTick (c : Ch) (s : State) : Res :=
  run (.termTick c) s fun d =>
    if d.termScribe c && (d.scribe c).lastTick != some d.subNow then
      d.routine c 0x0640 0 0 fun d =>
        let d := d.setScribe c { d.scribe c with lastTick := some d.subNow }
        let d := (d.calibrate c).formRegions c
        let d := (List.range 128).foldl (Dev.settleDly c ((d.now16 : Nat) : Int)) d
        (d.emusOf c).foldl (Dev.tickEmu c (d.nowNs / 31250 % 4 == 0)) d
    else d

/-- HOLDOVER_EXPIRED: the ninth missed frame (R111). -/
def execHoldoverExpired (c : Ch) (t : Loc) (s : State) : Res :=
  run (.holdoverExpired c t) s fun d =>
    if d.termScribe c && d.emuSt c t == 6 && decide (8 ≤ (d.emu (128 * c + t)).missed) && d.align c != 2 then
      d.emuTo c t 0
    else d

/-- RANGE_WAIT_EXPIRED (R619). -/
def execRangeWaitExpired (c : Ch) (t : Loc) (s : State) : Res :=
  run (.rangeWaitExpired c t) s fun d =>
    if d.termScribe c && d.emuSt c t == 2 then
      (d.runTo (((d.emu (128 * c + t)).since + 8 * d.use F.TCH_TRMCFG_RANGE_WAIT c) * 125000)).emuTo c t 1
    else d

/-- DEACTIVATE_TIMEOUT (R620). -/
def execDeactivateTimeout (c : Ch) (t : Loc) (s : State) : Res :=
  run (.deactivateTimeout c t) s fun d =>
    match (d.emu (128 * c + t)).deactAt with
    | some f => if d.termScribe c then (d.runTo ((f + 8) * 125000)).emuTo c t 0 else d
    | none => d

/-! ### BURST_TX -/

/-- The delays in force at the upstream frame of subframe `sub`, for a terminal that uses `eqd` (R247). -/
def Dev.dlyFor (d : Dev) (c t eqd sub : Nat) : Dev := Dev.settleDly c (d.txAt c t eqd (4 * (sub / 4)) 0) d t

/-- A management segment of an emulated terminal (R136): nine blocks, or nothing where its slot cannot send. -/
def Dev.emuSegment (d : Dev) (c t : Nat) (m : List Byte) : Dev × List Blk :=
  let g := 128 * c + t
  let e := d.emu g
  let k := d.consume c (termSlot g e.keyUp)
  match k.2 with
  | none => (k.1, [])
  | some (key, ctr) =>
    let hdr := segHeader (d.get F.TCH_EMUSTAT_LOCAL c t) 64 true e.keyUp false true ctr
    let l := m ++ msgMac key ctr m
    let d := ((k.1.trmCount c 12).octets (256 + c) 72).sendOut (c / 64) 72
    let d := if be m 0 1 = 0x85 then d.set F.TCH_EMUCTL_DOZE 0 c t else d
    let d := if be m 0 1 = 0x8F then d.trmCount c 14 else d
    (d, ctlBlk hdr :: (blocksOf l 8).map dataBlk)

/-- Fill blocks up to `n` with idle blocks. -/
def padTo (n : Nat) (l : List Blk) : List Blk := l.take n ++ List.replicate (n - l.length) idleBlk

/-- A traffic segment of an emulated terminal (R244, R416). -/
def Dev.emuTraffic (d : Dev) (c t label key ctr keyIdx : Nat) (last first : Bool) (pt : List Byte) : List Blk :=
  let hdr := segHeader label pt.length last keyIdx true first ctr
  segBlocks key ctr 1 (d.use F.TCH_TRMCFG_PEER_CHANNEL c) false (d.get F.TCH_EMUSTAT_LOCAL c t) hdr pt

/-- The next packet of a bound queue, where its shaper, if it has one, has credit (R215, R241). -/
def Dev.nextBound (d : Dev) (g j : Nat) : Dev × Option PartTx :=
  let q := 4 * g + j
  match (d.bind g j).part with
  | some p => (d, some p)
  | none =>
    if (rec24 (d.qc q) 8 ≠ 0 ∧ (d.qst q).credit < 0) ∨ d.qValid q = false then (d, none)
    else
      let r := d.popQ q
      match r.2 with
      | none => (d, none)
      | some p =>
        let d := ((r.1.chargeQueue q (d.charged q p.len)).headWait q).tracePkt p 2 q
        (d, some { pkt := p, queue := q, sent := 0, label := p.label, keyIdx := (d.emu g).keyUp, owner := g })

/-- Fill `room` blocks of a share from a bound queue (R241): the packets' segments in order, what is left idle. -/
def Dev.fillQueue (c t j : Nat) : Nat → Dev → Nat → Dev × List Blk
  | 0, d, _ => (d, [])
  | fuel + 1, d, room =>
    let g := 128 * c + t
    let r := d.nextBound g j
    let d := r.1
    match r.2 with
    | none => (d, [])
    | some p =>
      let drop (d : Dev) : Dev := (d.setBind g j { d.bind g j with part := none }).release1 p.pkt.buf
      if 16000 < p.pkt.bytes.length then Dev.fillQueue c t j fuel (drop (d.txCount c 6)) room
      else
        let rest := p.pkt.bytes.drop p.sent
        let whole := decide (3 + cdiv rest.length 8 ≤ room)
        let n := if whole then rest.length else 8 * (room - 3)
        if whole = false ∧ n < 64 then (d.setBind g j { d.bind g j with part := some p }, [])
        else
          let k := d.consume c (termSlot g p.keyIdx)
          match k.2 with
          | none => Dev.fillQueue c t j fuel (drop k.1) room
          | some (key, ctr) =>
            let l := d.emuTraffic c t p.label key ctr p.keyIdx whole (p.sent == 0) (rest.take n)
            let d := ((k.1.bump F.CRY_CNT_COUNT c 0).octets (256 + c) (8 * l.length)).sendOut (c / 64) (8 * l.length)
            let d := if whole then drop d
              else d.setBind g j { d.bind g j with part := some { p with sent := p.sent + n } }
            let z := Dev.fillQueue c t j fuel d (room - l.length)
            (z.1, l ++ z.2)

/-- The service entry of a synthetic binding (R249). -/
def Dev.synService (d : Dev) (g j : Nat) : Option Nat :=
  Tbl.first? (fun _ r => svcValid r && svcKind r == 1 && svcTarget r == 4 * g + j && svcTerm r == some g) d.fwd.services

/-- Fill `room` blocks of a share with synthetic frames (R249); `p0` is the data position of the first, `at0` the instant
of the burst's first preamble bit in 2^−16 ns, `pre` the preamble's blocks. -/
def Dev.fillSyn (c t j label peer router : Nat) (at0 : Int) (pre : Nat) : Nat → Dev → Nat → Nat → Dev × List Blk
  | 0, d, _, _ => (d, [])
  | fuel + 1, d, room, p0 =>
    let g := 128 * c + t
    let n := min (d.use F.TCH_EMUCONT_SYN_LEN c t) (8 * (room - 3))
    if n < 60 then (d, [])
    else
      let keyIdx := (d.emu g).keyUp
      let k := d.consume c (termSlot g keyIdx)
      match k.2 with
      | none => (k.1, [])
      | some (key, ctr) =>
        let b := k.1.bind g j
        let stamp := ((at0 + bits16 (((pre + 3 + p0 + 32 * (p0 / 224)) * 66 : Nat) : Int)) / 65536).toNat
        let r := prbs31Bytes (n - 22) b.prbs
        let f := toBE peer 6 ++ toBE router 6 ++ toBE 0x88B6 2 ++ toBE b.seq 4 ++ toBE stamp 4 ++ r.2
        let l := d.emuTraffic c t label key ctr keyIdx true true f
        let d := k.1.setBind g j { b with prbs := r.1, seq := (b.seq + 1) % 2 ^ 32 }
        let d := (((d.trmCount c 10).bump F.CRY_CNT_COUNT c 0).octets (256 + c) (8 * l.length)).sendOut (c / 64) (8 * l.length)
        let z := Dev.fillSyn c t j label peer router at0 pre fuel d (room - l.length) (p0 + l.length)
        (z.1, l ++ z.2)

/-- The circuit that an index of an emulated terminal carries upstream (R193). -/
def Dev.emuCircuit (d : Dev) (c t idx : Nat) : Option Nat :=
  ((List.range 8).map fun n => 8 * c + n).find? fun i =>
    d.useB F.CIR_CFG_UP_EN i && d.cirHolder i == some t && d.use F.CIR_CFG_UP_INDEX i == idx

/-- Whole circuit regions, oldest first (R194). -/
def Dev.fillCircuit (d : Dev) (i sub len : Nat) : Dev × List Blk :=
  let d := d.formTo i sub
  let n := max 1 (d.cirBlocks i)
  let x := d.cir i
  let k := len / n
  let l := (x.formed.take k).flatMap fun r => r.2.map dataBlk
  ((d.setCir i { x with formed := x.formed.drop k }).sendOut (i / 8 / 64) (8 * l.length), l)

/-- The binding of an index that is in use. -/
def Dev.bindingOf (d : Dev) (c t idx : Nat) : Option Nat :=
  (List.range 4).find? fun j => (d.binding c t j).2.1 && (d.binding c t j).1 == idx

/-- Answers and unsolicited messages that go at the start of a share (R243). -/
def Dev.fillMsgs (c t sub : Nat) : Nat → Dev → Nat → Dev × List Blk
  | 0, d, _ => (d, [])
  | fuel + 1, d, room =>
    let g := 128 * c + t
    let e := d.emu g
    if room < 9 then (d, [])
    else
      let ready := e.answers.filter fun a => decide (a.1 + 1 ≤ sub)
      let r : Option (Dev × List Byte) := match ready, e.unsol with
        | a :: _, _ => some (d.setEmu g { e with answers := e.answers.erase a }, a.2)
        | [], m :: u => some (d.setEmu g { e with unsol := u }, m)
        | [], [] => none
      match r with
      | none => (d, [])
      | some (d, m) =>
        let k := d.emuSegment c t m
        let z := Dev.fillMsgs c t sub fuel k.1 (room - k.2.length)
        (z.1, k.2 ++ z.2)

/-- The circuit whose regions a share carries (R193), which an owed share is not for (R162, log entry 164). -/
def Dev.shareCircuit (d : Dev) (c t : Nat) (owed : Bool) (s : Share) : Option Nat :=
  (d.emuCircuit c t (s.cont % 16)).filter fun _ => !owed

/-- The shares of a burst, in entry order (R170, R241). `owed` says that the only share is an owed one (R162), `msgs` that
further messages may still go in. -/
def Dev.fillShares (c t sub : Nat) (at0 : Int) (pre : Nat) (owed : Bool) : Bool → Nat → Dev → List Share → Dev × List Blk
  | _, _, d, [] => (d, [])
  | msgs, p0, d, s :: r =>
    let g := 128 * c + t
    match d.shareCircuit c t owed s with
    | some i =>
      let x := d.fillCircuit i sub s.len
      let z := Dev.fillShares c t sub at0 pre owed msgs (p0 + s.len) x.1 r
      (z.1, padTo s.len x.2 ++ z.2)
    | none =>
      let m : Dev × List Blk := if msgs then Dev.fillMsgs c t sub 16 d s.len else (d, [])
      let d := m.1
      let room := s.len - m.2.length
      let bound := if (d.emuCircuit c t (s.cont % 16)).isSome then none else d.bindingOf c t (s.cont % 16)
      let x : Dev × List Blk := match bound with
        | none => (d, [])
        | some j =>
          if (d.binding c t j).2.2 = 0 then Dev.fillQueue c t j (room + 64) d room
          else match d.synService g j with
            | none => (d, [])
            | some i =>
              let v := d.svc i
              Dev.fillSyn c t j (svcLabel v) (svcPeer v) (svcRouter v) at0 pre room d room (p0 + m.2.length)
      let z := Dev.fillShares c t sub at0 pre owed false (p0 + s.len) x.1 r
      (z.1, padTo s.len (m.2 ++ x.2) ++ z.2)

/-- The blocks that a container's source still needs (R242). -/
def Dev.occupancyOf (d : Dev) (c t idx : Nat) : Nat :=
  let g := 128 * c + t
  match d.bindingOf c t idx with
  | none => 0
  | some j =>
    if (d.binding c t j).2.2 = 1 then 16 * d.use F.TCH_EMUCONT_SYN_DEMAND c t
    else
      let part := match (d.bind g j).part with
        | some p => if p.sent = 0 then 3 + cdiv p.pkt.bytes.length 8 else cdiv (p.pkt.bytes.length - p.sent) 8
        | none => 0
      (d.qst (4 * g + j)).all.foldl (fun a p => a + 3 + cdiv p.len 8) part

/-- The occupancy code of a number of blocks (R155). -/
def occCode (n : Nat) : Nat :=
  match (List.range 4).find? fun e => decide (cdiv n (16 ^ e) ≤ 8191) with
  | some e => e * 8192 + cdiv n (16 ^ e)
  | none => 3 * 8192 + 8191

/-- The report body of a burst, and the BASE of the next (R154, R156, R242). -/
def Dev.reportBody (d : Dev) (c t : Nat) : Dev × Nat :=
  let g := 128 * c + t
  let e := d.emu g
  let used := (List.range 4).filterMap fun j => if (d.binding c t j).2.1 then some (d.binding c t j).1 else none
  match (List.range 4).find? fun k => used.any fun i => i / 4 == (e.base / 4 + k) % 4 with
  | none => (d, 0)
  | some k =>
    let b := (e.base / 4 + k) % 4 * 4
    let s (n : Nat) : Nat := occCode (d.occupancyOf c t ((b + n) % 16))
    (d.setEmu g { e with base := (b + 4) % 16 }, b * 2 ^ 60 + s 0 * 2 ^ 45 + s 1 * 2 ^ 30 + s 2 * 2 ^ 15 + s 3)

/-- A burst header (R84). -/
def burstHeader (loc rei echo : Nat) (report gasp alarm : Bool) (level : Nat) : Nat :=
  let h := loc * 2 ^ 57 + rei * 2 ^ 49 + echo % 65536 * 2 ^ 33 + b2n report * 2 ^ 32 + b2n gasp * 2 ^ 31 +
    b2n alarm * 2 ^ 30 + level % 8 * 2 ^ 27
  h + crc16 h

/-- A burst of upstream frame `f` leaves unless its span overlaps the last one sent on the channel (R239); its guard begins at
`at_`. TBEN spans it with TBEN_LEAD and TBEN_LAG, and stays up where it has not yet fallen since the burst before (R238,
R615). -/
def Dev.transmit (d : Dev) (c : Nat) (at_ : Int) (cold : Bool) (loc f hdr : Nat) (l : List Blk) : Dev :=
  let n := burstBlocks cold l.length
  let a := at_.toNat
  if a < Tbl.get 0 d.emus.lastEnd c then d.flag F.TCH_TRMSTAT_TXOVL c
  else
    let blk (k : Nat) : Int := bits16 ((k * 66 : Nat) : Int)
    let stop : Int := at_ + blk n
    let rise : Int := at_ + blk 16 - blk (d.use F.TCH_TRMCFG_TBEN_LEAD c)
    let fall : Int := stop + blk (d.use F.TCH_TRMCFG_TBEN_LAG c)
    let up : Int := match Tbl.find? d.emus.tben c with
      | some (r, f) => if rise ≤ f then r else rise
      | none => rise
    let m := { d.emus with
      sent := Tbl.set d.emus.sent c (burstLine cold loc f hdr (l.map fun b => (b.ctl, b.pay)))
      lastEnd := Tbl.set d.emus.lastEnd c stop.toNat
      tben := Tbl.set d.emus.tben c (up, fall) }
    let d := { d with emus := m }
    (d.trmCount c 0).trmCount c 1 (n - 16)

/-- A discovery burst (R116, R117, R168): at TX_LEVEL 7. -/
def Dev.sendDisc (d : Dev) (c t : Nat) (x : DiscTx) : Dev :=
  let g := 128 * c + t
  let d := d.dlyFor c t x.eqd x.sub
  let e := d.emu g
  let at_ := d.txAt c t x.eqd x.sub x.start
  let d := d.runTo (at_ / 65536).toNat
  let n := min 255 (e.attempts + 1)
  let d := (d.set F.TCH_EMUSTAT_DISC_ATTEMPTS n c t).setEmu g { e with disc := none, tried := true, rei := 0, attempts := n }
  let body := toBE (d.get F.TCH_EMUSER_SERIAL c t) 8 ++ toBE x.delay 4 ++ toBE n 1 ++
    toBE (2 * d.get F.TCH_EMUCTL_CAP_DOZE c t) 1 ++ toBE (e.lastLocal.getD 0xFF) 1 ++ toBE 7 1
  let s := d.scribe c
  let d := d.setScribe c { s with bcast := (s.bcast + 1) % 2 ^ 48 }
  let m := msgBytes 0x81 false 0xFF e.upXid body ++ List.replicate 4 0
  let seg := ctlBlk (segHeader 0x80 64 true 0 false true s.bcast) :: (blocksOf m 8).map dataBlk
  let h := burstHeader 0 e.rei x.sub false false false 7
  let f := (x.sub + x.start / 55808) / 4
  (((d.trmCount c 2).trmCount c 12).octets (256 + c) 72).transmit c at_ true 0 f h (padTo 32 seg)

/-- A ranging burst (R119, R120), at TX_LEVEL 7 where its entry has POWER set (R168). -/
def Dev.sendRanging (d : Dev) (c t sub start : Nat) : Dev :=
  let g := 128 * c + t
  let d := d.dlyFor c t (d.emu g).rangeEqd sub
  let e := d.emu g
  let at_ := d.txAt c t e.rangeEqd sub start
  let d := d.runTo (at_ / 65536).toNat
  let d := d.set F.TCH_EMUSTAT_EQD e.rangeEqd c t
  let d := d.setEmu g { e with
    rangeSub := none, rangeAt := none, rangeSent := true, since := d.frameNow, rei := 0, upXid := (e.upXid + 1) % 256 }
  let loc := d.get F.TCH_EMUSTAT_LOCAL c t
  let k := d.emuSegment c t (msgBytes 0x82 true loc e.upXid (toBE (d.get F.TCH_EMUSER_SERIAL c t) 8 ++ toBE e.rangeEqd 4))
  let h := burstHeader loc e.rei sub false false false (if e.rangePower then 7 else e.level)
  (k.1.trmCount c 3).transmit c at_ true loc (sub / 4) h (padTo 32 k.2)

/-- The answer positions of a burst (R170, R243). -/
def Dev.fillAnswers (d : Dev) (c t sub n : Nat) : Dev × List Blk :=
  let g := 128 * c + t
  let e := d.emu g
  if n = 0 then (d, [])
  else
    match e.answers.find? fun a => decide (a.1 + 1 ≤ sub) with
    | none => (d, padTo n [])
    | some a =>
      let k := (d.setEmu g { e with answers := e.answers.erase a }).emuSegment c t a.2
      (k.1, padTo n k.2)

/-- Does a terminal send in frame `f` (R133, R235)? A dozing one sends in its awake frames only. -/
def Dev.emuAwake (d : Dev) (c t f : Nat) : Bool :=
  let e := d.emu (128 * c + t)
  d.emuSt c t != 5 || f % max 1 e.period == e.phase

/-- A granted burst goes out (R170, R240 to R243). -/
def Dev.sendBurst (d : Dev) (c t : Nat) (b : Burst) : Dev :=
  let g := 128 * c + t
  let f := b.sub / 4
  let d := if (d.emu g).eqdNext.any fun k => decide (k.1 ≤ f) then d.emuApplyEqd c t else d
  let d := d.dlyFor c t (d.get F.TCH_EMUSTAT_EQD c t) b.sub
  let at_ := d.txAt c t (d.get F.TCH_EMUSTAT_EQD c t) b.sub b.start
  let pre := if b.cold then 512 else 64
  let at0 := at_ + bits16 (16 * 66)
  let d := d.runTo (at0 / 65536).toNat
  let e := d.emu g
  let gasp := d.on F.TCH_EMUCTL_GASP c t
  let alarm := d.on F.TCH_EMUCTL_ALARM c t
  let ends := e.deactAt.isSome && (e.answers.any fun a => be a.2 0 1 == 0x84 && be a.2 4 1 == 0x06 && decide (a.1 + 1 ≤ b.sub))
  let d := d.setEmu g { e with bursts := e.bursts.drop 1, rei := 0, gaspBurst := e.gaspBurst || gasp }
  let d := if gasp then d.set F.TCH_EMUCTL_GASP 0 c t else d
  let a := d.fillAnswers c t b.sub b.answers
  let loc := d.get F.TCH_EMUSTAT_LOCAL c t
  let z := Dev.fillShares c t b.sub at0 pre (b.owedShare loc (d.emuSt c t != 3)) true (2 * b2n b.report + b.answers) a.1 b.shares
  let late := ((z.1.emu g).answers.filter fun x => decide (x.1 + 1 ≤ b.sub)).length
  let d := foldUpTo late (fun _ d => d.flag F.TCH_TRMSTAT_ANSWAIT c) z.1
  let r : Dev × List Blk := if b.report then
      let k := d.reportBody c t
      (k.1, [ctlBlk 0x5A3C000000000000, dataBlk k.2])
    else (d, [])
  let h := burstHeader loc e.rei b.sub b.report gasp alarm (if b.power then 7 else e.level)
  let d := (r.1.transmit c at_ b.cold loc f h (r.2 ++ a.2 ++ z.2)).trigBurst c loc at0
  let still := (d.emu g).answers.any fun a => be a.2 0 1 == 0x84 && be a.2 4 1 == 0x06
  if ends && !still then d.emuTo c t 0 else d

/-- A granted burst (R240): what its frame brings takes effect first, and one that falls outside the awake frames of a dozing
terminal is not sent (R133, R235). -/
def Dev.sendGranted (d : Dev) (c t : Nat) (b : Burst) : Dev :=
  let g := 128 * c + t
  let d := d.emuFrame c t (b.sub / 4)
  if d.emuAwake c t (b.sub / 4) then d.sendBurst c t b
  else d.setEmu g { d.emu g with bursts := (d.emu g).bursts.drop 1 }

/-- What emulated terminal `t` sends next: its discovery burst, its ranging burst or its oldest granted burst. -/
def Dev.burstTx (d : Dev) (c t : Nat) : Dev :=
  let e := d.emu (128 * c + t)
  match d.emuSt c t with
  | 1 => match e.disc with
    | some x => d.sendDisc c t x
    | none => d
  | 2 => match e.rangeSub, e.rangeAt with
    | some s, some a => d.sendRanging c t s a
    | _, _ => d
  | 3 | 4 | 5 => match e.bursts with
    | b :: _ => d.sendGranted c t b
    | [] => d
  | _ => d

/-- BURST_TX. Nothing leaves once the entry into VIGIL has stopped transmit (R38). A burst waits while the words of its traffic cannot
cross to the channel's die (R24, R25). -/
def execBurstTx (c : Ch) (t : Loc) (s : State) : Res :=
  run (.burstTx c t) s fun d =>
    if d.booted && d.termRole c && (d.rx c).arrived.isSome && d.emuOn c t && !d.arb.squelch && decide (d.arb.vigilStage < 2) &&
        d.outOpen (c / 64) then
      d.burstTx c t
    else d

end Sys2Proof.Machine
end

