-- ==== Sys2Proof/Machine/Frame.lean ====
section
/-!
DEFINITION. The frame boundary (R50 to R60): a lease that ends or is released there, what takes effect there, the messages
to the partner, and the frames of the channels.
-/

namespace Sys2Proof.Machine

/-- A lease that ends at this boundary goes before a release that is due at it (R37, R40, R468, R477). -/
def Dev.leaseAtBoundary (d : Dev) : Dev :=
  if d.active && d.get F.STL_STAT_ROLE == 1 && d.on F.STL_STAT_LEASE && decide (d.stl.lease ≤ d.frameNow) then
    d.expireLease.loseLease
  else match d.arb.releaseAt with
    | some p => if p ≤ d.frameNow then d.runRelease p else d
    | none => d

/-- Rogue marks older than 8,000 frames leave the records of their terminals (R125, R143). -/
def Dev.expireMarks (d : Dev) (c : Nat) : Dev :=
  (d.termsOf c).foldl (fun d e =>
    let l := d.marksNow e.2
    if l.length = e.2.marks.length then d else d.setTerm e.1 { e.2 with marks := l }) d

/-- Channel `c`'s TCH_LCCFG, TCH_DISCCFG, TCH_RCVCFG and TCH_TRMCFG take effect (R145, R254). -/
def Dev.applyChannel (c : Nat) (d : Dev) : Dev :=
  let d := ((d.release RegOf.TCH_LCCFG c 0).release RegOf.TCH_DISCCFG c 0).release RegOf.TCH_RCVCFG c 0
  (((d.release RegOf.SLN_TXCFG c 0).settleBrx c).expireMarks c).applyTrmCfg c |>.shadowIdle c d.frameNow

/-- The record of an update for the partner (R326, R467): 16 bytes, which the model takes to be those of the bridge entry,
VALID 0 for a removal (DEDUCED, log entry 25). -/
def learnWire (u : LearnUpd) : List Byte :=
  let r := bridgeRec u.pair u.dest
  toLE (if u.removed then setBits r 63 1 0 else r) 16

/-- The active device's messages of the frame (R467, R468, R472, R484). -/
def Dev.activeMessages (d : Dev) : Dev :=
  let f := d.frameNow
  let leaving := d.arb.squelch && d.arb.trans.any fun t => t.target != 3
  if leaving then d
  else
    let d := (d.stSend 0x02 (toBE f 6 ++ toBE (d.get F.TCH_FRMID_HEAD_EPOCH 0) 2)).stlCount 0
    let d := match d.stl.bulkBy with
      | some _ =>
        let recs := Config.copyOut d.free
        let d := { d with free := d.free + 1, stl := { d.stl with bulkBy := none } }
        d.stSend 0x0F (toBE (f - 1) 6 ++ recs)
      | none => d
    d.sendDelta (f - 1)

/-- The learning station's updates of the last frame go to the partner (R330, R467). -/
def Dev.sendLearns (d : Dev) : Dev :=
  if d.fwd.updates.isEmpty then d
  else
    let b := d.fwd.updates.flatMap learnWire
    { d with fwd := { d.fwd with updates := [] } }.stSend 0x09 b

/-- The messages of a frame. -/
def Dev.frameMessages (d : Dev) : Dev :=
  let d := d.sendAgain
  if d.active && d.stitchUp then d.activeMessages.sendLearns
  else if d.standby && d.stitchUp then d.stSend 0x0C d.stampNow
  else { d with fwd := { d.fwd with updates := [] } }

/-- The mirror of a terminal's burst record and preset (R556, R558). -/
def Dev.mirrorBurst (d : Dev) (g : Nat) : Dev :=
  let p := d.preset g
  d.obsWrite (0x40000000 + 256 * g + 32)
    (toLE (Tbl.get 0 d.reg.bursts g) 32 ++ toLE p.value 16 ++ toLE p.state 1 ++ toLE (d.presetAge g) 1)

/-- Burst records and presets that have changed are written in their mirrors (R558). -/
def Dev.mirrorBursts (d : Dev) : Dev :=
  let l := d.lanes.dirty
  l.foldl Dev.mirrorBurst { d with lanes := { d.lanes with dirty := [] } }

/-- What takes effect at a frame boundary. -/
def Dev.applyAtBoundary (d : Dev) : Dev := (foldUpTo 128 Dev.applyChannel d.applyCircuits).mirrorBursts

/-- The assertion that comes before its own occurrence is counted (R449): of a BURST trigger at a burst that is scheduled, of a FRAME
trigger with a negative OFFSET before its boundary, and not past the next boundary. -/
def Dev.trigAhead (d : Dev) (k : Nat) : Option Int :=
  let left := ((d.use F.TIM_TRIG_CTL_EVERY k : Int) - (d.trig k).due - 1).toNat
  let o := d.trigOffset k
  if d.use F.TIM_TRIG_CTL_MODE k = 3 then
    let next : Nat := d.nowNs / 125000 + 1
    let a : Int := ((next + left) * 1000000 : Nat) + o
    if o < 0 ∧ a ≤ (next * 1000000 : Nat) then some a else none
  else
    let c := d.use F.TIM_TRIG_CTL_CH k
    let l := d.use F.TIM_TRIG_CTL_LOCAL k
    let at_ : List Int := if d.termRole c then
        match d.localTerm c l with
        | none => []
        | some t => (d.emu (128 * c + t)).bursts.map fun b =>
            d.txAt c t (d.get F.TCH_EMUSTAT_EQD c t) b.sub b.start + bits16 (16 * 66)
      else ((d.brx c).sched.filter fun b => b.loc == l).map (d.delim16 c)
    (at_[left]?).map fun x => x / 8192 + o

/-- A counted trigger asserts at `a`, in units of 125 ps, to which the clock runs. -/
def Dev.trigAt (d : Dev) (k : Nat) (t : Trig) (a : Int) : Dev := (d.runTo (a.toNat / 8)).assertTrig k t a.toNat

/-- TRIGGER_FIRE (R449, R450): trigger `k` asserts its pin at its scheduled instant: START, the next START + n × PERIOD, or OFFSET
from every EVERY-th frame boundary or burst. The clock runs to a scheduled instant ahead. -/
def execTriggerFire (k : Fin 16) (s : State) : Res := run (.triggerFire k) s fun d =>
  let t := d.trig k
  let start := d.trigStart k
  if !d.useB F.TIM_TRIG_CTL_ENABLE k || d.mode == 4 then d
  else match d.use F.TIM_TRIG_CTL_MODE k with
    | 1 => if t.spent ∨ start < d.nowNs then d else (d.runTo start).assertTrig k { t with spent := true } (start * 8)
    | 2 =>
      let per := max 1 (d.use F.TIM_TRIG_TIME_PERIOD k)
      let from_ := max d.nowNs t.after
      let at_ := if from_ ≤ start then start else start + cdiv (from_ - start) per * per
      (d.runTo at_).assertTrig k { t with after := at_ + 1 } (at_ * 8)
    | 3 | 4 =>
      match t.plan with
      | a :: r => d.trigAt k { t with plan := r } a
      | [] =>
        match d.trigAhead k with
        | none => d
        | some a => if (d.now8 : Int) ≤ a then d.trigAt k { t with due := t.due - d.use F.TIM_TRIG_CTL_EVERY k } a else d
    | _ => d

/-- A frame boundary. The messages of the frame before it leave the record of those sent; what a release or an expiry at the
boundary sends is of the new frame. -/
def Dev.frameStart (d : Dev) : Dev :=
  let d := { d with stl := { d.stl with sent := [] } }.toNewFrame.leaseAtBoundary
  let d := (d.startTx.applyCopy.showReady).applyAtBoundary.frameMessages
  (foldUpTo 128 Dev.beginFrame d).trigFrame

/-- FRAME_START: at the next multiple of 125 µs of local time every channel that frames begins a frame. -/
def execFrameStart (s : State) : Res :=
  run .frameStart s fun d => if d.booted && d.mode != 4 then d.frameStart else d

/-! ### Nothing commanded -/

/-- With no command waiting, one fabric cycle passes: the local clock advances by its addend, but while reset holds the part
or in VIGIL, where the fabric clock's domain is off, only the cycle count does (R38, R435; log entry 32). -/
def Dev.idle (d : Dev) : Dev := if d.boot.resetHeld ∨ d.mode = 4 then d.cycles 1 else d.tick

end Sys2Proof.Machine
end

