-- ==== Sys2Proof/Machine/Replay.lean ====
section
/-!
DEFINITION. Word parity and replay (R23 to R27): words that fail, what an uncorrectable transfer carried, and acknowledgements.
-/

namespace Sys2Proof.Machine

/-! ### Word parity and replay (R23 to R27) -/

/-- WORD_FAILED (R23, R25, R27): a word whose parity fails makes the receiver discard until the replayed word arrives, and ask
for the replay. -/
def execWordFailed (src : Fin 9) (w : WordIn) (s : State) : Res :=
  run (.wordFailed src w) s fun d =>
    if w.fails && d.on F.GLB_D2DSTAT_LINK_UP src && !(d.link src w.dir).discarding then
      (d.setLink src w.dir { d.link src w.dir with discarding := true }).flag F.GLB_D2DSTAT_REPLAYED src
    else d

/-- Mark a forwarding, parser, container or queue entry, or a rule of Quill (R518), invalid (R26): its VALID bit falls. -/
def Dev.invalidRec (d : Dev) (base table index : Nat) : Dev :=
  if base = 0x0150 then (if index < fwdSize table then d.fwdInvalid table index else d)
  else if base = 0x0140 then
    (if table = 0 ∧ index < 8192 then
      let r := Tbl.get 0 d.par.rules index
      { d with par := { d.par with rules := Tbl.put 0 d.par.rules index (setBits r (8 * 176) 1 0) } }.mirrorRule index
    else d)
  else if base = 0x00D0 then
    (if table = 0 ∧ index < 65536 then
      let r := Tbl.get 0 d.gnt.cfg index
      d.writeCont index (setRec r 2 1 (recBytes r 2 1 / 2 * 2))
    else d)
  else if base = 0x0100 ∧ table = 0 ∧ index < 66560 then d.tmgWrite 0 index (setBits (Tbl.get 0 d.tm.qcfg index) 32 1 0)
  else if base = 0x0003 ∧ table = 2 ∧ index < 64 then d.putRule index (setBits (d.ruleRec index) (8 * 15) 1 0)
  else d

/-- Mark an entry invalid (R26): the VALID bit of a record that has one, FREE for a registry entry, EMPTY for a key slot, NONE for a
preset (R91), and both directions of a circuit disabled; a record with no such state keeps its value (log entry 126). -/
def Dev.invalidate (d : Dev) (base table index : Nat) : Dev :=
  if 0x40 ≤ base ∧ base < 0xC0 then (if index < 16384 then d.endTerm index 0 else d)
  else if base = 0x00E0 then
    (if index < 1024 then
      ((d.hold RegOf.CIR_CFG index 0).set F.CIR_CFG_DN_EN 0 index).set F.CIR_CFG_UP_EN 0 index
    else d)
  else if base = 0x01C0 then (if index < 131072 then d.setSlot index emptySlot else d)
  else if base = 0x0010 then (if index < 16384 then d.presetState index 0 else d)
  else d.invalidRec base table index

/-- The next segment of channel `c` is lost on its way to the framer (R26): the counter value that it used is consumed and
never used again, and the packet goes on after it. -/
def Dev.loseSegment (d : Dev) (c : Nat) : Dev :=
  let e := d.segmentOut c
  if (e.tx c).part = (d.tx c).part ∧ e.tm.ahead = d.tm.ahead then d
  else
    let regs := [1, 2].foldl (fun r k => Tbl.set r (F.TCH_TXCNT_COUNT.key c k) (d.get F.TCH_TXCNT_COUNT c k)) e.regs
    let tx := Tbl.set e.lines.tx c { d.tx c with part := (e.tx c).part }
    { e with regs := regs, lines := { e.lines with tx := tx } }

/-- The packet of a pipeline that an uncorrectable transfer carried: of those to be resent the first, else the one whose
words are being sent, else the one at the front of the pipeline's queue. -/
def Dev.losePacket (d : Dev) (src dir pipe : Nat) : Dev :=
  let x := d.link src dir
  let mine (p : InPkt) : Bool := d.pipeOf p.quad == pipe
  match x.again.find? mine, (x.waiting.head?.bind (·.pkt)).filter mine with
  | some p, _ => p.bufs.foldl Dev.release1 (d.setLink src dir { x with again := x.again.erase p })
  | none, some p =>
    let w := x.waiting.modify 0 fun t => { t with pkt := none }
    p.bufs.foldl Dev.release1 (d.setLink src dir { x with waiting := w })
  | none, none =>
    match Tbl.get [] d.fab.inq pipe with
    | [] => d
    | p :: r => p.bufs.foldl Dev.release1 { d with fab := { d.fab with inq := Tbl.set d.fab.inq pipe r } }

/-- What an uncorrectable transfer carried decides its outcome (R26). -/
def Dev.uncorrectable (d : Dev) (src dir : Nat) (x : Xfer) : Dev :=
  match x with
  | .packet pipe => d.losePacket src dir pipe
  | .frame port => let p := d.firstPort port; if d.macSends p then d.macTx p .aborted else d
  | .segment c => d.loseSegment c
  | .control base table index tries =>
    if tries.val < 3 then d
    else (d.event (base.val * 65536) 0x0005 0 (base.val + 65536 * index.val)).invalidate base table index
  | .regRead tries => if tries.val < 3 then d else d.readOut (2 ^ 64 - 1) true
  | .regWrite a tries =>
    if tries.val < 3 then d
    else d.event a 0x0005 0 (sourceOf a + 65536 * ((findReg a.val allRegs).map fun x => x.2.1).getD 0)

/-- The receiver on a bus or link takes words again: what was resent arrives in its order, before new words (R25). -/
def Dev.resume (d : Dev) (src dir : Nat) : Dev :=
  let x := d.link src dir
  let r := Link.fill { x with discarding := false, again := [] } src
  (d.setLink src dir r.1).goOn src (x.again ++ r.2)

/-- REPLAYED_WORD (R25 to R27): the replayed word arrives; failing again, it makes its transfer uncorrectable. -/
def execReplayedWord (src : Fin 9) (dir : Fin 2) (bad : Option Xfer) (s : State) : Res :=
  run (.replayedWord src dir bad) s fun d =>
    if (d.link src dir).discarding then
      match bad with
      | none => d.resume src dir
      | some x => ((((d.flag F.GLB_D2DSTAT_UNCORR src).alert 7).alertActive 7 true).uncorrectable src dir x).resume src dir
    else d

/-- REPLAY_ACK (R24): a group of 16 words is acknowledged, and words that waited are sent. -/
def execReplayAck (src : Fin 9) (dir : Fin 2) (s : State) : Res :=
  run (.replayAck src dir) s fun d =>
    let x := d.link src dir
    let r := Link.fill { x with held := x.held - 16 } src
    (d.setLink src dir r.1).goOn src r.2

end Sys2Proof.Machine
end

