-- ==== Sys2Proof/Machine/Dispatch.lean ====
section
/-!
DEFINITION. One arm for each command.
-/

namespace Sys2Proof.Machine

/-- What a command does to the machine beside the queue. -/
def exec (i : Instr) (s : State) : Host.Outcome State Fault Refusal :=
  match i with
  | .registerWrite a size v fails => Sys2Proof.Machine.execRegisterWrite a size v fails s
  | .coldReset => Sys2Proof.Machine.execColdReset s
  | .bootReset code => Sys2Proof.Machine.execBootReset code s
  | .powerFail => Sys2Proof.Machine.execPowerFail s
  | .fusesSensed f => Sys2Proof.Machine.execFusesSensed f s
  | .slotReadDone r => Sys2Proof.Machine.execSlotReadDone r s
  | .recordsApplied => Sys2Proof.Machine.execRecordsApplied s
  | .bootLock fuseBad => Sys2Proof.Machine.execBootLock fuseBad s
  | .todWaitEnd => Sys2Proof.Machine.execTodWaitEnd s
  | .flashReadPage a => Sys2Proof.Machine.execFlashReadPage a s
  | .flashProgramPage a => Sys2Proof.Machine.execFlashProgramPage a s
  | .flashErase a => Sys2Proof.Machine.execFlashErase a s
  | .flashOpDone err => Sys2Proof.Machine.execFlashOpDone err s
  | .quadMove q => Sys2Proof.Machine.execQuadMove q s
  | .quadDrainEnd q => Sys2Proof.Machine.execQuadDrainEnd q s
  | .quadMoveAbandoned q => Sys2Proof.Machine.execQuadMoveAbandoned q s
  | .wordFailed src w => Sys2Proof.Machine.execWordFailed src w s
  | .replayedWord src dir bad => Sys2Proof.Machine.execReplayedWord src dir bad s
  | .replayAck src dir => Sys2Proof.Machine.execReplayAck src dir s
  | .modeTrigger => Sys2Proof.Machine.execModeTrigger s
  | .vigilEntry => Sys2Proof.Machine.execVigilEntry s
  | .vigilDrained => Sys2Proof.Machine.execVigilDrained s
  | .vigilPowerDown => Sys2Proof.Machine.execVigilPowerDown s
  | .wake => Sys2Proof.Machine.execWake s
  | .testEntry => Sys2Proof.Machine.execTestEntry s
  | .leaseExpiry => Sys2Proof.Machine.execLeaseExpiry s
  | .frameStart => Sys2Proof.Machine.execFrameStart s
  | .subframeStart c sf => Sys2Proof.Machine.execSubframeStart c sf s
  | .segmentTx c => Sys2Proof.Machine.execSegmentTx c s
  | .framerConfigApply c => Sys2Proof.Machine.execFramerConfigApply c s
  | .blockReceived c hdr pay => Sys2Proof.Machine.execBlockReceived c hdr pay s
  | .oof c => Sys2Proof.Machine.execOof c s
  | .retainExpired c => Sys2Proof.Machine.execRetainExpired c s
  | .lof c => Sys2Proof.Machine.execLof c s
  | .codewordDecode c w => Sys2Proof.Machine.execCodewordDecode c w s
  | .frameHeaderRx c ago => Sys2Proof.Machine.execFrameHeaderRx c ago s
  | .subframeHeaderRx c => Sys2Proof.Machine.execSubframeHeaderRx c s
  | .segmentRx c => Sys2Proof.Machine.execSegmentRx c s
  | .presetLoad c parityBad => Sys2Proof.Machine.execPresetLoad c parityBad s
  | .burstReceived c b => Sys2Proof.Machine.execBurstReceived c b s
  | .burstMissing c => Sys2Proof.Machine.execBurstMissing c s
  | .guardIntrusion c => Sys2Proof.Machine.execGuardIntrusion c s
  | .presetStale g => Sys2Proof.Machine.execPresetStale g s
  | .subframeTick c => Sys2Proof.Machine.execSubframeTick c s
  | .discRx c rs => Sys2Proof.Machine.execDiscRx c rs s
  | .rangeRx c loc r => Sys2Proof.Machine.execRangeRx c loc r s
  | .activate c loc => Sys2Proof.Machine.execActivate c loc s
  | .msgRx c => Sys2Proof.Machine.execMsgRx c s
  | .msgRetry c loc type => Sys2Proof.Machine.execMsgRetry c loc type s
  | .track c loc => Sys2Proof.Machine.execTrack c loc s
  | .loss c loc => Sys2Proof.Machine.execLoss c loc s
  | .recoveryEnd c => Sys2Proof.Machine.execRecoveryEnd c s
  | .gasp c loc => Sys2Proof.Machine.execGasp c loc s
  | .rogue c loc => Sys2Proof.Machine.execRogue c loc s
  | .holdExpired c loc => Sys2Proof.Machine.execHoldExpired c loc s
  | .recallStep c => Sys2Proof.Machine.execRecallStep c s
  | .moveSource c loc => Sys2Proof.Machine.execMoveSource c loc s
  | .sideMoveEffective c loc => Sys2Proof.Machine.execSideMoveEffective c loc s
  | .moveTarget c loc => Sys2Proof.Machine.execMoveTarget c loc s
  | .doze c loc => Sys2Proof.Machine.execDoze c loc s
  | .keys c loc req => Sys2Proof.Machine.execKeys c loc req s
  | .alarm c loc => Sys2Proof.Machine.execAlarm c loc s
  | .hostCmd c loc => Sys2Proof.Machine.execHostCmd c loc s
  | .takeover c => Sys2Proof.Machine.execTakeover c s
  | .termRx c => Sys2Proof.Machine.execTermRx c s
  | .termTick c => Sys2Proof.Machine.execTermTick c s
  | .holdoverExpired c t => Sys2Proof.Machine.execHoldoverExpired c t s
  | .rangeWaitExpired c t => Sys2Proof.Machine.execRangeWaitExpired c t s
  | .deactivateTimeout c t => Sys2Proof.Machine.execDeactivateTimeout c t s
  | .snapshot c => Sys2Proof.Machine.execSnapshot c s
  | .reportProcess c => Sys2Proof.Machine.execReportProcess c s
  | .gntIndRead table index => Sys2Proof.Machine.execGntIndRead table index s
  | .gntIndWrite table index => Sys2Proof.Machine.execGntIndWrite table index s
  | .pipelinePacket pipe => Sys2Proof.Machine.execPipelinePacket pipe s
  | .learnApply => Sys2Proof.Machine.execLearnApply s
  | .pendingFilterTimeout pipe => Sys2Proof.Machine.execPendingFilterTimeout pipe s
  | .agingSweep => Sys2Proof.Machine.execAgingSweep s
  | .fwdFlush id scope => Sys2Proof.Machine.execFwdFlush id scope s
  | .fwdIndRead table index => Sys2Proof.Machine.execFwdIndRead table index s
  | .fwdIndWrite table index => Sys2Proof.Machine.execFwdIndWrite table index s
  | .fwdIndRemove table index => Sys2Proof.Machine.execFwdIndRemove table index s
  | .prefixRelocationDone => Sys2Proof.Machine.execPrefixRelocationDone s
  | .schedulerSelect c => Sys2Proof.Machine.execSchedulerSelect c s
  | .refill => Sys2Proof.Machine.execRefill s
  | .meterSweep => Sys2Proof.Machine.execMeterSweep s
  | .queueReparent q => Sys2Proof.Machine.execQueueReparent q s
  | .tmgIndRead table index => Sys2Proof.Machine.execTmgIndRead table index s
  | .tmgIndWrite table index => Sys2Proof.Machine.execTmgIndWrite table index s
  | .spillStep q => Sys2Proof.Machine.execSpillStep q s
  | .prefetch q => Sys2Proof.Machine.execPrefetch q s
  | .pageLand q slot headerBad => Sys2Proof.Machine.execPageLand q slot headerBad s
  | .bufIndRead table index => Sys2Proof.Machine.execBufIndRead table index s
  | .bufIndWrite table index => Sys2Proof.Machine.execBufIndWrite table index s
  | .memReadComplete r e blk ns => Sys2Proof.Machine.execMemReadComplete r e blk ns s
  | .memWriteAck e => Sys2Proof.Machine.execMemWriteAck e s
  | .refreshInterval pc issued => Sys2Proof.Machine.execRefreshInterval pc issued s
  | .stackTempSample st raw => Sys2Proof.Machine.execStackTempSample st raw s
  | .stackReturn st => Sys2Proof.Machine.execStackReturn st s
  | .pageTimeout bank => Sys2Proof.Machine.execPageTimeout bank s
  | .unitRetire stack ch psid => Sys2Proof.Machine.execUnitRetire stack ch psid s
  | .migrationStep e access => Sys2Proof.Machine.execMigrationStep e access s
  | .macFrameRx m => Sys2Proof.Machine.execMacFrameRx m s
  | .pauseTimerExpiry port k => Sys2Proof.Machine.execPauseTimerExpiry port k s
  | .pauseStorm port k => Sys2Proof.Machine.execPauseStorm port k s
  | .pauseStormEnd port => Sys2Proof.Machine.execPauseStormEnd port s
  | .macFrameTx port e => Sys2Proof.Machine.execMacFrameTx port e s
  | .linkUp port => Sys2Proof.Machine.execLinkUp port s
  | .linkDown port c sending => Sys2Proof.Machine.execLinkDown port c sending s
  | .circuitRegionRx n => Sys2Proof.Machine.execCircuitRegionRx n s
  | .circuitFrameRx => Sys2Proof.Machine.execCircuitFrameRx s
  | .regionMiss n => Sys2Proof.Machine.execRegionMiss n s
  | .burstTx c t => Sys2Proof.Machine.execBurstTx c t s
  | .emuEnable c t => Sys2Proof.Machine.execEmuEnable c t s
  | .emuDisable c t => Sys2Proof.Machine.execEmuDisable c t s
  | .emuGasp c t => Sys2Proof.Machine.execEmuGasp c t s
  | .emuGaspTimeout c t => Sys2Proof.Machine.execEmuGaspTimeout c t s
  | .emuAlarm c t => Sys2Proof.Machine.execEmuAlarm c t s
  | .emuAlarmResend c t => Sys2Proof.Machine.execEmuAlarmResend c t s
  | .emuDoze c t => Sys2Proof.Machine.execEmuDoze c t s
  | .emuCountApply c => Sys2Proof.Machine.execEmuCountApply c s
  | .bucketMove b => Sys2Proof.Machine.execBucketMove b s
  | .bucketHoldEnd b => Sys2Proof.Machine.execBucketHoldEnd b s
  | .laneEnable n => Sys2Proof.Machine.execLaneEnable n s
  | .laneDisable n => Sys2Proof.Machine.execLaneDisable n s
  | .lanePowerupDone n => Sys2Proof.Machine.execLanePowerupDone n s
  | .laneCalDone n => Sys2Proof.Machine.execLaneCalDone n s
  | .laneLock n v => Sys2Proof.Machine.execLaneLock n v s
  | .laneFault n => Sys2Proof.Machine.execLaneFault n s
  | .faultRetry n => Sys2Proof.Machine.execFaultRetry n s
  | .los n => Sys2Proof.Machine.execLos n s
  | .retrain n host ws => Sys2Proof.Machine.execRetrain n host ws s
  | .injOne n => Sys2Proof.Machine.execInjOne n s
  | .rateInjection n => Sys2Proof.Machine.execRateInjection n s
  | .presetRead index dflt => Sys2Proof.Machine.execPresetRead index dflt s
  | .presetWrite index dflt => Sys2Proof.Machine.execPresetWrite index dflt s
  | .presetErase index dflt => Sys2Proof.Machine.execPresetErase index dflt s
  | .parIndRead table index => Sys2Proof.Machine.execParIndRead table index s
  | .parIndWrite table index => Sys2Proof.Machine.execParIndWrite table index s
  | .fragTimeout n => Sys2Proof.Machine.execFragTimeout n s
  | .keyStatusRead index => Sys2Proof.Machine.execKeyStatusRead index s
  | .keyPortImport index => Sys2Proof.Machine.execKeyPortImport index s
  | .keyPortErase index => Sys2Proof.Machine.execKeyPortErase index s
  | .keyZeroize index => Sys2Proof.Machine.execKeyZeroize index s
  | .jobComplete => Sys2Proof.Machine.execJobComplete s
  | .jobPreempt blocks => Sys2Proof.Machine.execJobPreempt blocks s
  | .servoSample freqPpb => Sys2Proof.Machine.execServoSample freqPpb s
  | .sourceLoss => Sys2Proof.Machine.execSourceLoss s
  | .clockStep ns atPps => Sys2Proof.Machine.execClockStep ns atPps s
  | .ppsInEdge => Sys2Proof.Machine.execPpsInEdge s
  | .ptpMessageRx m => Sys2Proof.Machine.execPtpMessageRx m s
  | .ptpMessageTx port kind => Sys2Proof.Machine.execPtpMessageTx port kind s
  | .triggerFire k => Sys2Proof.Machine.execTriggerFire k s
  | .triggerEnd k => Sys2Proof.Machine.execTriggerEnd k s
  | .ppsOutPulse => Sys2Proof.Machine.execPpsOutPulse s
  | .capEdge k rising => Sys2Proof.Machine.execCapEdge k rising s
  | .capturePop k => Sys2Proof.Machine.execCapturePop k s
  | .nowRead => Sys2Proof.Machine.execNowRead s
  | .hello h => Sys2Proof.Machine.execHello h s
  | .renew f epoch fl => Sys2Proof.Machine.execRenew f epoch fl s
  | .stitchAck f fl => Sys2Proof.Machine.execStitchAck f fl s
  | .release p => Sys2Proof.Machine.execRelease p s
  | .resign cause => Sys2Proof.Machine.execResign cause s
  | .delta f recs => Sys2Proof.Machine.execDelta f recs s
  | .commit f count crc => Sys2Proof.Machine.execCommit f count crc s
  | .stitchMap c target entries => Sys2Proof.Machine.execStitchMap c target entries s
  | .stitchLearn us => Sys2Proof.Machine.execStitchLearn us s
  | .stitchKey slot wrapped => Sys2Proof.Machine.execStitchKey slot wrapped s
  | .stitchConfig a data => Sys2Proof.Machine.execStitchConfig a data s
  | .timeReq t1 => Sys2Proof.Machine.execTimeReq t1 s
  | .timeResp t1 t2 t3 => Sys2Proof.Machine.execTimeResp t1 t2 t3 s
  | .resyncReq => Sys2Proof.Machine.execResyncReq s
  | .bulk recs last => Sys2Proof.Machine.execBulk recs last s
  | .msgLost type sent => Sys2Proof.Machine.execMsgLost type sent s
  | .stitchLinkChange hdrs => Sys2Proof.Machine.execStitchLinkChange hdrs s
  | .lossTakeover => Sys2Proof.Machine.execLossTakeover s
  | .txSuspect c optics => Sys2Proof.Machine.execTxSuspect c optics s
  | .revival => Sys2Proof.Machine.execRevival s
  | .linkWaitExpired => Sys2Proof.Machine.execLinkWaitExpired s
  | .routineRestart c => Sys2Proof.Machine.execRoutineRestart c s
  | .watchdog c => Sys2Proof.Machine.execWatchdog c s
  | .patchReloadDone c addr => Sys2Proof.Machine.execPatchReloadDone c addr s
  | .scribeRestart c => Sys2Proof.Machine.execScribeRestart c s
  | .traceConfig v => Sys2Proof.Machine.execTraceConfig v s
  | .scrIndRead index table => Sys2Proof.Machine.execScrIndRead index table s
  | .quillSample x => Sys2Proof.Machine.execQuillSample x s
  | .opticsPoll m x => Sys2Proof.Machine.execOpticsPoll m x s
  | .quillPass => Sys2Proof.Machine.execQuillPass s
  | .quillParityRestart => Sys2Proof.Machine.execQuillParityRestart s
  | .thermalTrip => Sys2Proof.Machine.execThermalTrip s
  | .foldWindow => Sys2Proof.Machine.execFoldWindow s
  | .unfoldLocked p => Sys2Proof.Machine.execUnfoldLocked p s
  | .qulIndRead index table => Sys2Proof.Machine.execQulIndRead index table s
  | .qulIndWrite index table => Sys2Proof.Machine.execQulIndWrite index table s
  | .sqDoorbell n tail => Sys2Proof.Machine.execSqDoorbell n tail s
  | .cqHeadWrite n head => Sys2Proof.Machine.execCqHeadWrite n head s
  | .ringStop n => Sys2Proof.Machine.execRingStop n s
  | .nop ring => Sys2Proof.Machine.execNop ring s
  | .admitEntry ring => Sys2Proof.Machine.execAdmitEntry ring s
  | .disable ring => Sys2Proof.Machine.execDisable ring s
  | .enable ring => Sys2Proof.Machine.execEnable ring s
  | .deactivate ring => Sys2Proof.Machine.execDeactivate ring s
  | .moveSide ring => Sys2Proof.Machine.execMoveSide ring s
  | .rerange ring => Sys2Proof.Machine.execRerange ring s
  | .dozeAllow ring => Sys2Proof.Machine.execDozeAllow ring s
  | .recallClear ring => Sys2Proof.Machine.execRecallClear ring s
  | .tableWrite ring => Sys2Proof.Machine.execTableWrite ring s
  | .keyImport ring => Sys2Proof.Machine.execKeyImport ring s
  | .keyErase ring => Sys2Proof.Machine.execKeyErase ring s
  | .setMode ring => Sys2Proof.Machine.execSetMode ring s
  | .switchOver ring => Sys2Proof.Machine.execSwitchOver ring s
  | .job ring => Sys2Proof.Machine.execJob ring s
  | .commandComplete ring => Sys2Proof.Machine.execCommandComplete ring s
  | .blotterEvent e => Sys2Proof.Machine.execBlotterEvent e s
  | .blotterEntryClose => Sys2Proof.Machine.execBlotterEntryClose s
  | .blotterWrite => Sys2Proof.Machine.execBlotterWrite s
  | .evtConsWrite cons => Sys2Proof.Machine.execEvtConsWrite cons s
  | .msiSend v => Sys2Proof.Machine.execMsiSend v s
  | .counterSheet => Sys2Proof.Machine.execCounterSheet s
  | .halfRange a => Sys2Proof.Machine.execHalfRange a s
  | .bwWindow => Sys2Proof.Machine.execBwWindow s
  | .pmuClear => Sys2Proof.Machine.execPmuClear s
  | .supplyAndClockGood => Sys2Proof.Machine.execSupplyAndClockGood s
  | .mailboxCommand op => Sys2Proof.Machine.execMailboxCommand op s
  | .hostMemoryWrite off bytes => Sys2Proof.Machine.execHostMemoryWrite off bytes s
  | .registerRead a size fails => Sys2Proof.Machine.execRegisterRead a size fails s
  | .signalReturns n => Sys2Proof.Machine.execSignalReturns n s
  | .cdrLockLost n => Sys2Proof.Machine.execCdrLockLost n s
  | .patSyncSet n => Sys2Proof.Machine.execPatSyncSet n s
  | .patSyncCleared n nbits errs => Sys2Proof.Machine.execPatSyncCleared n nbits errs s
  | .laneOffReached n => Sys2Proof.Machine.execLaneOffReached n s
  | .blotterIrqAge => Sys2Proof.Machine.execBlotterIrqAge s
  | .mirrorStateRewrite => Sys2Proof.Machine.execMirrorStateRewrite s

end Sys2Proof.Machine
end

