-- ==== Sys2Proof/Machine/Package.lean ====
section
/-!
DEFINITION. Package, pins and supplies (R551, R600 to R612): the name and net of every ball, the limits and the order of the
supplies, the levels of output pins, and what the device presents on its host link.
-/

namespace Sys2Proof.Machine

/-! ### Balls (R600 to R605) -/

/-- A supply of the package (R602). -/
inductive Supply where
  | vddCore | vddAo | vddLane | vddLaneH | vddIo | vddHbm | vddqHbm | vppHbm
  deriving DecidableEq, Repr

/-- The net of a ball. Lane `n` is a tree lane, an uplink lane or a stitch lane by its number, as R602 counts them; `position`
says which of TXP, TXN, RXP and RXN. -/
inductive Net where
  /-- A ball of lane `n` (0–263). -/
  | lane (n : Nat) (position : String)
  /-- A ball of CXL lane `x`. -/
  | cxl (x : Nat) (position : String)
  /-- TBEN of a channel. -/
  | tben (c : Nat)
  /-- RXBRST of a channel. -/
  | rxbrst (c : Nat)
  /-- A ball of R604, with its index where its signal is one of several. -/
  | signal (name : String) (index : Nat)
  /-- A supply ball. -/
  | supply (s : Supply)
  /-- Ground. -/
  | vss
  deriving DecidableEq, Repr

/-- Rows and columns of the array (R600). -/
def ballRows : Nat := 104

/-- The letters of row names (R601). -/
def rowLetters : List String :=
  ["A", "B", "C", "D", "E", "F", "G", "H", "J", "K", "L", "M", "N", "P", "T", "U", "V", "W", "Y"]

/-- The name of row `i`, from 1 (R601). -/
def rowName (i : Nat) : String :=
  if i ≤ 19 then rowLetters.getD (i - 1) ""
  else rowLetters.getD ((i - 20) / 19) "" ++ rowLetters.getD ((i - 20) % 19) ""

/-- The name of the ball in row `i` and column `j`. -/
def ballName (i j : Nat) : String := rowName i ++ toString j

/-- The net at position `k` of a lane cell, position 0 nearest the edge (R603). -/
def cellNet (net : String → Net) (k : Nat) : Net :=
  match k with
  | 1 => net "TXP"
  | 2 => net "TXN"
  | 5 => net "RXP"
  | 6 => net "RXN"
  | _ => .vss

/-- Does `x` lie in `lo` to `hi`? -/
def within (lo x hi : Nat) : Bool := decide (lo ≤ x) && decide (x ≤ hi)

/-- The lane cells and burst pins (R603); none for a ball that they do not place. -/
def laneBall (i j : Nat) : Option Net :=
  if within 21 i 84 && j ≤ 8 then some (cellNet (.lane (i - 21)) (j - 1))
  else if within 21 i 84 && j == 9 then some (.tben (i - 21))
  else if within 21 i 84 && j == 10 then some (.rxbrst (i - 21))
  else if within 21 i 84 && 97 ≤ j then some (cellNet (.lane (i + 43)) (104 - j))
  else if within 21 i 84 && j == 96 then some (.tben (i + 43))
  else if within 21 i 84 && j == 95 then some (.rxbrst (i + 43))
  else if i ≤ 8 && within 21 j 84 then some (cellNet (.lane (j + 107)) (i - 1))
  else if i ≤ 8 && within 88 j 95 then some (cellNet (.lane (j + 168)) (i - 1))
  else if 97 ≤ i && within 21 j 84 then some (cellNet (.lane (j + 171)) (104 - i))
  else if 97 ≤ i && within 88 j 103 then some (cellNet (.cxl (j - 88)) (104 - i))
  else none

/-- The runs of signal balls of R604: row, first column, how many, and the signal, numbered from the first column on. -/
def signalRuns : List (Nat × Nat × Nat × String) :=
  [(3, 1, 16, "TRIG"), (5, 1, 4, "CAP"), (5, 5, 1, "PPS_IN"), (5, 6, 1, "PPS_OUT"), (5, 7, 1, "CLK10_IN"),
   (7, 1, 4, "STATUS"), (7, 5, 1, "ALERT_N"), (7, 6, 1, "PORESET_N"), (7, 7, 1, "CLK25_AO"),
   (9, 1, 1, "TCK"), (9, 2, 1, "TMS"), (9, 3, 1, "TDI"), (9, 4, 1, "TDO"), (9, 5, 1, "TRST_N"),
   (11, 1, 1, "XSPI_CLK"), (11, 2, 1, "XSPI_CS_N"), (11, 3, 1, "XSPI_DQS"), (11, 4, 8, "XSPI_DQ"), (11, 12, 1, "XSPI_RESET_N")] ++
  [(13, 1, 1, "ADC_SCLK"), (13, 2, 1, "ADC_CS_N"), (13, 3, 1, "ADC_MOSI"), (13, 4, 1, "ADC_MISO"), (13, 6, 1, "TDIODE_P"),
   (13, 7, 1, "TDIODE_N"), (15, 1, 1, "LREFCLK0P"), (15, 2, 1, "LREFCLK0N"), (15, 3, 1, "LANE_CAL0"),
   (18, 18, 1, "LANE_CAL2"), (18, 19, 1, "LREFCLK2P"), (18, 20, 1, "LREFCLK2N"), (11, 85, 16, "I2C_SCL"), (13, 85, 16, "I2C_SDA"),
   (15, 102, 1, "LANE_CAL1"), (15, 103, 1, "LREFCLK1N"), (15, 104, 1, "LREFCLK1P"),
   (104, 18, 1, "LANE_CAL3"), (104, 19, 1, "LREFCLK3P"), (104, 20, 1, "LREFCLK3N"),
   (104, 85, 1, "CXL_REFCLKP"), (104, 86, 1, "CXL_REFCLKN"), (104, 87, 1, "CXL_PERST_N")]

/-- The other signal balls (R604). -/
def signalBall (i j : Nat) : Option Net :=
  (signalRuns.find? fun r => r.1 == i && within r.2.1 j (r.2.1 + r.2.2.1 - 1)).map fun r => .signal r.2.2.2 (j - r.2.1)

/-- The supply whose region holds a ball (R605). -/
def regionSupply (i j : Nat) : Option Supply :=
  let mid (x : Nat) : Bool := within 21 x 84
  let sides : Bool := within 1 j 20 || within 85 j 104
  if mid i && mid j then some .vddCore
  else if (mid i && (within 11 j 12 || within 93 j 94)) || ((within 9 i 10 || within 95 i 96) && mid j) then some .vddLaneH
  else if (mid i && (within 13 j 20 || within 85 j 92)) || ((within 11 i 20 || within 85 i 94) && mid j) then some .vddLane
  else if within 85 i 90 && sides then some .vddHbm
  else if within 91 i 95 && sides then some .vddqHbm
  else if i == 96 && sides then some .vppHbm
  else none

/-- The net of a ball that no signal has (R605): row Y holds VDD_AO and VDD_IO on every ball of its two ends. -/
def fillBall (i j : Nat) : Net :=
  if i == 19 && j ≤ 12 then .supply .vddAo
  else if i == 19 && 85 ≤ j then .supply .vddIo
  else match regionSupply i j with
    | some s => if (i + j) % 2 = 0 then .supply s else .vss
    | none => .vss

/-- The net of the ball in row `i` and column `j`. -/
def ballNet (i j : Nat) : Net := (laneBall i j).getD ((signalBall i j).getD (fillBall i j))

/-- How many of the balls in row `i` have a net. -/
def rowCount (p : Net → Bool) (i : Nat) : Nat :=
  (List.range ballRows).foldl (fun a j => a + b2n (p (ballNet i (j + 1)))) 0

/-- How many balls have a net (R602). -/
def ballCount (p : Net → Bool) : Nat := (List.range ballRows).foldl (fun a i => a + rowCount p (i + 1)) 0

/-! ### Supplies (R606, R609) -/

/-- The least and the greatest voltage of a supply at the ball field, in 0.1 mV (R606). -/
def Supply.limits : Supply → Nat × Nat
  | .vddCore => (7275, 7725)
  | .vddAo => (7760, 8240)
  | .vddLane => (8730, 9270)
  | .vddLaneH => (11640, 12360)
  | .vddIo => (17100, 18900)
  | .vddHbm => (10670, 11330)
  | .vddqHbm => (3800, 4200)
  | .vppHbm => (17100, 18900)

/-- Is a voltage, in 0.1 mV, one that the board may hold (R606)? -/
def Supply.inRange (s : Supply) (v : Nat) : Bool := within s.limits.1 v s.limits.2

/-- The step of the power-up order at which a supply starts (R609). -/
def Supply.order : Supply → Nat
  | .vddAo => 1
  | .vddIo => 2
  | .vppHbm => 3
  | .vddCore | .vddHbm => 4
  | .vddqHbm => 5
  | .vddLane => 6
  | .vddLaneH => 7

/-- Every supply. -/
def supplies : List Supply := [.vddAo, .vddIo, .vppHbm, .vddCore, .vddHbm, .vddqHbm, .vddLane, .vddLaneH]

/-- May supply `s` start its ramp while the supplies `up` are within their limits: is every supply of an earlier step (R609)? -/
def Supply.mayRamp (s : Supply) (up : List Supply) : Bool :=
  supplies.all fun x => decide (s.order ≤ x.order) || up.contains x

/-- May PORESET_N rise: every supply is within its limits, and CLK25_AO and the lane references run (R609)? -/
def resetMayRise (up : List Supply) (clocks : Bool) : Bool := clocks && supplies.all fun x => up.contains x

/-! ### Output pins (R544, R612, R615, R616) -/

/-- The level of a pin. -/
inductive Level where
  | low | high | floating
  deriving DecidableEq, Repr

/-- A level that is driven. -/
def driven (b : Bool) : Level := if b then .high else .low

/-- Is the device one whose pins its blocks do not drive: in reset, or in VIGIL (R612)? -/
def Dev.pinsIdle (d : Dev) : Bool := d.boot.resetHeld || d.mode == 4

/-- An output that floats until VDD_AO is in range, with VDD_IO up (R612). -/
def Dev.output (d : Dev) (b : Bool) : Level := if d.boot.powerGood then driven b else .floating

/-- TBEN[c] at an instant: low but for a burst in terminal role, and through its pull-down before VDD_AO is in range
(R612, R615). -/
def Dev.tbenPin (d : Dev) (c : Nat) (at_ : Int) : Level := driven (!d.pinsIdle && d.tben c at_)

/-- RXBRST[c] now, low as TBEN is (R612, R616). -/
def Dev.rxbrstPin (d : Dev) (c : Nat) : Level := driven (!d.pinsIdle && d.rxbrst c)

/-- TRIG[k] now: low in reset and in VIGIL (R450, R612). -/
def Dev.trigLevel (d : Dev) (k : Nat) : Level := d.output (!d.boot.resetHeld && d.trigPin k)

/-- PPS_OUT now (R451, R612). -/
def Dev.ppsLevel (d : Dev) : Level := d.output (!d.boot.resetHeld && d.ppsPin)

/-- STATUS[b]: bit `b` of the code of R544. -/
def Dev.statusPin (d : Dev) (b : Nat) : Level := d.output (bit d.statusPins b)

/-- ALERT_N, an open drain: low while a latched condition that no mask hides is present, BOOT_FAILED always among them, and
released otherwise, as in reset (R569, R612). -/
def Dev.alertPin (d : Dev) : Level := if d.boot.powerGood && !d.boot.resetHeld && d.alertLow then .low else .floating

/-! ### The host link's identity (R551) -/

/-- PCI vendor ID, device ID, revision ID and class code. -/
def pciIdentity : Nat × Nat × Nat × Nat := (0x4E51, 0x7164, 0xB0, 0x050210)

/-- The base address registers and their sizes in bytes. -/
def barSizes : List (Nat × Nat) := [(0, 0x4000000), (2, 0x20000), (4, 0x10000)]

/-- Bytes of the observation region behind the HDM decoder. -/
def observationSize : Nat := 2 ^ 33

/-- The offset in the observation region of a host physical address, none beyond the decoder's range. -/
def observationOffset (base hpa : Nat) : Option Nat :=
  if base ≤ hpa ∧ hpa < base + observationSize then some (hpa - base) else none

end Sys2Proof.Machine
end

