-- ==== Sys2Proof/Machine/Board.lean ====
section
/-!
DEFINITION. What the manual says of the part on its board beside what its commands do: marking (R1), capacity (R41), power
(R42, R528, R607), limits of supplies and pins (R606, R608, R609, R611), clocks (R613, R614), burst pins toward an optic
(R616), heat (R617) and mechanics (R600, R618). No command reads a number of this file; each is here so that a claim about
the board can be stated in the model's terms.
-/

namespace Sys2Proof.Machine

/-! ### Marking and identity (R1 to R3) -/

/-- The lid's four lines after the vendor's mark: lot code of eight characters, date code YYWW and country of assembly. -/
def lidMarking (lot date country : String) : List String := ["CORYALU", "CQ7164-B0-X", lot, date ++ country]

/-- Software proceeds only on these values of VENDOR, DEVICE and REVISION (R3). -/
def mayProceed (vendor device revision : Nat) : Bool := vendor == 0x4E51 && device == 0x7164 && revision == 0xB0

/-! ### Capacity (R41) -/

/-- A port class and direction: ports, and payload per port in 10 Mbit/s. -/
structure PortClass where
  ports : Nat
  payload : Nat
  deriving DecidableEq, Repr

/-- Uplink receive and transmit, tree downstream with empty maps, tree upstream with 128 single-burst terminals. -/
def portClasses : List PortClass := [⟨128, 10000⟩, ⟨128, 10000⟩, ⟨128, 9998⟩, ⟨128, 9520⟩]

/-- Carried payload in 10 Mbit/s. -/
def carriedPayload : Nat := portClasses.foldl (fun a c => a + c.ports * c.payload) 0

/-- The rated carried payload and the line capacity in 10 Mbit/s. -/
def ratedCapacity : Nat × Nat := (5050000, 5120000)

/-- Capacity and load of each internal path: pipeline (Gbit/s), its packets in Ethernet and in tree frames (10 Mpps), buffer,
stacked memory and die-to-die link (Gbit/s). -/
def pathHeadroom : List (Nat × Nat) := [(3072, 1600), (300, 238), (300, 278), (98300, 51200), (26200, 25600), (8000, 6400)]

/-! ### Power (R42, R528, R607) -/

/-- The columns of the tables of draw: the maximum, and the typical draw at full load, in STANDBY, with all lanes lit and
no traffic, and in VIGIL. -/
inductive DrawCase where
  | maximum | fullLoad | standby | lanesLit | vigil
  deriving DecidableEq, Repr

/-- The draw of a supply in mW and in 10 mA. -/
def Supply.draw : Supply → DrawCase → Nat × Nat
  | .vddCore, .maximum => (400000, 53330)
  | .vddCore, .fullLoad => (330000, 44000)
  | .vddCore, .standby => (100000, 13330)
  | .vddCore, .lanesLit => (55000, 7330)
  | .vddCore, .vigil => (300, 40)
  | .vddLane, .maximum => (180000, 20000)
  | .vddLane, .vigil => (0, 0)
  | .vddLane, _ => (170000, 18890)
  | .vddLaneH, .maximum => (72000, 6000)
  | .vddLaneH, .vigil => (0, 0)
  | .vddLaneH, _ => (66000, 5500)
  | .vddIo, .maximum => (5400, 300)
  | .vddIo, .fullLoad => (4000, 220)
  | .vddIo, .vigil => (400, 22)
  | .vddIo, _ => (3000, 170)
  | .vddAo, .maximum => (2400, 300)
  | .vddAo, .vigil => (1600, 200)
  | .vddAo, _ => (2000, 250)
  | .vddHbm, .maximum => (72000, 6545)
  | .vddHbm, .fullLoad => (49000, 4455)
  | .vddHbm, .vigil => (1400, 127)
  | .vddHbm, _ => (10000, 909)
  | .vddqHbm, .maximum => (22000, 5500)
  | .vddqHbm, .fullLoad => (14400, 3600)
  | .vddqHbm, .vigil => (200, 50)
  | .vddqHbm, _ => (2400, 600)
  | .vppHbm, .maximum => (6200, 344)
  | .vppHbm, .fullLoad => (4600, 256)
  | .vppHbm, .vigil => (600, 33)
  | .vppHbm, _ => (1600, 89)

/-- The draw of the device in mW. -/
def deviceDraw (c : DrawCase) : Nat := supplies.foldl (fun a s => a + (s.draw c).1) 0

/-- The worst-case budget at full load in W: lanes, pipelines, memories and tables on die, stacks, cipher, channel engines,
host link and the rest (R42). -/
def loadBudget : List Nat := [240, 190, 80, 100, 26, 50, 30]

/-! ### Supplies (R606, R608, R609) -/

/-- Nominal voltage in mV, and the ripple allowed between 1 kHz and 100 MHz in mV peak to peak (R606). -/
def Supply.nominal : Supply → Nat × Nat
  | .vddCore => (750, 15)
  | .vddAo => (800, 10)
  | .vddLane => (900, 9)
  | .vddLaneH => (1200, 12)
  | .vddIo => (1800, 50)
  | .vddHbm => (1100, 20)
  | .vddqHbm => (400, 8)
  | .vppHbm => (1800, 50)

/-- The load step that VDD_CORE stands: A and A/µs (R606). -/
def coreStep : Nat × Nat := (100, 50)

/-- The greatest current of a ball in mA (R606). -/
def ballCurrent : Nat := 600

/-- The greatest voltage that does not stress the device, in mV; the least is −300 (R608). -/
def Supply.stress : Supply → Nat
  | .vddCore => 900
  | .vddAo => 950
  | .vddLane => 1050
  | .vddLaneH => 1400
  | .vddIo => 2100
  | .vddHbm => 1300
  | .vddqHbm => 550
  | .vppHbm => 2100

/-- Is a voltage in mV within the stress limits of a supply (R608)? -/
def Supply.unstressed (s : Supply) (mv : Int) : Bool := decide (-300 ≤ mv) && decide (mv ≤ s.stress)

/-- Is a voltage in mV within the stress limits of an LVCMOS or open-drain pin (R608)? -/
def pinUnstressed (vddIo mv : Int) : Bool := decide (-300 ≤ mv) && decide (mv ≤ vddIo + 300)

/-- Stress limits in °C: junction of the logic dies, and storage (R608). -/
def stressTemps : List (Int × Int) := [(-55, 165), (-55, 125)]

/-- The differential lane input in mV peak to peak, and the discharges of the human-body and charged-device models in V
(R608). -/
def stressOther : List Nat := [1600, 1000, 250]

/-- Operating junction temperatures in °C: logic dies, and stacks (R608). -/
def operatingTemps : List (Int × Int) := [(-40, 150), (-40, 105)]

/-- May a ramp take this long, in µs (R609)? -/
def rampOk (us : Nat) : Bool := within 100 us 10000

/-- PORESET_N stays low this long after the last supply and the clocks, in µs (R609). -/
def resetHoldUs : Nat := 1000

/-- What always-on power must reach to hold the device out of reset: 0.74 V in mV, and the µs below it that reset the device
(R610). -/
def brownOut : Nat × Nat := (740, 10)

/-! ### LVCMOS levels (R611) -/

/-- What an input reads at a voltage, both in mV: between the two thresholds it is open. -/
def inputLevel (vddIo mv : Nat) : Option Bool :=
  if 65 * vddIo ≤ 100 * mv then some true else if 100 * mv ≤ 35 * vddIo then some false else none

/-- The least high and the greatest low output in mV, at 4 mA, and at 8 mA for TBEN and RXBRST. -/
def outputLevels (vddIo : Nat) : Nat × Nat := (vddIo - 450, 450)

/-- The greatest low output of an open drain at 3 mA in mV, input leakage in µA, input capacitance in pF, the I2C clock in
kHz, and the pulls of the JTAG pins in kΩ. -/
def pinLimits : List Nat := [360, 10, 3, 400, 50]

/-! ### Clocks and lanes (R613, R614) -/

/-- A clock the board supplies: frequency in Hz, accuracy in ppm where one is given, and jitter in fs where one is given. -/
structure ClockSpec where
  name : String
  hz : Nat
  ppm : Option Nat
  jitter : Option Nat
  deriving DecidableEq, Repr

/-- The clocks of R613: the host clock's jitter is that of the PCIe 5.0 base specification, the accuracy of CLK10_IN and
PPS_IN that of the time source. -/
def clocks : List ClockSpec :=
  [⟨"LREFCLK", 156250000, some 50, some 150⟩, ⟨"CXL_REFCLK", 100000000, some 300, none⟩,
   ⟨"CLK25_AO", 25000000, some 50, some 5000⟩, ⟨"CLK10_IN", 10000000, none, some 10000⟩, ⟨"PPS_IN", 1, none, some 1000000⟩]

/-- Is a clock's frequency, in mHz, within its accuracy? -/
def ClockSpec.ok (c : ClockSpec) (mhz : Nat) : Bool :=
  c.ppm.all fun p => within (c.hz * (1000000 - p) / 1000) mhz (c.hz * (1000000 + p) / 1000)

/-- Lane pins: differential impedance in Ω, coupling in nF, and the common mode of tree inputs in mV (R614). -/
def laneElectrics : Nat × Nat × Nat × Nat := (100, 100, 400, 800)

/-! ### Burst pins toward an optic (R615, R616) -/

/-- Every edge of a burst pin lies within this many ps of its instant. -/
def edgePs : Nat := 300

/-- The end of the reset pulse at the optic after guard block 0, at worst, in ps: the pulse ends START + WIDTH blocks after
the guard begins, an edge may be late, and the optic sees it d_opt later. -/
def pulseEnds (start width dOpt : Nat) : Nat := (start + width) * 55996 / 100 + dOpt + edgePs

/-- Does a setting serve an optic: its least pulse, its latency d_opt and its settling time in ps, all of it ending at or before
the preamble at block 16 (R616), within R102's bound? -/
def optic (start width least dOpt settle : Nat) : Bool :=
  decide (start + width ≤ 12) && decide (least + 2 * edgePs ≤ width * 55996 / 100) &&
    decide (pulseEnds start width dOpt + settle ≤ 16 * 55996 / 100)

/-! ### Heat and mechanics (R600, R617, R618) -/

/-- A kind of die. -/
inductive DieKind where
  | central | treeEdge | uplinkEdge | stack
  deriving DecidableEq, Repr

/-- How many, the worst-case power at full load in 0.1 W, and the resistance from junction to lid in m°C/W (R617). -/
def DieKind.heat : DieKind → Nat × Nat × Nat
  | .central => (1, 3330, 45)
  | .treeEdge => (2, 858, 120)
  | .uplinkEdge => (2, 557, 120)
  | .stack => (4, 250, 900)

/-- The rise of a die over its lid at a power in 0.1 W, in 0.1 m°C (R617). -/
def DieKind.rise (k : DieKind) (power : Nat) : Nat := power * k.heat.2.2

/-- Junction temperature in 0.1 m°C: the lid above the die, and the rise (R617). -/
def DieKind.junction (k : DieKind) (lid : Int) (power : Nat) : Int := lid + k.rise power

/-- The diode of the central die: ideality factor and its tolerance in thousandths, and its series resistance in Ω (R617). -/
def diode : Nat × Nat × Nat := (1008, 4, 3)

/-- The package in µm: side, ball pitch, height, its tolerance, ball width (R600). -/
def packageSize : List Nat := [110000, 1000, 4100, 250, 600]

/-- The static load in N, coplanarity and flatness in µm, moisture sensitivity level and reflow peak in °C (R618). -/
def mechanics : List Nat := [900, 200, 100, 3, 250]

end Sys2Proof.Machine
end

