-- ==== Sys2Proof/Safety.lean ====
section
/-!
DEFINITION. The terms that statements use: a command that completes, a device open to the host, an entry that a ring
offers, and what holds in every state that a run of well-formed commands can reach.
-/

namespace Sys2Proof.Machine

open Sys2Proof

/-- The command completes on device `d`, whatever waits behind it, with device `e`. -/
def Answers (i : Instr) (d e : Dev) : Prop := ∀ q, exec i { pending := q, dev := d } = .next { pending := q, dev := e }

/-- Host writes outside the BOOT block reach the device: PHASE is 7 and the mode is not VIGIL (R39, R543). -/
def Dev.hostOpen (d : Dev) : Bool := d.bootDone && d.mode != 4

/-- The entry at the head of ring `n` can be taken now as `opcode`: the ring has room, FENCE does not hold it, it reads
well, and the bytes that R560 and R564 mark zero are zero. -/
def Dev.offers (d : Dev) (n opcode : Nat) (target : Bool) (args : Nat) : Bool :=
  d.canTake n && !d.fenced n && le (d.headEntry n) 0 2 == opcode && opcodeOn n opcode && !d.headBad n &&
    entryOk (d.headEntry n) target args

/-- What the entry at the head of ring `n` says (R560). -/
def Dev.entryOf (d : Dev) (n opcode : Nat) : Taken :=
  let l := d.headEntry n
  { tag := le l 4 4, opcode := opcode, flags := le l 2 1, target := le l 8 4, args := slice l 16 48 }

/-- The entry is taken with the effect `act`: SQ_HEAD moves past it first, and unknown entries behind it complete after. -/
def Dev.taken (d : Dev) (n opcode : Nat) (act : Taken → Dev → Dev) : Dev :=
  Dev.dropUnknown n 2048 (act (d.entryOf n opcode) (d.stepHead n))

/-- A register key outside the blocks that note occurrences: EVT, PMU and HST (R553). -/
def calm (k : Nat) : Bool := decide (k < 0x60000 * 64) || decide (0x100000 * 64 ≤ k)

/-- `e` is `d` but for the register fields of `keys` and for what noting an occurrence changes: registers of EVT, PMU and
HST, the Blotter's table and the messages owed. -/
def Dev.onlyRegs (keys : List Nat) (d e : Dev) : Prop :=
  e = { d with regs := e.regs, blot := e.blot, host := { d.host with msiOwed := e.host.msiOwed } } ∧
    ∀ k, calm k = true → k ∉ keys → Tbl.find? e.regs k = Tbl.find? d.regs k

/-- `e` is `d` but for registers at the addresses from `lo` to below `hi` and for what noting an occurrence changes. -/
def Dev.onlyBlock (lo hi : Nat) (d e : Dev) : Prop :=
  e = { d with regs := e.regs, blot := e.blot, host := { d.host with msiOwed := e.host.msiOwed } } ∧
    ∀ k, calm k = true → k < lo * 64 ∨ hi * 64 ≤ k → Tbl.find? e.regs k = Tbl.find? d.regs k

/-- The Blotter's table has an entry of the key of `x` (R573). -/
def Dev.holdsEvent (d : Dev) (x : Ev) : Prop := ∃ y ∈ d.blot.opened ++ d.blot.closed, y.ev.sameKey x = true

/-- Every command that waits is well formed. -/
def State.fed (s : State) : Bool := s.pending.all Instr.wf

/-- Both memories hold their bytes in the one canonical form: the observable memory (R554) and the boot flash (R549). -/
def State.canonical (s : State) : Bool := Mem.wf s.dev.obs && Mem.wf s.dev.boot.flash

end Sys2Proof.Machine
end

