-- ==== Sys2Proof/Certificates/Slice0/Obligations.lean ====
section
/-!
DEFINITION. The statements for the provers.
-/

open Sys2Proof Sys2Proof.Machine Sys2Proof.Crypto

/-- For every command and state, a step of the state with the command put at the front of its queue is exec of that
command on the state with the queue's rest. (The queue is the model's form of the commands that wait.)
(95_what_each_step_holds.md) -/
def Obligations.StepRunsTheFrontCommand : Prop :=
  ∀ (c : Instr) (s : State), step { s with pending := c :: s.pending } = exec c s

/-- On an empty queue a step counts one fabric cycle; the local clock advances by its addend unless reset holds the
part or the mode is VIGIL; nothing changes but the clock, registers of EVT, PMU and HST, the Blotter's table and the
messages owed. That an empty queue passes one cycle is the model's choice (log entry 32). (R435, R38) -/
def Obligations.AnIdleStepPassesOneCycle : Prop :=
  ∀ d : Dev, step { pending := [], dev := d } = .next { pending := [], dev := d.idle } ∧
    d.idle.clk.cyc = d.clk.cyc + 1 ∧
    ((d.boot.resetHeld = true ∨ d.mode = 4) → d.idle.clk = { d.clk with cyc := d.clk.cyc + 1 }) ∧
    (d.boot.resetHeld = false → d.mode ≠ 4 → d.idle.clk = { d.clk.plus d.clk.addend with cyc := d.clk.cyc + 1 }) ∧
    d.idle = { d with regs := d.idle.regs, clk := d.idle.clk, blot := d.idle.blot,
                      host := { d.host with msiOwed := d.idle.host.msiOwed } } ∧
    ∀ k, calm k = true → Tbl.find? d.idle.regs k = Tbl.find? d.regs k

/-- exec of a command that is not well formed answers the refusal illFormed, in every state. The refusal is the
model's form of operands that stand for no occurrence of the part (log entry 2). (opcode_table.json) -/
def Obligations.IllFormedCommandsAreRefused : Prop :=
  ∀ (c : Instr) (s : State), c.wf = false → exec c s = .refused .illFormed

/-- For every one of the 232 commands, every well-formed operand and every state, exec answers a next state with the
same queue. (opcode_table.json) -/
def Obligations.WellFormedCommandsComplete : Prop :=
  ∀ (c : Instr) (s : State), c.wf = true → ∃ e, exec c s = .next { s with dev := e }

/-- Every step answers a next state, except where an ill-formed command stands at the front of the queue, which is
refused as illFormed. (opcode_table.json) -/
def Obligations.StepsStopOnlyOnIllFormedCommands : Prop :=
  ∀ s : State, (∃ t, step s = .next t) ∨
    ∃ c q, s.pending = c :: q ∧ c.wf = false ∧ step s = .refused .illFormed

/-- From every state whose waiting commands are all well formed, as many steps as there are commands waiting end in
a state with an empty queue: no fault, no refusal and no wait stops the run. (opcode_table.json) -/
def Obligations.AFedQueueRunsToItsEnd : Prop :=
  ∀ s : State, s.fed = true → ∃ d, Sys2Proof.core.run s.pending.length s = .next { pending := [], dev := d }

/-- On a part that answers accesses, a write narrower than 64 bits or unaligned changes nothing but what noting an
event changes; such a read returns zero and changes nothing else; with the Blotter on and room in its table each
leaves an open ACCESS_ERROR event with the address, the size and the direction. (R10) -/
def Obligations.NarrowOrUnalignedAccessIsAnError : Prop :=
  ∀ (a : Fin (2 ^ 26)) (size : Fin 65) (v : Fin (2 ^ 64)) (fails : Fin 4) (d : Dev), d.boot.resetHeld = false →
    d.mode ≠ 4 → size.val < 8 ∨ a.val % 8 ≠ 0 →
      (∃ e, Answers (.registerWrite a size v fails) d e ∧ Dev.onlyRegs [] d e ∧
        (d.get F.EVT_CFG_ENABLE = 1 → d.blot.used < 1024 → e.holdsEvent
          { source := sourceOf a, event := 0x0001, inst := 0, data := a.val + 2 ^ 32 * size.val + 2 ^ 40 })) ∧
      (∃ e, Answers (.registerRead a size fails) d (e.readOut 0) ∧ Dev.onlyRegs [] d e ∧
        (d.get F.EVT_CFG_ENABLE = 1 → d.blot.used < 1024 → e.holdsEvent
          { source := sourceOf a, event := 0x0001, inst := 0, data := a.val + 2 ^ 32 * size.val }))

/-- An aligned write to an address that holds no register leaves the device as it was, and a read of one returns
zero, but in the user page (0x78000 to 0x79FFF) while USER_EN is set, where R592 has copies read; of every register,
every bit that no field covers reads zero. (R11) -/
def Obligations.UnusedAddressesAndReservedBitsReadZero : Prop :=
  (∀ (a : Fin (2 ^ 26)) (v : Fin (2 ^ 64)) (fails : Fin 4) (d : Dev), findReg a.val allRegs = none → a.val % 8 = 0 →
    fails.val < 3 → d.boot.resetHeld = false → d.mode ≠ 4 →
      Answers (.registerWrite a 8 v fails) d d ∧
        (a.val < 0x78000 ∨ 0x7A000 ≤ a.val ∨ d.on F.PMU_GCTL_USER_EN = false →
          Answers (.registerRead a 8 fails) d (d.readOut 0))) ∧
  (∀ (r : Reg) (i j b : Nat) (d : Dev), r ∈ allRegs → (∀ f ∈ r.fields, b < f.lo ∨ f.lo + f.w ≤ b) →
    (d.hostValue r i j).testBit b = false)

/-- For every field outside the event, monitor and host blocks: RW stores the written bits; RWL stores them until
boot lock and keeps its value after; each 1 written clears a bit of a W1C field and sets a bit of a W1S field, each
0 leaves it; a write of an RO field changes nothing; no other register of those blocks changes. (R12, R15) -/
def Obligations.FieldsStoreByTheirAccessType : Prop :=
  ∀ (f : Fld) (i j v : Nat) (d : Dev), calm (f.key i j) = true →
    let e := d.storeField f i j v
    Dev.onlyRegs [f.key i j] d e ∧
    (f.acc = .rw → e.get f i j = written f v) ∧
    (f.acc = .rwl → e.get f i j = if d.on F.BOOT_STAT_LOCKED then d.get f i j else written f v) ∧
    (f.acc = .w1c → ∀ b, b < f.w → (e.get f i j).testBit b = ((d.get f i j).testBit b && !v.testBit (f.lo + b))) ∧
    (f.acc = .w1s → ∀ b, b < f.w → (e.get f i j).testBit b = ((d.get f i j).testBit b || v.testBit (f.lo + b))) ∧
    (f.acc = .ro → e = d)

/-- For every register with an RWL field, a software write after boot lock leaves each RWL field as it was, whatever
it carries, and with the Blotter on and room in its table leaves an open RWL_WRITE event with the register's
address. (R12, R15, R572) -/
def Obligations.BootLockHoldsRwlFields : Prop :=
  ∀ (r : Reg) (i j v : Nat) (d : Dev), r ∈ allRegs → r.hasRwl = true → i < r.n1 → j < r.n2 →
    d.get F.BOOT_STAT_LOCKED = 1 →
    let e := d.store r i j v
    (∀ f ∈ r.fields, f.acc = .rwl → e.get f i j = d.get f i j) ∧
    (d.get F.EVT_CFG_ENABLE = 1 → d.blot.used < 1024 → e.holdsEvent
      { source := sourceOf (r.addr + i * r.s1 + j * r.s2), event := 0x0002, inst := i, data := r.addr + i * r.s1 + j * r.s2 })

/-- A hardware set of a W1C flag with a companion count below half range sets the bit, adds one to the count,
changes no other register outside the event, monitor and host blocks, and with the Blotter on and room in its table
leaves an open event 0x8000 + bit with the register's address. (R13, R571) -/
def Obligations.FlagsSetCountAndTell : Prop :=
  ∀ (f : Fld) (i j : Nat) (d : Dev), f.cntAddr ≠ 0 →
    let a := f.addr + i * f.s1 + j * f.s2
    let k := (f.cntAddr + i * f.cntStride) * 64
    calm (f.key i j) = true → calm k = true → f.key i j ≠ k → Tbl.get 0 d.regs k < 2 ^ 39 - 1 →
      let e := d.flag f i j
      e.get f i j = 1 ∧ Tbl.get 0 e.regs k = Tbl.get 0 d.regs k + 1 ∧ Dev.onlyRegs [f.key i j, k] d e ∧
        (d.get F.EVT_CFG_ENABLE = 1 → d.blot.used < 1024 → e.holdsEvent
          { source := sourceOf a, event := 0x8000 + f.lo, inst := i, data := a })

/-- A 40-bit counter ends at its value plus the increments modulo 2^40; when bit 39 rises, with the Blotter on and
room in its table, a HALF_RANGE event with its address is open; when it does not, the Blotter's table is unchanged.
(R581, R582) -/
def Obligations.CountersAddTheirIncrements : Prop :=
  ∀ (a inst n : Nat) (d : Dev), calm (a * 64) = true → Tbl.get 0 d.regs (a * 64) < 2 ^ 40 →
    let e := d.bumpAt a inst n
    Tbl.get 0 e.regs (a * 64) = (Tbl.get 0 d.regs (a * 64) + n) % 2 ^ 40 ∧ Dev.onlyRegs [a * 64] d e ∧
    (Tbl.get 0 d.regs (a * 64) < 2 ^ 39 → 2 ^ 39 ≤ Tbl.get 0 d.regs (a * 64) + n → d.get F.EVT_CFG_ENABLE = 1 →
      d.blot.used < 1024 → e.holdsEvent
        { source := sourceOf a, event := 0x0006, inst := ((findReg a allRegs).map fun x => x.2.1).getD inst, data := a }) ∧
    (2 ^ 39 ≤ Tbl.get 0 d.regs (a * 64) ∨ Tbl.get 0 d.regs (a * 64) + n < 2 ^ 39 → e.blot = d.blot)

/-- With the Blotter on and its counts below half range, an event whose key has an entry raises that entry's COUNT
and LAST; one with no entry and room in the table opens an entry with COUNT 1, which waits to be written at once
when COALESCE_US is 0. (R573) -/
def Obligations.EventsCoalesce : Prop :=
  ∀ (ev : EvIn) (d : Dev), ev.late = false → d.get F.EVT_CFG_ENABLE = 1 → d.get F.EVT_CNT_COUNT 0 < 2 ^ 39 - 1 →
    d.get F.EVT_CNT_COUNT 2 < 2 ^ 39 - 1 → d.get F.EVT_CNT_COUNT 5 < 2 ^ 39 - 1 →
      let x : Ev := { source := ev.source, event := ev.event, inst := ev.inst, data := ev.data }
      let new : BlotEntry :=
        { ev := x, count := 1, firstSec := d.clk.sec, firstNs := d.clk.ns, last := d.stamp, frame := d.frameNow,
          openedAt := d.clk.cyc, waiting := d.use F.EVT_CFG_COALESCE_US == 0 }
      let fresh := !d.blot.closed.any (fun y => y.ev.sameKey x) && !d.blot.opened.any (fun y => y.ev.sameKey x)
      (d.blot.closed.any (fun y => y.ev.sameKey x) = true → ∃ e, Answers (.blotterEvent ev) d e ∧
        e.blot = { d.blot with closed := hitAll x d.stamp d.blot.closed }) ∧
      (d.blot.closed.any (fun y => y.ev.sameKey x) = false → d.blot.opened.any (fun y => y.ev.sameKey x) = true →
        ∃ e, Answers (.blotterEvent ev) d e ∧ e.blot = { d.blot with opened := hitAll x d.stamp d.blot.opened }) ∧
      (fresh = true → d.blot.used < 1024 → d.use F.EVT_CFG_COALESCE_US ≠ 0 →
        ∃ e, Answers (.blotterEvent ev) d e ∧ e.blot = { d.blot with opened := d.blot.opened ++ [new] }) ∧
      (fresh = true → d.blot.used < 1024 → d.use F.EVT_CFG_COALESCE_US = 0 →
        ∃ e, Answers (.blotterEvent ev) d e ∧ e.blot = { d.blot with closed := d.blot.closed ++ [new] })

/-- On an active device that holds a lease, its expiry squelches tree transmit at the instant the lease ends,
whatever transition is in progress; unless a shut-down is asked or a transition to VIGIL or TEST runs, the mode is
STANDBY after it, with the lease as its cause. (R37) -/
def Obligations.ALostLeaseSquelchesAtOnce : Prop :=
  ∀ d : Dev, d.active = true → d.get F.STL_STAT_ROLE = 1 → d.on F.STL_STAT_LEASE = true →
    ∃ e, Answers .leaseExpiry d e ∧ e.arb.squelch = true ∧ e.arb.startAt = none ∧
      e.clk = (d.runTo (d.stl.lease * 125000)).clk ∧
      (d.shutdownAsked = false → (d.arb.trans.any fun t => t.target != 3) = false →
        e.get F.GLB_MODE_CURRENT = 3 ∧ e.get F.GLB_MODE_LAST_CAUSE = 3)

/-- A read of TIM_NOW_NS that arrives returns the clock's nanoseconds and 16-bit fraction, TIM_NOW_SEC then holds
the clock's seconds, and the clock has not moved. (R437) -/
def Obligations.ReadingTheTimeLatchesTheSeconds : Prop :=
  ∀ (fails : Fin 4) (d : Dev), fails.val < 3 → d.boot.resetHeld = false → d.mode ≠ 4 →
    ∃ e, Answers (.registerRead 0x40008 8 fails) d e ∧
      bits e.host.readData 16 30 = d.clk.ns % 2 ^ 30 ∧ bits e.host.readData 0 16 = d.clk.frac / 2 ^ 16 % 2 ^ 16 ∧
      e.get F.TIM_NOW_SEC_SEC = d.clk.sec % 2 ^ 48 ∧ e.clk = d.clk ∧ e.obs = d.obs

/-- A host write of PMU_GCTL with CLEAR 1 leaves COUNT and WRAPS of all eight counters of all 22 blocks zero, and
changes neither memory, the Blotter's table nor the clock. (R593, R598) -/
def Obligations.ClearingTheMonitorZeroesItsCounters : Prop :=
  ∀ (v : Fin (2 ^ 64)) (d : Dev), d.hostOpen = true → d.boot.resetHeld = false → bit v.val 1 = true →
    ∃ e, Answers (.registerWrite 0x70000 8 v 0) d e ∧
      (∀ b i, b < 22 → i < 8 → e.get F.PMU_PCNT_COUNT b i = 0 ∧ e.get F.PMU_PCNT_WRAPS b i = 0) ∧
      e.obs = d.obs ∧ e.blot = d.blot ∧ e.clk = d.clk

/-- On a receiver that runs and is out of IN_FRAME, LOF sets no earlier than 24 frames of 187,500 fabric cycles (3
ms) after it left, and is then marked set; a receiver that has set it in this period, or is IN_FRAME, does nothing.
(R71) -/
def Obligations.LossOfFrameSetsOncePerPeriod : Prop :=
  ∀ (c : Ch) (d : Dev), d.rxRuns c = true →
    (d.align c ≠ 2 → (d.rx c).lofSet = false → ∃ e, Answers (.lof c) d e ∧ e.get F.TCH_FRMSTAT_LOF c = 1 ∧
      e.clk.cyc = max d.clk.cyc ((d.rx c).leftAt + 24 * 187500) ∧ (e.rx c).lofSet = true) ∧
    ((d.rx c).lofSet = true → Answers (.lof c) d d) ∧
    (d.align c = 2 → Answers (.lof c) d d)

/-- A host memory write inside the submission entries or the job buffer area stores its bytes where the memory is
usable, the write buffer has room, a tag of CXL_HOST is free and no write of the port waits; it leaves every other
byte alone and keeps the memory canonical; behind a write of its port it waits; where the memory is not usable it
changes no byte. Any other changes no byte and counts in HOST_WR_DISCARD. (R555, R365) -/
def Obligations.HostWritesReachOnlyTheirArea : Prop :=
  ∀ (off : Fin (2 ^ 33)) (bytes : List Byte) (d : Dev), d.host.linkUp = true → 0 < bytes.length →
    off.val % 64 + bytes.length ≤ 64 → Mem.wf d.obs = true →
      (hostMayWrite off.val bytes.length = true → ∃ e, Answers (.hostMemoryWrite off bytes) d e ∧ Mem.wf e.obs = true ∧
        (∀ a, a < off.val ∨ off.val + bytes.length ≤ a → Mem.read e.obs a = Mem.read d.obs a) ∧
        (d.memUsable (256 * (off.val / 256)) = true → d.mem.wbuf.length < 1024 → 0 < d.tagsFree 4 →
          (d.mem.waiting.any fun w => w.port == 4) = false →
          ∀ k, k < bytes.length → Mem.read e.obs (off.val + k) = bytes.getD k 0) ∧
        ((d.mem.waiting.any fun w => w.port == 4) = true → e = { d with mem := { d.mem with waiting := d.mem.waiting ++
          [{ block := off.val / 256, port := 4, at_ := d.clk.cyc, off := off.val % 256, bytes := bytes }] } }) ∧
        (d.memUsable (256 * (off.val / 256)) = false → e.obs = d.obs)) ∧
      (hostMayWrite off.val bytes.length = false → ∃ e, Answers (.hostMemoryWrite off bytes) d e ∧ e.obs = d.obs ∧
        e = d.bump F.HST_CNT_COUNT 5)

/-- While the writer runs and the ring is not full, it stores the 64 bytes of the first closed entry's record at
EVT_PROD, where the memory is usable, the write buffer has room and no write of MIRROR_WR waits, leaves every other
byte alone, and moves PROD, SEQ and UNREAD on by one. (R570, R575, R580) -/
def Obligations.TheBlotterWritesItsOldestRecord : Prop :=
  ∀ (x : BlotEntry) (r : List BlotEntry) (d : Dev), d.blot.stopped = false → d.blot.closed = x :: r →
    d.get F.EVT_STAT_UNREAD ≠ 131072 → d.get F.EVT_PROD_PROD < 131072 → Mem.wf d.obs = true →
      let p := d.get F.EVT_PROD_PROD
      let a := 0x100000000 + 64 * p
      ∃ e, Answers .blotterWrite d e ∧ Mem.wf e.obs = true ∧
        (∀ b, b < a ∨ a + 64 ≤ b → Mem.read e.obs b = Mem.read d.obs b) ∧
        (d.memUsable (256 * (a / 256)) = true → d.mem.wbuf.length < 1024 →
          (d.mem.waiting.any fun w => w.port == 2) = false → ∀ k, k < 64 →
          Mem.read e.obs (a + k) = (entryRecord x (d.get F.EVT_PROD_SEQ)).getD k 0) ∧
        e.get F.EVT_PROD_PROD = (p + 1) % 131072 ∧ e.get F.EVT_PROD_SEQ = (d.get F.EVT_PROD_SEQ + 1) % 2 ^ 32 ∧
        e.get F.EVT_STAT_UNREAD = (d.get F.EVT_STAT_UNREAD + 1) % 2 ^ 18

/-- COMMAND_COMPLETE on a ring with a completion waiting stores its 32 bytes at the ring's CQ_TAIL, where the memory
is usable, the write buffer has room and no write of MIRROR_WR waits, with the ring's phase, and leaves every other
byte alone. (R562, R554) -/
def Obligations.ACompletionIsStoredAtItsTail : Prop :=
  ∀ (n : RingNo) (c : Completion) (r : List Completion) (d : Dev), (d.ring n).done = c :: r →
    d.get F.HST_RINGSTAT_CQ_TAIL n < 2048 → Mem.wf d.obs = true →
      let a := cqAddr n (d.get F.HST_RINGSTAT_CQ_TAIL n)
      ∃ e, Answers (.commandComplete n) d e ∧ Mem.wf e.obs = true ∧
        (∀ b, b < a ∨ a + 32 ≤ b → Mem.read e.obs b = Mem.read d.obs b) ∧
        (d.memUsable (256 * (a / 256)) = true → d.mem.wbuf.length < 1024 →
          (d.mem.waiting.any fun w => w.port == 2) = false → ∀ k, k < 32 →
          Mem.read e.obs (a + k) = (completionBytes c (d.ring n).phase).getD k 0)

/-- A flash operation that ends well clears itself; an erase leaves 64 KiB of 0xFF bytes at its address, a program
puts the page's data where the flash read 0xFF, and each leaves every other byte alone; a read changes no byte.
(R549) -/
def Obligations.FlashOperationsStayInTheirBlock : Prop :=
  ∀ (a : Nat) (d : Dev), Mem.wf d.boot.flash = true →
    (d.boot.flashOp = some { op := 2, addr := a } → ∃ e, Answers (.flashOpDone false) d e ∧ Mem.wf e.boot.flash = true ∧
      e.boot.flashOp = none ∧ (∀ k, k < 65536 → e.flashBytes (a + k) 1 = [0xFF]) ∧
      (∀ b, b < a ∨ a + 65536 ≤ b → e.flashBytes b 1 = d.flashBytes b 1)) ∧
    (d.boot.flashOp = some { op := 1, addr := a } → ∃ e, Answers (.flashOpDone false) d e ∧ Mem.wf e.boot.flash = true ∧
      e.boot.flashOp = none ∧
      (∀ k, k < 256 → d.flashBytes (a + k) 1 = [0xFF] → e.flashBytes (a + k) 1 = [d.pageData.getD k 0]) ∧
      (∀ b, b < a ∨ a + 256 ≤ b → e.flashBytes b 1 = d.flashBytes b 1)) ∧
    (d.boot.flashOp = some { op := 0, addr := a } → ∃ e, Answers (.flashOpDone false) d e ∧
      e.boot.flash = d.boot.flash ∧ e.boot.flashOp = none)

/-- An erase makes a slot ERASING and touches no other. From the next cycle operations see the slot as it stands;
under a slot they see ERASING no value is consumed and no received value authenticates. A further erase is refused;
KEY_ZEROIZE makes it EMPTY once no job holds its key, and waits before. (R414, R415, R412) -/
def Obligations.AnErasingSlotServesNoOperation : Prop :=
  ∀ (i : Fin (2 ^ 17)) (d : Dev), Tbl.sorted d.cry.slots = true →
    (∀ e, d.eraseSlot i = some e → (e.slot i).state = 2 ∧ ∀ j, j ≠ i.val → e.slot j = d.slot j) ∧
    (d.cry.old.1 ≠ d.clk.cyc → d.slotSeen i = d.slot i) ∧
    ((d.slotSeen i).state = 2 →
      (∀ c, (d.consume c i).2 = none) ∧ ∀ seq f, d.authenticate i seq f = (d, .noKey)) ∧
    ((d.slot i).state = 2 → d.eraseSlot i = none ∧
      (d.slotHeld i = false → ∃ e, Answers (.keyZeroize i) d e ∧ e.slot i = emptySlot ∧ ∀ j, j ≠ i.val → e.slot j = d.slot j) ∧
      (d.slotHeld i = true → Answers (.keyZeroize i) d d))

/-- For every key, nonce, header and payload, GCM decryption of what GCM encryption gives is the payload, the
ciphertext is as long as the payload, and any other tag fails. (R416) -/
def Obligations.DecryptionUndoesEncryption : Prop :=
  ∀ (key nonce : Nat) (aad pt : List Byte),
    gcmDec key nonce aad (gcmEnc key nonce aad pt).1 (gcmEnc key nonce aad pt).2 = some pt ∧
      (gcmEnc key nonce aad pt).1.length = pt.length ∧
      ∀ tag, tag ≠ (gcmEnc key nonce aad pt).2 → gcmDec key nonce aad (gcmEnc key nonce aad pt).1 tag = none

/-- For every label, length, key index, sequence and flags in their ranges, the 64-bit segment header passes
HDR_CHECK and reads back as exactly those fields. (R62) -/
def Obligations.SegmentHeadersReadBack : Prop :=
  ∀ (label len key seq : Nat) (last enc first : Bool), label < 2 ^ 16 → len < 2 ^ 14 → key < 2 →
    let h := segHeader label len last key enc first seq
    h < 2 ^ 64 ∧ crc14 h = bits h 0 14 ∧
      Seg.of h = { hdr := h, label := label, len := len, last := last, key := key, enc := enc, first := first,
                   seq := seq % 2 ^ 16 }

/-- For every local number, REI, target echo, level and flags, the 64-bit burst header passes HDR_CRC, reads back as
exactly those fields, and its reserved bits are zero. (R84) -/
def Obligations.BurstHeadersReadBack : Prop :=
  ∀ (loc rei echo level : Nat) (report gasp alarm : Bool), loc < 2 ^ 7 → rei < 2 ^ 8 →
    let h := burstHeader loc rei echo report gasp alarm level
    h < 2 ^ 64 ∧ hdrGood h = true ∧ bits h 57 7 = loc ∧ bits h 49 8 = rei ∧ bits h 33 16 = echo % 2 ^ 16 ∧
      bit h 32 = report ∧ bit h 31 = gasp ∧ bit h 30 = alarm ∧ bits h 27 3 = level % 8 ∧ bits h 16 11 = 0

/-- For every container, start, length, local number and flags in their ranges, the 64-bit map entry passes CHECK
and reads back as exactly those fields; entries of a container and of both windows pass the receiver's checks.
(R168, R169) -/
def Obligations.MapEntriesReadBack : Prop :=
  ∀ (cont start len loc : Nat) (cold report ranging power last : Bool), cont < 2 ^ 16 → start < 2 ^ 16 → loc < 2 ^ 7 →
    (let e := mapEntry cont start len cold report ranging power last loc
     e < 2 ^ 64 ∧ mapCheck e = bits e 0 4 ∧ bits e 48 16 = cont ∧ bits e 32 16 = start ∧ bits e 16 16 = len % 2 ^ 16 ∧
       bit e 15 = cold ∧ bit e 14 = report ∧ bit e 13 = ranging ∧ bit e 12 = power ∧ bit e 11 = last ∧
       bits e 4 7 = loc) ∧
    (cont ≤ 0x7FF → bits cont 4 7 = loc →
      entryGood (mapEntry cont start len cold report false power last loc) = true) ∧
    entryGood (mapEntry 0xFFFF start len true false true true true 0) = true ∧
    entryGood (mapEntry 0xFFFE start len true false true true true loc) = true

/-- From every state of the scrambler, descrambling the scrambled payloads of a list of blocks gives the blocks back
and leaves both ends in the same state. A codeword sent with its parity blocks (whose payloads are free values) and
received with some bits changed, the same that the decoder corrects, is delivered as the blocks sent. Two blocks
with the same 33 PAM4 symbols are equal. (R43, R48, R49, R50) -/
def Obligations.TheReceiverUndoesTheSendersLineCode : Prop :=
  (∀ (s k : Nat) (l : List Blk), 2 ≤ k →
    (scramble s (l.map Blk.pay)).2.length = l.length ∧
      (descramble false k s (List.zipWith (fun b p => { b with pay := p }) l (scramble s (l.map Blk.pay)).2)).2 = l ∧
      (descramble false k s (List.zipWith (fun b p => { b with pay := p }) l (scramble s (l.map Blk.pay)).2)).1 =
        (scramble s (l.map Blk.pay)).1) ∧
  (∀ (l : List (Bool × Nat)) (raw : List LineBlk) (flips : List (Fin 16896)), (∀ e ∈ l, e.2 < 2 ^ 64) →
    (raw.map fun b => b.hdr.val * 2 ^ 64 + b.pay.val) =
      (flips.map (·.val)).foldl flipAt (encodeCw (l.map fun e => codeBlk e.1 e.2)) →
    let w : CwIn := { raw := raw, flips := flips, bad := false }
    w.output.map (decodedBlk false) = l.map fun e => { ctl := e.1, pay := e.2, bad := false }) ∧
  (∀ a b : Nat, a < 2 ^ 66 → b < 2 ^ 66 → blockSymbols a = blockSymbols b → a = b)

/-- The reset state has no command waiting and no image applied; every field of every register reads 0 if it is
loaded from the image and its reset value otherwise, the links of the internal buses up. Reset values that the
source gives none are zero (log entry 1). (R14, R27) -/
def Obligations.ResetLeavesEveryFieldAtItsResetValue : Prop :=
  State.reset.pending = [] ∧ State.reset.dev.imgApplied = false ∧
  (∀ r ∈ allRegs, ∀ f ∈ r.fields, ∀ i j, i < r.n1 → j < r.n2 → ¬ (f.addr = F.GLB_D2DSTAT_LINK_UP.addr ∧ f.lo = F.GLB_D2DSTAT_LINK_UP.lo ∧ 4 ≤ i ∧ i ≤ 8) →
    State.reset.dev.get f i j = if f.img then 0 else f.dflt.val i j) ∧
  (∀ l, l < 5 → State.reset.dev.get F.GLB_D2DSTAT_LINK_UP (4 + l) = 1)

/-- ALERT_N is low exactly when PHASE is 8, LATCHED bit 0 is set, or some LATCHED bit that HST_ALERTMASK does not
mask is set. (R569, R543) -/
def Obligations.TheAlertPinFollowsTheUnmaskedConditions : Prop :=
  ∀ d : Dev, d.get F.HST_ALERT_LATCHED < 2 ^ 16 → d.get F.HST_ALERTMASK_MASK < 2 ^ 16 →
    (d.alertLow = true ↔ d.get F.BOOT_STAT_PHASE = 8 ∨ (d.get F.HST_ALERT_LATCHED).testBit 0 = true ∨
      ∃ b, b < 16 ∧ (d.get F.HST_ALERT_LATCHED).testBit b = true ∧ (d.get F.HST_ALERTMASK_MASK).testBit b = false)

/-- On a part open to the host, reads through the grant, traffic, parser, buffer, Scribe, preset and key ports
complete, and change nothing but registers of their own block and what noting an event changes: no memory, no table,
no clock. (R179, R228, R315, R357, R432, R547) -/
def Obligations.IndirectReadsStayInTheirBlock : Prop :=
  ∀ d : Dev, d.hostOpen = true →
    (∀ t i, ∃ e, Answers (.gntIndRead t i) d e ∧ Dev.onlyBlock 0xD00000 0xE00000 d e) ∧
    (∀ t i, ∃ e, Answers (.tmgIndRead t i) d e ∧ Dev.onlyBlock 0x1000000 0x1400000 d e) ∧
    (∀ t i, ∃ e, Answers (.parIndRead t i) d e ∧ Dev.onlyBlock 0x1400000 0x1500000 d e) ∧
    (∀ t i, ∃ e, Answers (.bufIndRead t i) d e ∧ Dev.onlyBlock 0x1800000 0x1900000 d e) ∧
    (∀ i t, ∃ e, Answers (.scrIndRead i t) d e ∧ Dev.onlyBlock 0x1E00000 0x2000000 d e) ∧
    (∀ i b, ∃ e, Answers (.presetRead i b) d e ∧ Dev.onlyBlock 0x100000 0x400000 d e) ∧
    (∀ i, ∃ e, Answers (.keyStatusRead i) d e ∧ Dev.onlyBlock 0x1C00000 0x1E00000 d e)

/-- At reset the observable memory and the boot flash list nothing, which is their canonical form, and every waiting
command (there is none) is well formed. What a byte that nothing has written reads as is the choice of log entry 124
for the flash. (R549, R554) -/
def Obligations.ResetMeetsTheMemoryForm : Prop :=
  State.reset.canonical = true ∧ State.reset.fed = true ∧ State.reset.dev.obs = [] ∧ State.reset.dev.boot.flash = []

/-- From every state whose memories are canonical, BLOTTER_WRITE, COMMAND_COMPLETE, FLASH_OP_DONE and a well-formed
HOST_MEMORY_WRITE answer a next state whose memories are canonical and whose queue is the same. (R549, R554, R555,
R570) -/
def Obligations.MemoryCommandsKeepTheirForm : Prop :=
  ∀ (i : Instr) (s : State), i.wf = true → s.canonical = true →
    (i = .blotterWrite ∨ (∃ n, i = .commandComplete n) ∨ (∃ err, i = .flashOpDone err) ∨
      ∃ off bytes, i = .hostMemoryWrite off bytes) →
    ∃ t, exec i s = .next t ∧ t.canonical = true ∧ t.pending = s.pending

/-- For every state and whichever command stands in front: if step answers a next state, memories that were
canonical (addresses rising, no zero entry) are canonical after it, and a queue of well-formed commands stays one.
(R549, R554, opcode_table.json) -/
def Obligations.StepKeepsMemoryForm : Prop :=
  ∀ s t : State, step s = .next t →
    (s.canonical = true → t.canonical = true) ∧ (s.fed = true → t.fed = true)

/-- A cold reset of a powered part, a host reset with the code 0xC5 and power returning restart the boot; power
failing holds the part in reset; each boot step acts in its PHASE; a flash operation on an aligned address is
accepted while the port is free and its end clears GO and BUSY and has its result. (R536, R537, R538, R540, R541,
R542, R549, R610) -/
def Obligations.BootStepsComplete : Prop :=
    (∀ (d : Dev),
      d.boot.powerGood →
        Answers (.coldReset) d (d.coldReset)) ∧
    (∀ (d : Dev),
      d.boot.resetHeld = false →
      d.mode ≠ 4 →
        Answers (.bootReset 0xC5) d (d.coldReset)) ∧
    (∀ (d : Dev),
        Answers (.powerFail) d ((({ d.coldReset with boot := { d.coldReset.boot with powerGood := false, resetHeld := true } }.set
        F.BOOT_STAT_PHASE 0).set F.BOOT_CNT_COUNT (d.get F.BOOT_CNT_COUNT 0) 0))) ∧
    (∀ (d : Dev),
      d.boot.powerGood = false →
        Answers (.supplyAndClockGood) d (d.coldReset)) ∧
    (∀ (f : FuseIn) (d : Dev),
      d.get F.BOOT_STAT_PHASE = 1 →
        Answers (.fusesSensed f) d
          (let x : Fuses :=
            { rootKey := f.rootKey, rootPresent := f.rootPresent, hash0 := f.hash0, hash1 := f.hash1,
              hashPresent := f.hashPresent, revoked := f.revoked, version := f.version }
          let e : Dev := { d with boot := { d.boot with fuses := x } }
          { e with boot := { e.boot with slots := e.slotOrder } }.showFuses.set F.BOOT_STAT_PHASE 2)) ∧
    (∀ (x : SlotIn) (e : Dev) (i : Nat) (r : List Nat) (d : Dev),
      (d.get F.BOOT_STAT_PHASE = 2 ∨ d.get F.BOOT_STAT_PHASE = 3) →
      e = { d with host := { d.host with linkUp := true } }.stacksReady x.failed →
      e.boot.slots = i :: r →
        Answers (.slotReadDone x) d
          ((match e.checkSlot i x.readErr with
          | .bad code => e.failSlot i code 0 0
          | .good rs b =>
            let h := e.header i
            let boot : Boot := { e.boot with records := rs, bundle := b, keyId := le h 9 1, version := le h 24 4 }
            let f := ({ e with boot := boot }.set F.BOOT_STAT_SLOT i).set F.BOOT_STAT_IMAGE_SEQ (le h 20 4)
            (f.set F.BOOT_BUILD_BUILD_ID (le h 32 8)).set F.BOOT_STAT_PHASE 4))) ∧
    (∀ (e f : Dev) (d : Dev),
      d.get F.BOOT_STAT_PHASE = 4 →
      f = { d.dropImage with imgApplied := true }.clearMirrors →
      Dev.applyRecords 0 0 f.boot.records f.applyBundle = (e, none) →
        Answers (.recordsApplied) d (e.checkConfig (d.get F.BOOT_STAT_SLOT) f.modeRecords)) ∧
    (∀ (e f : Dev) (code n off : Nat) (d : Dev),
      d.get F.BOOT_STAT_PHASE = 4 →
      f = { d.dropImage with imgApplied := true }.clearMirrors →
      Dev.applyRecords 0 0 f.boot.records f.applyBundle = (e, some (code, n, off)) →
        Answers (.recordsApplied) d (e.clearConfig.failSlot (d.get F.BOOT_STAT_SLOT) code n off)) ∧
    (∀ (fuseBad : Bool) (d : Dev),
      d.get F.BOOT_STAT_PHASE = 5 →
        Answers (.bootLock fuseBad) d
          (let l := (d.set F.BOOT_STAT_LOCKED 1).set F.BOOT_STAT_PHASE 6
          let l : Dev := { l with arb := { l.arb with trans := none } }
          let m := (l.toMode (l.get F.GLB_MODE_BOOT_MODE) (if d.on F.BOOT_STAT_WARM then 6 else 0)).enterPair
          let m := if m.hasSource ∧ m.get F.TIM_STAT_STATE = 0 then m.acquire else m
          let f := m.boot.fuseTodo.foldl (Dev.blowFuse fuseBad) m
          let pmu := { f.pmu with winStart := f.clk.cyc, winNs := f.use F.PMU_BWCFG_WIN_NS }
          { f with boot := { f.boot with fuseTodo := [] }, pmu := pmu }.showFuses)) ∧
    (∀ (d : Dev),
      d.get F.BOOT_STAT_PHASE = 6 →
        Answers (.todWaitEnd) d
          (let e := d.set F.BOOT_STAT_PHASE 7
          { e with
            fab := { e.fab with winAt := e.clk.cyc, winUs := e.use F.PWR_FOLDCFG_WIN_US }
            tim := { e.tim with firstFrame := true }
            tm := { e.tm with swept := e.stamp } })) ∧
    (∀ (a : Fin (2 ^ 27)) (d : Dev),
      d.boot.resetHeld = false →
      d.mode ≠ 4 →
      d.on F.BOOT_FLCTL_BUSY = false →
      a.val + 256 ≤ 2 ^ 27 →
        Answers (.flashReadPage a) d
          (let e := (((d.set F.BOOT_FLCTL_ADDR a).set F.BOOT_FLCTL_OP 0).bump F.BOOT_CNT_COUNT 4).set F.BOOT_FLCTL_GO 1
          let e := e.set F.BOOT_FLCTL_BUSY 1
          { e with boot := { e.boot with flashOp := some { op := 0, addr := a } } })) ∧
    (∀ (a : Fin (2 ^ 27)) (d : Dev),
      d.boot.resetHeld = false →
      d.mode ≠ 4 →
      d.on F.BOOT_FLCTL_BUSY = false →
      a.val + 256 ≤ 2 ^ 27 →
      a.val % 256 = 0 →
      ¬(d.bootDone ∧ a.val / 0x04000000 = d.get F.BOOT_STAT_SLOT) →
        Answers (.flashProgramPage a) d
          (let e := (((d.set F.BOOT_FLCTL_ADDR a).set F.BOOT_FLCTL_OP 1).bump F.BOOT_CNT_COUNT 4).set F.BOOT_FLCTL_GO 1
          let e := e.set F.BOOT_FLCTL_BUSY 1
          { e with boot := { e.boot with flashOp := some { op := 1, addr := a } } })) ∧
    (∀ (a : Fin (2 ^ 27)) (d : Dev),
      d.boot.resetHeld = false →
      d.mode ≠ 4 →
      d.on F.BOOT_FLCTL_BUSY = false →
      a.val + 256 ≤ 2 ^ 27 →
      a.val % 65536 = 0 →
      ¬(d.bootDone ∧ a.val / 0x04000000 = d.get F.BOOT_STAT_SLOT) →
        Answers (.flashErase a) d
          (let e := (((d.set F.BOOT_FLCTL_ADDR a).set F.BOOT_FLCTL_OP 2).bump F.BOOT_CNT_COUNT 4).set F.BOOT_FLCTL_GO 1
          let e := e.set F.BOOT_FLCTL_BUSY 1
          { e with boot := { e.boot with flashOp := some { op := 2, addr := a } } })) ∧
    (∀ (err : Bool) (o : FlashOp) (d : Dev),
      d.boot.flashOp = some o →
        Answers (.flashOpDone err) d ((({ d with boot := { d.boot with flashOp := none } }.set F.BOOT_FLCTL_GO 0).set F.BOOT_FLCTL_BUSY 0).flashDone o.op o.addr err))

/-- An aligned 64-bit write stores under the field types and an aligned 64-bit read answers the register; a transfer
that fails three times gives an event for a write and all ones, poisoned, for a read. A host write of memory within
the areas open to the host stores its bytes; elsewhere it is dropped and counted. A mailbox command answers. (R10,
R12, R27, R552, R555) -/
def Obligations.HostAccessesComplete : Prop :=
    (∀ (a : Fin (2 ^ 26)) (v : Fin (2 ^ 64)) (fails : Fin 4) (d : Dev),
      d.boot.resetHeld = false →
      d.mode ≠ 4 →
      a.val % 8 = 0 →
      fails.val < 3 →
        Answers (.registerWrite a 8 v fails) d ((d.hostWrite a v).sendConfig a v)) ∧
    (∀ (a : Fin (2 ^ 26)) (v : Fin (2 ^ 64)) (d : Dev),
      d.boot.resetHeld = false →
      d.mode ≠ 4 →
      a.val % 8 = 0 →
        Answers (.registerWrite a 8 v 3) d (d.writeFault a)) ∧
    (∀ (a : Fin (2 ^ 26)) (fails : Fin 4) (d : Dev),
      d.boot.resetHeld = false →
      d.mode ≠ 4 →
      a.val % 8 = 0 →
      fails.val < 3 →
        Answers (.registerRead a 8 fails) d (d.readAt a)) ∧
    (∀ (a : Fin (2 ^ 26)) (d : Dev),
      d.boot.resetHeld = false →
      d.mode ≠ 4 →
      a.val % 8 = 0 →
        Answers (.registerRead a 8 3) d (d.readOut (2 ^ 64 - 1) true)) ∧
    (∀ (off : Fin (2 ^ 33)) (bytes : List Byte) (d : Dev),
      0 < bytes.length →
      off.val % 64 + bytes.length ≤ 64 →
      d.host.linkUp →
      hostMayWrite off bytes.length →
        Answers (.hostMemoryWrite off bytes) d (d.memWrite 4 off bytes)) ∧
    (∀ (off : Fin (2 ^ 33)) (bytes : List Byte) (d : Dev),
      0 < bytes.length →
      off.val % 64 + bytes.length ≤ 64 →
      d.host.linkUp →
      hostMayWrite off bytes.length = false →
        Answers (.hostMemoryWrite off bytes) d (d.bump F.HST_CNT_COUNT 5)) ∧
    (∀ (op : Fin 65536) (d : Dev),
      d.host.linkUp →
        Answers (.mailboxCommand op) d ({ d with host := { d.host with mailbox := if op.val = 0x4000 ∨ op.val = 0x4200 then 1 else 2 } }))

/-- A due move of a quad, or of both quads of an 800GbE port, begins at the next frame boundary, ends when they have
drained, or is abandoned 2 µs after its start; a failed word starts a replay, its good or bad replay ends it, and an
acknowledgement frees 16 words; load windows end and a woken pipeline of a fold pair takes its quads back. (R21,
R22, R23, R24, R25, R524, R525, R526) -/
def Obligations.PlacementCommandsComplete : Prop :=
    (∀ (q : Fin 64) (t : Nat) (d : Dev),
      Tbl.find? d.fab.due q = some t →
        Answers (.quadMove q) d ((d.portQuads q).foldl Dev.startMove d.toFrame)) ∧
    (∀ (q : Fin 64) (m : QuadMove) (d : Dev),
      Tbl.find? d.fab.moves q = some m →
      (d.portQuads q).any d.quadPending = false →
      d.clk.cyc ≤ m.started + 3000 →
        Answers (.quadDrainEnd q) d (((d.portQuads q).foldl Dev.endMove d).settlePair (q / 8))) ∧
    (∀ (q : Fin 64) (m : QuadMove) (d : Dev),
      Tbl.find? d.fab.moves q = some m →
      ((d.reach (m.started + 3000)).portQuads q).any (d.reach (m.started + 3000)).quadPending →
        Answers (.quadMoveAbandoned q) d
          (let e := d.reach (m.started + 3000)
          let e := (e.portQuads q).foldl Dev.abandonMove e
          let e := if e.pairSt (q / 8) = 1 then
              let x := e.setPair (q / 8) 5
              { x with fab := { x.fab with due := Tbl.keep (fun k _ => decide (k / 8 ≠ q / 8)) x.fab.due } }
            else e
          e.settlePair (q / 8))) ∧
    (∀ (src : Fin 9) (w : WordIn) (d : Dev),
      w.ok →
      w.fails →
      d.on F.GLB_D2DSTAT_LINK_UP src →
      (d.link src w.dir).discarding = false →
        Answers (.wordFailed src w) d ((d.setLink src w.dir { d.link src w.dir with discarding := true }).flag F.GLB_D2DSTAT_REPLAYED src)) ∧
    (∀ (src : Fin 9) (dir : Fin 2) (d : Dev),
      (d.link src dir).discarding →
        Answers (.replayedWord src dir none) d (d.resume src dir)) ∧
    (∀ (src : Fin 9) (dir : Fin 2) (x : Xfer) (d : Dev),
      (d.link src dir).discarding →
        Answers (.replayedWord src dir (some x)) d (((((d.flag F.GLB_D2DSTAT_UNCORR src).alert 7).alertActive 7 true).uncorrectable src dir x).resume src dir)) ∧
    (∀ (src : Fin 9) (dir : Fin 2) (d : Dev),
        Answers (.replayAck src dir) d
          (let r := Link.fill { d.link src dir with held := (d.link src dir).held - 16 } src
          (d.setLink src dir r.1).goOn src r.2)) ∧
    (∀ (d : Dev),
      d.booted →
      d.mode ≠ 4 →
        Answers (.foldWindow) d (d.foldWindow)) ∧
    (∀ (p : Fin 8) (d : Dev),
      d.pairSt p = 3 →
        Answers (.unfoldLocked p) d
          (let w := d.draw 30001
          (((w.1.runCycles w.2).park p false).moveQuads (pairQuads p) (pairEven p + 1)).setPair p 4))

/-- A mode trigger runs the arbiter; the entry into VIGIL stops transmit at the boundary, drains, writes the final
sheet, then powers down; the wake of a part in VIGIL begins a warm boot; TEST is entered at the boundary; an active
device whose lease ends squelches and loses it. (R35, R36, R37, R38, R39, R40, R465) -/
def Obligations.ModeCommandsComplete : Prop :=
    (∀ (d : Dev),
      d.booted →
        Answers (.modeTrigger) d (d.arbitrate)) ∧
    (∀ (d : Dev),
      d.arb.vigilStage = 1 →
        Answers (.vigilEntry) d ({ d.toBoundary.squelch with arb := { d.toBoundary.squelch.arb with vigilStage := 2 } })) ∧
    (∀ (d : Dev),
      d.arb.vigilStage = 2 →
        Answers (.vigilDrained) d (d.vigilDrained)) ∧
    (∀ (d : Dev),
      d.arb.vigilStage = 3 →
        Answers (.vigilPowerDown) d
          (let e := foldUpTo 4 (fun n e => if e.stackUp n then e.set F.MEM_STACK_STATE 2 n else e) d.payAll
          let e := ((e.set F.GLB_MODE_CURRENT 4).set F.GLB_MODE_TRANSITION 0).set F.GLB_MODE_TARGET 0
          ((e.set F.GLB_MODE_LAST_CAUSE ((d.arb.trans.map (·.cause)).getD 1)).bumpIn F.GLB_MODE_TRANSITIONS).powerDown)) ∧
    (∀ (d : Dev),
      d.mode = 4 →
      (d.arb.trans.any fun t => t.cause == 6) →
        Answers (.wake) d
          (let e := ((d.bump F.QUL_CNT_COUNT 10).set F.GLB_MODE_CURRENT 0).dropUnpowered
          { e with
            arb := { Arb.idle with trans := e.arb.trans, asked := e.arb.asked }
            blot := { e.blot with stopped := false } }.beginBoot true)) ∧
    (∀ (d : Dev),
      (d.arb.trans.any fun t => t.target == 5) →
        Answers (.testEntry) d
          (let e := ((d.toBoundary.toMode 5 1).toRole 0).set F.STL_STAT_LEASE 0
          foldUpTo 264 (fun n e => e.testStart n)
            ({ e with arb := { e.arb with squelch := false, startAt := none } }.sendHello.endTrans 0))) ∧
    (∀ (d : Dev),
      d.active →
      d.get F.STL_STAT_ROLE = 1 →
      d.on F.STL_STAT_LEASE →
        Answers (.leaseExpiry) d (d.expireLease.loseLease))

/-- FRAME_START of a booted device outside VIGIL begins the frame; a framed channel begins the subframe that is
next; a framed channel with room continues the packet begun or begins the selection ahead; a write of the framer
configuration takes effect at a frame boundary. (R51, R52, R53, R58, R66, R67, R73) -/
def Obligations.FramerCommandsComplete : Prop :=
    (∀ (d : Dev),
      d.booted →
      d.mode ≠ 4 →
        Answers (.frameStart) d (d.frameStart)) ∧
    (∀ (c : Ch) (sf : Fin 4) (d : Dev),
      (d.tx c).framed →
      (d.tx c).sf = sf →
      d.framerRuns c →
      (d.outOpen (c / 64) ∨ d.cirsDown c = []) →
        Answers (.subframeStart c sf) d
          (let x := d.tx c
          let d := d.runTo (d.nowNs / 125000 * 125000 + 31250 * sf)
          let s := x.frame * 4 + sf
          let d := if sf.val = 0 then d else d.idleTo c (sf * sfData)
          let m := (Tbl.get [] d.gnt.maps c).find? fun e => e.1 == s + 1
          let es := (m.map (·.2)).getD []
          let keep := (Tbl.get [] d.gnt.maps c).filter fun e => decide (s + 1 < e.1)
          let d := { d with gnt := { d.gnt with maps := Tbl.set d.gnt.maps c keep } }
          let h := subframeHeader sf es.length (s + 1) (d.circuitBlocks c)
          let d := (d.send c ((blocksOf h 8).map ctlBlk ++ es.map ctlBlk)).txCount c 4 es.length
          let d := d.sendRegions c s (s * 31250) (d.cirsDown c)
          d.setTx c { d.tx c with sf := sf.val + 1 })) ∧
    (∀ (c : Ch) (p : PartTx) (d : Dev),
      d.outOpen (c / 64) →
      (d.tx c).framed →
      (d.tx c).sf ≠ 0 →
      (d.tx c).room ≠ 0 →
      d.framerRuns c →
      (d.tx c).part = some p →
        Answers (.segmentTx c) d (d.sendPart c p)) ∧
    (∀ (c : Ch) (q : Nat) (p : Pkt) (r : List Sel) (d : Dev),
      d.outOpen (c / 64) →
      (d.tx c).framed →
      (d.tx c).sf ≠ 0 →
      (d.tx c).room ≠ 0 →
      d.framerRuns c →
      (d.tx c).part = none →
      Tbl.get [] d.tm.ahead c = .pkt q p :: r →
      p.bytes.length ≤ 16000 →
      ¬(0x80 < p.label ∧ p.label < 0x100) →
        Answers (.segmentTx c) d
          (let e : Dev := { d with tm := { d.tm with ahead := Tbl.set d.tm.ahead c r } }
          let sl := e.txSlot c q p.label
          e.sendPart c { pkt := p, queue := q, sent := 0, label := p.label, keyIdx := sl.2.1, owner := d.qParent q % 16384 })) ∧
    (∀ (c : Ch) (m : MgmtMsg) (r : List Sel) (d : Dev),
      d.outOpen (c / 64) →
      (d.tx c).framed →
      (d.tx c).sf ≠ 0 →
      (d.tx c).room ≠ 0 →
      d.framerRuns c →
      (d.tx c).part = none →
      Tbl.get [] d.tm.ahead c = .mgmt m :: r →
      9 ≤ (d.tx c).room →
        Answers (.segmentTx c) d (({ d with tm := { d.tm with ahead := Tbl.set d.tm.ahead c r } }.sendMgmt c m).release1 m.buf)) ∧
    (∀ (c : Ch) (d : Dev),
        Answers (.framerConfigApply c) d (d.applyFrmCfg c))

/-- With the receiver running: a block moves block lock and frame alignment; MISSES missed syncs, or as many sync
periods with the lane down, leave IN_FRAME; RETAINED expires; LOF sets once per period out of frame; a codeword in
frame is decoded; a frame header, a subframe header and the next segment of the delivered blocks are taken. (R49,
R50, R55, R56, R68, R69, R70, R71, R72) -/
def Obligations.LineReceiverComplete : Prop :=
    (∀ (c : Ch) (hdr : Fin 4) (pay : Fin (2 ^ 64)) (d : Dev),
      d.rxRuns c →
      d.laneUp c →
      (d.rxBoundary c).rxRuns c →
        Answers (.blockReceived c hdr pay) d
          (let b : LineBlk := if (d.rxBoundary c).useB F.SLN_CTL_RX_INV c then ({ hdr := hdr, pay := pay } : LineBlk).inv ((d.rxBoundary c).rxEven c)
            else { hdr := hdr, pay := pay }
          (d.rxBoundary c).takeBlock c b.hdr b.pay)) ∧
    (∀ (c : Ch) (d : Dev),
      d.rxRuns c →
      d.align c = 2 →
      d.use F.TCH_FRMCFG_MISSES c ≤ (d.rx c).miss →
        Answers (.oof c) d (d.leaveFrame c (if d.use F.TCH_FRMCFG_RETAIN_FRAMES c = 0 then 0 else 3))) ∧
    (∀ (c : Ch) (d : Dev),
      d.rxRuns c →
      d.align c = 2 →
      (d.rx c).miss < d.use F.TCH_FRMCFG_MISSES c →
      d.laneUp c = false →
        Answers (.oof c) d
          (((d.reach (Tbl.get 0 d.lanes.entered c + (d.use F.TCH_FRMCFG_MISSES c - (d.rx c).miss) * 187500)).leaveFrame c
            (if d.use F.TCH_FRMCFG_RETAIN_FRAMES c = 0 then 0 else 3)))) ∧
    (∀ (c : Ch) (d : Dev),
      d.rxRuns c →
      d.align c = 3 →
        Answers (.retainExpired c) d
          (let e := d.reach ((d.rx c).leftAt + d.use F.TCH_FRMCFG_RETAIN_FRAMES c * frameCycles)
          (e.setRx c { e.rx c with cands := [] }).set F.TCH_FRMSTAT_ALIGN 0 c)) ∧
    (∀ (c : Ch) (d : Dev),
      d.rxRuns c →
      d.align c ≠ 2 →
      (d.rx c).lofSet = false →
        Answers (.lof c) d
          (let e := d.reach ((d.rx c).leftAt + 24 * frameCycles)
          (e.setRx c { d.rx c with lofSet := true }).flag F.TCH_FRMSTAT_LOF c)) ∧
    (∀ (c : Ch) (w : CwIn) (d : Dev),
      w.ok →
      d.rxRuns c →
      2 ≤ d.align c →
        Answers (.codewordDecode c w) d
          (let w := if d.useB F.SLN_CTL_RX_INV c then w.inv (d.rxEven c) else w
          let d := d.rxCount c 0 w.corrected
          let d := if w.bad then d.flag F.TCH_FRMSTAT_UNCORR c else d
          let l : List Blk := w.output.map (decodedBlk w.bad)
          let x := d.rx c
          let framed := d.align c == 2
          let d := if x.cw == 0 then
              (d.setRx c { x with bip := 0, lastBip := if x.whole then some x.bip else none, whole := framed }).adoptCounter c
                l[1]? w.bad
            else d.setRx c { x with whole := x.whole && framed }
          let x := d.rx c
          let z := descramble (d.mode == 5 && x.plain) (224 * x.cw) x.scr l
          d.setRx c { x with
            scr := z.1, bip := x.bip ^^^ bip32 (l.map (·.pay)), cw := (x.cw + 1) % 872, queue := x.queue ++ z.2 })) ∧
    (∀ (c : Ch) (ago : Fin (2 ^ 34)) (d : Dev),
      d.rxRuns c →
      (d.rx c).qd = 0 →
      24 ≤ (d.rx c).queue.length →
        Answers (.frameHeaderRx c ago) d
          (let l := blkBytes (((d.rx c).queue.take 24).drop 2)
          let e := d.rxTake c 24
          if crcHolds l 176 then e.takeHeader c l (e.now16 - ago) else e.flag F.TCH_FRMSTAT_HDRERR c)) ∧
    (∀ (c : Ch) (d : Dev),
      d.rxRuns c →
      ((d.rx c).qd = 24 ∨ (d.rx c).qd = 48832 ∨ (d.rx c).qd = 97664 ∨ (d.rx c).qd = 146496) →
      8 ≤ (d.rx c).queue.length →
      8 + be (blkBytes ((d.rx c).queue.take 8)) 2 2 ≤ (d.rx c).queue.length →
        Answers (.subframeHeaderRx c) d (d.subframeHeaderRx c)) ∧
    (∀ (c : Ch) (d : Dev),
      d.rxRuns c →
      (d.rx c).qd ≠ 0 →
      (d.rx c).qd ≠ 24 →
      (d.rx c).queue ≠ [] →
        Answers (.segmentRx c) d (d.segmentRx c))

/-- With the burst receiver running and a burst scheduled: its preset loads at the guard; a burst whose delimiter is
found near its place is taken, with the lane up; any other is recorded as missing; power in the guard is an
intrusion. A preset becomes STALE at its age. (R91, R92, R93, R96, R97, R98, R99) -/
def Obligations.BurstReceiverComplete : Prop :=
    (∀ (c : Ch) (parityBad : Bool) (d : Dev),
      (d.toBurst c).brxRuns c →
      (Tbl.find? (d.toBurst c).lanes.loaded c).isNone →
        Answers (.presetLoad c parityBad) d ((d.toBurst c).presetLoad c parityBad)) ∧
    (∀ (c : Ch) (b i : BurstIn) (x : Burst) (r : List Burst) (a : Dev × EqVals × Int) (y : Option (Int × Nat)) (o : Int × Nat) (d : Dev),
      b.ok →
      (d.toBurst c).brxRuns c →
      ((d.toBurst c).brx c).sched = x :: r →
      i = (if ((d.toBurst c).loadFirst c).useB F.SLN_CTL_RX_INV c then b.inv else b) →
      a = ((d.toBurst c).loadFirst c).preambleTo c (((Tbl.find? ((d.toBurst c).loadFirst c).lanes.loaded c).map (·.value)).getD 0) x.cold i.pre →
      y = findDelim i.search (((d.toBurst c).loadFirst c).use F.TCH_BRXCFG_WINDOW c) (((d.toBurst c).loadFirst c).use F.TCH_BRXCFG_DELIM_TOL c) a.2.1.phase a.2.2 →
      y = some o →
      ((d.toBurst c).loadFirst c).laneUp c →
        Answers (.burstReceived c b) d
          (let p := Dev.adaptBurst c false (a.1, a.2.1, 0) i.post
          p.1.takeBurst c x i p.2.1.num (o.1 + if ((d.toBurst c).loadFirst c).acquiring c then i.energy else 0) o.2)) ∧
    (∀ (c : Ch) (b i : BurstIn) (x : Burst) (r : List Burst) (a : Dev × EqVals × Int) (y : Option (Int × Nat)) (d : Dev),
      b.ok →
      (d.toBurst c).brxRuns c →
      ((d.toBurst c).brx c).sched = x :: r →
      i = (if ((d.toBurst c).loadFirst c).useB F.SLN_CTL_RX_INV c then b.inv else b) →
      a = ((d.toBurst c).loadFirst c).preambleTo c (((Tbl.find? ((d.toBurst c).loadFirst c).lanes.loaded c).map (·.value)).getD 0) x.cold i.pre →
      y = findDelim i.search (((d.toBurst c).loadFirst c).use F.TCH_BRXCFG_WINDOW c) (((d.toBurst c).loadFirst c).use F.TCH_BRXCFG_DELIM_TOL c) a.2.1.phase a.2.2 →
      (y = none ∨ ((d.toBurst c).loadFirst c).laneUp c = false) →
        Answers (.burstReceived c b) d (((d.toBurst c).loadFirst c).burstMissing c)) ∧
    (∀ (c : Ch) (b : Burst) (r : List Burst) (d : Dev),
      (d.toBurst c).brxRuns c →
      ((d.toBurst c).brx c).sched = b :: r →
        Answers (.burstMissing c) d
          (let e := (d.toBurst c).loadFirst c
          let at_ := e.expected c b 0
          let e := e.runTo at_
          let e := if b.cold then e.brxCount c 13 else e
          let e := e.flag F.TCH_BRXSTAT_MISSING c
          let m := min 65535 (e.missRun (128 * c + b.loc) + 1)
          let e := e.notFound c b
          let e := e.recordBurst c b
            { arrival := 0, fom := 0, flags := 1 + e.loadFlags c b, corr := 0, uncorr := 0, rei := none,
              hdrFlags := 32 * b2n (e.brx c).intruded, missRun := m, delimErr := 0, stamp := at_ % 2 ^ 32 }
          e.passBurst c { loc := b.loc, offset := none, termMissing := false, wrote := none })) ∧
    (∀ (c : Ch) (b : Burst) (r : List Burst) (d : Dev),
      (d.toBurst c).brxRuns c →
      ((d.toBurst c).brx c).intruded = false →
      ((d.toBurst c).brx c).sched = b :: r →
        Answers (.guardIntrusion c) d
          (let e := (d.toBurst c).loadFirst c
          let e := e.runTo (e.burstNs c b 1056)
          let x := e.brx c
          let r : Intrusion :=
            { before := x.last.map (·.loc), beforeAt := x.last.bind (·.offset), after := b.loc, afterAt := none }
          let e := (e.setBrx c { x with intruded := true, record := some r }).flag F.TCH_BRXSTAT_GUARD c
          match x.last with
          | some l =>
            if e.mode ≠ 3 ∧ (l.termMissing ∨ l.offset.any fun o => decide (4 < o)) then e.addTodo c l.loc .mark else e
          | none => e)) ∧
    (∀ (g : Gidx) (d : Dev),
      d.booted →
      (d.preset g).state = 1 →
        Answers (.presetStale g) d ((d.runTo ((d.frameNow + (d.brxAt F.TCH_BRXCFG_PRESET_AGE (g.val / 128) d.nowNs - d.presetAge g)) * 125000)).presetState g 2))

/-- Where a channel in head role has its Scribe running and the work a routine handles is waiting, with no work of
the same terminal that goes before it, the routine runs: it is counted, traced and has its effect on the registry,
the ranging queue, the messages and the terminal. (R112, R113, R118, R120, R121, R123, R124, R126, R129, R130, R131,
R140) -/
def Obligations.HeadScribeRoutinesComplete : Prop :=
    (∀ (c : Ch) (d : Dev),
      d.headScribe c →
      (d.scribe c).lastTick ≠ some d.subNow →
        Answers (.subframeTick c) d ((d.routine c 0x0040 0 0 fun e => e.subframeTick c))) ∧
    (∀ (c : Ch) (rs : List WindowIn) (w : Disc) (r : List Disc) (d : Dev),
      rs.all WindowIn.ok →
      d.headScribe c →
      d.brxRuns c →
      d.mgmtRoom c rs.length →
      (d.scribe c).windows = w :: r →
        Answers (.discRx c rs) d ((d.routine c 0x0100 2 0 fun e => e.discRx c rs))) ∧
    (∀ (c : Ch) (loc : Loc) (r : Option WindowIn) (d : Dev),
      r.all WindowIn.ok →
      d.headScribe c →
      d.brxRuns c →
      d.mgmtRoom c 1 →
      (d.term (128 * c + loc)).st = .ranging →
        Answers (.rangeRx c loc r) d ((d.routine c 0x0180 2 loc fun e => e.rangeRx c loc r))) ∧
    (∀ (c : Ch) (loc : Loc) (d : Dev),
      d.headScribe c →
      d.mgmtRoom c 1 →
      (d.turn c loc fun t => t == .activate || t == .activated) →
      (d.term (128 * c + loc)).st = .activating →
        Answers (.activate c loc) d ((d.routine c 0x0200 2 loc fun e => e.activateStep c loc))) ∧
    (∀ (c : Ch) (d : Dev),
      d.headScribe c →
      ((d.scribe c).inbox.head?.any fun m => d.turn c m.loc (· == .msg)) →
        Answers (.msgRx c) d ((d.routine c 0x0240 2 (((d.scribe c).inbox.map (·.loc)).headD 0) fun e => e.msgRx c))) ∧
    (∀ (c : Ch) (loc : Loc) (type : Fin 256) (d : Dev),
      d.headScribe c →
      d.mgmtRoom c 1 →
      (((d.scribe c).inbox.any fun m => m.loc == loc.val) = false) →
      d.clear c loc (if d.rerangeDue c loc then 3 else 4) →
      ((d.term (128 * c + loc)).txns.any fun x => x.type == type.val && x.due) →
        Answers (.msgRetry c loc type) d ((d.routine c 0x0300 4 loc fun e => e.msgRetry c loc type))) ∧
    (∀ (c : Ch) (loc : Loc) (o : Int) (f : Nat) (d : Dev),
      d.headScribe c →
      d.mgmtRoom c 1 →
      d.nextTodo c loc = some (.track o f) →
        Answers (.track c loc) d ((d.routine c 0x0340 1 loc fun e => e.track c loc))) ∧
    (∀ (c : Ch) (loc : Loc) (d : Dev),
      d.headScribe c →
      d.hasTodo c loc .loss →
        Answers (.loss c loc) d ((d.routine c 0x0380 1 loc fun e => e.lossOf c loc))) ∧
    (∀ (c : Ch) (loc : Loc) (d : Dev),
      d.headScribe c →
      d.hasTodo c loc .gasp →
        Answers (.gasp c loc) d ((d.routine c 0x03C0 1 loc fun e => e.gaspOf c loc))) ∧
    (∀ (c : Ch) (f : Nat) (d : Dev),
      (d.scribe c).recoverTo = some f →
      d.headRole c →
      d.booted →
        Answers (.recoveryEnd c) d
          (let e := d.runTo (f * 125000)
          (e.setScribe c { e.scribe c with recoverTo := none }).set F.TCH_LCSTAT_RECOVERY 0 c)) ∧
    (∀ (c : Ch) (loc : Loc) (d : Dev),
      d.headScribe c →
      (d.term (128 * c + loc)).st = .hold →
        Answers (.holdExpired c loc) d
          (((((d.runTo (((d.term (128 * c + loc)).held + d.use F.TCH_LCCFG_HOLD_FRAMES c) * 125000)).lcCount c 15).endTerm
            (128 * c + loc) 8)))) ∧
    (∀ (c : Ch) (loc : Loc) (d : Dev),
      d.headScribe c →
      d.mgmtRoom c 1 →
      (d.hasTodo c loc .mark ∨ d.hasTodo c loc .evidence) →
        Answers (.rogue c loc) d ((d.routine c 0x0400 1 loc fun e => e.rogueStep c loc))) ∧
    (∀ (c : Ch) (d : Dev),
      d.headScribe c →
      d.mgmtRoom c 1 →
      0 < d.slotsFor c .recalled →
      (d.recallNext c).isSome →
        Answers (.recallStep c) d ((d.routine c 0x0440 4 0 fun e => e.recallStep c))) ∧
    (∀ (c : Ch) (loc : Loc) (ring tag : Nat) (args : List Byte) (d : Dev),
      d.headScribe c →
      d.mgmtRoom c 1 →
      d.nextTodo c loc = some (.host ring 0x14 tag args) →
        Answers (.moveSource c loc) d
          ((d.routine c 0x0480 3 loc fun e =>
            let k := e.takeTodo c loc fun t => match t with
              | .host _ op _ _ => op == 0x14
              | _ => false
            match k.2 with
            | some (.host ring _ tag _) => k.1.moveSource c loc ring tag
            | _ => k.1))) ∧
    (∀ (c : Ch) (loc : Loc) (m : Move) (d : Dev),
      d.booted →
      d.headRole c →
      (d.term (128 * c + loc)).st = .moving →
      (d.term (128 * c + loc)).move = some m →
      m.taken = false →
        Answers (.sideMoveEffective c loc) d (d.moveEffective c loc)) ∧
    (∀ (c : Ch) (loc : Loc) (ok : Bool) (d : Dev),
      d.headScribe c →
      d.mgmtRoom c 1 →
      d.nextTodo c loc = some (.moved ok) →
        Answers (.moveTarget c loc) d
          ((d.routine c 0x04C0 2 loc fun e =>
            let k := e.takeTodo c loc fun t => match t with
              | .moved _ => true
              | _ => false
            match k.2 with
            | some (.moved ok) => k.1.moveTarget c loc ok
            | _ => k.1))) ∧
    (∀ (c : Ch) (loc : Loc) (t : Todo) (d : Dev),
      d.headScribe c →
      d.mgmtRoom c 1 →
      d.nextTodo c loc = some t →
      (t = .dozeEnd ∨ ∃ p xid, t = .doze p xid) →
        Answers (.doze c loc) d ((d.routine c 0x0500 2 loc fun e => e.dozeStep c loc))) ∧
    (∀ (c : Ch) (loc : Loc) (r : KeyReq) (d : Dev),
      r.wrap.length = 40 →
      d.headScribe c →
      d.mgmtRoom c 1 →
        Answers (.keys c loc (some r)) d ((d.routine c 0x0540 3 loc fun e => e.keyDeliver c loc r))) ∧
    (∀ (c : Ch) (loc : Loc) (d : Dev),
      d.headScribe c →
      d.mgmtRoom c 1 →
      d.hasTodo c loc .keys →
        Answers (.keys c loc none) d ((d.routine c 0x0540 3 loc fun e => e.keySwitch c loc))) ∧
    (∀ (c : Ch) (loc : Loc) (xid q code detail : Nat) (d : Dev),
      d.headScribe c →
      d.mgmtRoom c 1 →
      d.nextTodo c loc = some (.alarm xid q code detail) →
        Answers (.alarm c loc) d
          ((d.routine c 0x0580 2 loc fun e =>
            let k := e.takeTodo c loc fun t => match t with
              | .alarm _ _ _ _ => true
              | _ => false
            match k.2 with
            | some (.alarm xid q code detail) =>
              if (k.1.term (128 * c + loc)).inService = false then k.1.msgDiscard c
              else (k.1.unicast c loc 0x0F xid (toBE q 1)).tchEvent c 0x0008 (dataOf [(loc, 1), (q, 1), (code, 1), (detail, 2)])
            | _ => k.1))) ∧
    (∀ (c : Ch) (loc : Loc) (ring op tag : Nat) (args : List Byte) (d : Dev),
      d.scribeUp c →
      d.mgmtRoom c 1 →
      op ≠ 0x14 →
      d.nextTodo c loc = some (.host ring op tag args) →
        Answers (.hostCmd c loc) d
          ((d.routine c 0x05C0 3 loc fun e =>
            let k := e.takeTodo c loc fun t => match t with
              | .host _ op _ _ => op != 0x14
              | _ => false
            match k.2 with
            | some (.host ring op tag args) =>
              if k.1.headRole c ∧ cmdLegal (k.1.term (128 * c + loc)) op then
                (k.1.hostAct c loc op args).endCmd ring tag op 0
              else k.1.endCmd ring tag op 0x01
            | _ => k.1))) ∧
    (∀ (c : Ch) (d : Dev),
      d.headScribe c →
      d.hasTodo c 128 .takeover →
        Answers (.takeover c) d
          ((d.routine c 0x06C0 1 0 fun e =>
            let e := (e.takeTodo c 128 fun t => t == .takeover).1
            (e.termsOf c).foldl (Dev.resumeTerm c (e.get F.STL_CHSTAT_DSTATE c == 3 || e.on F.STL_CHSTAT_TX_SUSPECT c)) e)))

/-- A write of EMU_EN or of an action bit runs the routine of the emulated terminal; timers of gasp, alarm,
holdover, ranging wait and deactivation end; a terminal with a burst due sends it unless transmit is squelched;
EMU_COUNT and bucket moves take effect at a frame boundary, and a bucket resumes when its marks have left. (R111,
R233, R239, R240, R241, R250, R251, R252, R619, R620) -/
def Obligations.TerminalRoleComplete : Prop :=
    (∀ (c : Ch) (t : Loc) (d : Dev),
      d.hostOpen →
        Answers (.emuEnable c t) d ((d.routine c 0x0680 3 t fun e => e.writeEmuCtl c t (e.emuCtlWith c t 1 0)))) ∧
    (∀ (c : Ch) (t : Loc) (d : Dev),
      d.hostOpen →
        Answers (.emuDisable c t) d ((d.routine c 0x0680 3 t fun e => e.writeEmuCtl c t (e.emuCtlWith c t 0 0)))) ∧
    (∀ (c : Ch) (t : Loc) (d : Dev),
      d.hostOpen →
        Answers (.emuGasp c t) d ((d.routine c 0x0680 3 t fun e => e.writeEmuCtl c t (e.emuCtlWith c t (d.get F.TCH_EMUCTL_EMU_EN c t) 4)))) ∧
    (∀ (c : Ch) (t : Loc) (d : Dev),
      d.hostOpen →
        Answers (.emuAlarm c t) d ((d.routine c 0x0680 3 t fun e => e.writeEmuCtl c t (e.emuCtlWith c t (d.get F.TCH_EMUCTL_EMU_EN c t) 8)))) ∧
    (∀ (c : Ch) (t : Loc) (d : Dev),
      d.hostOpen →
        Answers (.emuDoze c t) d ((d.routine c 0x0680 3 t fun e => e.writeEmuCtl c t (e.emuCtlWith c t (d.get F.TCH_EMUCTL_EMU_EN c t) 16)))) ∧
    (∀ (c : Ch) (t : Loc) (f : Nat) (d : Dev),
      (d.emu (128 * c + t)).gaspAt = some f →
      d.booted →
        Answers (.emuGaspTimeout c t) d (((if (d.emu (128 * c + t)).gaspBurst then d else d.runTo ((f + 8) * 125000)).emuOff c t))) ∧
    (∀ (c : Ch) (t : Loc) (f : Nat) (d : Dev),
      (d.emu (128 * c + t)).alarmAt = some f →
      d.termScribe c →
      d.on F.TCH_EMUCTL_ALARM c t →
      d.emuSt c t ≠ 0 →
      d.emuSt c t ≠ 1 →
      d.emuSt c t ≠ 7 →
        Answers (.emuAlarmResend c t) d
          (let e := d.runTo ((f + 8) * 125000)
          (e.setEmu (128 * c + t) { e.emu (128 * c + t) with alarmAt := some e.frameNow }).emuSend c t 0x86 (e.alarmBody c t))) ∧
    (∀ (c : Ch) (d : Dev),
      d.booted →
        Answers (.emuCountApply c) d (d.toFrame.applyTrmCfg c)) ∧
    (∀ (b : Fin 256) (m : Nat) (d : Dev),
      d.booted →
      d.mode = 1 →
      Tbl.find? d.cas.due b = some m →
        Answers (.bucketMove b) d (d.bucketMove b)) ∧
    (∀ (b : Fin 256) (h : CasHold) (d : Dev),
      Tbl.find? d.cas.holds b = some h →
      d.booted →
      (h.marks.all fun m => decide (m.2 < (d.qst m.1).out) || (m.2 == (d.qst m.1).out && (d.bind (m.1 / 4) (m.1 % 4)).part.isNone)) →
        Answers (.bucketHoldEnd b) d
          (let e : Dev := { d with cas := { d.cas with holds := Tbl.erase d.cas.holds b } }
          let e := (e.set F.GLB_CASBKT_MOVING 0 b).bumpIn F.GLB_CASBKT_MOVES b
          h.pkts.foldl (fun e p => e.pushTo p.1 p.2) e)) ∧
    (∀ (c : Ch) (d : Dev),
      d.termScribe c →
      (d.scribe c).inbox ≠ [] →
        Answers (.termRx c) d ((d.routine c 0x0600 2 0 fun e => e.termRx c))) ∧
    (∀ (c : Ch) (d : Dev),
      d.termScribe c →
      (d.scribe c).lastTick ≠ some d.subNow →
        Answers (.termTick c) d
          ((d.routine c 0x0640 0 0 fun e =>
            let e := ((e.setScribe c { e.scribe c with lastTick := some e.subNow }).calibrate c).formRegions c
            let e := (List.range 128).foldl (Dev.settleDly c ((e.now16 : Nat) : Int)) e
            (e.emusOf c).foldl (Dev.tickEmu c (e.nowNs / 31250 % 4 == 0)) e))) ∧
    (∀ (c : Ch) (t : Loc) (d : Dev),
      d.termScribe c →
      d.emuSt c t = 6 →
      8 ≤ (d.emu (128 * c + t)).missed →
      d.align c ≠ 2 →
        Answers (.holdoverExpired c t) d (d.emuTo c t 0)) ∧
    (∀ (c : Ch) (t : Loc) (d : Dev),
      d.termScribe c →
      d.emuSt c t = 2 →
        Answers (.rangeWaitExpired c t) d (((d.runTo (((d.emu (128 * c + t)).since + 8 * d.use F.TCH_TRMCFG_RANGE_WAIT c) * 125000)).emuTo c t 1))) ∧
    (∀ (c : Ch) (t : Loc) (f : Nat) (d : Dev),
      (d.emu (128 * c + t)).deactAt = some f →
      d.termScribe c →
        Answers (.deactivateTimeout c t) d (((d.runTo ((f + 8) * 125000)).emuTo c t 0))) ∧
    (∀ (c : Ch) (t : Loc) (s a : Nat) (d : Dev),
      d.booted →
      d.termRole c →
      (d.rx c).arrived.isSome →
      d.emuOn c t →
      d.arb.squelch = false →
      d.arb.vigilStage < 2 →
      d.outOpen (c / 64) →
      d.emuSt c t = 2 →
      (d.emu (128 * c + t)).rangeSub = some s →
      (d.emu (128 * c + t)).rangeAt = some a →
        Answers (.burstTx c t) d (d.sendRanging c t s a)) ∧
    (∀ (c : Ch) (t : Loc) (b : Burst) (r : List Burst) (d : Dev),
      d.booted →
      d.termRole c →
      (d.rx c).arrived.isSome →
      d.emuOn c t →
      d.arb.squelch = false →
      d.arb.vigilStage < 2 →
      d.outOpen (c / 64) →
      d.emuSt c t = 4 →
      (d.emu (128 * c + t)).bursts = b :: r →
        Answers (.burstTx c t) d (d.sendGranted c t b))

/-- A snapshot of a booted device refills, and builds the map of the subframe two ahead in a head-role channel with
grants enabled; a report in hand is processed for its four containers; an access of the grant indirect port that is
not busy writes or shows a record. (R156, R157, R160, R161, R175, R178) -/
def Obligations.GrantCommandsComplete : Prop :=
    (∀ (c : Ch) (d : Dev),
      d.booted →
        Answers (.snapshot c) d (d.snapshot c)) ∧
    (∀ (c : Ch) (p : Report) (r : List Report) (d : Dev),
      Tbl.get [] d.gnt.reports c = p :: r →
        Answers (.reportProcess c) d
          (let e := { d with gnt := { d.gnt with reports := Tbl.set d.gnt.reports c r } }.bump F.GNT_CNT_COUNT c 15
          (List.range 4).foldl (Dev.reportSlot c p) (e.landGrants c p.loc p.sub))) ∧
    (∀ (table : Fin 4) (index : Fin 65536) (d : Dev),
      d.hostOpen →
      d.on F.GNT_IND_CTL_BUSY = false →
      table.val < 2 →
        Answers (.gntIndRead table index) d
          (let e := ((d.set F.GNT_IND_CTL_INDEX index).set F.GNT_IND_CTL_TABLE table).set F.GNT_IND_CTL_WRITE 0
          e.showData F.GNT_IND_DATA_DATA 4 (if table.val = 0 then Tbl.get 0 e.gnt.cfg index else Tbl.get 0 e.gnt.shown index))) ∧
    (∀ (table : Fin 4) (index : Fin 65536) (d : Dev),
      d.hostOpen →
      d.on F.GNT_IND_CTL_BUSY = false →
      table.val = 0 →
        Answers (.gntIndWrite table index) d
          (let e := ((d.set F.GNT_IND_CTL_INDEX index).set F.GNT_IND_CTL_TABLE table).set F.GNT_IND_CTL_WRITE 1
          let r := e.readData F.GNT_IND_DATA_DATA 4 &&& contMask
          if e.contOk index r then e.writeCont index r else e.gntRefuse index))

/-- A packet at a pipeline is processed; the first learn request is applied; a pending filter ends 10 µs after its
request; the sweep ages every dynamic entry; a flush of a legal identity runs at once; the indirect port that is not
busy reads, writes and removes; a prefix insertion ends. (R292, R316, R326, R327, R328, R329, R330, R332, R335,
R336) -/
def Obligations.ForwardingCommandsComplete : Prop :=
    (∀ (pipe : Pipe) (p : InPkt) (r : List InPkt) (d : Dev),
      Tbl.get [] d.fab.inq pipe = p :: r →
        Answers (.pipelinePacket pipe) d
          (let n := Tbl.get 0 d.fab.load (2 * pipe) + 8 * p.bytes.length
          let t := Tbl.set (Tbl.set d.fab.load (2 * pipe) n) (2 * pipe + 1) (Tbl.get 0 d.fab.load (2 * pipe + 1) + 1)
          let e := { d with fab := { d.fab with inq := Tbl.set d.fab.inq pipe r, load := t } }
          p.bufs.foldl Dev.release1 (if lateKnown d.clk.cyc p.fails then e else e.pipeline pipe p))) ∧
    (∀ (q : LearnReq) (r : List LearnReq) (d : Dev),
      d.fwd.queue = q :: r →
        Answers (.learnApply) d (d.learnApply)) ∧
    (∀ (pipe : Pipe) (e : Nat × Nat) (r : List (Nat × Nat)) (d : Dev),
      Tbl.get [] d.fwd.filter pipe = e :: r →
        Answers (.pendingFilterTimeout pipe) d
          (let d := d.reach (e.2 + 15000)
          let l := (Tbl.get [] d.fwd.filter pipe).filter fun x => decide (d.clk.cyc < x.2 + 15000)
          { d with fwd := { d.fwd with filter := Tbl.set d.fwd.filter pipe l } })) ∧
    (∀ (d : Dev),
        Answers (.agingSweep) d (d.agingSweep)) ∧
    (∀ (id : Fin (2 ^ 17)) (d : Dev),
      d.hostOpen →
      d.on F.FWD_FLUSH_BUSY = false →
      id.val < 16384 →
        Answers (.fwdFlush id 0) d (((d.set F.FWD_FLUSH_ID id).set F.FWD_FLUSH_SCOPE 0).dropBd id)) ∧
    (∀ (id : Fin (2 ^ 17)) (d : Dev),
      d.hostOpen →
      d.on F.FWD_FLUSH_BUSY = false →
        Answers (.fwdFlush id 1) d (((d.set F.FWD_FLUSH_ID id).set F.FWD_FLUSH_SCOPE 1).dropSvc id)) ∧
    (∀ (id : Fin (2 ^ 17)) (d : Dev),
      d.hostOpen →
      d.on F.FWD_FLUSH_BUSY = false →
      id.val < 16384 →
        Answers (.fwdFlush id 2) d (((d.set F.FWD_FLUSH_ID id).set F.FWD_FLUSH_SCOPE 2).dropTerm id)) ∧
    (∀ (id : Fin (2 ^ 17)) (d : Dev),
      d.hostOpen →
      d.on F.FWD_FLUSH_BUSY = false →
        Answers (.fwdFlush id 3) d ((((d.set F.FWD_FLUSH_ID id).set F.FWD_FLUSH_SCOPE 3).dropBridges fun _ => true))) ∧
    (∀ (table : Fin 8) (index : Fin (2 ^ 20)) (d : Dev),
      d.hostOpen →
      d.on F.FWD_IND_CTL_BUSY = false →
        Answers (.fwdIndRead table index) d ((d.fwdCtl index table false false).fwdRead table index)) ∧
    (∀ (table : Fin 8) (index : Fin (2 ^ 20)) (d : Dev),
      d.hostOpen →
      d.on F.FWD_IND_CTL_BUSY = false →
        Answers (.fwdIndWrite table index) d ((d.fwdCtl index table true false).fwdWrite table index)) ∧
    (∀ (table : Fin 8) (index : Fin (2 ^ 20)) (d : Dev),
      d.hostOpen →
      d.on F.FWD_IND_CTL_BUSY = false →
        Answers (.fwdIndRemove table index) d ((d.fwdCtl index table true true).fwdRemove table index)) ∧
    (∀ (i r : Nat) (d : Dev),
      d.fwd.insert = some (i, r) →
        Answers (.prefixRelocationDone) d (((({ d with fwd := { d.fwd with insert := none } }.setPrefix i (some r)).set F.FWD_IND_CTL_BUSY 0).set F.FWD_IND_CTL_GO 0)))

/-- A channel that frames and has fewer than two selections ahead selects a management message first; a refill and a
meter sweep run; a reparenting queue takes its new parent at the frame boundary; the indirect port that is not busy
writes or shows a record. (R208, R211, R212, R213, R214, R216, R219, R224) -/
def Obligations.TrafficCommandsComplete : Prop :=
    (∀ (c : Ch) (m : MgmtMsg) (r : List MgmtMsg) (d : Dev),
      d.schedules c →
      (Tbl.get [] d.tm.ahead c).length < 2 →
      (d.use F.TMG_CHCFG_CH_RATE c = 0 ∨ 0 ≤ Tbl.get 0 d.tm.chCredit c) →
      Tbl.get [] d.tm.mgmt c = m :: r →
        Answers (.schedulerSelect c) d
          (let e := { d with tm := { d.tm with mgmt := Tbl.set d.tm.mgmt c r } }.set F.TMG_CHSTAT_MGMT_DEPTH r.length c
          (e.keepSel c (.mgmt m)).bump F.TMG_CHCNT_COUNT c 2)) ∧
    (∀ (d : Dev),
        Answers (.refill) d (d.refillAll)) ∧
    (∀ (d : Dev),
        Answers (.meterSweep) d (d.meterSweep)) ∧
    (∀ (q : Fin 65536) (old : Nat) (d : Dev),
      Tbl.find? d.tm.qold q = some old →
        Answers (.queueReparent q) d
          (let new := Tbl.get 0 d.tm.qcfg q
          let e := d.toFrame
          let now := setRec old 0 4 (recBytes new 0 4)
          let moved := decide (recBytes old 0 4 ≠ recBytes new 0 4)
          let e : Dev := { e with tm := { e.tm with
            qold := if now = new then Tbl.erase e.tm.qold q else Tbl.set e.tm.qold q now } }
          if moved then e.leaveShare q else e)) ∧
    (∀ (table : Fin 8) (index : Fin (2 ^ 17)) (d : Dev),
      d.hostOpen →
      d.on F.TMG_IND_CTL_BUSY = false →
      index.val < tmgSize table →
        Answers (.tmgIndRead table index) d
          (let e := ((d.set F.TMG_IND_CTL_INDEX index).set F.TMG_IND_CTL_TABLE table).set F.TMG_IND_CTL_WRITE 0
          e.showData F.TMG_IND_DATA_DATA 4 (e.tmgRec table index))) ∧
    (∀ (table : Fin 8) (index : Fin (2 ^ 17)) (d : Dev),
      d.hostOpen →
      d.on F.TMG_IND_CTL_BUSY = false →
        Answers (.tmgIndWrite table index) d
          (let e := ((d.set F.TMG_IND_CTL_INDEX index).set F.TMG_IND_CTL_TABLE table).set F.TMG_IND_CTL_WRITE 1
          let r := e.readData F.TMG_IND_DATA_DATA 4 &&& tmgMask table
          if tmgOk table index r then e.tmgWrite table index r else e.tmgRefuse table index))

/-- The parser indirect port that is not busy writes a rule whose action is legal and shows records; a fragment
entry that reaches its age is removed. (R302, R304, R306, R312, R313) -/
def Obligations.ParserCommandsComplete : Prop :=
    (∀ (table : Fin 4) (index : Fin 8192) (d : Dev),
      d.hostOpen →
      d.on F.PAR_IND_CTL_BUSY = false →
      table.val ≠ 3 →
        Answers (.parIndRead table index) d
          (let e := ((d.set F.PAR_IND_CTL_INDEX index).set F.PAR_IND_CTL_TABLE table).set F.PAR_IND_CTL_WRITE 0
          e.showData F.PAR_IND_DATA_DATA 24 (e.parRec table index))) ∧
    (∀ (index : Fin 8192) (d : Dev),
      d.hostOpen →
      d.on F.PAR_IND_CTL_BUSY = false →
        Answers (.parIndWrite 0 index) d
          (let e := ((d.set F.PAR_IND_CTL_INDEX index).set F.PAR_IND_CTL_TABLE 0).set F.PAR_IND_CTL_WRITE 1
          let r := e.readData F.PAR_IND_DATA_DATA 24
          if actionOk (recBytes r 176 16) = false then e.parRefuse else e.putParRule index r)) ∧
    (∀ (i : Fin 8192) (x : Frag) (d : Dev),
      Tbl.find? d.par.frags i = some x →
        Answers (.fragTimeout i) d
          (let age := (sdiff 32 d.stamp x.stamp).toNat
          (d.runTo (d.nowNs + (d.use F.PAR_FRAGCFG_TIMEOUT_MS * 1000000 - age))).fragTimeout i))

/-- A queue settles into head, pages and tail; a queue below its head allowance prefetches; a page whose read has
returned is checked and joins; the buffer indirect port that is not busy writes or shows a record. (R343, R347,
R348, R349, R354, R355) -/
def Obligations.SpillCommandsComplete : Prop :=
    (∀ (q : Fin 66560) (d : Dev),
        Answers (.spillStep q) d
          (let e := Dev.spillLoop q (d.qst q).all.length d
          e.setQ q (e.qst q).settle)) ∧
    (∀ (q : Fin 66560) (l : List Pkt) (d : Dev),
      ¬ d.headKeep (d.qOwner q) ≤ d.chargedAll q (d.qst q).h →
      (d.qst q).m = [] →
      (d.qst q).opened = some l →
        Answers (.prefetch q) d
          (let x := d.qst q
          let e := if l.isEmpty then d.release1 x.openBuf else d.addRef x.openBuf (l.length - 1)
          let l := l.map fun p => { p with buf := x.openBuf }
          (e.setQ q { x with h := x.h ++ l, opened := none }.settle).bump F.BUF_CNT_COUNT 7)) ∧
    (∀ (q : Fin 66560) (p : Page) (b : Nat) (d : Dev),
      ¬ d.headKeep (d.qOwner q) ≤ d.chargedAll q (d.qst q).h →
      ((d.qst q).m.find? (fun g => g.at_ == .stored) = some p) →
      d.takeSp.2 = some b →
        Answers (.prefetch q) d
          (let e := (d.takeSp.1.readPage q p b).bump F.BUF_CNT_COUNT 6
          if (d.qst q).h.isEmpty && ((d.qst q).m.head?.map (·.slot)) == some p.slot then e.headWait q else e)) ∧
    (∀ (q : Fin 66560) (p : Page) (d : Dev),
      ¬ d.headKeep (d.qOwner q) ≤ d.chargedAll q (d.qst q).h →
      ((d.qst q).m.find? (fun g => g.at_ == .stored) = some p) →
      d.takeSp.2 = none →
        Answers (.prefetch q) d (d.takeSp.1.flag F.BUF_STAT_HEADWAIT)) ∧
    (∀ (q : Fin 66560) (slot : Fin 3670016) (headerBad : Bool) (p : Page) (ok : Bool) (d : Dev),
      (((d.qst q).m.find? fun g => g.slot == slot.val) = some p) →
      p.at_ = .back ok →
        Answers (.pageLand q slot headerBad) d
          (let hdr := if headerBad then p.hdr.modify 0 (· ^^^ 1) else p.hdr
          Dev.joinPages q (d.qst q).m.length
            (d.setQ q ((d.qst q).setPage slot fun g => { g with at_ := .checked (ok && pageHeaderOk q p.seq hdr && !p.gone) })))) ∧
    (∀ (table : Fin 4) (index : Fin 1024) (d : Dev),
      d.hostOpen →
      d.on F.BUF_IND_CTL_BUSY = false →
      table.val < 2 →
      index.val ≤ 512 →
        Answers (.bufIndRead table index) d
          (let e := ((d.set F.BUF_IND_CTL_INDEX index).set F.BUF_IND_CTL_TABLE table).set F.BUF_IND_CTL_WRITE 0
          e.showData F.BUF_IND_DATA_DATA 4 (if table.val = 0 then e.ocfg index else e.ownerState index))) ∧
    (∀ (index : Fin 1024) (d : Dev),
      d.hostOpen →
      d.on F.BUF_IND_CTL_BUSY = false →
      index.val ≤ 512 →
        Answers (.bufIndWrite 0 index) d
          (let e := ((d.set F.BUF_IND_CTL_INDEX index).set F.BUF_IND_CTL_TABLE 0).set F.BUF_IND_CTL_WRITE 1
          let r := e.readData F.BUF_IND_DATA_DATA 4
          if recBytes r 28 4 ≠ 0 ∨ e.reservesFit index r = false then e.bufRefuse else e.setOwner index r))

/-- A read that completes, the oldest write that is acknowledged, the open page that times out, the refresh
interval, a temperature sample, the return of a cooled stack, a retirement and a step of the migration under way
have their effect. (R364, R366, R367, R368, R370, R371, R372, R373, R374, R376, R377) -/
def Obligations.StackCommandsComplete : Prop :=
    (∀ (access : Fin (2 ^ 27)) (n : Fin 4) (e : MemEnd) (blk : Fin 64) (ns : Fin (2 ^ 20)) (m : Nat) (d : Dev),
      d.memUsable (64 * access) →
      m = min (n.val + 1) (4 - access.val % 4) →
        Answers (.memReadComplete (.cxl access n) e blk ns) d
          (let k := d.readNow 3 (access / 4) ((List.range m).map fun k => access.val % 4 + k) e (64 * (access + blk % m)) ns
          match k.2 with
          | none => k.1
          | some ok => k.1.hostRead access m (if ok then none else some (blk % m)))) ∧
    (∀ (access : Fin (2 ^ 27)) (n : Fin 4) (e : MemEnd) (blk : Fin 64) (ns : Fin (2 ^ 20)) (d : Dev),
      d.memUsable (64 * access) = false →
        Answers (.memReadComplete (.cxl access n) e blk ns) d (d.hostRead access (min (n.val + 1) (4 - access.val % 4)) none)) ∧
    (∀ (q : Fin 66560) (slot : Nat) (e : MemEnd) (blk : Fin 64) (ns : Fin (2 ^ 20)) (d : Dev),
        Answers (.memReadComplete (.spill q slot) e blk ns) d (d.pageRead q slot blk e ns)) ∧
    (∀ (n : RingNo) (e : MemEnd) (blk : Fin 64) (ns : Fin (2 ^ 20)) (a : Nat) (d : Dev),
      a = sqAddr n (d.get F.HST_RINGSTAT_SQ_HEAD n) →
        Answers (.memReadComplete (.ring n) e blk ns) d
          (let k := d.readNow 3 (a / 256) [a / 64 % 4] e a ns
          match k.2 with
          | some false => { k.1 with mem := { k.1.mem with ringBad := Tbl.set k.1.mem.ringBad n true } }
          | _ => k.1)) ∧
    (∀ (e : WrAck) (w : WrEnt) (f : Dev) (d : Dev),
      (d.mem.wbuf.find? (fun w => d.pcOf (256 * w.block) == e.pc.val) = some w) →
      (f = Dev.issueUntil e.pc (fun f => f.mem.wbuf.any fun w => w.issued && d.pcOf (256 * w.block) == e.pc.val) ((d.reach (w.at_ + cdiv (3 * e.ns) 2)).slotsAhead e.pc) (d.reach (w.at_ + cdiv (3 * e.ns) 2))) →
        Answers (.memWriteAck e) d
          ((match f.mem.wbuf.find? fun w => w.issued && d.pcOf (256 * w.block) == e.pc.val with
          | none => f
          | some w =>
            let g : Dev := { f with mem := { f.mem with wbuf := f.mem.wbuf.eraseP fun w => w.issued && d.pcOf (256 * w.block) == e.pc.val } }
            let g := (g.memCount 1).late w.port ((g.clk.cyc - w.at_) * 2 / 3)
            let k := g.ended e.end_ (g.servingUnit (256 * w.block))
            let h := if k.2 then k.1
              else
                let h := w.old.foldl (Dev.undoAccess w.block) k.1
                if 0x200000000 ≤ 256 * w.block then h.losePages fun n => n == (256 * w.block - 0x200000000) / 16384 else h
            h.admitWrites))) ∧
    (∀ (pc : Fin 128) (issued : List Bool) (d : Dev),
      d.stackUp (pc / 32) →
        Answers (.refreshInterval pc issued) d
          (let e := (if issued.isEmpty && d.refUrgent pc then [false] else issued).foldl (Dev.refreshIdle pc) d
          ({ e with mem := { e.mem with owed := Tbl.set e.mem.owed pc (e.owed pc + 1) } }).showOwed (pc / 32))) ∧
    (∀ (st : Fin 4) (raw : Fin 256) (d : Dev),
      (d.set F.MEM_STACK_TEMP raw st).get F.MEM_STACK_STATE st = 1 →
      105 < sgn 8 raw →
        Answers (.stackTempSample st raw) d ((d.set F.MEM_STACK_TEMP raw st).stackOut st)) ∧
    (∀ (st : Fin 4) (raw : Fin 256) (d : Dev),
      (d.set F.MEM_STACK_TEMP raw st).get F.MEM_STACK_STATE st = 1 →
      sgn 8 raw ≤ 105 →
        Answers (.stackTempSample st raw) d (((d.set F.MEM_STACK_TEMP raw st).setRate st (rateFor ((d.set F.MEM_STACK_TEMP raw st).get F.MEM_STACK_RATE st) (sgn 8 raw))))) ∧
    (∀ (st : Fin 4) (t : Nat) (d : Dev),
      d.get F.MEM_STACK_STATE st = 4 →
      Tbl.find? d.mem.coolSince st = some t →
        Answers (.stackReturn st) d
          (let e := d.reach (t + 3900000)
          let p := e.mem.poison.filter fun x => (e.place (64 * x)).stack != st
          let e : Dev := { e with mem := { e.mem with
            poison := p, coolSince := Tbl.erase e.mem.coolSince st, migAt := e.clk.cyc } }
          ((e.set F.MEM_STACK_STATE 1 st).set F.MEM_STACK_RATE (rateFor 0 (sgn 8 (e.get F.MEM_STACK_TEMP st))) st).showMig)) ∧
    (∀ (bank : Fin 8192) (b : Bank) (d : Dev),
      Tbl.find? d.mem.banks bank = some b →
        Answers (.pageTimeout bank) d ({ d with mem := { d.mem with banks := Tbl.set d.mem.banks bank { b with openRow := none } } })) ∧
    (∀ (stack : Fin 4) (ch : Fin 16) (psid : Fin 4) (u : MUnit) (d : Dev),
      d.hostOpen →
      u = { s := stack.val, ch := ch.val, psid := psid.val } →
      d.unitSpare u = false →
      d.unitDead u = false →
      d.unitRetired u = false →
      d.stackUp u.s →
      d.mem.migWait.length < 16 →
        Answers (.unitRetire stack ch psid) d ((((d.set F.MEM_RETIRE_STACK u.s).set F.MEM_RETIRE_CHANNEL u.ch).set F.MEM_RETIRE_PSID u.psid).retire u)) ∧
    (∀ (e : MigEnds) (access : Fin 4) (u : MUnit) (f : Dev) (a : Nat) (d : Dev),
      d.mem.mig = some u →
      d.stackUp u.s →
      d.mem.wbuf.length < 1024 →
      f = d.reach (d.mem.migAt + cdiv 1500 (d.use F.MEM_CFG_MIGRATE_SHARE)) →
      a = f.blockAddr (f.logicalOf u) u.s u.ch (f.get F.MEM_MIGSTAT_CURSOR) →
      (f.readNow 5 (a / 256) [0, 1, 2, 3] e.rd a e.rdNs).2 = none →
        Answers (.migrationStep e access) d ((f.readNow 5 (a / 256) [0, 1, 2, 3] e.rd a e.rdNs).1)) ∧
    (∀ (e : MigEnds) (access : Fin 4) (u : MUnit) (f : Dev) (a : Nat) (k : Dev × Option Bool) (ok : Bool) (d : Dev),
      d.mem.mig = some u →
      d.stackUp u.s →
      d.mem.wbuf.length < 1024 →
      f = d.reach (d.mem.migAt + cdiv 1500 (d.use F.MEM_CFG_MIGRATE_SHARE)) →
      a = f.blockAddr (f.logicalOf u) u.s u.ch (f.get F.MEM_MIGSTAT_CURSOR) →
      k = f.readNow 5 (a / 256) [0, 1, 2, 3] e.rd a e.rdNs →
      k.2 = some ok →
      (if ok then k.1 else k.1.poison (a / 64 + access)).mem.mig = some u →
        Answers (.migrationStep e access) d
          (let h := if ok then k.1 else k.1.poison (a / 64 + access)
          let sp : MUnit := { u with psid := h.get F.MEM_UNIT_SPARE u.s u.ch }
          let h := h.reach (h.clk.cyc + cdiv (3 * e.wrNs) 2)
          let n := h.bankNo a / 64 * 64 + sp.psid * 16 + (h.place a).bank
          let h := ((h.touchBank n (h.place a).row []).memCount 1).late 5 e.wrNs
          let w := h.ended e.wr sp
          let h := if w.2 then w.1 else foldUpTo 4 (fun i h => h.poison (a / 64 + i)) w.1
          if h.mem.mig ≠ some u then h
          else
            let h : Dev := { h with mem := { h.mem with migAt := h.clk.cyc } }
            let h := (h.set F.MEM_MIGSTAT_CURSOR (f.get F.MEM_MIGSTAT_CURSOR + 1)).memCount 13
            if f.get F.MEM_MIGSTAT_CURSOR + 1 = 1048576 then (h.swapUnit u).nextMig else h))

/-- A frame received on a port that is up goes through the MAC; a frame of a queue that may send is sent while the
word link ahead of the MAC has room; pause timers, storms and their hold end; a port whose lanes run comes up, and a
port that is up goes down, by its first lane-port. (R390, R393, R395, R396, R398, R399, R400, R401, R402) -/
def Obligations.UplinkPortCommandsComplete : Prop :=
    (∀ (m : MacIn) (d : Dev),
      m.symbols.length ≤ 8 →
      m.bipErrs.length ≤ 8 →
      (d.fecCounts (d.firstPort m.port) m).on F.UPL_STAT_LINK_UP (d.firstPort m.port) →
      (d.fecCounts (d.firstPort m.port) m).mode ≠ 4 →
      (d.fecCounts (d.firstPort m.port) m).mode ≠ 5 →
        Answers (.macFrameRx m) d ((d.fecCounts (d.firstPort m.port) m).macRx (d.firstPort m.port) m.bytes m.codeErr)) ∧
    (∀ (port : LanePort) (e : TxEnd) (k : Nat) (d : Dev),
      d.macSends (d.firstPort port) →
      d.outOpen (quadLink (d.firstPort port / 4)) →
      d.egPick (d.firstPort port) = some k →
        Answers (.macFrameTx port e) d (d.macTx (d.firstPort port) e)) ∧
    (∀ (port : LanePort) (k : Fin 9) (t : Nat) (d : Dev),
      (if k.val = 8 then Tbl.find? d.mac.portPause (d.firstPort port) else Tbl.find? d.mac.queuePause (8 * d.firstPort port + k)) = some t →
        Answers (.pauseTimerExpiry port k) d
          (let p := d.firstPort port
          let e := d.reach t
          let m := if k.val = 8 then { e.mac with portPause := Tbl.erase e.mac.portPause p }
            else { e.mac with queuePause := Tbl.erase e.mac.queuePause (8 * p + k) }
          ({ e with mac := m }.markSince p).showPaused p)) ∧
    (∀ (port : LanePort) (k : Fin 8) (p t : Nat) (d : Dev),
      p = d.firstPort port →
      Tbl.find? d.mac.since (8 * p + k) = some t →
      d.use F.UPL_MACCFG_STORM_MS p ≠ 0 →
      t + d.use F.UPL_MACCFG_STORM_MS p * 1500000 ≤ max (Tbl.get 0 d.mac.portPause p) (Tbl.get 0 d.mac.queuePause (8 * p + k)) →
      (d.qst (65536 + 8 * p + k)).all ≠ [] →
        Answers (.pauseStorm port k) d (d.pauseStorm p k)) ∧
    (∀ (port : LanePort) (t : Nat) (d : Dev),
      Tbl.find? d.mac.ignore (d.firstPort port) = some t →
        Answers (.pauseStormEnd port) d ({ d.reach t with mac := { (d.reach t).mac with ignore := Tbl.erase (d.reach t).mac.ignore (d.firstPort port) } })) ∧
    (∀ (port : LanePort) (p : Nat) (d : Dev),
      p = d.firstPort port →
      d.on F.UPL_STAT_LINK_UP p = false →
      ((List.range (d.portWidth p)).all fun i => d.laneUp (128 + p + i)) →
        Answers (.linkUp port) d
          (let e := d.reach (Tbl.get 0 d.mac.broken p + d.use F.UPL_MACCFG_LINK_HOLD_MS p * 1500000)
          (((e.set F.UPL_STAT_ALIGNED 1 p).set F.UPL_STAT_LOCAL_FAULT 0 p).set F.UPL_STAT_REMOTE_FAULT 0 p).set
            F.UPL_STAT_LINK_UP 1 p)) ∧
    (∀ (port : LanePort) (k : DownCause) (sending : Bool) (d : Dev),
      d.on F.UPL_STAT_LINK_UP (d.firstPort port) →
        Answers (.linkDown port k sending) d (d.linkDown (d.firstPort port) k sending))

/-- A circuit frame in hand is taken; in head role a filed region of the subframe that is next is taken, and one
that is not there is counted as missed; in terminal role the next region of the delivered blocks is taken. (R186,
R190, R191, R194, R196, R197) -/
def Obligations.CircuitCommandsComplete : Prop :=
    (∀ (k : Nat) (l : List Byte) (r : List (Nat × List Byte)) (d : Dev),
      d.cirIn = (k, l) :: r →
        Answers (.circuitFrameRx) d ({ d with cirIn := r }.circuitFrame (l.drop (bodyAt ({ d with cirIn := r }.parCfg 0) l 12 4)))) ∧
    (∀ (i : Fin 1024) (d : Dev),
      d.termRole (i / 8) →
        Answers (.circuitRegionRx i) d (d.termRegion i)) ∧
    (∀ (i : Fin 1024) (t : Nat) (e : Nat × List Blk) (d : Dev),
      d.termRole (i / 8) = false →
      d.headRole (i / 8) →
      d.useB F.CIR_CFG_UP_EN i →
      (d.cir i).nextSub = some t →
      (((d.cir i).filed.find? fun e => e.1 == t) = some e) →
        Answers (.circuitRegionRx i) d
          (((d.setCir i { d.cir i with filed := (d.cir i).filed.filter (fun f => f.1 != t), nextSub := some (t + 1) }).rxRegion 1 i t
            ((d.setCir i { d.cir i with filed := (d.cir i).filed.filter (fun f => f.1 != t), nextSub := some (t + 1) }).sourceAt
              (i / 8) t)
            ((d.setCir i { d.cir i with filed := (d.cir i).filed.filter (fun f => f.1 != t), nextSub := some (t + 1) }).cirOwner i)
            e.2))) ∧
    (∀ (i : Fin 1024) (t : Nat) (d : Dev),
      d.headRole (i / 8) →
      d.useB F.CIR_CFG_UP_EN i →
      (d.cir i).nextSub = some t →
      (((d.cir i).filed.any fun e => e.1 == t) = false) →
        Answers (.regionMiss i) d (d.regionMiss i))

/-- Enable and disable bring a lane up from OFF and down; power-up ends in CALIBRATE and calibration in RUN or
TRAIN; lock with a high FOM runs the lane; a lane that does not train faults after 20 ms and retries after 100 ms;
loss and return of signal and lock, retraining, error injection, pattern sync and the preset port act in their
states. (R260, R261, R262, R263, R264, R265, R266, R267, R269, R270, R277, R278) -/
def Obligations.LaneCommandsComplete : Prop :=
    (∀ (n : LaneNo) (d : Dev),
      d.hostOpen →
      d.get F.SLN_STAT_STATE n = 0 →
      d.on F.SLN_CTL_ENABLE n = false →
        Answers (.laneEnable n) d (d.writeSlnCtl n (d.slnCtlWith n 1 0))) ∧
    (∀ (n : LaneNo) (d : Dev),
      d.hostOpen →
      d.on F.SLN_CTL_ENABLE n →
        Answers (.laneDisable n) d (d.writeSlnCtl n (d.slnCtlWith n 0 0))) ∧
    (∀ (n : LaneNo) (d : Dev),
      d.lanes.descending.contains n.val →
        Answers (.laneOffReached n) d ((if (d.laneDark n).useB F.SLN_CTL_ENABLE n && (d.laneDark n).mode != 4 then (d.laneDark n).laneOn n else d.laneDark n))) ∧
    (∀ (n : LaneNo) (d : Dev),
      d.get F.SLN_STAT_STATE n = 1 →
      d.lanes.descending.contains n.val = false →
        Answers (.lanePowerupDone n) d (d.laneTo n 2)) ∧
    (∀ (n : LaneNo) (d : Dev),
      d.get F.SLN_STAT_STATE n = 2 →
      d.lanes.descending.contains n.val = false →
      d.burstLane n →
        Answers (.laneCalDone n) d (((d.set F.SLN_RXSTAT_PEAK (d.use F.SLN_RXCFG_PEAK n) n).laneTo n 4).laneRuns n)) ∧
    (∀ (n : LaneNo) (d : Dev),
      d.get F.SLN_STAT_STATE n = 2 →
      d.lanes.descending.contains n.val = false →
      d.burstLane n = false →
        Answers (.laneCalDone n) d ((d.set F.SLN_RXSTAT_PEAK (d.use F.SLN_RXCFG_PEAK n) n).laneTo n 3)) ∧
    (∀ (n : LaneNo) (v : RxVals) (d : Dev),
      v.ok →
      d.get F.SLN_STAT_STATE n = 3 →
      d.on F.SLN_STAT_SIG_DET n →
      d.lanes.descending.contains n.val = false →
        Answers (.laneLock n v) d (d.laneLock n v)) ∧
    (∀ (n : LaneNo) (d : Dev),
      d.get F.SLN_STAT_STATE n = 3 →
      d.on F.SLN_STAT_SIG_DET n →
      d.lanes.descending.contains n.val = false →
        Answers (.laneFault n) d
          (((((d.reach (Tbl.get 0 d.lanes.entered n + 30000000)).laneTo n 5).set F.SLN_CTL_RETRAIN 0 n).flag
            F.SLN_STAT_FAULT n))) ∧
    (∀ (n : LaneNo) (d : Dev),
      d.get F.SLN_STAT_STATE n = 5 →
      d.lanes.descending.contains n.val = false →
        Answers (.faultRetry n) d (((d.reach (Tbl.get 0 d.lanes.entered n + 150000000)).laneTo n 3).startValues n)) ∧
    (∀ (n : LaneNo) (d : Dev),
      d.continuousRx n →
        Answers (.los n) d
          (let e := (d.set F.SLN_STAT_SIG_DET 0 n).flag F.SLN_STAT_LOS n
          if e.get F.SLN_STAT_STATE n = 4 then ((e.laneTo n 3).startValues n).laneLost n else e)) ∧
    (∀ (n : LaneNo) (d : Dev),
      d.continuousRx n →
      d.on F.SLN_STAT_SIG_DET n = false →
        Answers (.signalReturns n) d
          (let e := d.set F.SLN_STAT_SIG_DET 1 n
          if e.get F.SLN_STAT_STATE n = 3 then e.laneTo n 3 else e)) ∧
    (∀ (n : LaneNo) (d : Dev),
      d.continuousRx n →
      d.on F.SLN_STAT_CDR_LOCK n →
        Answers (.cdrLockLost n) d ((d.set F.SLN_STAT_CDR_LOCK 0 n).flag F.SLN_STAT_LOL n)) ∧
    (∀ (n : LaneNo) (ws : List RxVals) (d : Dev),
      ws.all RxVals.ok →
      d.hostOpen →
      d.laneUp n →
      d.burstLane n = false →
        Answers (.retrain n true ws) d (d.writeSlnCtl n (d.slnCtlWith n (d.get F.SLN_CTL_ENABLE n) 1))) ∧
    (∀ (n : LaneNo) (ws : List RxVals) (e : Dev) (l : List Nat) (d : Dev),
      ws.all RxVals.ok →
      d.continuousRx n →
      e = ws.foldl (Dev.rxWindow n) d →
      l = (Tbl.get [] e.lanes.foms n).take (e.use F.SLN_RXCFG_RETRAIN_WIN n) →
        Answers (.retrain n false ws) d (if l.length = e.use F.SLN_RXCFG_RETRAIN_WIN n ∧ l.all (fun f => decide (f < e.use F.SLN_RXCFG_FOM_RETRAIN n)) = true then e.retrain n else e)) ∧
    (∀ (n : LaneNo) (d : Dev),
      d.hostOpen →
      d.mode = 5 →
      d.get F.SLN_PATCFG_INJ_MODE n = 1 →
        Answers (.injOne n) d (((d.set F.SLN_PATCFG_INJ_ONE 1 n).injectPending n))) ∧
    (∀ (n : LaneNo) (d : Dev),
      d.mode = 5 →
      d.get F.SLN_PATCFG_INJ_MODE n = 2 →
        Answers (.rateInjection n) d ((d.reach (Tbl.get d.clk.cyc d.lanes.rateAt n + laneCycles n (2 ^ d.use F.SLN_PATCFG_INJ_RATE n))).inject n)) ∧
    (∀ (n : LaneNo) (d : Dev),
      d.checking n →
      d.on F.SLN_STAT_PAT_SYNC n = false →
        Answers (.patSyncSet n) d ({ d with lanes := { d.lanes with patAt := Tbl.set d.lanes.patAt n d.clk.cyc } }.set F.SLN_STAT_PAT_SYNC 1 n)) ∧
    (∀ (n : LaneNo) (nbits errs : Fin (2 ^ 40)) (d : Dev),
      d.checking n →
      d.on F.SLN_STAT_PAT_SYNC n →
        Answers (.patSyncCleared n nbits errs) d
          (let e := d.set F.SLN_PATERR_ERRORS (d.get F.SLN_PATERR_ERRORS n + errs) n
          (e.set F.SLN_PATBITS_BITS (e.get F.SLN_PATBITS_BITS n + nbits) n).set F.SLN_STAT_PAT_SYNC 0 n)) ∧
    (∀ (index : Gidx) (dflt : Bool) (e : Dev) (k i : Nat) (d : Dev),
      d.hostOpen →
      d.on F.SLN_PRE_CTL_BUSY = false →
      e = (((d.set F.SLN_PRE_CTL_INDEX index).set F.SLN_PRE_CTL_DEFAULT (b2n dflt)).set F.SLN_PRE_CTL_OP 0) →
      (k = if dflt then index.val % 128 else index.val / 128) →
      (i = if dflt then 16384 + k else index.val) →
      e.termRole k = false →
        Answers (.presetRead index dflt) d
          (let f := e.showData F.SLN_PRE_DATA_DATA 2 (e.preset i).value
          (f.set F.SLN_PRE_CTL_STATE (f.preset i).state).set F.SLN_PRE_CTL_AGE (f.presetAge i))) ∧
    (∀ (index : Gidx) (dflt : Bool) (e : Dev) (k i : Nat) (d : Dev),
      d.hostOpen →
      d.on F.SLN_PRE_CTL_BUSY = false →
      e = (((d.set F.SLN_PRE_CTL_INDEX index).set F.SLN_PRE_CTL_DEFAULT (b2n dflt)).set F.SLN_PRE_CTL_OP 1) →
      (k = if dflt then index.val % 128 else index.val / 128) →
      (i = if dflt then 16384 + k else index.val) →
      e.termRole k = false →
      presetOk (e.readData F.SLN_PRE_DATA_DATA 2) →
        Answers (.presetWrite index dflt) d ((e.setPreset i { value := e.readData F.SLN_PRE_DATA_DATA 2, state := 1, since := e.frameNow }).overBurst i)) ∧
    (∀ (index : Gidx) (dflt : Bool) (e : Dev) (k i : Nat) (d : Dev),
      d.hostOpen →
      d.on F.SLN_PRE_CTL_BUSY = false →
      e = (((d.set F.SLN_PRE_CTL_INDEX index).set F.SLN_PRE_CTL_DEFAULT (b2n dflt)).set F.SLN_PRE_CTL_OP 2) →
      (k = if dflt then index.val % 128 else index.val / 128) →
      (i = if dflt then 16384 + k else index.val) →
      e.termRole k = false →
      dflt = false →
        Answers (.presetErase index dflt) d ((e.setPreset i { value := 0, state := 0, since := e.frameNow }).overBurst i))

/-- The key port that is not busy shows a slot, imports a wrapped key into a slot that is not erasing, and starts an
erase; an erasing slot that nothing holds becomes EMPTY; the running job completes, and gives way to a more urgent
one. (R411, R412, R414, R416, R427, R428, R430, R431) -/
def Obligations.CipherCommandsComplete : Prop :=
    (∀ (index : Fin (2 ^ 17)) (d : Dev),
      d.hostOpen →
      d.on F.CRY_KEY_CTL_BUSY = false →
      index.val ≤ 98367 →
        Answers (.keyStatusRead index) d (((d.set F.CRY_KEY_CTL_INDEX index).set F.CRY_KEY_CTL_OP 0).showSlot index)) ∧
    (∀ (index : Fin (2 ^ 17)) (d : Dev),
      d.hostOpen →
      d.on F.CRY_KEY_CTL_BUSY = false →
      index.val ≤ 98367 →
        Answers (.keyPortImport index) d
          (let e := (d.set F.CRY_KEY_CTL_INDEX index).set F.CRY_KEY_CTL_OP 1
          let r := e.importSlot index e.keyData
          if r.2 = .ok then r.1 else r.1.keyRefuse)) ∧
    (∀ (index : Fin (2 ^ 17)) (e : Dev) (d : Dev),
      d.hostOpen →
      d.on F.CRY_KEY_CTL_BUSY = false →
      index.val ≤ 98367 →
      ((d.set F.CRY_KEY_CTL_INDEX index).set F.CRY_KEY_CTL_OP 2).eraseSlot index = some e →
        Answers (.keyPortErase index) d (e)) ∧
    (∀ (index : Fin (2 ^ 17)) (d : Dev),
      (d.slot index).state = 2 →
      d.slotHeld index = false →
        Answers (.keyZeroize index) d (d.setSlot index emptySlot)) ∧
    (∀ (q : Nat) (j : Job) (r : List Job) (d : Dev),
      d.cry.running = some q →
      d.jobs q = j :: r →
        Answers (.jobComplete) d
          (let a := d.jobAdvance j j.length
          match a.2 with
          | none => (a.1.jobEnd q j 5).startJobs
          | some k => ((a.1.setJobs q (k :: r)).jobEnd q k 0).startJobs)) ∧
    (∀ (blocks : Fin (2 ^ 24)) (q u : Nat) (j : Job) (r : List Job) (d : Dev),
      d.cry.running = some q →
      d.urgent = some u →
      d.jobs q = j :: r →
      q < u →
      j.done + blocks * jobUnit j.mode < j.length →
      d.on F.CRY_CFG_JOB_EN →
        Answers (.jobPreempt blocks) d
          (let a := d.jobAdvance j blocks
          match a.2 with
          | none => (a.1.jobEnd q j 5).startJobs
          | some k =>
            let e := a.1.setJobs q (k :: r)
            let e := { e with cry := { e.cry with running := none } }.bump F.CRY_GCNT_COUNT 9
            (e.showJob q).startJobs))

/-- A sample reaches the servo where there is a source; losing the source in ACQUIRING or LOCKED begins HOLDOVER;
the clock steps at once or at the next pulse; PTP messages of the port roles are taken and sent; triggers assert and
end; the pulse output and the capture FIFOs act; a read of TIM_NOW latches. (R435, R436, R437, R438, R440, R442,
R443, R446, R449, R450, R452, R453) -/
def Obligations.TimeCommandsComplete : Prop :=
    (∀ (f p : Int) (d : Dev),
      d.tim.sample = some p →
      d.hasSource →
        Answers (.servoSample f) d ({ d with tim := { d.tim with sample := none, heardAt := d.clk.cyc } }.servo p f)) ∧
    (∀ (d : Dev),
      (d.get F.TIM_STAT_STATE = 1 ∨ d.get F.TIM_STAT_STATE = 2) →
        Answers (.sourceLoss) d ((d.reach (d.tim.heardAt + 3 * d.sampleCycles)).holdover)) ∧
    (∀ (ns : Fin (2 ^ 30)) (atPps : Bool) (d : Dev),
      d.hostOpen →
        Answers (.clockStep ns atPps) d ((((d.set F.TIM_SET_NS_NS ns).set F.TIM_SET_NS_AT_PPS (b2n atPps)).goStep))) ∧
    (∀ (d : Dev),
      d.on F.TIM_SET_NS_GO →
      d.on F.TIM_SET_NS_AT_PPS →
        Answers (.ppsInEdge) d (((d.step (d.get F.TIM_SET_SEC_SEC * 1000000000 * 65536)).set F.TIM_SET_NS_GO 0))) ∧
    (∀ (x : Int) (d : Dev),
      (d.on F.TIM_SET_NS_GO && d.on F.TIM_SET_NS_AT_PPS) = false →
      d.use F.TIM_CFG_SRC = 2 →
      d.mode ≠ 3 →
      x = d.clk.ns * 65536 + d.clk.frac / 65536 →
        Answers (.ppsInEdge) d ({ d with tim := { d.tim with sample := some (if x ≤ 500000000 * 65536 then x else x - 1000000000 * 65536) } })) ∧
    (∀ (m : PtpIn) (d : Dev),
      m.ok →
      d.on F.UPL_STAT_LINK_UP m.port →
      d.useB F.UPL_MACCFG_RX_EN m.port →
      d.mode ≠ 4 →
      d.mode ≠ 5 →
      m.domain.val = d.use F.TIM_PTPCFG_DOMAIN →
      m.transport.val = d.use F.TIM_PTPCFG_TRANSPORT →
      d.ptpSlave m.port →
      m.kind.val = 0 →
        Answers (.ptpMessageRx m) d
          (let sl := { d.tim.slave with
            syncSeq := m.seq.val, t2 := d.now16, corr1 := m.corr, t1 := if m.twoStep then none else some m.time }
          { d with tim := { d.tim with slave := sl } }.bump F.TIM_CNT_COUNT 6)) ∧
    (∀ (m : PtpIn) (d : Dev),
      m.ok →
      d.on F.UPL_STAT_LINK_UP m.port →
      d.useB F.UPL_MACCFG_RX_EN m.port →
      d.mode ≠ 4 →
      d.mode ≠ 5 →
      m.domain.val = d.use F.TIM_PTPCFG_DOMAIN →
      m.transport.val = d.use F.TIM_PTPCFG_TRANSPORT →
      d.ptpSlave m.port →
      m.kind.val = 11 →
        Answers (.ptpMessageRx m) d (({ d with tim := { d.tim with gm := m.body } }.bump F.TIM_CNT_COUNT 6))) ∧
    (∀ (port : LanePort) (kind : Fin 16) (e : Dev) (d : Dev),
      d.ptpLeaves port →
      e = d.ptpDue (port.val * 16 + kind.val) →
      e.ptpLeaves port →
      e.ptpMaster port →
      kind.val = 0 →
        Answers (.ptpMessageTx port kind) d
          (let key := port.val * 16 + kind.val
          let seq := Tbl.get 0 d.tim.seqs key
          { e with tim := { e.tim with
            seqs := Tbl.set e.tim.seqs key ((seq + 1) % 65536), sentAt := Tbl.set e.tim.sentAt key e.clk.cyc } }.ptpSend
            { port := port, kind := 0, seq := seq, origin := e.now16, corr := 0, body := [] })) ∧
    (∀ (k : Fin 16) (d : Dev),
      d.useB F.TIM_TRIG_CTL_ENABLE k →
      d.mode ≠ 4 →
      d.use F.TIM_TRIG_CTL_MODE k = 1 →
      (d.trig k).spent = false →
      d.nowNs ≤ d.trigStart k →
        Answers (.triggerFire k) d (((d.runTo (d.trigStart k)).assertTrig k { d.trig k with spent := true } (d.trigStart k * 8)))) ∧
    (∀ (k : Fin 16) (per from_ at_ : Nat) (d : Dev),
      d.useB F.TIM_TRIG_CTL_ENABLE k →
      d.mode ≠ 4 →
      d.use F.TIM_TRIG_CTL_MODE k = 2 →
      per = max 1 (d.use F.TIM_TRIG_TIME_PERIOD k) →
      from_ = max d.nowNs (d.trig k).after →
      (at_ = if from_ ≤ d.trigStart k then d.trigStart k else d.trigStart k + cdiv (from_ - d.trigStart k) per * per) →
        Answers (.triggerFire k) d (((d.runTo at_).assertTrig k { d.trig k with after := at_ + 1 } (at_ * 8)))) ∧
    (∀ (k : Fin 16) (a : Int) (r : List Int) (d : Dev),
      d.useB F.TIM_TRIG_CTL_ENABLE k →
      d.mode ≠ 4 →
      d.use F.TIM_TRIG_CTL_MODE k = 3 →
      (d.trig k).plan = a :: r →
        Answers (.triggerFire k) d (((d.runTo (a.toNat / 8)).assertTrig k { d.trig k with plan := r } a.toNat))) ∧
    (∀ (k : Fin 16) (e : Nat) (r : List Nat) (d : Dev),
      (d.trig k).pulses = e :: r →
      r ≠ [] →
        Answers (.triggerEnd k) d (((d.runTo (cdiv e 8)).setTrig k { d.trig k with pulses := r }))) ∧
    (∀ (d : Dev),
      d.useB F.TIM_CFG_PPS_OUT_EN →
      d.mode ≠ 4 →
        Answers (.ppsOutPulse) d
          (let e := d.runTo (if d.clk.ns = 0 then d.nowNs else (d.clk.sec + 1) * 1000000000)
          { e with tim := { e.tim with ppsUntil := e.nowNs + e.use F.TIM_CFG_PPS_WIDTH_MS * 1000000 } })) ∧
    (∀ (k : Fin 4) (rising : Bool) (d : Dev),
      d.mode ≠ 4 →
      bit (d.use F.TIM_CAPCTL_EDGE k) (if rising then 0 else 1) →
      Tbl.find? d.tim.capLast k = none →
      (Tbl.get [] d.tim.caps k).length < 16 →
        Answers (.capEdge k rising) d
          (let f := Tbl.get [] d.tim.caps k ++ [{ sec := d.clk.sec, ns := d.clk.ns, frac := d.clk.frac / 2 ^ 29 * 8192 }]
          { d with tim := { d.tim with
            caps := Tbl.set d.tim.caps k f, capLast := Tbl.set d.tim.capLast k d.clk.cyc } }.set F.TIM_CAPSTAT_DEPTH f.length k)) ∧
    (∀ (k : Fin 4) (d : Dev),
      d.boot.resetHeld = false →
      d.mode ≠ 4 →
        Answers (.capturePop k) d (((d.capPop k).readOut ((d.capPop k).getReg RegOf.TIM_CAPNS k 0)))) ∧
    (∀ (d : Dev),
      d.boot.resetHeld = false →
      d.mode ≠ 4 →
        Answers (.nowRead) d ((d.nowRead.readOut (d.nowRead.getReg RegOf.TIM_NOW_NS 0 0))))

/-- With the stitch link up: HELLO of the right partner is taken; a standby takes RENEW, RELEASE, DELTA, BULK,
COMMIT, LEARN, KEY, CONFIG, maps and time answers; an active device takes ACK, RESIGN, RESYNC_REQ and time requests.
(R463, R464, R465, R467, R468, R469, R470, R471, R472, R473, R474, R475) -/
def Obligations.StitchMessagesComplete : Prop :=
    (∀ (h : HelloIn) (d : Dev),
      d.paired →
      d.booted →
      d.get F.STL_STAT_LINK ≠ 0 →
      d.pairs h →
        Answers (.hello h) d ((d.takeHello h).handBack)) ∧
    (∀ (h : HelloIn) (d : Dev),
      d.paired →
      d.booted →
      d.get F.STL_STAT_LINK ≠ 0 →
      d.pairs h = false →
        Answers (.hello h) d (({ d with stl := { d.stl with mismatch := true } }.linkGone.stlAlarm F.STL_STAT_MISMATCH))) ∧
    (∀ (f : Fin (2 ^ 48)) (epoch : Fin 65536) (fl : StFlags) (d : Dev),
      d.standby →
      d.stitchUp →
      d.arb.trans = none →
        Answers (.renew f epoch fl) d
          (let stl := { d.stl with
            promise := max d.stl.promise (f + 4), heard := some d.frameNow, partnerMode := some 0, partnerEpoch := epoch.val }
          (({ d with stl := stl }.partnerFlags fl).showLease.stSend 0x03 (toBE f 6)).stlCount 1)) ∧
    (∀ (f : Fin (2 ^ 48)) (fl : StFlags) (d : Dev),
      d.active →
      d.stitchUp →
      d.arb.releaseAt = none →
      f.val ≤ d.frameNow →
        Answers (.stitchAck f fl) d ((d.takeAck f fl).handBack)) ∧
    (∀ (p : Fin (2 ^ 48)) (d : Dev),
      d.standby →
      d.stitchUp →
      d.arb.trans = none →
      d.shutdownAsked = false →
      d.on F.STL_STAT_SYNCED →
        Answers (.release p) d ((((d.dropAsked.applyCopy.takeOver 2 1 (p + 2)).stlCount 10).endForwarded 0))) ∧
    (∀ (cause : Fin 256) (d : Dev),
      d.active →
      d.stitchUp →
      d.arb.releaseAt = none →
        Answers (.resign cause) d
          (let stl := { d.stl with partnerMode := none, waiting := false, alone := none, bulkBy := none }
          let e : Dev := if d.stl.waiting then { d with arb := { d.arb with squelch := false } } else d
          ((({ e with stl := stl }.set F.STL_STAT_LEASE 0).set F.STL_STAT_PARTNER_READY 0).toRole 2).showLease)) ∧
    (∀ (f : Fin (2 ^ 48)) (recs : List CopyRec) (d : Dev),
      recs.all CopyRec.ok →
      d.standby →
      d.stitchUp →
        Answers (.delta f recs) d ({ d with stl := { d.stl with recs := d.stl.recs ++ recs.map fun r => (false, r) } })) ∧
    (∀ (recs : List CopyRec) (last : Bool) (d : Dev),
      recs.all CopyRec.ok →
      d.standby →
      d.stitchUp →
        Answers (.bulk recs last) d
          (let e := d.takeRecs true recs
          if last ∧ e.stl.copy = 1 then { e with stl := { e.stl with copy := 2 } } else e)) ∧
    (∀ (f : Fin (2 ^ 48)) (count crc : Fin (2 ^ 32)) (d : Dev),
      d.standby →
      d.stitchUp →
        Answers (.commit f count crc) d (d.takeCommit count crc)) ∧
    (∀ (us : List LearnIn) (d : Dev),
      d.standby →
      d.stitchUp →
        Answers (.stitchLearn us) d ((us.foldl (fun e u => e.applyUpdate { pair := u.pair, dest := u.dest, removed := u.removed }) d))) ∧
    (∀ (slot : Fin (2 ^ 32)) (wrapped : List Byte) (d : Dev),
      wrapped.length = 40 →
      d.standby →
      d.stitchUp →
      slot.val < 98304 →
        Answers (.stitchKey slot wrapped) d
          ((match d.cry.pairKey.bind fun k => unwrap k wrapped with
          | some k => d.loadSlot slot k
          | none => (d.setSlot slot emptySlot).flag F.CRY_STAT_UNWRAP))) ∧
    (∀ (a : Fin (2 ^ 64)) (data : List Byte) (d : Dev),
      data.length ≤ 192 →
      data.length % 8 = 0 →
      d.standby →
      d.stitchUp →
        Answers (.stitchConfig a data) d (Dev.writeWords a (data.length / 8) data d)) ∧
    (∀ (ch : Ch) (target : Fin 65536) (entries : List (Fin (2 ^ 64))) (d : Dev),
      entries.length < 65536 →
      d.standby →
      d.stitchUp →
      d.enabled ch →
        Answers (.stitchMap ch target entries) d (d.takeMap ch target (entries.map fun e => e.val))) ∧
    (∀ (t1 : Stamp) (d : Dev),
      d.active →
      d.stitchUp →
        Answers (.timeReq t1) d ((d.stSend 0x0D (stampBytes t1.sec t1.ns t1.frac ++ d.stampNow ++ d.stampNow)))) ∧
    (∀ (t1 t2 t3 : Stamp) (d : Dev),
      d.standby →
      d.stitchUp →
        Answers (.timeResp t1 t2 t3) d
          (let corr : Int := if d.useS F.TIM_LIMITS_STITCH_ASYM_PS = 0 then 0
            else Config.stitchAsym (d.useS F.TIM_LIMITS_STITCH_ASYM_PS)
          let p := ((Stamp.time t2 - Stamp.time t1) - ((d.now16 : Int) - Stamp.time t3)) / 2 + corr
          { d with tim := { d.tim with sample := some (-p) } })) ∧
    (∀ (d : Dev),
      d.active →
      d.stitchUp →
        Answers (.resyncReq) d ({ d with stl := { d.stl with bulkBy := some (d.frameNow + 32) } }))

/-- A lost message sets MSGLOST and has its consequence; a change of the stitch lanes is taken and the first link
sends HELLO; a synchronized standby takes over on loss; a channel turns suspect; an unsynchronized former active
revives; an active device whose wait for the link ends is alone. (R466, R475, R476, R477, R478, R480, R482, R483,
R484, R485) -/
def Obligations.RedundancyEventsComplete : Prop :=
    (∀ (type : Fin 256) (d : Dev),
      d.paired →
      d.booted →
      d.get F.STL_STAT_LINK ≠ 0 →
        Answers (.msgLost type false) d
          (let e := d.flag F.STL_STAT_MSGLOST
          if e.standby ∧ (type.val = 0x06 ∨ type.val = 0x07 ∨ type.val = 0x0A ∨ type.val = 0x0B) then e.unsync else e)) ∧
    (∀ (type : Fin 256) (d : Dev),
      d.paired →
      d.booted →
      d.get F.STL_STAT_LINK ≠ 0 →
      type.val ≠ 1 →
      type.val ≠ 4 →
      type.val ≠ 5 →
        Answers (.msgLost type true) d (((d.flag F.STL_STAT_MSGLOST).stlCount 9))) ∧
    (∀ (hdrs : List (Fin 8 × List (Fin 4))) (d : Dev),
      d.paired →
      d.booted →
      d.mode ≠ 4 →
      d.get F.STL_STAT_LINK = 0 →
      ((hdrs.foldl Dev.stHeaders d).stitchLanes (hdrs.foldl Dev.stHeaders d).stMask).get F.STL_STAT_LINK ≠ 0 →
        Answers (.stitchLinkChange hdrs) d ({ ((hdrs.foldl Dev.stHeaders d).stitchLanes (hdrs.foldl Dev.stHeaders d).stMask) with stl := { ((hdrs.foldl Dev.stHeaders d).stitchLanes (hdrs.foldl Dev.stHeaders d).stMask).stl with mismatch := false } }.sendHello)) ∧
    (∀ (hdrs : List (Fin 8 × List (Fin 4))) (d : Dev),
      d.paired →
      d.booted →
      d.mode ≠ 4 →
      d.get F.STL_STAT_LINK ≠ 0 →
      ((hdrs.foldl Dev.stHeaders d).stitchLanes (hdrs.foldl Dev.stHeaders d).stMask).get F.STL_STAT_LINK = 0 →
        Answers (.stitchLinkChange hdrs) d (((hdrs.foldl Dev.stHeaders d).stitchLanes (hdrs.foldl Dev.stHeaders d).stMask).linkGone)) ∧
    (∀ (f : Nat) (d : Dev),
      d.standby →
      d.on F.STL_STAT_SYNCED →
      d.arb.trans = none →
      d.shutdownAsked = false →
      d.lossAt = some f →
        Answers (.lossTakeover) d
          (let e := (d.dropAsked.runTo (f * 125000)).stlAlarm F.STL_STAT_LOSS
          let start := max (e.stl.promise + 2) (e.frameNow + 3)
          ((((e.runTo (start * 125000)).applyCopy.takeOver 4 2 start).stlCount 10).endForwarded 0x01).startTx)) ∧
    (∀ (c : Ch) (d : Dev),
      d.paired →
      d.booted →
      d.enabled c →
      d.on F.STL_CHSTAT_TX_SUSPECT c = false →
      d.opticsFault c →
        Answers (.txSuspect c true) d ((d.suspect c).handBack)) ∧
    (∀ (c : Ch) (f : Nat) (d : Dev),
      d.paired →
      d.booted →
      d.enabled c →
      d.on F.STL_CHSTAT_TX_SUSPECT c = false →
      d.silentAt c = some f →
        Answers (.txSuspect c false) d (((d.runTo (f * 125000)).suspect c).handBack)) ∧
    (∀ (d : Dev),
      d.standby →
      d.on F.STL_STAT_SYNCED = false →
      d.stitchUp = false →
      d.stl.wasActive →
      d.useB F.STL_CFG_REVIVE_EN →
      d.arb.trans = none →
      d.shutdownAsked = false →
        Answers (.revival) d
          (let e := d.dropAsked.runTo ((max d.stl.lease d.stl.promise + 2 + d.use F.STL_CFG_SILENCE_FRAMES) * 125000)
          let start := e.frameNow + 3
          (((e.runTo (start * 125000)).takeOver 4 2 start).stlCount 12).startTx)) ∧
    (∀ (d : Dev),
      d.active →
      d.stl.waiting →
      d.stitchUp = false →
        Answers (.linkWaitExpired) d
          (let e := d.reach (d.stl.waitFrom + d.use F.STL_CFG_LINK_WAIT_MS * 1500000)
          { e with stl := { e.stl with alone := some e.frameNow } }))

/-- A routine that a write of its patch meets is abandoned and restarts, protected after four; a routine that runs
too long is dropped and flagged; a patch word that fails parity is reloaded; a halted Scribe restarts; a trace
configuration with a legal target is stored; a legal read of the port shows its record. (R495, R497, R498, R504,
R505, R507, R508, R511, R513, R514) -/
def Obligations.MicrocodeCommandsComplete : Prop :=
    (∀ (c : Ch) (x : Nat × Nat × Nat × Nat × Option Nat) (d : Dev),
      d.runningOf c = some x →
      d.scribeUp c →
      d.on F.SCR_STAT_PROTECT c = false →
      d.compat c x.2.1 = false →
        Answers (.routineRestart c) d (d.routineRestart c)) ∧
    (∀ (c : Ch) (d : Dev),
      d.scribeUp c →
        Answers (.watchdog c) d (((d.runCycles 65536).flag F.SCR_STAT_WDOG c).dropRunning c)) ∧
    (∀ (c : Ch) (addr : Fin 32768) (d : Dev),
      d.scribeUp c →
        Answers (.patchReloadDone c addr) d (d.patchReload c addr)) ∧
    (∀ (c : Ch) (d : Dev),
      d.hostOpen →
      d.get F.SCR_STAT_STATE c = 3 →
        Answers (.scribeRestart c) d
          (let s := d.scribe c
          let l := s.todo.filter fun e => match e.2 with
            | .host .. => true
            | _ => false
          let e := s.inbox.foldl (fun e _ => e.inboxPop c) d
          let e := e.setScribe c { e.scribe c with todo := l }
          ((e.set F.SCR_STAT_STATE 0 c).bump F.SCR_CNT_COUNT c 9).showHalt)) ∧
    (∀ (v : Fin (2 ^ 64)) (d : Dev),
      d.hostOpen →
      written F.SCR_TRCCFG_TARGET v ≤ 128 →
        Answers (.traceConfig v) d
          (let e := d.store RegOf.SCR_TRCCFG 0 0 v
          ({ e with micro := { trace := [], running := false, ended := false } }.set F.SCR_TRCCFG_COUNT 0).set F.SCR_TRCCFG_WRAPPED 0)) ∧
    (∀ (index : Fin 65536) (d : Dev),
      d.hostOpen →
      d.on F.SCR_IND_CTL_BUSY = false →
        Answers (.scrIndRead index 0) d
          (let e := (d.set F.SCR_IND_CTL_INDEX index).set F.SCR_IND_CTL_TABLE 0
          e.showData F.SCR_IND_DATA_DATA 2 (Tbl.get 0 (e.scribe (index / 512)).patches (index % 512))))

/-- Outside reset Quill samples its channels every 32 µs and polls its modules, runs its rules unless patch words
end the pass before, restarts on a parity error and loses its patches on a second within a second; two hot samples
trip an armed part; its port reads and writes records. (R505, R515, R516, R517, R518, R519, R521, R522, R533) -/
def Obligations.QuillCommandsComplete : Prop :=
    (∀ (x : QuillIn) (d : Dev),
      x.ok →
      d.boot.resetHeld = false →
      ((d.reach d.sampleAt).tripSample x.dies).quillRuns →
        Answers (.quillSample x) d ((((d.reach d.sampleAt).tripSample x.dies).sampleLoop x))) ∧
    (∀ (x : QuillIn) (e r z : Dev) (d : Dev),
      x.ok →
      d.boot.resetHeld = false →
      e = (d.reach d.sampleAt).tripSample x.dies →
      e.quillRuns →
      (e.quillPatch 0x010).2 →
      r = ((((((e.quillPatch 0x010).1.takeSamples 0 x.dies).takeSamples 24 x.supplies).takeSamples 32 x.hbm).takeAdc x.adc).vigilSeconds).1 →
      z = r.takeSample 52 ((((((e.quillPatch 0x010).1.takeSamples 0 x.dies).takeSamples 24 x.supplies).takeSamples 32 x.hbm).takeAdc x.adc).vigilSeconds).2 →
      (z.quillPatch 0x200).2 →
        Answers (.quillSample x) d ((z.quillPatch 0x200).1.showSeq 1)) ∧
    (∀ (m : Fin 128) (o : OptIn) (d : Dev),
      d.quillRuns →
      d.pollDue m →
        Answers (.opticsPoll m (some o)) d
          (let k := 64 + 4 * m.val
          ((((d.pollStart m).takeSample k (sgn 16 o.temp.val)).takeSample (k + 1) (sgn 16 o.supply.val)).takeSample (k + 2)
            (sgn 16 o.rx.val)).takeSample (k + 3) ((o.flags.val : Nat) : Int))) ∧
    (∀ (m : Fin 128) (d : Dev),
      d.quillRuns →
      d.pollDue m →
        Answers (.opticsPoll m none) d ((foldUpTo 4 (fun v e => e.failSample (64 + 4 * m.val + v)) ((d.pollStart m).bump F.QUL_CNT_COUNT 4)))) ∧
    (∀ (e : Dev) (d : Dev),
      d.quillRuns →
      (d.bump F.QUL_CNT_COUNT 0).quillPatch 0x400 = (e, true) →
        Answers (.quillPass) d ((((List.range 64).foldl Pass.rule { d := e, off := [], on := [] }).finish.showSeq 2))) ∧
    (∀ (e : Dev) (d : Dev),
      d.quillRuns →
      (d.bump F.QUL_CNT_COUNT 0).quillPatch 0x400 = (e, false) →
        Answers (.quillPass) d (e)) ∧
    (∀ (d : Dev),
      d.quillRuns →
        Answers (.quillParityRestart) d
          (let again := d.quill.parityAt.any fun t => decide (d.clk.cyc ≤ t + 1500000000)
          let e : Dev := { d with quill := { d.quill with parityAt := some d.clk.cyc, stack := [] } }
          let e := ((e.set F.QUL_STAT_SEQ 0).set F.QUL_STAT_PC 0).set F.QUL_STAT_PC_PATCH 0
          if again then e.set F.QUL_STAT_PATCH_OFF 1 else (e.quillPatch 0).1)) ∧
    (∀ (d : Dev),
      d.quill.hotTwice →
      d.quill.armed →
      d.boot.resetHeld = false →
        Answers (.thermalTrip) d
          (((({ d with quill := { d.quill with armed := false, cool := 0 } }.flag F.QUL_STAT_TRIP).alert 3).alertActive 3
            true).askTrig .trip)) ∧
    (∀ (index : Fin 1024) (table : Fin 4) (d : Dev),
      d.hostOpen →
      d.on F.QUL_IND_CTL_BUSY = false →
      qulBeyond table index = false →
        Answers (.qulIndRead index table) d
          (let e := ((d.set F.QUL_IND_CTL_INDEX index).set F.QUL_IND_CTL_TABLE table).set F.QUL_IND_CTL_WRITE 0
          let r := e.qulRec table index
          r.1.showData F.QUL_IND_DATA_DATA 4 r.2)) ∧
    (∀ (index : Fin 1024) (table : Fin 4) (d : Dev),
      d.hostOpen →
      d.on F.QUL_IND_CTL_BUSY = false →
      table.val % 2 = 0 →
        Answers (.qulIndWrite index table) d
          (let e := ((d.set F.QUL_IND_CTL_INDEX index).set F.QUL_IND_CTL_TABLE table).set F.QUL_IND_CTL_WRITE 1
          let r := e.readData F.QUL_IND_DATA_DATA 2
          if qulBeyond table index ∨ (table.val = 2 ∧ ruleOk r = false) then e.qulRefuse
          else if table.val = 0 then e.putFilter index r
          else e.putRule index r))

/-- An entry at the head of an enabled ring with room, readable, not fenced and well formed, is taken by its
command: SQ_HEAD moves, the command has its effect, and unknown entries behind it complete. Doorbells within the
ring are stored, a refused one is flagged, a stop clears ENABLE, a waiting completion is written. (R559, R560, R561,
R562, R563, R564, R565, R566, R567, R578) -/
def Obligations.RingCommandsComplete : Prop :=
    (∀ (ring : RingNo) (d : Dev),
      d.offers ring 0x0001 false 0 →
        Answers (.nop ring) d (d.taken ring 0x0001 fun t e => e.endCmd ring t.tag 0x0001 0)) ∧
    (∀ (ring : RingNo) (d : Dev),
      d.offers ring 0x0010 false 8 →
        Answers (.admitEntry ring) d (d.taken ring 0x0010 fun t e => e.admitEntry ring t.tag (le t.args 0 8))) ∧
    (∀ (ring : RingNo) (d : Dev),
      d.offers ring 0x0011 true 0 →
        Answers (.disable ring) d (d.taken ring 0x0011 fun t e => 
        if 16384 ≤ t.target then e.endCmd ring t.tag 0x0011 0x03
        else if 2 < e.mode ∨ e.termRole (t.target / 128) then e.endCmd ring t.tag 0x0011 0x01
        else (e.keepRunning ring t).addTodo (t.target / 128) (t.target % 128) (.host ring 0x0011 t.tag t.args))) ∧
    (∀ (ring : RingNo) (d : Dev),
      d.offers ring 0x0012 true 0 →
        Answers (.enable ring) d (d.taken ring 0x0012 fun t e => 
        if 16384 ≤ t.target then e.endCmd ring t.tag 0x0012 0x03
        else if 2 < e.mode ∨ e.termRole (t.target / 128) then e.endCmd ring t.tag 0x0012 0x01
        else (e.keepRunning ring t).addTodo (t.target / 128) (t.target % 128) (.host ring 0x0012 t.tag t.args))) ∧
    (∀ (ring : RingNo) (d : Dev),
      d.offers ring 0x0013 true 0 →
        Answers (.deactivate ring) d (d.taken ring 0x0013 fun t e => 
        if 16384 ≤ t.target then e.endCmd ring t.tag 0x0013 0x03
        else if 2 < e.mode ∨ e.termRole (t.target / 128) then e.endCmd ring t.tag 0x0013 0x01
        else (e.keepRunning ring t).addTodo (t.target / 128) (t.target % 128) (.host ring 0x0013 t.tag t.args))) ∧
    (∀ (ring : RingNo) (d : Dev),
      d.offers ring 0x0014 true 0 →
        Answers (.moveSide ring) d (d.taken ring 0x0014 fun t e => 
        if 16384 ≤ t.target then e.endCmd ring t.tag 0x0014 0x03
        else if 2 < e.mode ∨ e.termRole (t.target / 128) then e.endCmd ring t.tag 0x0014 0x01
        else (e.keepRunning ring t).addTodo (t.target / 128) (t.target % 128) (.host ring 0x0014 t.tag t.args))) ∧
    (∀ (ring : RingNo) (d : Dev),
      d.offers ring 0x0015 true 0 →
        Answers (.rerange ring) d (d.taken ring 0x0015 fun t e => 
        if 16384 ≤ t.target then e.endCmd ring t.tag 0x0015 0x03
        else if 2 < e.mode ∨ e.termRole (t.target / 128) then e.endCmd ring t.tag 0x0015 0x01
        else (e.keepRunning ring t).addTodo (t.target / 128) (t.target % 128) (.host ring 0x0015 t.tag t.args))) ∧
    (∀ (ring : RingNo) (d : Dev),
      d.offers ring 0x0016 true 6 →
        Answers (.dozeAllow ring) d (d.taken ring 0x0016 fun t e => 
        if 16384 ≤ t.target then e.endCmd ring t.tag 0x0016 0x03
        else if 2 < e.mode ∨ e.termRole (t.target / 128) then e.endCmd ring t.tag 0x0016 0x01
        else (e.keepRunning ring t).addTodo (t.target / 128) (t.target % 128) (.host ring 0x0016 t.tag t.args))) ∧
    (∀ (ring : RingNo) (d : Dev),
      d.offers ring 0x0017 false 8 →
        Answers (.recallClear ring) d (d.taken ring 0x0017 fun t e => 
        match e.findWhite (le t.args 0 8) with
        | none => e.endCmd ring t.tag 0x0017 0x01
        | some w =>
          let f := e.setWhite w { e.white w with flagged := false }
          let f := match f.findSerial (le t.args 0 8) with
            | some g => f.setTerm g (f.term g)
            | none => f
          f.endCmd ring t.tag 0x0017 0)) ∧
    (∀ (ring : RingNo) (d : Dev),
      d.offers ring 0x0020 false 24 →
        Answers (.tableWrite ring) d (d.taken ring 0x0020 fun t e => e.tableWrite ring t.tag t.args)) ∧
    (∀ (ring : RingNo) (d : Dev),
      d.offers ring 0x0030 true 40 →
        Answers (.keyImport ring) d (d.taken ring 0x0030 fun t e => 
        if 98367 < t.target then e.endCmd ring t.tag 0x0030 0x03
        else
          let r := e.importSlot t.target (slice t.args 0 40)
          r.1.endCmd ring t.tag 0x0030 (match r.2 with
            | .ok => 0
            | .refused => 1
            | .badWrap => 6))) ∧
    (∀ (ring : RingNo) (d : Dev),
      d.offers ring 0x0031 true 0 →
        Answers (.keyErase ring) d (d.taken ring 0x0031 fun t e => 
        if 98367 < t.target then e.endCmd ring t.tag 0x0031 0x03
        else match e.eraseSlot t.target with
          | some f => f.endCmd ring t.tag 0x0031 0
          | none => e.endCmd ring t.tag 0x0031 1)) ∧
    (∀ (ring : RingNo) (d : Dev),
      d.offers ring 0x0040 false 1 →
        Answers (.setMode ring) d (d.taken ring 0x0040 fun t e => 
        if le t.args 0 1 = 4 ∨ le t.args 0 1 = 5 then
          ((e.keepRunning ring t).askTrig (.setMode (le t.args 0 1) ring t.tag)).arbitrate
        else e.endCmd ring t.tag 0x0040 (if le t.args 0 1 < 4 then 0x01 else 0x03))) ∧
    (∀ (ring : RingNo) (d : Dev),
      d.offers ring 0x0041 false 0 →
        Answers (.switchOver ring) d (d.taken ring 0x0041 fun t e => 
        if e.standby then
          if e.handbackHeld ∨ e.arb.trans.isSome ∨ e.stl.forwarded.isSome ∨ !e.stitchUp ∨ !e.on F.STL_STAT_READY then
            e.endCmd ring t.tag 0x0041 0x01
          else { e.keepRunning ring t with stl := { (e.keepRunning ring t).stl with forwarded := some (ring.val, t.tag) } }
        else if e.handbackHeld ∨ !e.active then e.endCmd ring t.tag 0x0041 0x01
        else ((e.keepRunning ring t).askTrig (.switchOver (some (ring.val, t.tag)))).arbitrate)) ∧
    (∀ (ring : RingNo) (d : Dev),
      d.offers ring 0x0050 false 48 →
        Answers (.job ring) d (d.taken ring 0x0050 fun t e => 
        if !e.on F.CRY_CFG_JOB_EN then e.endCmd ring t.tag 0x0050 1 (le t.args 40 8)
        else if !jobOk t.args then e.endCmd ring t.tag 0x0050 3 (le t.args 40 8)
        else
          let j : Job :=
            { ring := ring, mode := le t.args 0 1, key := le t.args 1 1, length := le t.args 4 4, src := le t.args 8 8,
              dst := le t.args 16 8, chain := be t.args 24 16, id := le t.args 40 8, tag := t.tag, loaded := none,
              done := 0 }
          let q := ring.val - 48
          ((((e.keepRunning ring t).setJobs q (e.jobs q ++ [j])).showJob q).startJobs))) ∧
    (∀ (ring : RingNo) (k : Completion) (r : List Completion) (d : Dev),
      (d.ring ring).done = k :: r →
        Answers (.commandComplete ring) d (d.complete ring)) ∧
    (∀ (n : RingNo) (tail : Fin 2048) (d : Dev),
      d.hostOpen →
      tail.val < d.ringEntries n →
      modSub (d.get F.HST_SQTAIL_TAIL n) (d.get F.HST_RINGSTAT_SQ_HEAD n) (d.ringEntries n) + modSub tail (d.get F.HST_SQTAIL_TAIL n) (d.ringEntries n) ≤ d.ringEntries n - 1 →
        Answers (.sqDoorbell n tail) d (Dev.dropUnknown n 2048 (d.set F.HST_SQTAIL_TAIL tail n))) ∧
    (∀ (n : RingNo) (head : Fin 2048) (d : Dev),
      d.hostOpen →
      head.val < d.ringEntries n →
      modSub head (d.get F.HST_CQHEAD_HEAD n) (d.ringEntries n) ≤ modSub (d.get F.HST_RINGSTAT_CQ_TAIL n) (d.get F.HST_CQHEAD_HEAD n) (d.ringEntries n) →
        Answers (.cqHeadWrite n head) d (Dev.dropUnknown n 2048 (d.set F.HST_CQHEAD_HEAD head n))) ∧
    (∀ (n : RingNo) (d : Dev),
      d.hostOpen →
        Answers (.ringStop n) d (d.writeRingCfg n (d.getReg RegOf.HST_RINGCFG n 0 - d.get F.HST_RINGCFG_ENABLE n)))

/-- An event is posted; the oldest open entry closes when its time ends; a closed entry, or else a lost record, is
written while the ring has room; the host frees records; the age of a record raises the interrupt; a message owed
and not masked is sent. (R568, R570, R571, R573, R574, R575, R580) -/
def Obligations.EventCommandsComplete : Prop :=
    (∀ (e : EvIn) (d : Dev),
        Answers (.blotterEvent e) d (Dev.postN 2 { source := e.source, event := e.event, inst := e.inst, data := e.data } e.late d)) ∧
    (∀ (x : BlotEntry) (r : List BlotEntry) (d : Dev),
      d.blot.stopped = false →
      d.blot.opened = x :: r →
        Answers (.blotterEntryClose) d
          (let e := d.reach (x.openedAt + d.use F.EVT_CFG_COALESCE_US * 1500)
          let b := { e.blot with opened := r, closed := e.blot.closed ++ [{ x with waiting := true }] }
          let e : Dev := { e with blot := b }.showOpen
          if e.get F.EVT_STAT_UNREAD = 131072 then e.evtCount 5 else e)) ∧
    (∀ (x : BlotEntry) (r : List BlotEntry) (d : Dev),
      d.blot.stopped = false →
      d.get F.EVT_STAT_UNREAD ≠ 131072 →
      d.blot.closed = x :: r →
        Answers (.blotterWrite) d
          (let e := d.reach (d.blot.lastAt + 64)
          ({ e with blot := { e.blot with closed := r } }.showOpen).putRecord (entryRecord x))) ∧
    (∀ (cons : Fin 131072) (d : Dev),
      d.hostOpen →
      modSub cons (d.get F.EVT_CONS_CONS) 131072 ≤ d.get F.EVT_STAT_UNREAD →
        Answers (.evtConsWrite cons) d
          (let n := modSub cons (d.get F.EVT_CONS_CONS) 131072
          let e := (d.set F.EVT_CONS_CONS cons).set F.EVT_STAT_UNREAD (d.get F.EVT_STAT_UNREAD - n)
          { e with blot := { e.blot with ages := e.blot.ages.drop n } })) ∧
    (∀ (a : Nat) (r : List Nat) (d : Dev),
      d.blot.ages = a :: r →
      d.blot.stopped = false →
      d.on F.HST_IRQSTAT_BLOTTER = false →
        Answers (.blotterIrqAge) d ((d.reach (a + d.use F.EVT_CFG_IRQ_AGE_US * 1500 + 1)).irqBlotter)) ∧
    (∀ (v : Fin 66) (d : Dev),
      d.host.linkUp →
      d.host.msiOwed.contains v.val →
      d.msiMasked v = false →
        Answers (.msiSend v) d
          (let e := match Tbl.find? d.host.msiLast v with
            | some t => d.reach (t + d.use F.HST_CFG_IRQ_MOD_US * 1500)
            | none => d
          let h := { e.host with
            msiOwed := e.host.msiOwed.filter fun x => x != v.val
            msiLast := Tbl.set e.host.msiLast v e.clk.cyc }
          { e with host := h }.bump F.HST_CNT_COUNT 4))

/-- A booted device with sheets enabled writes a generation at the next multiple of its period; a statistics counter
one below half its range rises and posts HALF_RANGE; a bandwidth window ends after boot lock; CLEAR zeroes every
programmable counter; state mirrors are written again. (R557, R581, R582, R583, R584, R588, R593) -/
def Obligations.MonitorCommandsComplete : Prop :=
    (∀ (d : Dev),
      d.booted →
      d.mode ≠ 4 →
      d.useB F.PMU_SHEETCFG_EN →
        Answers (.counterSheet) d
          (let p := d.use F.PMU_SHEETCFG_PERIOD_US * 1000
          let e := d.runTo (cdiv d.nowNs p * p)
          let e := if e.pmu.lastT = e.nowNs then e.runTo (e.nowNs + p) else e
          e.writeSheet false)) ∧
    (∀ (a : Fin (2 ^ 26)) (r : Reg) (i j : Nat) (d : Dev),
      findReg a allRegs = some (r, i, j) →
      r.fields.length = 1 →
      (r.fields.all fun f => f.w == 40 && f.acc == .ro && f.lo == 0) →
      d.getReg r i j = 2 ^ 39 - 1 →
        Answers (.halfRange a) d (d.bumpAt a i 1)) ∧
    (∀ (d : Dev),
      d.on F.BOOT_STAT_LOCKED →
      d.mode ≠ 4 →
        Answers (.bwWindow) d (d.bwWindow)) ∧
    (∀ (d : Dev),
      d.hostOpen →
        Answers (.pmuClear) d (d.pmuClear)) ∧
    (∀ (d : Dev),
      d.booted →
      d.mode ≠ 4 →
        Answers (.mirrorStateRewrite) d (d.mirrorStates.settleWrites))
end

