-- ==== Sys2Proof/Laws/Table.lean ====
section
/-!
SUPPORT. Laws of sparse tables and byte memories: what a read finds after a write, and that every operation keeps the
canonical form.
-/

namespace Sys2Proof

namespace Tbl

variable {α : Type}

@[simp] theorem find?_set_same (t : Tbl α) (i : Nat) (v : α) : find? (set t i v) i = some v := by
  induction t with
  | nil => simp [set, find?]
  | cons e r ih =>
    obtain ⟨k, w⟩ := e
    simp only [set]
    split
    · simp [find?]
    · split
      · simp [find?]
      · simp_all [find?]

theorem find?_set_other (t : Tbl α) {i j : Nat} (v : α) (h : j ≠ i) : find? (set t i v) j = find? t j := by
  induction t with
  | nil => simp [set, find?, h]
  | cons e r ih =>
    obtain ⟨k, w⟩ := e
    simp only [set]
    split
    · simp [find?, h]
    · split
      · subst_vars; simp [find?, h]
      · simp [find?, ih]

@[simp] theorem get_set_same (d : α) (t : Tbl α) (i : Nat) (v : α) : get d (set t i v) i = v := by simp [get]

theorem get_set_other (d : α) (t : Tbl α) {i j : Nat} (v : α) (h : j ≠ i) : get d (set t i v) j = get d t j := by
  simp [get, find?_set_other t v h]

theorem find?_erase_other (t : Tbl α) {i j : Nat} (h : j ≠ i) : find? (erase t i) j = find? t j := by
  induction t with
  | nil => rfl
  | cons e r ih =>
    obtain ⟨k, w⟩ := e
    simp only [erase]
    split
    · subst_vars; simp [find?, h]
    · simp [find?, ih]

/-- Entries of a sorted tail lie above its bound. -/
theorem find?_above (t : Tbl α) {n i : Nat} (h : above (some n) t = true) (hi : i ≤ n) : find? t i = none := by
  induction t generalizing n with
  | nil => rfl
  | cons e r ih =>
    obtain ⟨k, w⟩ := e
    simp only [above, Bool.and_eq_true, decide_eq_true_eq] at h
    have : i ≠ k := by omega
    simp only [find?, this, if_false]
    exact ih h.2 (by omega)

theorem above_mono (t : Tbl α) {m n : Nat} (h : above (some n) t = true) (hm : m ≤ n) : above (some m) t = true := by
  cases t with
  | nil => rfl
  | cons e r =>
    obtain ⟨k, w⟩ := e
    simp only [above, Bool.and_eq_true, decide_eq_true_eq] at h ⊢
    exact ⟨by omega, h.2⟩

theorem sorted_of_above (t : Tbl α) {n : Nat} (h : above (some n) t = true) : sorted t = true := by
  cases t with
  | nil => rfl
  | cons e r =>
    obtain ⟨k, w⟩ := e
    simp only [above, Bool.and_eq_true] at h
    exact h.2

theorem above_set (t : Tbl α) {n i : Nat} (v : α) (h : above (some n) t = true) (hi : n < i) :
    above (some n) (set t i v) = true := by
  induction t generalizing n with
  | nil => simp [set, above, hi]
  | cons e r ih =>
    obtain ⟨k, w⟩ := e
    simp only [above, Bool.and_eq_true, decide_eq_true_eq] at h
    simp only [set]
    split
    · simp [above, hi, h.2]; omega
    · split
      · subst_vars; simp [above, h.1, h.2]
      · simp only [above, Bool.and_eq_true, decide_eq_true_eq]
        exact ⟨h.1, ih h.2 (by omega)⟩

/-- A write keeps the indices rising. -/
theorem sorted_set (t : Tbl α) (i : Nat) (v : α) (h : sorted t = true) : sorted (set t i v) = true := by
  cases t with
  | nil => rfl
  | cons e r =>
    obtain ⟨k, w⟩ := e
    simp only [sorted, above] at h
    simp only [set, sorted]
    split
    · simp [above, h]; assumption
    · split
      · subst_vars; simpa [above] using h
      · simp only [above]
        exact above_set r v h (by omega)

theorem above_erase (t : Tbl α) {n : Nat} (i : Nat) (h : above (some n) t = true) : above (some n) (erase t i) = true := by
  induction t generalizing n with
  | nil => rfl
  | cons e r ih =>
    obtain ⟨k, w⟩ := e
    simp only [above, Bool.and_eq_true, decide_eq_true_eq] at h
    simp only [erase]
    split
    · exact above_mono r h.2 (by omega)
    · simp only [above, Bool.and_eq_true, decide_eq_true_eq]
      exact ⟨h.1, ih h.2⟩

/-- Taking an index out keeps the indices rising. -/
theorem sorted_erase (t : Tbl α) (i : Nat) (h : sorted t = true) : sorted (erase t i) = true := by
  cases t with
  | nil => rfl
  | cons e r =>
    obtain ⟨k, w⟩ := e
    simp only [sorted, above] at h
    simp only [erase]
    split
    · exact sorted_of_above r h
    · simp only [sorted, above]
      exact above_erase r i h

theorem find?_erase_same (t : Tbl α) (i : Nat) (h : sorted t = true) : find? (erase t i) i = none := by
  induction t with
  | nil => rfl
  | cons e r ih =>
    obtain ⟨k, w⟩ := e
    simp only [sorted, above] at h
    simp only [erase]
    split
    · subst_vars; exact find?_above r h (Nat.le_refl _)
    · rename_i hk
      simp only [find?, hk, if_false]
      exact ih (sorted_of_above r h)

theorem above_filter (p : Nat × α → Bool) (t : Tbl α) {n : Nat} (h : above (some n) t = true) :
    above (some n) (List.filter p t) = true := by
  induction t generalizing n with
  | nil => rfl
  | cons e r ih =>
    obtain ⟨k, w⟩ := e
    simp only [above, Bool.and_eq_true, decide_eq_true_eq] at h
    simp only [List.filter]
    split
    · simp only [above, Bool.and_eq_true, decide_eq_true_eq]
      exact ⟨h.1, ih h.2⟩
    · exact ih (above_mono r h.2 (by omega))

/-- Leaving entries out keeps the indices rising. -/
theorem sorted_filter (p : Nat × α → Bool) (t : Tbl α) (h : sorted t = true) : sorted (List.filter p t) = true := by
  cases t with
  | nil => rfl
  | cons e r =>
    obtain ⟨k, w⟩ := e
    simp only [sorted, above] at h
    simp only [List.filter]
    split
    · simp only [sorted, above]
      exact above_filter p r h
    · exact sorted_of_above _ (above_filter p r h)

end Tbl

namespace Mem

theorem all_set (m : Mem) (a : Nat) (b : Byte) (h : (m.all fun e => e.2 != 0) = true) (hb : b ≠ 0) :
    ((Tbl.set m a b).all fun e => e.2 != 0) = true := by
  induction m with
  | nil => simpa [Tbl.set] using hb
  | cons e r ih =>
    obtain ⟨k, w⟩ := e
    simp only [List.all_cons, Bool.and_eq_true] at h
    simp only [Tbl.set]
    split
    · simp only [List.all_cons, Bool.and_eq_true]
      exact ⟨by simpa using hb, h⟩
    · split
      · simp only [List.all_cons, Bool.and_eq_true]
        exact ⟨by simpa using hb, h.2⟩
      · simp only [List.all_cons, Bool.and_eq_true]
        exact ⟨h.1, ih h.2⟩

theorem all_erase (m : Mem) (a : Nat) (h : (m.all fun e => e.2 != 0) = true) :
    ((Tbl.erase m a).all fun e => e.2 != 0) = true := by
  induction m with
  | nil => rfl
  | cons e r ih =>
    obtain ⟨k, w⟩ := e
    simp only [List.all_cons, Bool.and_eq_true] at h
    simp only [Tbl.erase]
    split
    · exact h.2
    · simp only [List.all_cons, Bool.and_eq_true]
      exact ⟨h.1, ih h.2⟩

/-- Writing a byte keeps the canonical form. -/
theorem wf_write (m : Mem) (a : Nat) (b : Byte) (h : wf m = true) : wf (write m a b) = true := by
  simp only [wf, Bool.and_eq_true] at h ⊢
  simp only [write, Tbl.put]
  split
  · exact ⟨Tbl.sorted_erase m a h.1, all_erase m a h.2⟩
  · exact ⟨Tbl.sorted_set m a b h.1, all_set m a b h.2 (by assumption)⟩

/-- Writing a row of bytes keeps the canonical form. -/
theorem wf_writeN (m : Mem) (a : Nat) (l : List Byte) (h : wf m = true) : wf (writeN m a l) = true := by
  induction l generalizing m a with
  | nil => exact h
  | cons b r ih => exact ih _ _ (wf_write m a b h)

/-- Leaving entries out keeps the canonical form. -/
theorem wf_filter (p : Nat × Byte → Bool) (m : Mem) (h : wf m = true) : wf (List.filter p m) = true := by
  simp only [wf, Bool.and_eq_true] at h ⊢
  refine ⟨Tbl.sorted_filter p m h.1, ?_⟩
  simp only [List.all_eq_true] at h ⊢
  intro e he
  exact h.2 e (List.mem_filter.mp he).1

/-- A byte just written reads as written. -/
theorem read_write_same (m : Mem) (a : Nat) (b : Byte) (h : wf m = true) : read (write m a b) a = b := by
  simp only [wf, Bool.and_eq_true] at h
  simp only [read, write, Tbl.put]
  split
  · subst_vars; simp [Tbl.get, Tbl.find?_erase_same m a h.1]
  · simp

/-- A write leaves every other byte alone. -/
theorem read_write_other (m : Mem) {a c : Nat} (b : Byte) (h : c ≠ a) : read (write m a b) c = read m c := by
  simp only [read, write, Tbl.put]
  split
  · simp [Tbl.get, Tbl.find?_erase_other m h]
  · exact Tbl.get_set_other 0 m b h

/-- What a row of bytes leaves alone. -/
theorem read_writeN_other (m : Mem) {a c : Nat} (l : List Byte) (h : c < a ∨ a + l.length ≤ c) :
    read (writeN m a l) c = read m c := by
  induction l generalizing m a with
  | nil => rfl
  | cons b r ih =>
    simp only [List.length_cons] at h
    rw [writeN, ih _ (by omega), read_write_other m b (by omega)]

/-- What a row of bytes writes. -/
theorem read_writeN_same (m : Mem) {a k : Nat} (l : List Byte) (h : wf m = true) (hk : k < l.length) :
    read (writeN m a l) (a + k) = l.getD k 0 := by
  induction l generalizing m a k with
  | nil => simp at hk
  | cons b r ih =>
    cases k with
    | zero => rw [writeN, read_writeN_other _ r (by omega), Nat.add_zero, read_write_same m a b h]; rfl
    | succ k =>
      simp only [List.length_cons] at hk
      have := ih (write m a b) (a := a + 1) (k := k) (wf_write m a b h) (by omega)
      rw [writeN, show a + (k + 1) = a + 1 + k by omega, this]
      simp

end Mem

end Sys2Proof
end

