-- ==== Sys2Proof/Laws/Ops.lean ====
section
/-!
SUPPORT. What each shared operation on the device can do, said once: a register write, a count, a flag, an event and
the passing of time.
-/

namespace Sys2Proof.Machine

open Sys2Proof

/-- `e` is `d` but for what noting occurrences changes: registers of EVT, PMU and HST, the Blotter's table and the
messages owed. -/
structure Notes (d e : Dev) : Prop where
  same : e = { d with regs := e.regs, blot := e.blot, host := { d.host with msiOwed := e.host.msiOwed } }
  regs : ∀ k, calm k = true → Tbl.find? e.regs k = Tbl.find? d.regs k

theorem Notes.refl (d : Dev) : Notes d d := ⟨rfl, fun _ _ => rfl⟩

theorem Notes.trans {d e f : Dev} (h : Notes d e) (g : Notes e f) : Notes d f := by
  refine ⟨?_, fun k hk => (g.regs k hk).trans (h.regs k hk)⟩
  have a := h.same
  have b := g.same
  rw [b, a]

theorem notes_regs (d : Dev) (r : Tbl Nat) (h : ∀ k, calm k = true → Tbl.find? r k = Tbl.find? d.regs k) :
    Notes d { d with regs := r } := ⟨rfl, h⟩

theorem ne_of_calm {j k : Nat} (hj : calm j = true) (hk : calm k = false) : j ≠ k := by
  rintro rfl; simp_all

theorem notes_set (d : Dev) {k : Nat} (v : Nat) (h : calm k = false) : Notes d { d with regs := Tbl.set d.regs k v } :=
  notes_regs d _ fun j hj => Tbl.find?_set_other d.regs v fun e => by simp_all

theorem notes_blot (d : Dev) (b : Blot) : Notes d { d with blot := b } := ⟨rfl, fun _ _ => rfl⟩

theorem notes_owed (d : Dev) (l : List Nat) : Notes d { d with host := { d.host with msiOwed := l } } :=
  ⟨rfl, fun _ _ => rfl⟩

theorem notes_foldl {α : Type} (l : List α) (f : Dev → α → Dev) (d : Dev) (h : ∀ d, ∀ a ∈ l, Notes d (f d a)) :
    Notes d (l.foldl f d) := by
  induction l generalizing d with
  | nil => exact .refl d
  | cons a r ih =>
    exact (h d a (List.mem_cons_self ..)).trans (ih _ fun d b hb => h d b (List.mem_cons_of_mem _ hb))

/-! ### The monitor -/

theorem notes_pmuAdd (b i n : Nat) (d : Dev) (hb : b < 22) (hi : i < 8) : Notes d (pmuAdd b i n d) := by
  refine (notes_set d _ (k := F.PMU_PCNT_COUNT.key b i) ?_).trans (notes_set _ _ (k := F.PMU_PCNT_WRAPS.key b i) ?_)
  · simp only [Fld.key, F.PMU_PCNT_COUNT]; exact Bool.or_eq_false_iff.mpr ⟨decide_eq_false (by omega), decide_eq_false (by omega)⟩
  · simp only [Fld.key, F.PMU_PCNT_WRAPS]; exact Bool.or_eq_false_iff.mpr ⟨decide_eq_false (by omega), decide_eq_false (by omega)⟩

/-- The counters of the monitor lie in 22 blocks of eight. -/
theorem pmuArmed_range {d : Dev} {c : Nat × Nat} (h : c ∈ d.pmuArmed) : c.1 < 22 ∧ c.2 < 8 := by
  simp only [Dev.pmuArmed, List.mem_map, List.mem_filter, Bool.and_eq_true, decide_eq_true_eq] at h
  obtain ⟨e, ⟨-, h⟩, rfl⟩ := h
  simp only
  omega

theorem notes_pmuCount (d : Dev) (a n : Nat) : Notes d (d.pmuCount a n) := by
  unfold Dev.pmuCount
  split
  · exact .refl d
  · refine notes_foldl _ _ _ fun e c hc => ?_
    split
    · exact notes_pmuAdd _ _ _ _ (pmuArmed_range hc).1 (pmuArmed_range hc).2
    · exact .refl e

theorem notes_pmuEdge (d : Dev) (a lo w old new : Nat) : Notes d (d.pmuEdge a lo w old new) := by
  unfold Dev.pmuEdge
  split
  · exact .refl d
  · refine notes_foldl _ _ _ fun e c hc => ?_
    simp only
    split
    · exact notes_pmuAdd _ _ _ _ (pmuArmed_range hc).1 (pmuArmed_range hc).2
    · exact .refl e

/-! ### Events -/

theorem notes_addRaw (d : Dev) (k n : Nat) (h : calm k = false) : Notes d (d.addRaw k n).1 := notes_set d _ h

theorem notes_evCount (r : Dev × List Ev) (k n : Nat) (hk : k < 16) : Notes r.1 (Dev.evCount r k n).1 := by
  refine (notes_addRaw r.1 (F.EVT_CNT_COUNT.key k 0) n ?_).trans (notes_pmuCount _ _ _)
  simp [calm, Fld.key, F.EVT_CNT_COUNT]; omega

theorem notes_openEntry (d : Dev) (x : BlotEntry) (l : List Ev) : Notes d (d.openEntry x l).1 := by
  have h (b : Blot) (p : Prop) [Decidable p] :
      Notes d (if p then Dev.evCount ({ d with blot := b }, l) 5 1 else ({ d with blot := b }, l)).1 := by
    split
    · exact (notes_blot d b).trans (notes_evCount (_, _) 5 1 (by omega))
    · exact notes_blot d b
  exact (h _ _).trans (notes_set _ _ (by decide))

/-- Taking an event into the Blotter's table (R573, R574). -/
theorem notes_absorb (d : Dev) (e : Ev) (late : Bool) : Notes d (d.absorb e late).1 := by
  have h0 := notes_evCount (d, []) 0 1 (by omega)
  unfold Dev.absorb
  simp only
  generalize Dev.evCount (d, []) 0 1 = r at h0 ⊢
  refine h0.trans ?_
  split
  · exact .refl _
  · split
    · exact (notes_blot r.1 _).trans (notes_evCount (_, _) 2 1 (by omega))
    · split
      · exact (notes_blot r.1 _).trans (notes_evCount (_, _) 2 1 (by omega))
      · split
        · have h1 : Notes r.1 (Dev.evCount (r.1.noteLost e.source, r.2) 3 1).1 :=
            (notes_blot r.1 _).trans (notes_evCount (r.1.noteLost e.source, r.2) 3 1 (by omega))
          generalize (Dev.evCount (r.1.noteLost e.source, r.2) 3 1).1 = q at h1 ⊢
          refine h1.trans ?_
          have h (k : Nat) (hk : calm k = true) (v w x y z u : Nat) :
              Tbl.find? (Tbl.set (Tbl.set (Tbl.set (Tbl.set (Tbl.set (Tbl.set q.regs (F.EVT_STAT_OVERFLOW.key 0 0) v)
                (F.HST_ALERT_LATCHED.key 0 0) w) (F.HST_ALERT_ACTIVE.key 0 0) x) (F.HST_IRQSTAT_ALERT.key 0 0) y)
                (F.HST_ALERTCNT_COUNT.key 8 0) z) (F.HST_CNT_COUNT.key 6 0) u) k = Tbl.find? q.regs k := by
            rw [Tbl.find?_set_other _ _ (ne_of_calm hk (by decide)), Tbl.find?_set_other _ _ (ne_of_calm hk (by decide)),
              Tbl.find?_set_other _ _ (ne_of_calm hk (by decide)), Tbl.find?_set_other _ _ (ne_of_calm hk (by decide)),
              Tbl.find?_set_other _ _ (ne_of_calm hk (by decide)), Tbl.find?_set_other _ _ (ne_of_calm hk (by decide))]
          split
          · exact ⟨rfl, fun k hk => h k hk ..⟩
          · exact ⟨rfl, fun k hk => h k hk ..⟩
        · exact notes_openEntry _ _ _

theorem notes_postN (n : Nat) (e : Ev) (late : Bool) (d : Dev) : Notes d (Dev.postN n e late d) := by
  induction n generalizing e late d with
  | zero => exact notes_absorb d e late
  | succ n ih => exact (notes_absorb d e late).trans (notes_foldl _ _ _ fun d x _ => ih x false d)

/-- Posting an event. -/
theorem notes_post (d : Dev) (e : Ev) : Notes d (d.post e) := notes_postN 2 e false d

theorem notes_event (d : Dev) (a code inst data : Nat) : Notes d (d.event a code inst data) := notes_post d _

/-! ### What reads see -/

theorem Notes.get {d e : Dev} (h : Notes d e) (f : Fld) (i j : Nat) (hk : calm (f.key i j) = true) :
    e.get f i j = d.get f i j := by
  have hi : e.imgApplied = d.imgApplied := by rw [h.same]
  simp only [Dev.get, Tbl.get, h.regs _ hk, Dev.unwritten, hi]

theorem Notes.on {d e : Dev} (h : Notes d e) (f : Fld) (i j : Nat) (hk : calm (f.key i j) = true) :
    e.on f i j = d.on f i j := by simp only [Dev.on, h.get f i j hk]

theorem Notes.use {d e : Dev} (h : Notes d e) (f : Fld) (i j : Nat) (hk : calm (f.key i j) = true) :
    e.use f i j = d.use f i j := by
  have he : e.eff = d.eff := by rw [h.same]
  simp only [Dev.use, h.get f i j hk, he]

/-- Noting an occurrence leaves everything else as it was. -/
theorem Notes.rest {d e : Dev} (h : Notes d e) :
    e.eff = d.eff ∧ e.obs = d.obs ∧ e.clk = d.clk ∧ e.boot = d.boot ∧ e.arb = d.arb ∧ e.tim = d.tim ∧ e.stl = d.stl ∧
      e.quill = d.quill ∧ e.lanes = d.lanes ∧ e.mem = d.mem ∧ e.free = d.free := by
  rw [h.same]; simp

/-! ### Register writes, counts and flags -/

/-- A hardware write of a field changes that field, and of the rest no more than noting the change does. -/
theorem set_notes (d : Dev) (f : Fld) (v i j : Nat) :
    Notes { d with regs := Tbl.set d.regs (f.key i j) (v % 2 ^ f.w) } (d.set f v i j) := notes_pmuEdge _ _ _ _ _ _

/-- A field reads as written, cut to its width. -/
theorem get_set_same (d : Dev) (f : Fld) (v i j : Nat) (hk : calm (f.key i j) = true) :
    (d.set f v i j).get f i j = v % 2 ^ f.w := by
  rw [(set_notes d f v i j).get f i j hk]
  simp [Dev.get]

/-- Another field keeps its value. -/
theorem get_set_other (d : Dev) (f g : Fld) (v i j k l : Nat) (hk : calm (g.key k l) = true)
    (h : g.key k l ≠ f.key i j) : (d.set f v i j).get g k l = d.get g k l := by
  rw [(set_notes d f v i j).get g k l hk]
  simp [Dev.get, Dev.unwritten, Tbl.get_set_other _ _ _ h]

/-- A hardware write of a field leaves everything but registers and notes alone. -/
theorem set_rest (d : Dev) (f : Fld) (v i j : Nat) :
    (d.set f v i j).eff = d.eff ∧ (d.set f v i j).obs = d.obs ∧ (d.set f v i j).clk = d.clk ∧
      (d.set f v i j).boot = d.boot ∧ (d.set f v i j).arb = d.arb ∧ (d.set f v i j).tim = d.tim ∧
      (d.set f v i j).stl = d.stl ∧ (d.set f v i j).quill = d.quill ∧ (d.set f v i j).lanes = d.lanes ∧
      (d.set f v i j).mem = d.mem ∧ (d.set f v i j).free = d.free := (set_notes d f v i j).rest

/-- A count of one register changes that count and no more than noting it does. -/
theorem bumpAt_notes (d : Dev) (a inst n : Nat) :
    Notes { d with regs := if n = 0 then d.regs else Tbl.set d.regs (a * 64) ((Tbl.get 0 d.regs (a * 64) + n) % 2 ^ 40) }
      (d.bumpAt a inst n) := by
  unfold Dev.bumpAt
  split
  · exact .refl d
  · simp only
    split
    · exact (notes_pmuCount _ _ _).trans (notes_post _ _)
    · exact notes_pmuCount _ _ _

theorem get_bumpAt (d : Dev) (a inst n : Nat) (g : Fld) (k l : Nat) (hk : calm (g.key k l) = true) (h : g.key k l ≠ a * 64) :
    (d.bumpAt a inst n).get g k l = d.get g k l := by
  rw [(bumpAt_notes d a inst n).get g k l hk]
  simp only [Dev.get, Dev.unwritten]
  by_cases hn : n = 0
  · simp [hn]
  · simp only [hn, if_false]
    exact Tbl.get_set_other _ _ _ h

/-- A flag sets its bit, its companion count and a flag event (R13, R571). -/
theorem get_flag_same (d : Dev) (f : Fld) (i j : Nat) (cnt : Bool) (hk : calm (f.key i j) = true)
    (hc : f.key i j ≠ (f.cntAddr + i * f.cntStride) * 64) : (d.flag f i j cnt).get f i j = 1 := by
  unfold Dev.flag
  simp only
  rw [(notes_post _ _).get f i j hk]
  split
  · rw [get_bumpAt _ _ _ _ _ _ _ hk hc, (notes_pmuEdge _ _ _ _ _ _).get f i j hk]; simp [Dev.get]
  · rw [(notes_pmuEdge _ _ _ _ _ _).get f i j hk]; simp [Dev.get]

theorem get_flag_other (d : Dev) (f g : Fld) (i j k l : Nat) (cnt : Bool) (hk : calm (g.key k l) = true)
    (h : g.key k l ≠ f.key i j) (hc : g.key k l ≠ (f.cntAddr + i * f.cntStride) * 64) :
    (d.flag f i j cnt).get g k l = d.get g k l := by
  unfold Dev.flag
  simp only
  rw [(notes_post _ _).get g k l hk]
  split
  · rw [get_bumpAt _ _ _ _ _ _ _ hk hc, (notes_pmuEdge _ _ _ _ _ _).get g k l hk]
    simp [Dev.get, Dev.unwritten, Tbl.get_set_other _ _ _ h]
  · rw [(notes_pmuEdge _ _ _ _ _ _).get g k l hk]; simp [Dev.get, Dev.unwritten, Tbl.get_set_other _ _ _ h]

/-- A counter that lies outside the noting blocks rises by what is counted (R581). -/
theorem get_bump_same (d : Dev) (f : Fld) (i j n : Nat) (hf : f.lo = 0) (h0 : f.dflt.val i j = 0)
    (hk : calm (f.key i j) = true) (hw : d.get f i j < 2 ^ 40) :
    (d.bump f i j n).get f i j = (d.get f i j + n) % 2 ^ 40 := by
  have key : (f.addr + i * f.s1 + j * f.s2) * 64 = f.key i j := by simp [Fld.key, hf]
  have u : d.unwritten f i j = 0 := by simp [Dev.unwritten, h0]
  unfold Dev.bump
  rw [(bumpAt_notes d _ i n).get f i j hk, key]
  simp only [Dev.get, u] at hw ⊢
  split
  · subst_vars; simpa [Dev.get, Dev.unwritten, h0, Nat.mod_eq_of_lt hw] using (Nat.mod_eq_of_lt hw).symm
  · simp

/-! ### Time -/

/-- The fabric counts cycles: registers of the monitor and the cycle count change, nothing else. -/
theorem cycles_notes (d : Dev) (n : Nat) : Notes { d with clk := { d.clk with cyc := d.clk.cyc + n } } (d.cycles n) := by
  unfold Dev.cycles
  simp only
  split
  · exact .refl _
  · refine Notes.trans (e := foldUpTo 22 _ _) ?_ (notes_foldl _ _ _ fun e c hc => ?_)
    · refine notes_foldl _ _ _ fun e b hb => ?_
      have hb := List.mem_range.mp hb
      simp only
      split
      · exact .refl e
      · exact notes_set e _ (by simp [calm, Fld.key, F.PMU_CYC_CYCLES]; omega)
    · have hr := pmuArmed_range hc
      split
      · split
        · exact .refl e
        · split
          · split
            · exact .refl e
            · split
              · exact notes_pmuAdd _ _ _ _ hr.1 hr.2
              · exact .refl e
          · split
            · exact notes_pmuAdd _ _ _ _ hr.1 hr.2
            · exact .refl e
      · exact .refl e

theorem runCycles_notes (d : Dev) (n : Nat) : Notes { d with clk := (d.runCycles n).clk } (d.runCycles n) := by
  unfold Dev.runCycles
  split
  · exact .refl d
  · have h := cycles_notes { d with clk := d.clk.plus (n * d.clk.addend) } n
    have e := h.rest.2.2.1
    simp only at e
    rw [e]
    exact h

theorem runCycles_cyc (d : Dev) (n : Nat) : (d.runCycles n).clk.cyc = d.clk.cyc + n := by
  unfold Dev.runCycles
  split
  · subst_vars; rfl
  · rw [(cycles_notes _ n).rest.2.2.1]; rfl

/-- Running to a cycle moves the clock; of the rest, no more than counting cycles changes. -/
theorem reach_notes (d : Dev) (c : Nat) : Notes { d with clk := (d.reach c).clk } (d.reach c) := runCycles_notes d _

theorem reach_cyc (d : Dev) (c : Nat) : (d.reach c).clk.cyc = max d.clk.cyc c := by
  rw [Dev.reach, runCycles_cyc]; omega

/-- Running to an instant moves the clock; of the rest, no more than counting cycles changes. -/
theorem runTo_notes (d : Dev) (ns : Nat) : Notes { d with clk := (d.runTo ns).clk } (d.runTo ns) := by
  unfold Dev.runTo
  simp only
  split
  · exact .refl d
  · generalize cdiv ((ns - d.nowNs) * 2 ^ 32 - d.clk.frac) d.clk.addend = n
    have h := cycles_notes { d with clk := { d.clk with sec := ns / 1000000000 % 2 ^ 48, ns := ns % 1000000000, frac := 0 } } n
    have e := h.rest.2.2.1
    simp only at e
    rw [e]
    exact h

end Sys2Proof.Machine
end

