-- ==== Sys2Proof/Laws/Events.lean ====
section
/-!
SUPPORT. What counting and taking an event do to registers and to the Blotter's table, said once.
-/

namespace Sys2Proof.Machine

open Sys2Proof

theorem foldl_blot {α : Type} (l : List α) (f : Dev → α → Dev) (d : Dev) (h : ∀ d, ∀ a ∈ l, (f d a).blot = d.blot) :
    (l.foldl f d).blot = d.blot := by
  induction l generalizing d with
  | nil => rfl
  | cons a r ih => rw [List.foldl_cons, ih _ (fun d b hb => h d b (List.mem_cons_of_mem _ hb)), h d a (List.mem_cons_self ..)]

theorem pmuCount_blot (d : Dev) (a n : Nat) : (d.pmuCount a n).blot = d.blot := by
  unfold Dev.pmuCount
  split
  · rfl
  · exact foldl_blot _ _ _ fun e c _ => by split <;> rfl

theorem pmuEdge_blot (d : Dev) (a lo w old new : Nat) : (d.pmuEdge a lo w old new).blot = d.blot := by
  unfold Dev.pmuEdge
  split
  · rfl
  · exact foldl_blot _ _ _ fun e c _ => by simp only; split <;> rfl

theorem set_blot (d : Dev) (f : Fld) (v i j : Nat) : (d.set f v i j).blot = d.blot := pmuEdge_blot ..

theorem evCount_blot (r : Dev × List Ev) (k n : Nat) : (Dev.evCount r k n).1.blot = r.1.blot := pmuCount_blot ..

/-! ### Which registers counting leaves alone -/
theorem foldl_find {α : Type} (l : List α) (f : Dev → α → Dev) (d : Dev) (k : Nat)
    (h : ∀ d, ∀ a ∈ l, Tbl.find? (f d a).regs k = Tbl.find? d.regs k) : Tbl.find? (l.foldl f d).regs k = Tbl.find? d.regs k := by
  induction l generalizing d with
  | nil => rfl
  | cons a r ih => rw [List.foldl_cons, ih _ (fun d b hb => h d b (List.mem_cons_of_mem _ hb)), h d a (List.mem_cons_self ..)]
/-- A register key outside the monitor's block. -/
def offMon (k : Nat) : Prop := k < 0x70000 * 64 ∨ 0x80000 * 64 ≤ k

theorem pmuAdd_find (b i n : Nat) (d : Dev) (k : Nat) (hk : offMon k) (hb : b < 22) (hi : i < 8) :
    Tbl.find? (pmuAdd b i n d).regs k = Tbl.find? d.regs k := by
  unfold offMon at hk
  simp only [pmuAdd]
  rw [Tbl.find?_set_other, Tbl.find?_set_other]
  · simp only [Fld.key, F.PMU_PCNT_COUNT]; omega
  · simp only [Fld.key, F.PMU_PCNT_WRAPS]; omega

/-- Counting for the monitor changes its own block only. -/
theorem pmuCount_find (d : Dev) (a n k : Nat) (hk : offMon k) : Tbl.find? (d.pmuCount a n).regs k = Tbl.find? d.regs k := by
  unfold Dev.pmuCount
  split
  · rfl
  · refine foldl_find _ _ _ _ fun e c hc => ?_
    split
    · exact pmuAdd_find _ _ _ _ _ hk (pmuArmed_range hc).1 (pmuArmed_range hc).2
    · rfl

theorem pmuEdge_find (d : Dev) (a lo w old new k : Nat) (hk : offMon k) : Tbl.find? (d.pmuEdge a lo w old new).regs k = Tbl.find? d.regs k := by
  unfold Dev.pmuEdge
  split
  · rfl
  · refine foldl_find _ _ _ _ fun e c hc => ?_
    simp only; split
    · exact pmuAdd_find _ _ _ _ _ hk (pmuArmed_range hc).1 (pmuArmed_range hc).2
    · rfl

/-- Counting for the Blotter changes that count and the monitor only. -/
theorem evCount_find (r : Dev × List Ev) (c n k : Nat) (hk : offMon k) (h : k ≠ F.EVT_CNT_COUNT.key c 0) :
    Tbl.find? (Dev.evCount r c n).1.regs k = Tbl.find? r.1.regs k := by
  unfold Dev.evCount
  simp only
  rw [pmuCount_find _ _ _ _ hk]
  simp only [Dev.addRaw]
  exact Tbl.find?_set_other _ _ h

theorem pmuCount_same (d : Dev) (a n : Nat) : (d.pmuCount a n) = { d with regs := (d.pmuCount a n).regs } := by
  have fo : ∀ (l : List (Nat × Nat)) (f : Dev → (Nat × Nat) → Dev) (d : Dev), (∀ d a, f d a = { d with regs := (f d a).regs }) →
      l.foldl f d = { d with regs := (l.foldl f d).regs } := by
    intro l f d h
    induction l generalizing d with
    | nil => rfl
    | cons a r ih => rw [List.foldl_cons]; have i := ih (f d a); rw [i, h d a]
  unfold Dev.pmuCount
  split
  · rfl
  · exact fo _ _ _ fun d c => by split <;> rfl

/-- Counting for the Blotter changes registers only. -/
theorem evCount_same (r : Dev × List Ev) (k n : Nat) :
    (Dev.evCount r k n).1 = { r.1 with regs := (Dev.evCount r k n).1.regs } := by
  unfold Dev.evCount
  simp only
  rw [pmuCount_same]
  rfl

/-- A count below half range brings about no event. -/
theorem evCount_none (r : Dev × List Ev) (k : Nat) (h : Tbl.get 0 r.1.regs (F.EVT_CNT_COUNT.key k 0) < 2 ^ 39 - 1) :
    (Dev.evCount r k 1).2 = r.2 := by
  have q : (r.1.addRaw (F.EVT_CNT_COUNT.key k 0) 1).2 = false := by
    show (decide _ && decide (2 ^ 39 ≤ _)) = false
    rw [decide_eq_false (p := 2 ^ 39 ≤ Tbl.get 0 r.1.regs (F.EVT_CNT_COUNT.key k 0) + 1) (by omega), Bool.and_false]
  show r.2 ++ _ = r.2
  rw [if_neg (by rw [q]; exact Bool.false_ne_true)]
  exact List.append_nil _

/-- Two devices read a field alike whose registers list it alike. -/
theorem get_eq_of_find (d e : Dev) (f : Fld) (i j : Nat) (hi : e.imgApplied = d.imgApplied) (h : Tbl.find? e.regs (f.key i j) = Tbl.find? d.regs (f.key i j)) : e.get f i j = d.get f i j := by
  simp [Dev.get, Dev.unwritten, Tbl.get, h, hi]

/-- Where an opened entry goes: among the closed ones at once when COALESCE_US is 0 (R573, R580). -/
theorem openEntry_blot (d : Dev) (x : BlotEntry) (l : List Ev) : (d.openEntry x l).1.blot =
      if d.use F.EVT_CFG_COALESCE_US = 0 then { d.blot with closed := d.blot.closed ++ [{ x with waiting := true }] }
      else { d.blot with opened := d.blot.opened ++ [x] } := by
  have q (b : Blot) (p : Prop) [Decidable p] :
      (if p then Dev.evCount ({ d with blot := b }, l) 5 1 else ({ d with blot := b }, l)).1.blot = b := by
    split
    · exact evCount_blot _ _ _
    · rfl
  refine (q _ _).trans ?_
  by_cases z : d.use F.EVT_CFG_COALESCE_US = 0 <;> simp [z]

/-- Opening an entry brings about no event while RING_FULL_WAITS is below half range. -/
theorem openEntry_none (d : Dev) (x : BlotEntry) (l : List Ev)
    (h : Tbl.get 0 d.regs (F.EVT_CNT_COUNT.key 5 0) < 2 ^ 39 - 1) : (d.openEntry x l).2 = l := by
  have q (b : Blot) (p : Prop) [Decidable p] :
      (if p then Dev.evCount ({ d with blot := b }, l) 5 1 else ({ d with blot := b }, l)).2 = l := by
    split
    · exact evCount_none ({ d with blot := b }, l) 5 h
    · rfl
  exact q _ _

/-- What an event does that finds its entry or a free one (R573). -/
theorem absorb_cases (d : Dev) (x : Ev) (he : d.get F.EVT_CFG_ENABLE = 1) (h0 : d.get F.EVT_CNT_COUNT 0 < 2 ^ 39 - 1)
    (h2 : d.get F.EVT_CNT_COUNT 2 < 2 ^ 39 - 1) (h5 : d.get F.EVT_CNT_COUNT 5 < 2 ^ 39 - 1) (hu : d.blot.closed.any (fun y => y.ev.sameKey x) = true ∨ d.blot.opened.any (fun y => y.ev.sameKey x) = true ∨ d.blot.used < 1024) :
    (d.absorb x false).2 = [] ∧ (d.absorb x false).1.blot =
      (if d.blot.closed.any (fun y => y.ev.sameKey x) then { d.blot with closed := hitAll x d.stamp d.blot.closed }
       else if d.blot.opened.any (fun y => y.ev.sameKey x) then { d.blot with opened := hitAll x d.stamp d.blot.opened }
       else
        let new : BlotEntry :=
          { ev := x, count := 1, firstSec := d.clk.sec, firstNs := d.clk.ns, last := d.stamp, frame := d.frameNow,
            openedAt := d.clk.cyc, waiting := d.use F.EVT_CFG_COALESCE_US == 0 }
        if d.use F.EVT_CFG_COALESCE_US = 0 then { d.blot with closed := d.blot.closed ++ [new] }
        else { d.blot with opened := d.blot.opened ++ [new] }) := by
  have s := evCount_same (d, []) 0 1
  have n0 : (Dev.evCount (d, []) 0 1).2 = [] := evCount_none (d, []) 0 h0
  have en : (Dev.evCount (d, []) 0 1).1.get F.EVT_CFG_ENABLE = 1 := by
    rw [get_eq_of_find d _ _ _ _ (by rw [s]) (evCount_find _ _ _ _ (by simp [offMon, Fld.key, F.EVT_CFG_ENABLE]) (by decide)), he]
  have us : (Dev.evCount (d, []) 0 1).1.use F.EVT_CFG_COALESCE_US = d.use F.EVT_CFG_COALESCE_US := by
    have g := get_eq_of_find d (Dev.evCount (d, []) 0 1).1 F.EVT_CFG_COALESCE_US 0 0 (by rw [s]) (evCount_find _ _ _ _ (by simp [offMon, Fld.key, F.EVT_CFG_COALESCE_US]) (by decide))
    have q : (Dev.evCount (d, []) 0 1).1.eff = d.eff := by rw [s]
    simp only [Dev.use, g, q]
  have c2 : Tbl.get 0 (Dev.evCount (d, []) 0 1).1.regs (F.EVT_CNT_COUNT.key 2 0) < 2 ^ 39 - 1 := by
    have := evCount_find (d, []) 0 1 (F.EVT_CNT_COUNT.key 2 0) (by simp [offMon, Fld.key, F.EVT_CNT_COUNT]) (by decide)
    simp only [Tbl.get, this]; exact h2
  have c5 : Tbl.get 0 (Dev.evCount (d, []) 0 1).1.regs (F.EVT_CNT_COUNT.key 5 0) < 2 ^ 39 - 1 := by
    have := evCount_find (d, []) 0 1 (F.EVT_CNT_COUNT.key 5 0) (by simp [offMon, Fld.key, F.EVT_CNT_COUNT]) (by decide)
    simp only [Tbl.get, this]; exact h5
  unfold Dev.absorb
  simp only
  generalize Dev.evCount (d, []) 0 1 = r at s n0 en us c2 c5 ⊢
  obtain ⟨e, l⟩ := r
  simp only at s n0 en us c2 c5 ⊢
  subst n0
  rw [if_neg (by omega)]
  have b : e.blot = d.blot := by rw [s]
  have st : e.stamp = d.stamp := by rw [s]; rfl
  have fr : e.frameNow = d.frameNow := by rw [s]; rfl
  have cl : e.clk = d.clk := by rw [s]
  simp only [Bool.not_false, Bool.true_and, b, st]
  by_cases a1 : d.blot.closed.any (fun y => y.ev.sameKey x)
  · simp only [a1, if_true]
    refine ⟨evCount_none _ _ c2, ?_⟩
    rw [evCount_blot]
  · by_cases a2 : d.blot.opened.any (fun y => y.ev.sameKey x)
    · simp only [a1, a2, if_true, Bool.false_eq_true, if_false]
      refine ⟨evCount_none _ _ c2, ?_⟩
      rw [evCount_blot]
    · have : ¬ (1024 ≤ d.blot.used) := by rcases hu with h | h | h <;> [exact absurd h a1; exact absurd h a2; omega]
      simp only [a1, a2, Bool.false_eq_true, if_false, this, fr, cl]
      simp only [decide_false, Bool.or_self, Bool.false_eq_true, if_false]
      refine ⟨openEntry_none _ _ _ c5, ?_⟩
      rw [openEntry_blot, us, b]
      by_cases z : d.use F.EVT_CFG_COALESCE_US = 0 <;> simp [z]


/-! ### An entry stays -/

theorem mem_hitAll (e : Ev) (t : Nat) (l : List BlotEntry) (x : Ev) (h : ∃ y ∈ l, y.ev.sameKey x = true) :
    ∃ y ∈ hitAll e t l, y.ev.sameKey x = true := by
  obtain ⟨y, hy, hk⟩ := h
  exact ⟨_, List.mem_map_of_mem hy, by split <;> exact hk⟩

theorem holds_of_blot {d e : Dev} (h : e.blot = d.blot) (x : Ev) : e.holdsEvent x ↔ d.holdsEvent x := by
  simp only [Dev.holdsEvent, h]

theorem holds_split (d : Dev) (x : Ev) : d.holdsEvent x ↔
    (∃ y ∈ d.blot.opened, y.ev.sameKey x = true) ∨ ∃ y ∈ d.blot.closed, y.ev.sameKey x = true := by
  simp only [Dev.holdsEvent, List.mem_append, or_and_right, exists_or]

/-- Opening an entry leaves the others in the table, and its own is there. -/
theorem openEntry_holds (d : Dev) (e : BlotEntry) (l : List Ev) (x : Ev)
    (h : d.holdsEvent x ∨ e.ev.sameKey x = true) : (d.openEntry e l).1.holdsEvent x := by
  simp only [holds_split, openEntry_blot] at h ⊢
  split
  · rcases h with h | h
    · exact h.imp id fun ⟨y, hy, hk⟩ => ⟨y, List.mem_append_left _ hy, hk⟩
    · exact .inr ⟨_, List.mem_append_right _ (List.mem_singleton.mpr rfl), h⟩
  · rcases h with h | h
    · exact h.imp (fun ⟨y, hy, hk⟩ => ⟨y, List.mem_append_left _ hy, hk⟩) id
    · exact .inl ⟨_, List.mem_append_right _ (List.mem_singleton.mpr rfl), h⟩

/-- Taking another event leaves an entry in the table. -/
theorem absorb_holds (d : Dev) (e : Ev) (late : Bool) (x : Ev) (h : d.holdsEvent x) : (d.absorb e late).1.holdsEvent x := by
  have b : (Dev.evCount (d, []) 0 1).1.blot = d.blot := evCount_blot _ _ _
  rw [holds_split] at h
  unfold Dev.absorb
  simp only
  generalize Dev.evCount (d, []) 0 1 = r at b ⊢
  rw [← b] at h
  split
  · rwa [holds_split]
  · split
    · rw [holds_of_blot (evCount_blot _ _ _), holds_split]
      exact h.imp id (mem_hitAll _ _ _ _)
    · split
      · rw [holds_of_blot (evCount_blot _ _ _), holds_split]
        exact h.imp (mem_hitAll _ _ _ _) id
      · split
        · have h1 : (Dev.evCount (r.1.noteLost e.source, r.2) 3 1).1.holdsEvent x := by
            rw [holds_of_blot (evCount_blot _ _ _), holds_split]; exact h
          generalize (Dev.evCount (r.1.noteLost e.source, r.2) 3 1).1 = q at h1 ⊢
          split <;> exact h1
        · exact openEntry_holds _ _ _ x (.inl ((holds_split ..).mpr h))

theorem postN_holds (n : Nat) (e : Ev) (late : Bool) (d : Dev) (x : Ev) (h : d.holdsEvent x) :
    (Dev.postN n e late d).holdsEvent x := by
  induction n generalizing e late d with
  | zero => exact absorb_holds d e late x h
  | succ n ih =>
    have fo : ∀ (l : List Ev) (d : Dev), d.holdsEvent x → (l.foldl (fun a z => Dev.postN n z false a) d).holdsEvent x := by
      intro l
      induction l with
      | nil => exact fun _ h => h
      | cons a r ihl => exact fun d h => ihl _ (ih a false d h)
    exact fo _ _ (absorb_holds d e late x h)

theorem sameKey_refl (x : Ev) : x.sameKey x = true := by simp [Ev.sameKey]

/-- An event taken while the Blotter is on and has room has an entry. -/
theorem absorb_new (d : Dev) (x : Ev) (he : d.get F.EVT_CFG_ENABLE = 1) (hu : d.blot.used < 1024) :
    (d.absorb x false).1.holdsEvent x := by
  have s := evCount_same (d, []) 0 1
  have b : (Dev.evCount (d, []) 0 1).1.blot = d.blot := evCount_blot _ _ _
  have en : (Dev.evCount (d, []) 0 1).1.get F.EVT_CFG_ENABLE = 1 := by
    rw [get_eq_of_find d _ _ _ _ (by rw [s])
      (evCount_find _ _ _ _ (by simp [offMon, Fld.key, F.EVT_CFG_ENABLE]) (by decide)), he]
  unfold Dev.absorb
  simp only
  generalize Dev.evCount (d, []) 0 1 = r at s b en ⊢
  rw [if_neg (by omega)]
  have hit (l : List BlotEntry) (t : Nat) (h : (l.any fun y => y.ev.sameKey x) = true) :
      ∃ y ∈ hitAll x t l, y.ev.sameKey x = true := by
    obtain ⟨y, hy, hk⟩ := List.any_eq_true.mp h
    exact mem_hitAll x t l x ⟨y, hy, hk⟩
  split
  · rename_i h
    rw [holds_of_blot (evCount_blot _ _ _), holds_split]
    exact .inr (hit _ _ (by simpa using h))
  · split
    · rename_i h
      rw [holds_of_blot (evCount_blot _ _ _), holds_split]
      exact .inl (hit _ _ (by simpa using h))
    · rw [if_neg (by rw [b, Bool.false_or, decide_eq_true_eq]; omega)]
      exact openEntry_holds _ _ _ x (.inr (sameKey_refl x))

/-- An event posted while the Blotter is on and has room has an entry. -/
theorem post_new (d : Dev) (x : Ev) (he : d.get F.EVT_CFG_ENABLE = 1) (hu : d.blot.used < 1024) : (d.post x).holdsEvent x := by
  have fo : ∀ (l : List Ev) (d : Dev), d.holdsEvent x → (l.foldl (fun a z => Dev.postN 1 z false a) d).holdsEvent x := by
    intro l
    induction l with
    | nil => exact fun _ h => h
    | cons a r ihl => exact fun d h => ihl _ (postN_holds 1 a false d x h)
  exact fo _ _ (absorb_new d x he hu)

theorem pmuEdge_same (d : Dev) (a lo w old new : Nat) : (d.pmuEdge a lo w old new) = { d with regs := (d.pmuEdge a lo w old new).regs } := by
  have fo : ∀ (l : List (Nat × Nat)) (f : Dev → (Nat × Nat) → Dev) (d : Dev), (∀ d a, f d a = { d with regs := (f d a).regs }) →
      l.foldl f d = { d with regs := (l.foldl f d).regs } := by
    intro l f d h
    induction l generalizing d with
    | nil => rfl
    | cons a r ih => rw [List.foldl_cons]; have i := ih (f d a); rw [i, h d a]
  unfold Dev.pmuEdge
  split
  · rfl
  · exact fo _ _ _ fun d c => by simp only; split <;> rfl

/-! ### Which registers an event changes -/

/-- The register fields that taking an event writes (R569, R573, R574, R580, R581). -/
def noteKeys : List Nat :=
  [F.EVT_CNT_COUNT.key 0 0, F.EVT_CNT_COUNT.key 2 0, F.EVT_CNT_COUNT.key 3 0, F.EVT_STAT_OVERFLOW.key 0 0,
   F.EVT_CNT_COUNT.key 5 0, F.EVT_STAT_OPEN.key 0 0, F.HST_ALERT_LATCHED.key 0 0, F.HST_ALERT_ACTIVE.key 0 0, F.HST_IRQSTAT_ALERT.key 0 0,
   F.HST_ALERTCNT_COUNT.key 8 0, F.HST_CNT_COUNT.key 6 0]

theorem openEntry_find (d : Dev) (e : BlotEntry) (l : List Ev) (k : Nat) (hk : offMon k)
    (h5 : k ≠ F.EVT_CNT_COUNT.key 5 0) (ho : k ≠ F.EVT_STAT_OPEN.key 0 0) :
    Tbl.find? (d.openEntry e l).1.regs k = Tbl.find? d.regs k := by
  have q (b : Blot) (p : Prop) [Decidable p] :
      Tbl.find? (if p then Dev.evCount ({ d with blot := b }, l) 5 1 else ({ d with blot := b }, l)).1.regs k =
        Tbl.find? d.regs k := by
    split
    · exact evCount_find _ 5 1 k hk h5
    · rfl
  exact (Tbl.find?_set_other _ _ ho).trans (q _ _)

theorem absorb_find (d : Dev) (e : Ev) (late : Bool) (k : Nat) (hk : offMon k) (hn : k ∉ noteKeys) :
    Tbl.find? (d.absorb e late).1.regs k = Tbl.find? d.regs k := by
  simp only [noteKeys, List.mem_cons, List.not_mem_nil, or_false, not_or] at hn
  obtain ⟨n0, n2, n3, n4, m5, n5, n6, n7, n8, n9, n10⟩ := hn
  have h0 : Tbl.find? (Dev.evCount (d, []) 0 1).1.regs k = Tbl.find? d.regs k := evCount_find (d, []) 0 1 k hk n0
  unfold Dev.absorb
  simp only
  generalize Dev.evCount (d, []) 0 1 = r at h0 ⊢
  split
  · exact h0
  · split
    · exact (evCount_find _ 2 1 k hk n2).trans h0
    · split
      · exact (evCount_find _ 2 1 k hk n2).trans h0
      · split
        · have h1 : Tbl.find? (Dev.evCount (r.1.noteLost e.source, r.2) 3 1).1.regs k = Tbl.find? d.regs k :=
            (evCount_find (r.1.noteLost e.source, r.2) 3 1 k hk n3).trans h0
          generalize (Dev.evCount (r.1.noteLost e.source, r.2) 3 1).1 = q at h1 ⊢
          have h (v w x y z u : Nat) :
              Tbl.find? (Tbl.set (Tbl.set (Tbl.set (Tbl.set (Tbl.set (Tbl.set q.regs (F.EVT_STAT_OVERFLOW.key 0 0) v)
                (F.HST_ALERT_LATCHED.key 0 0) w) (F.HST_ALERT_ACTIVE.key 0 0) x) (F.HST_IRQSTAT_ALERT.key 0 0) y)
                (F.HST_ALERTCNT_COUNT.key 8 0) z) (F.HST_CNT_COUNT.key 6 0) u) k = Tbl.find? q.regs k := by
            rw [Tbl.find?_set_other _ _ n10, Tbl.find?_set_other _ _ n9, Tbl.find?_set_other _ _ n8,
              Tbl.find?_set_other _ _ n7, Tbl.find?_set_other _ _ n6, Tbl.find?_set_other _ _ n4]
          split
          · exact (h ..).trans h1
          · exact (h ..).trans h1
        · exact (openEntry_find _ _ _ k hk m5 n5).trans h0

theorem postN_find (n : Nat) (e : Ev) (late : Bool) (d : Dev) (k : Nat) (hk : offMon k) (hn : k ∉ noteKeys) :
    Tbl.find? (Dev.postN n e late d).regs k = Tbl.find? d.regs k := by
  induction n generalizing e late d with
  | zero => exact absorb_find d e late k hk hn
  | succ n ih => exact (foldl_find _ _ _ _ fun d x _ => ih x false d).trans (absorb_find d e late k hk hn)

/-- Posting an event changes, of the registers, the monitor's and those of `noteKeys` only. -/
theorem post_find (d : Dev) (e : Ev) (k : Nat) (hk : offMon k) (hn : k ∉ noteKeys) :
    Tbl.find? (d.post e).regs k = Tbl.find? d.regs k := postN_find 2 e false d k hk hn

theorem set_find (d : Dev) (f : Fld) (v i j k : Nat) (hk : offMon k) (h : k ≠ f.key i j) :
    Tbl.find? (d.set f v i j).regs k = Tbl.find? d.regs k :=
  (pmuEdge_find _ _ _ _ _ _ k hk).trans (Tbl.find?_set_other _ _ h)

theorem set_find_same (d : Dev) (f : Fld) (v i j : Nat) (hk : offMon (f.key i j)) :
    Tbl.find? (d.set f v i j).regs (f.key i j) = some (v % 2 ^ f.w) :=
  (pmuEdge_find _ _ _ _ _ _ _ hk).trans (Tbl.find?_set_same ..)

theorem bumpAt_find (d : Dev) (a inst n k : Nat) (hk : offMon k) (hn : k ∉ noteKeys) (h : k ≠ a * 64) :
    Tbl.find? (d.bumpAt a inst n).regs k = Tbl.find? d.regs k := by
  have h1 : Tbl.find? (((d.addRaw (a * 64) n).1).pmuCount a n).regs k = Tbl.find? d.regs k :=
    (pmuCount_find _ _ _ k hk).trans (Tbl.find?_set_other _ _ h)
  unfold Dev.bumpAt
  split
  · rfl
  · simp only
    split
    · exact (post_find _ _ k hk hn).trans h1
    · exact h1

/-- Setting a flag changes, beside what noting it does, its own field and its companion count. -/
theorem flag_find (d : Dev) (f : Fld) (i j : Nat) (cnt : Bool) (k : Nat) (hk : offMon k) (hn : k ∉ noteKeys)
    (h : k ≠ f.key i j) (hc : k ≠ (f.cntAddr + i * f.cntStride) * 64) :
    Tbl.find? (d.flag f i j cnt).regs k = Tbl.find? d.regs k := by
  unfold Dev.flag
  simp only
  rw [post_find _ _ k hk hn]
  split
  · rw [bumpAt_find _ _ _ _ k hk hn hc, pmuEdge_find _ _ _ _ _ _ k hk]
    exact Tbl.find?_set_other _ _ h
  · rw [pmuEdge_find _ _ _ _ _ _ k hk]
    exact Tbl.find?_set_other _ _ h

/-- Setting a flag changes registers, the Blotter's table and the messages owed. -/
theorem flag_notes (d : Dev) (f : Fld) (i j : Nat) (cnt : Bool) :
    Notes { d with regs := (d.flag f i j cnt).regs } (d.flag f i j cnt) := by
  refine ⟨?_, fun _ _ => rfl⟩
  unfold Dev.flag
  simp only
  have h1 := pmuEdge_same { d with regs := Tbl.set d.regs (f.key i j) 1 } (f.addr + i * f.s1 + j * f.s2) f.lo 1 0 1
  generalize Dev.pmuEdge { d with regs := Tbl.set d.regs (f.key i j) 1 } (f.addr + i * f.s1 + j * f.s2) f.lo 1 0 1 = p at h1 ⊢
  split
  · have h2 := (bumpAt_notes p (f.cntAddr + i * f.cntStride) i 1).same
    generalize p.bumpAt (f.cntAddr + i * f.cntStride) i 1 = q at h2 ⊢
    have h3 := (notes_post q (flagEv (f.addr + i * f.s1 + j * f.s2) f.lo i)).same
    generalize q.post (flagEv (f.addr + i * f.s1 + j * f.s2) f.lo i) = r at h3 ⊢
    rw [h3, h2, h1]
  · have h3 := (notes_post p (flagEv (f.addr + i * f.s1 + j * f.s2) f.lo i)).same
    generalize p.post (flagEv (f.addr + i * f.s1 + j * f.s2) f.lo i) = r at h3 ⊢
    rw [h3, h1]

end Sys2Proof.Machine
end

