-- ==== Sys2Proof/Laws/Rings.lean ====
section
/-!
SUPPORT. What taking a ring entry does: nothing where the ring does not offer the opcode, the whole effect where it offers
a well-formed entry.
-/

namespace Sys2Proof.Machine

open Sys2Proof

/-- A well-formed entry that a ring offers is taken with its effect. -/
theorem command_offers {d : Dev} {n opcode : Nat} {target : Bool} {args : Nat} (act : Taken → Dev → Dev)
    (h : d.offers n opcode target args = true)
    (ho : (opcodes.find? fun o => o.1 == opcode) = some (opcode, target, args)) :
    d.command n opcode act = d.taken n opcode act := by
  simp only [Dev.offers, Bool.and_eq_true, Bool.not_eq_true', beq_iff_eq] at h
  obtain ⟨⟨⟨⟨⟨h1, h2⟩, h3⟩, h4⟩, h5⟩, h6⟩ := h
  simp [Dev.command, Dev.taken, Dev.entryOf, h1, h2, h3, h4, h5, h6, ho]

/-- A ring whose head entry is none of this opcode gives this command nothing to take. -/
theorem command_none {d : Dev} {n opcode : Nat} (act : Taken → Dev → Dev)
    (h : d.canTake n = false ∨ d.fenced n = true ∨ le (d.headEntry n) 0 2 ≠ opcode ∨ opcodeOn n opcode = false) :
    d.command n opcode act = d := by
  unfold Dev.command
  rcases h with h | h | h | h <;> simp [h]

end Sys2Proof.Machine
end

