-- ==== Sys2Proof/Laws/Shared.lean ====
section
/-!
SUPPORT. What the coded line, the order of a terminal's routines, the key slots and Quill's entry points do, said once.
-/

namespace Sys2Proof.Machine

open Sys2Proof

/-! ### The coded line (R43 to R49) -/

@[simp] theorem length_flipAt (l : List Nat) (i : Nat) : (flipAt l i).length = l.length := by simp [flipAt]

/-- One bit changed: its block, and no other. -/
theorem getElem?_flipAt (l : List Nat) (i k : Nat) :
    (flipAt l i)[k]? = l[k]?.map (· ^^^ if i / 66 = k then 2 ^ (65 - i % 66) else 0) := by
  rw [flipAt, List.getElem?_modify]
  split <;> simp

/-- Bits changed one after another: each block is XORed with what the changes make of it. -/
theorem getElem?_foldl_flipAt (fl : List Nat) :
    ∃ m : Nat → Nat, ∀ (l : List Nat) (k : Nat), (fl.foldl flipAt l)[k]? = l[k]?.map (· ^^^ m k) := by
  induction fl with
  | nil => exact ⟨fun _ => 0, fun l k => by simp⟩
  | cons i r ih =>
    obtain ⟨m, h⟩ := ih
    refine ⟨fun k => (if i / 66 = k then 2 ^ (65 - i % 66) else 0) ^^^ m k, fun l k => ?_⟩
    rw [List.foldl_cons, h, getElem?_flipAt, Option.map_map]
    simp only [Function.comp_def, Nat.xor_assoc]

@[simp] theorem length_foldl_flipAt (fl l : List Nat) : (fl.foldl flipAt l).length = l.length := by
  induction fl generalizing l with
  | nil => rfl
  | cons i r ih => rw [List.foldl_cons, ih, length_flipAt]

@[simp] theorem length_encodeCw (l : List Nat) : (encodeCw l).length = l.length + 32 := by simp [encodeCw]

/-! ### The order of a terminal's routines (R110) -/

/-- The event that comes next, where it satisfies `p`, has its turn. -/
theorem Dev.turn_of_next {d : Dev} {c loc : Nat} {t : Todo} {p : Todo → Bool} (h : d.nextTodo c loc = some t)
    (hp : p t = true) : d.turn c loc p = true := by
  simp [Dev.turn, h, hp]

/-- What has its turn is the event that comes next, and it waits. -/
theorem Dev.next_of_turn {d : Dev} {c loc : Nat} {p : Todo → Bool} (h : d.turn c loc p = true) :
    ∃ t, d.nextTodo c loc = some t ∧ p t = true ∧ t ∈ d.todoOf c loc := by
  unfold Dev.turn at h
  cases hn : d.nextTodo c loc with
  | none => simp [hn] at h
  | some t =>
    refine ⟨t, rfl, by simpa [hn] using h, ?_⟩
    simp only [Dev.nextTodo] at hn
    split at hn
    · exact List.mem_of_find?_eq_some hn
    · split at hn
      · cases hn
      · exact List.mem_of_mem_head? hn

/-! ### Key slots (R412) -/

/-- In a cycle in which no slot has been written, operations see a slot as it stands. -/
theorem Dev.slotSeen_later {d : Dev} (h : d.cry.old.1 ≠ d.clk.cyc) (i : Nat) : d.slotSeen i = d.slot i := by
  simp [Dev.slotSeen, Dev.slotWritten, h]

/-- A slot keeps what it held before the cycle's first write, and stands as it did. -/
@[simp] theorem Dev.keepOld_slot (d : Dev) (i j : Nat) : (d.keepOld i).slot j = d.slot j := rfl

/-- A value that authenticates is a candidate of a slot in use, below the limit; the slot takes it as its high-water
mark. -/
theorem Dev.authenticate_pass {d e : Dev} {i seq v : Nat} {f : Nat → Nat → Option (List Byte)} {l : List Byte}
    (h : d.authenticate i seq f = (e, .pass v l)) :
    ((d.slotSeen i).state ≠ 0 ∧ (d.slotSeen i).state ≠ 2) ∧ v ∈ candidates (d.slotSeen i) seq ∧ v < keyLimit ∧
      f (d.slotSeen i).key v = some l ∧ e = d.setSeen i { d.slotSeen i with rx := some v, resync := false } := by
  unfold Dev.authenticate at h
  simp only at h
  split at h
  · cases h
  · rename_i hs
    split at h
    · cases h
    · split at h
      · rename_i w b hf
        obtain ⟨u, hu, hb⟩ := List.exists_of_findSome?_eq_some hf
        obtain ⟨b', hb', e1⟩ := Option.map_eq_some_iff.1 hb
        cases e1
        cases h
        obtain ⟨h1, h2⟩ := List.mem_filter.1 hu
        exact ⟨not_or.1 hs, h1, of_decide_eq_true h2, hb', rfl⟩
      · cases h

/-! ### Quill's entry points (R506, R508) -/

/-- Without a match register at an entry point Quill runs its ROM there: only the trace has seen it. -/
theorem Dev.quillPatch_none {d : Dev} {n : Nat}
    (h : ((d.traceMicro 128 n 0 0 0 0).qfetchAt { patch := false, addr := n }) = none) :
    d.quillPatch n = (d.traceMicro 128 n 0 0 0 0, true) := by
  simp [Dev.quillPatch, h]

end Sys2Proof.Machine
end

