-- ==== Sys2Proof/Laws/State.lean ====
section
/-!
SUPPORT. What the named updates of the device leave: one lemma for each field of each update, and the answers of `run`
and `step`.
-/

namespace Sys2Proof.Machine

open Sys2Proof

/-! ### Commands and the queue -/

@[simp] theorem run_wf {c : Instr} (h : c.wf = true) (s : State) (f : Dev → Dev) :
    run c s f = .next { s with dev := f s.dev } := by simp [run, h]

@[simp] theorem run_illFormed {c : Instr} (h : c.wf = false) (s : State) (f : Dev → Dev) :
    run c s f = .refused .illFormed := by simp [run, h]

/-- What a command can answer: the device changes and the queue stays, or the command is refused as ill formed. -/
theorem run_cases (c : Instr) (s : State) (f : Dev → Dev) :
    (c.wf = true ∧ run c s f = .next { s with dev := f s.dev }) ∨ (c.wf = false ∧ run c s f = .refused .illFormed) := by
  cases h : c.wf <;> simp [run, h]

@[simp] theorem step_nil (d : Dev) : step { pending := [], dev := d } = .next { pending := [], dev := d.idle } := rfl

@[simp] theorem step_cons (c : Instr) (q : List Instr) (d : Dev) :
    step { pending := c :: q, dev := d } = exec c { pending := q, dev := d } := rfl

/-! ### `readOut` -/

@[simp] theorem Dev.readOut_regs (d : Dev) (v : Nat) (p : Bool) : (d.readOut v p).regs = d.regs := rfl
@[simp] theorem Dev.readOut_eff (d : Dev) (v : Nat) (p : Bool) : (d.readOut v p).eff = d.eff := rfl
@[simp] theorem Dev.readOut_imgApplied (d : Dev) (v : Nat) (p : Bool) : (d.readOut v p).imgApplied = d.imgApplied := rfl
@[simp] theorem Dev.readOut_obs (d : Dev) (v : Nat) (p : Bool) : (d.readOut v p).obs = d.obs := rfl
@[simp] theorem Dev.readOut_free (d : Dev) (v : Nat) (p : Bool) : (d.readOut v p).free = d.free := rfl
@[simp] theorem Dev.readOut_clk (d : Dev) (v : Nat) (p : Bool) : (d.readOut v p).clk = d.clk := rfl
@[simp] theorem Dev.readOut_blot (d : Dev) (v : Nat) (p : Bool) : (d.readOut v p).blot = d.blot := rfl
@[simp] theorem Dev.readOut_host (d : Dev) (v : Nat) (p : Bool) :
    (d.readOut v p).host = { d.host with readData := v, readPoison := p } := rfl
@[simp] theorem Dev.readOut_boot (d : Dev) (v : Nat) (p : Bool) : (d.readOut v p).boot = d.boot := rfl
@[simp] theorem Dev.readOut_arb (d : Dev) (v : Nat) (p : Bool) : (d.readOut v p).arb = d.arb := rfl
@[simp] theorem Dev.readOut_fab (d : Dev) (v : Nat) (p : Bool) : (d.readOut v p).fab = d.fab := rfl
@[simp] theorem Dev.readOut_tim (d : Dev) (v : Nat) (p : Bool) : (d.readOut v p).tim = d.tim := rfl
@[simp] theorem Dev.readOut_tm (d : Dev) (v : Nat) (p : Bool) : (d.readOut v p).tm = d.tm := rfl
@[simp] theorem Dev.readOut_par (d : Dev) (v : Nat) (p : Bool) : (d.readOut v p).par = d.par := rfl
@[simp] theorem Dev.readOut_fwd (d : Dev) (v : Nat) (p : Bool) : (d.readOut v p).fwd = d.fwd := rfl
@[simp] theorem Dev.readOut_buf (d : Dev) (v : Nat) (p : Bool) : (d.readOut v p).buf = d.buf := rfl
@[simp] theorem Dev.readOut_mac (d : Dev) (v : Nat) (p : Bool) : (d.readOut v p).mac = d.mac := rfl
@[simp] theorem Dev.readOut_lanes (d : Dev) (v : Nat) (p : Bool) : (d.readOut v p).lanes = d.lanes := rfl
@[simp] theorem Dev.readOut_mem (d : Dev) (v : Nat) (p : Bool) : (d.readOut v p).mem = d.mem := rfl
@[simp] theorem Dev.readOut_pmu (d : Dev) (v : Nat) (p : Bool) : (d.readOut v p).pmu = d.pmu := rfl
@[simp] theorem Dev.readOut_cas (d : Dev) (v : Nat) (p : Bool) : (d.readOut v p).cas = d.cas := rfl
@[simp] theorem Dev.readOut_cirIn (d : Dev) (v : Nat) (p : Bool) : (d.readOut v p).cirIn = d.cirIn := rfl
@[simp] theorem Dev.readOut_cirs (d : Dev) (v : Nat) (p : Bool) : (d.readOut v p).cirs = d.cirs := rfl
@[simp] theorem Dev.readOut_cry (d : Dev) (v : Nat) (p : Bool) : (d.readOut v p).cry = d.cry := rfl
@[simp] theorem Dev.readOut_reg (d : Dev) (v : Nat) (p : Bool) : (d.readOut v p).reg = d.reg := rfl
@[simp] theorem Dev.readOut_lines (d : Dev) (v : Nat) (p : Bool) : (d.readOut v p).lines = d.lines := rfl
@[simp] theorem Dev.readOut_gnt (d : Dev) (v : Nat) (p : Bool) : (d.readOut v p).gnt = d.gnt := rfl
@[simp] theorem Dev.readOut_emus (d : Dev) (v : Nat) (p : Bool) : (d.readOut v p).emus = d.emus := rfl
@[simp] theorem Dev.readOut_micro (d : Dev) (v : Nat) (p : Bool) : (d.readOut v p).micro = d.micro := rfl
@[simp] theorem Dev.readOut_stl (d : Dev) (v : Nat) (p : Bool) : (d.readOut v p).stl = d.stl := rfl
@[simp] theorem Dev.readOut_quill (d : Dev) (v : Nat) (p : Bool) : (d.readOut v p).quill = d.quill := rfl

@[simp] theorem Dev.readOut_get (d : Dev) (v : Nat) (p : Bool) (f : Fld) (i' j' : Nat) : (d.readOut v p).get f i' j' = d.get f i' j' := rfl

@[simp] theorem Dev.readOut_use (d : Dev) (v : Nat) (p : Bool) (f : Fld) (i' j' : Nat) : (d.readOut v p).use f i' j' = d.use f i' j' := rfl

/-! ### `squelch` -/

@[simp] theorem Dev.squelch_regs (d : Dev) : (d.squelch).regs = d.regs := rfl
@[simp] theorem Dev.squelch_eff (d : Dev) : (d.squelch).eff = d.eff := rfl
@[simp] theorem Dev.squelch_imgApplied (d : Dev) : (d.squelch).imgApplied = d.imgApplied := rfl
@[simp] theorem Dev.squelch_obs (d : Dev) : (d.squelch).obs = d.obs := rfl
@[simp] theorem Dev.squelch_free (d : Dev) : (d.squelch).free = d.free := rfl
@[simp] theorem Dev.squelch_clk (d : Dev) : (d.squelch).clk = d.clk := rfl
@[simp] theorem Dev.squelch_blot (d : Dev) : (d.squelch).blot = d.blot := rfl
@[simp] theorem Dev.squelch_host (d : Dev) : (d.squelch).host = d.host := rfl
@[simp] theorem Dev.squelch_boot (d : Dev) : (d.squelch).boot = d.boot := rfl
@[simp] theorem Dev.squelch_arb (d : Dev) : (d.squelch).arb = { d.arb with squelch := true, startAt := none } := rfl
@[simp] theorem Dev.squelch_fab (d : Dev) : (d.squelch).fab = d.fab := rfl
@[simp] theorem Dev.squelch_tim (d : Dev) : (d.squelch).tim = d.tim := rfl
@[simp] theorem Dev.squelch_tm (d : Dev) : (d.squelch).tm = d.tm := rfl
@[simp] theorem Dev.squelch_par (d : Dev) : (d.squelch).par = d.par := rfl
@[simp] theorem Dev.squelch_fwd (d : Dev) : (d.squelch).fwd = d.fwd := rfl
@[simp] theorem Dev.squelch_buf (d : Dev) : (d.squelch).buf = d.buf := rfl
@[simp] theorem Dev.squelch_mac (d : Dev) : (d.squelch).mac = d.mac := rfl
@[simp] theorem Dev.squelch_lanes (d : Dev) : (d.squelch).lanes = d.lanes := rfl
@[simp] theorem Dev.squelch_mem (d : Dev) : (d.squelch).mem = d.mem := rfl
@[simp] theorem Dev.squelch_pmu (d : Dev) : (d.squelch).pmu = d.pmu := rfl
@[simp] theorem Dev.squelch_cas (d : Dev) : (d.squelch).cas = d.cas := rfl
@[simp] theorem Dev.squelch_cirIn (d : Dev) : (d.squelch).cirIn = d.cirIn := rfl
@[simp] theorem Dev.squelch_cirs (d : Dev) : (d.squelch).cirs = d.cirs := rfl
@[simp] theorem Dev.squelch_cry (d : Dev) : (d.squelch).cry = d.cry := rfl
@[simp] theorem Dev.squelch_reg (d : Dev) : (d.squelch).reg = d.reg := rfl
@[simp] theorem Dev.squelch_lines (d : Dev) : (d.squelch).lines = d.lines := rfl
@[simp] theorem Dev.squelch_gnt (d : Dev) : (d.squelch).gnt = d.gnt := rfl
@[simp] theorem Dev.squelch_emus (d : Dev) : (d.squelch).emus = d.emus := rfl
@[simp] theorem Dev.squelch_micro (d : Dev) : (d.squelch).micro = d.micro := rfl
@[simp] theorem Dev.squelch_stl (d : Dev) : (d.squelch).stl = d.stl := rfl
@[simp] theorem Dev.squelch_quill (d : Dev) : (d.squelch).quill = d.quill := rfl

@[simp] theorem Dev.squelch_get (d : Dev) (f : Fld) (i' j' : Nat) : (d.squelch).get f i' j' = d.get f i' j' := rfl

@[simp] theorem Dev.squelch_use (d : Dev) (f : Fld) (i' j' : Nat) : (d.squelch).use f i' j' = d.use f i' j' := rfl

/-! ### `setTx` -/

@[simp] theorem Dev.setTx_regs (d : Dev) (c : Nat) (x : TxLine) : (d.setTx c x).regs = d.regs := rfl
@[simp] theorem Dev.setTx_eff (d : Dev) (c : Nat) (x : TxLine) : (d.setTx c x).eff = d.eff := rfl
@[simp] theorem Dev.setTx_imgApplied (d : Dev) (c : Nat) (x : TxLine) : (d.setTx c x).imgApplied = d.imgApplied := rfl
@[simp] theorem Dev.setTx_obs (d : Dev) (c : Nat) (x : TxLine) : (d.setTx c x).obs = d.obs := rfl
@[simp] theorem Dev.setTx_free (d : Dev) (c : Nat) (x : TxLine) : (d.setTx c x).free = d.free := rfl
@[simp] theorem Dev.setTx_clk (d : Dev) (c : Nat) (x : TxLine) : (d.setTx c x).clk = d.clk := rfl
@[simp] theorem Dev.setTx_blot (d : Dev) (c : Nat) (x : TxLine) : (d.setTx c x).blot = d.blot := rfl
@[simp] theorem Dev.setTx_host (d : Dev) (c : Nat) (x : TxLine) : (d.setTx c x).host = d.host := rfl
@[simp] theorem Dev.setTx_boot (d : Dev) (c : Nat) (x : TxLine) : (d.setTx c x).boot = d.boot := rfl
@[simp] theorem Dev.setTx_arb (d : Dev) (c : Nat) (x : TxLine) : (d.setTx c x).arb = d.arb := rfl
@[simp] theorem Dev.setTx_fab (d : Dev) (c : Nat) (x : TxLine) : (d.setTx c x).fab = d.fab := rfl
@[simp] theorem Dev.setTx_tim (d : Dev) (c : Nat) (x : TxLine) : (d.setTx c x).tim = d.tim := rfl
@[simp] theorem Dev.setTx_tm (d : Dev) (c : Nat) (x : TxLine) : (d.setTx c x).tm = d.tm := rfl
@[simp] theorem Dev.setTx_par (d : Dev) (c : Nat) (x : TxLine) : (d.setTx c x).par = d.par := rfl
@[simp] theorem Dev.setTx_fwd (d : Dev) (c : Nat) (x : TxLine) : (d.setTx c x).fwd = d.fwd := rfl
@[simp] theorem Dev.setTx_buf (d : Dev) (c : Nat) (x : TxLine) : (d.setTx c x).buf = d.buf := rfl
@[simp] theorem Dev.setTx_mac (d : Dev) (c : Nat) (x : TxLine) : (d.setTx c x).mac = d.mac := rfl
@[simp] theorem Dev.setTx_lanes (d : Dev) (c : Nat) (x : TxLine) : (d.setTx c x).lanes = d.lanes := rfl
@[simp] theorem Dev.setTx_mem (d : Dev) (c : Nat) (x : TxLine) : (d.setTx c x).mem = d.mem := rfl
@[simp] theorem Dev.setTx_pmu (d : Dev) (c : Nat) (x : TxLine) : (d.setTx c x).pmu = d.pmu := rfl
@[simp] theorem Dev.setTx_cas (d : Dev) (c : Nat) (x : TxLine) : (d.setTx c x).cas = d.cas := rfl
@[simp] theorem Dev.setTx_cirIn (d : Dev) (c : Nat) (x : TxLine) : (d.setTx c x).cirIn = d.cirIn := rfl
@[simp] theorem Dev.setTx_cirs (d : Dev) (c : Nat) (x : TxLine) : (d.setTx c x).cirs = d.cirs := rfl
@[simp] theorem Dev.setTx_cry (d : Dev) (c : Nat) (x : TxLine) : (d.setTx c x).cry = d.cry := rfl
@[simp] theorem Dev.setTx_reg (d : Dev) (c : Nat) (x : TxLine) : (d.setTx c x).reg = d.reg := rfl
@[simp] theorem Dev.setTx_lines (d : Dev) (c : Nat) (x : TxLine) :
    (d.setTx c x).lines = { d.lines with tx := Tbl.set d.lines.tx c x } := rfl
@[simp] theorem Dev.setTx_gnt (d : Dev) (c : Nat) (x : TxLine) : (d.setTx c x).gnt = d.gnt := rfl
@[simp] theorem Dev.setTx_emus (d : Dev) (c : Nat) (x : TxLine) : (d.setTx c x).emus = d.emus := rfl
@[simp] theorem Dev.setTx_micro (d : Dev) (c : Nat) (x : TxLine) : (d.setTx c x).micro = d.micro := rfl
@[simp] theorem Dev.setTx_stl (d : Dev) (c : Nat) (x : TxLine) : (d.setTx c x).stl = d.stl := rfl
@[simp] theorem Dev.setTx_quill (d : Dev) (c : Nat) (x : TxLine) : (d.setTx c x).quill = d.quill := rfl

@[simp] theorem Dev.setTx_get (d : Dev) (c : Nat) (x : TxLine) (f : Fld) (i' j' : Nat) : (d.setTx c x).get f i' j' = d.get f i' j' := rfl

@[simp] theorem Dev.setTx_use (d : Dev) (c : Nat) (x : TxLine) (f : Fld) (i' j' : Nat) : (d.setTx c x).use f i' j' = d.use f i' j' := rfl

/-! ### `setRx` -/

@[simp] theorem Dev.setRx_regs (d : Dev) (c : Nat) (x : RxLine) : (d.setRx c x).regs = d.regs := rfl
@[simp] theorem Dev.setRx_eff (d : Dev) (c : Nat) (x : RxLine) : (d.setRx c x).eff = d.eff := rfl
@[simp] theorem Dev.setRx_imgApplied (d : Dev) (c : Nat) (x : RxLine) : (d.setRx c x).imgApplied = d.imgApplied := rfl
@[simp] theorem Dev.setRx_obs (d : Dev) (c : Nat) (x : RxLine) : (d.setRx c x).obs = d.obs := rfl
@[simp] theorem Dev.setRx_free (d : Dev) (c : Nat) (x : RxLine) : (d.setRx c x).free = d.free := rfl
@[simp] theorem Dev.setRx_clk (d : Dev) (c : Nat) (x : RxLine) : (d.setRx c x).clk = d.clk := rfl
@[simp] theorem Dev.setRx_blot (d : Dev) (c : Nat) (x : RxLine) : (d.setRx c x).blot = d.blot := rfl
@[simp] theorem Dev.setRx_host (d : Dev) (c : Nat) (x : RxLine) : (d.setRx c x).host = d.host := rfl
@[simp] theorem Dev.setRx_boot (d : Dev) (c : Nat) (x : RxLine) : (d.setRx c x).boot = d.boot := rfl
@[simp] theorem Dev.setRx_arb (d : Dev) (c : Nat) (x : RxLine) : (d.setRx c x).arb = d.arb := rfl
@[simp] theorem Dev.setRx_fab (d : Dev) (c : Nat) (x : RxLine) : (d.setRx c x).fab = d.fab := rfl
@[simp] theorem Dev.setRx_tim (d : Dev) (c : Nat) (x : RxLine) : (d.setRx c x).tim = d.tim := rfl
@[simp] theorem Dev.setRx_tm (d : Dev) (c : Nat) (x : RxLine) : (d.setRx c x).tm = d.tm := rfl
@[simp] theorem Dev.setRx_par (d : Dev) (c : Nat) (x : RxLine) : (d.setRx c x).par = d.par := rfl
@[simp] theorem Dev.setRx_fwd (d : Dev) (c : Nat) (x : RxLine) : (d.setRx c x).fwd = d.fwd := rfl
@[simp] theorem Dev.setRx_buf (d : Dev) (c : Nat) (x : RxLine) : (d.setRx c x).buf = d.buf := rfl
@[simp] theorem Dev.setRx_mac (d : Dev) (c : Nat) (x : RxLine) : (d.setRx c x).mac = d.mac := rfl
@[simp] theorem Dev.setRx_lanes (d : Dev) (c : Nat) (x : RxLine) : (d.setRx c x).lanes = d.lanes := rfl
@[simp] theorem Dev.setRx_mem (d : Dev) (c : Nat) (x : RxLine) : (d.setRx c x).mem = d.mem := rfl
@[simp] theorem Dev.setRx_pmu (d : Dev) (c : Nat) (x : RxLine) : (d.setRx c x).pmu = d.pmu := rfl
@[simp] theorem Dev.setRx_cas (d : Dev) (c : Nat) (x : RxLine) : (d.setRx c x).cas = d.cas := rfl
@[simp] theorem Dev.setRx_cirIn (d : Dev) (c : Nat) (x : RxLine) : (d.setRx c x).cirIn = d.cirIn := rfl
@[simp] theorem Dev.setRx_cirs (d : Dev) (c : Nat) (x : RxLine) : (d.setRx c x).cirs = d.cirs := rfl
@[simp] theorem Dev.setRx_cry (d : Dev) (c : Nat) (x : RxLine) : (d.setRx c x).cry = d.cry := rfl
@[simp] theorem Dev.setRx_reg (d : Dev) (c : Nat) (x : RxLine) : (d.setRx c x).reg = d.reg := rfl
@[simp] theorem Dev.setRx_lines (d : Dev) (c : Nat) (x : RxLine) :
    (d.setRx c x).lines = { d.lines with rx := Tbl.set d.lines.rx c x } := rfl
@[simp] theorem Dev.setRx_gnt (d : Dev) (c : Nat) (x : RxLine) : (d.setRx c x).gnt = d.gnt := rfl
@[simp] theorem Dev.setRx_emus (d : Dev) (c : Nat) (x : RxLine) : (d.setRx c x).emus = d.emus := rfl
@[simp] theorem Dev.setRx_micro (d : Dev) (c : Nat) (x : RxLine) : (d.setRx c x).micro = d.micro := rfl
@[simp] theorem Dev.setRx_stl (d : Dev) (c : Nat) (x : RxLine) : (d.setRx c x).stl = d.stl := rfl
@[simp] theorem Dev.setRx_quill (d : Dev) (c : Nat) (x : RxLine) : (d.setRx c x).quill = d.quill := rfl

@[simp] theorem Dev.setRx_get (d : Dev) (c : Nat) (x : RxLine) (f : Fld) (i' j' : Nat) : (d.setRx c x).get f i' j' = d.get f i' j' := rfl

@[simp] theorem Dev.setRx_use (d : Dev) (c : Nat) (x : RxLine) (f : Fld) (i' j' : Nat) : (d.setRx c x).use f i' j' = d.use f i' j' := rfl

/-! ### `setBrx` -/

@[simp] theorem Dev.setBrx_regs (d : Dev) (c : Nat) (x : BurstRx) : (d.setBrx c x).regs = d.regs := rfl
@[simp] theorem Dev.setBrx_eff (d : Dev) (c : Nat) (x : BurstRx) : (d.setBrx c x).eff = d.eff := rfl
@[simp] theorem Dev.setBrx_imgApplied (d : Dev) (c : Nat) (x : BurstRx) :
    (d.setBrx c x).imgApplied = d.imgApplied := rfl
@[simp] theorem Dev.setBrx_obs (d : Dev) (c : Nat) (x : BurstRx) : (d.setBrx c x).obs = d.obs := rfl
@[simp] theorem Dev.setBrx_free (d : Dev) (c : Nat) (x : BurstRx) : (d.setBrx c x).free = d.free := rfl
@[simp] theorem Dev.setBrx_clk (d : Dev) (c : Nat) (x : BurstRx) : (d.setBrx c x).clk = d.clk := rfl
@[simp] theorem Dev.setBrx_blot (d : Dev) (c : Nat) (x : BurstRx) : (d.setBrx c x).blot = d.blot := rfl
@[simp] theorem Dev.setBrx_host (d : Dev) (c : Nat) (x : BurstRx) : (d.setBrx c x).host = d.host := rfl
@[simp] theorem Dev.setBrx_boot (d : Dev) (c : Nat) (x : BurstRx) : (d.setBrx c x).boot = d.boot := rfl
@[simp] theorem Dev.setBrx_arb (d : Dev) (c : Nat) (x : BurstRx) : (d.setBrx c x).arb = d.arb := rfl
@[simp] theorem Dev.setBrx_fab (d : Dev) (c : Nat) (x : BurstRx) : (d.setBrx c x).fab = d.fab := rfl
@[simp] theorem Dev.setBrx_tim (d : Dev) (c : Nat) (x : BurstRx) : (d.setBrx c x).tim = d.tim := rfl
@[simp] theorem Dev.setBrx_tm (d : Dev) (c : Nat) (x : BurstRx) : (d.setBrx c x).tm = d.tm := rfl
@[simp] theorem Dev.setBrx_par (d : Dev) (c : Nat) (x : BurstRx) : (d.setBrx c x).par = d.par := rfl
@[simp] theorem Dev.setBrx_fwd (d : Dev) (c : Nat) (x : BurstRx) : (d.setBrx c x).fwd = d.fwd := rfl
@[simp] theorem Dev.setBrx_buf (d : Dev) (c : Nat) (x : BurstRx) : (d.setBrx c x).buf = d.buf := rfl
@[simp] theorem Dev.setBrx_mac (d : Dev) (c : Nat) (x : BurstRx) : (d.setBrx c x).mac = d.mac := rfl
@[simp] theorem Dev.setBrx_lanes (d : Dev) (c : Nat) (x : BurstRx) : (d.setBrx c x).lanes = d.lanes := rfl
@[simp] theorem Dev.setBrx_mem (d : Dev) (c : Nat) (x : BurstRx) : (d.setBrx c x).mem = d.mem := rfl
@[simp] theorem Dev.setBrx_pmu (d : Dev) (c : Nat) (x : BurstRx) : (d.setBrx c x).pmu = d.pmu := rfl
@[simp] theorem Dev.setBrx_cas (d : Dev) (c : Nat) (x : BurstRx) : (d.setBrx c x).cas = d.cas := rfl
@[simp] theorem Dev.setBrx_cirIn (d : Dev) (c : Nat) (x : BurstRx) : (d.setBrx c x).cirIn = d.cirIn := rfl
@[simp] theorem Dev.setBrx_cirs (d : Dev) (c : Nat) (x : BurstRx) : (d.setBrx c x).cirs = d.cirs := rfl
@[simp] theorem Dev.setBrx_cry (d : Dev) (c : Nat) (x : BurstRx) : (d.setBrx c x).cry = d.cry := rfl
@[simp] theorem Dev.setBrx_reg (d : Dev) (c : Nat) (x : BurstRx) : (d.setBrx c x).reg = d.reg := rfl
@[simp] theorem Dev.setBrx_lines (d : Dev) (c : Nat) (x : BurstRx) :
    (d.setBrx c x).lines = { d.lines with brx := Tbl.set d.lines.brx c x } := rfl
@[simp] theorem Dev.setBrx_gnt (d : Dev) (c : Nat) (x : BurstRx) : (d.setBrx c x).gnt = d.gnt := rfl
@[simp] theorem Dev.setBrx_emus (d : Dev) (c : Nat) (x : BurstRx) : (d.setBrx c x).emus = d.emus := rfl
@[simp] theorem Dev.setBrx_micro (d : Dev) (c : Nat) (x : BurstRx) : (d.setBrx c x).micro = d.micro := rfl
@[simp] theorem Dev.setBrx_stl (d : Dev) (c : Nat) (x : BurstRx) : (d.setBrx c x).stl = d.stl := rfl
@[simp] theorem Dev.setBrx_quill (d : Dev) (c : Nat) (x : BurstRx) : (d.setBrx c x).quill = d.quill := rfl

@[simp] theorem Dev.setBrx_get (d : Dev) (c : Nat) (x : BurstRx) (f : Fld) (i' j' : Nat) : (d.setBrx c x).get f i' j' = d.get f i' j' := rfl

@[simp] theorem Dev.setBrx_use (d : Dev) (c : Nat) (x : BurstRx) (f : Fld) (i' j' : Nat) : (d.setBrx c x).use f i' j' = d.use f i' j' := rfl

/-! ### `setShadow` -/

@[simp] theorem Dev.setShadow_regs (d : Dev) (c : Nat) (x : Shadow) : (d.setShadow c x).regs = d.regs := rfl
@[simp] theorem Dev.setShadow_eff (d : Dev) (c : Nat) (x : Shadow) : (d.setShadow c x).eff = d.eff := rfl
@[simp] theorem Dev.setShadow_imgApplied (d : Dev) (c : Nat) (x : Shadow) :
    (d.setShadow c x).imgApplied = d.imgApplied := rfl
@[simp] theorem Dev.setShadow_obs (d : Dev) (c : Nat) (x : Shadow) : (d.setShadow c x).obs = d.obs := rfl
@[simp] theorem Dev.setShadow_free (d : Dev) (c : Nat) (x : Shadow) : (d.setShadow c x).free = d.free := rfl
@[simp] theorem Dev.setShadow_clk (d : Dev) (c : Nat) (x : Shadow) : (d.setShadow c x).clk = d.clk := rfl
@[simp] theorem Dev.setShadow_blot (d : Dev) (c : Nat) (x : Shadow) : (d.setShadow c x).blot = d.blot := rfl
@[simp] theorem Dev.setShadow_host (d : Dev) (c : Nat) (x : Shadow) : (d.setShadow c x).host = d.host := rfl
@[simp] theorem Dev.setShadow_boot (d : Dev) (c : Nat) (x : Shadow) : (d.setShadow c x).boot = d.boot := rfl
@[simp] theorem Dev.setShadow_arb (d : Dev) (c : Nat) (x : Shadow) : (d.setShadow c x).arb = d.arb := rfl
@[simp] theorem Dev.setShadow_fab (d : Dev) (c : Nat) (x : Shadow) : (d.setShadow c x).fab = d.fab := rfl
@[simp] theorem Dev.setShadow_tim (d : Dev) (c : Nat) (x : Shadow) : (d.setShadow c x).tim = d.tim := rfl
@[simp] theorem Dev.setShadow_tm (d : Dev) (c : Nat) (x : Shadow) : (d.setShadow c x).tm = d.tm := rfl
@[simp] theorem Dev.setShadow_par (d : Dev) (c : Nat) (x : Shadow) : (d.setShadow c x).par = d.par := rfl
@[simp] theorem Dev.setShadow_fwd (d : Dev) (c : Nat) (x : Shadow) : (d.setShadow c x).fwd = d.fwd := rfl
@[simp] theorem Dev.setShadow_buf (d : Dev) (c : Nat) (x : Shadow) : (d.setShadow c x).buf = d.buf := rfl
@[simp] theorem Dev.setShadow_mac (d : Dev) (c : Nat) (x : Shadow) : (d.setShadow c x).mac = d.mac := rfl
@[simp] theorem Dev.setShadow_lanes (d : Dev) (c : Nat) (x : Shadow) : (d.setShadow c x).lanes = d.lanes := rfl
@[simp] theorem Dev.setShadow_mem (d : Dev) (c : Nat) (x : Shadow) : (d.setShadow c x).mem = d.mem := rfl
@[simp] theorem Dev.setShadow_pmu (d : Dev) (c : Nat) (x : Shadow) : (d.setShadow c x).pmu = d.pmu := rfl
@[simp] theorem Dev.setShadow_cas (d : Dev) (c : Nat) (x : Shadow) : (d.setShadow c x).cas = d.cas := rfl
@[simp] theorem Dev.setShadow_cirIn (d : Dev) (c : Nat) (x : Shadow) : (d.setShadow c x).cirIn = d.cirIn := rfl
@[simp] theorem Dev.setShadow_cirs (d : Dev) (c : Nat) (x : Shadow) : (d.setShadow c x).cirs = d.cirs := rfl
@[simp] theorem Dev.setShadow_cry (d : Dev) (c : Nat) (x : Shadow) : (d.setShadow c x).cry = d.cry := rfl
@[simp] theorem Dev.setShadow_reg (d : Dev) (c : Nat) (x : Shadow) : (d.setShadow c x).reg = d.reg := rfl
@[simp] theorem Dev.setShadow_lines (d : Dev) (c : Nat) (x : Shadow) :
    (d.setShadow c x).lines = { d.lines with shadow := Tbl.set d.lines.shadow c x } := rfl
@[simp] theorem Dev.setShadow_gnt (d : Dev) (c : Nat) (x : Shadow) : (d.setShadow c x).gnt = d.gnt := rfl
@[simp] theorem Dev.setShadow_emus (d : Dev) (c : Nat) (x : Shadow) : (d.setShadow c x).emus = d.emus := rfl
@[simp] theorem Dev.setShadow_micro (d : Dev) (c : Nat) (x : Shadow) : (d.setShadow c x).micro = d.micro := rfl
@[simp] theorem Dev.setShadow_stl (d : Dev) (c : Nat) (x : Shadow) : (d.setShadow c x).stl = d.stl := rfl
@[simp] theorem Dev.setShadow_quill (d : Dev) (c : Nat) (x : Shadow) : (d.setShadow c x).quill = d.quill := rfl

@[simp] theorem Dev.setShadow_get (d : Dev) (c : Nat) (x : Shadow) (f : Fld) (i' j' : Nat) : (d.setShadow c x).get f i' j' = d.get f i' j' := rfl

@[simp] theorem Dev.setShadow_use (d : Dev) (c : Nat) (x : Shadow) (f : Fld) (i' j' : Nat) : (d.setShadow c x).use f i' j' = d.use f i' j' := rfl

/-! ### `setCont` -/

@[simp] theorem Dev.setCont_regs (d : Dev) (k : Nat) (x : ContSt) : (d.setCont k x).regs = d.regs := rfl
@[simp] theorem Dev.setCont_eff (d : Dev) (k : Nat) (x : ContSt) : (d.setCont k x).eff = d.eff := rfl
@[simp] theorem Dev.setCont_imgApplied (d : Dev) (k : Nat) (x : ContSt) :
    (d.setCont k x).imgApplied = d.imgApplied := rfl
@[simp] theorem Dev.setCont_obs (d : Dev) (k : Nat) (x : ContSt) : (d.setCont k x).obs = d.obs := rfl
@[simp] theorem Dev.setCont_free (d : Dev) (k : Nat) (x : ContSt) : (d.setCont k x).free = d.free := rfl
@[simp] theorem Dev.setCont_clk (d : Dev) (k : Nat) (x : ContSt) : (d.setCont k x).clk = d.clk := rfl
@[simp] theorem Dev.setCont_blot (d : Dev) (k : Nat) (x : ContSt) : (d.setCont k x).blot = d.blot := rfl
@[simp] theorem Dev.setCont_host (d : Dev) (k : Nat) (x : ContSt) : (d.setCont k x).host = d.host := rfl
@[simp] theorem Dev.setCont_boot (d : Dev) (k : Nat) (x : ContSt) : (d.setCont k x).boot = d.boot := rfl
@[simp] theorem Dev.setCont_arb (d : Dev) (k : Nat) (x : ContSt) : (d.setCont k x).arb = d.arb := rfl
@[simp] theorem Dev.setCont_fab (d : Dev) (k : Nat) (x : ContSt) : (d.setCont k x).fab = d.fab := rfl
@[simp] theorem Dev.setCont_tim (d : Dev) (k : Nat) (x : ContSt) : (d.setCont k x).tim = d.tim := rfl
@[simp] theorem Dev.setCont_tm (d : Dev) (k : Nat) (x : ContSt) : (d.setCont k x).tm = d.tm := rfl
@[simp] theorem Dev.setCont_par (d : Dev) (k : Nat) (x : ContSt) : (d.setCont k x).par = d.par := rfl
@[simp] theorem Dev.setCont_fwd (d : Dev) (k : Nat) (x : ContSt) : (d.setCont k x).fwd = d.fwd := rfl
@[simp] theorem Dev.setCont_buf (d : Dev) (k : Nat) (x : ContSt) : (d.setCont k x).buf = d.buf := rfl
@[simp] theorem Dev.setCont_mac (d : Dev) (k : Nat) (x : ContSt) : (d.setCont k x).mac = d.mac := rfl
@[simp] theorem Dev.setCont_lanes (d : Dev) (k : Nat) (x : ContSt) : (d.setCont k x).lanes = d.lanes := rfl
@[simp] theorem Dev.setCont_mem (d : Dev) (k : Nat) (x : ContSt) : (d.setCont k x).mem = d.mem := rfl
@[simp] theorem Dev.setCont_pmu (d : Dev) (k : Nat) (x : ContSt) : (d.setCont k x).pmu = d.pmu := rfl
@[simp] theorem Dev.setCont_cas (d : Dev) (k : Nat) (x : ContSt) : (d.setCont k x).cas = d.cas := rfl
@[simp] theorem Dev.setCont_cirIn (d : Dev) (k : Nat) (x : ContSt) : (d.setCont k x).cirIn = d.cirIn := rfl
@[simp] theorem Dev.setCont_cirs (d : Dev) (k : Nat) (x : ContSt) : (d.setCont k x).cirs = d.cirs := rfl
@[simp] theorem Dev.setCont_cry (d : Dev) (k : Nat) (x : ContSt) : (d.setCont k x).cry = d.cry := rfl
@[simp] theorem Dev.setCont_reg (d : Dev) (k : Nat) (x : ContSt) : (d.setCont k x).reg = d.reg := rfl
@[simp] theorem Dev.setCont_lines (d : Dev) (k : Nat) (x : ContSt) : (d.setCont k x).lines = d.lines := rfl
@[simp] theorem Dev.setCont_gnt (d : Dev) (k : Nat) (x : ContSt) :
    (d.setCont k x).gnt = { d.gnt with st := Tbl.set d.gnt.st k x } := rfl
@[simp] theorem Dev.setCont_emus (d : Dev) (k : Nat) (x : ContSt) : (d.setCont k x).emus = d.emus := rfl
@[simp] theorem Dev.setCont_micro (d : Dev) (k : Nat) (x : ContSt) : (d.setCont k x).micro = d.micro := rfl
@[simp] theorem Dev.setCont_stl (d : Dev) (k : Nat) (x : ContSt) : (d.setCont k x).stl = d.stl := rfl
@[simp] theorem Dev.setCont_quill (d : Dev) (k : Nat) (x : ContSt) : (d.setCont k x).quill = d.quill := rfl

@[simp] theorem Dev.setCont_get (d : Dev) (k : Nat) (x : ContSt) (f : Fld) (i' j' : Nat) : (d.setCont k x).get f i' j' = d.get f i' j' := rfl

@[simp] theorem Dev.setCont_use (d : Dev) (k : Nat) (x : ContSt) (f : Fld) (i' j' : Nat) : (d.setCont k x).use f i' j' = d.use f i' j' := rfl

/-! ### `setQ` -/

@[simp] theorem Dev.setQ_regs (d : Dev) (q : Nat) (x : QSt) : (d.setQ q x).regs = d.regs := rfl
@[simp] theorem Dev.setQ_eff (d : Dev) (q : Nat) (x : QSt) : (d.setQ q x).eff = d.eff := rfl
@[simp] theorem Dev.setQ_imgApplied (d : Dev) (q : Nat) (x : QSt) : (d.setQ q x).imgApplied = d.imgApplied := rfl
@[simp] theorem Dev.setQ_obs (d : Dev) (q : Nat) (x : QSt) : (d.setQ q x).obs = d.obs := rfl
@[simp] theorem Dev.setQ_free (d : Dev) (q : Nat) (x : QSt) : (d.setQ q x).free = d.free := rfl
@[simp] theorem Dev.setQ_clk (d : Dev) (q : Nat) (x : QSt) : (d.setQ q x).clk = d.clk := rfl
@[simp] theorem Dev.setQ_blot (d : Dev) (q : Nat) (x : QSt) : (d.setQ q x).blot = d.blot := rfl
@[simp] theorem Dev.setQ_host (d : Dev) (q : Nat) (x : QSt) : (d.setQ q x).host = d.host := rfl
@[simp] theorem Dev.setQ_boot (d : Dev) (q : Nat) (x : QSt) : (d.setQ q x).boot = d.boot := rfl
@[simp] theorem Dev.setQ_arb (d : Dev) (q : Nat) (x : QSt) : (d.setQ q x).arb = d.arb := rfl
@[simp] theorem Dev.setQ_fab (d : Dev) (q : Nat) (x : QSt) : (d.setQ q x).fab = d.fab := rfl
@[simp] theorem Dev.setQ_tim (d : Dev) (q : Nat) (x : QSt) : (d.setQ q x).tim = d.tim := rfl
@[simp] theorem Dev.setQ_tm (d : Dev) (q : Nat) (x : QSt) :
    (d.setQ q x).tm = { d.tm with qst := Tbl.set d.tm.qst q x } := rfl
@[simp] theorem Dev.setQ_par (d : Dev) (q : Nat) (x : QSt) : (d.setQ q x).par = d.par := rfl
@[simp] theorem Dev.setQ_fwd (d : Dev) (q : Nat) (x : QSt) : (d.setQ q x).fwd = d.fwd := rfl
@[simp] theorem Dev.setQ_buf (d : Dev) (q : Nat) (x : QSt) : (d.setQ q x).buf = d.buf := rfl
@[simp] theorem Dev.setQ_mac (d : Dev) (q : Nat) (x : QSt) : (d.setQ q x).mac = d.mac := rfl
@[simp] theorem Dev.setQ_lanes (d : Dev) (q : Nat) (x : QSt) : (d.setQ q x).lanes = d.lanes := rfl
@[simp] theorem Dev.setQ_mem (d : Dev) (q : Nat) (x : QSt) : (d.setQ q x).mem = d.mem := rfl
@[simp] theorem Dev.setQ_pmu (d : Dev) (q : Nat) (x : QSt) : (d.setQ q x).pmu = d.pmu := rfl
@[simp] theorem Dev.setQ_cas (d : Dev) (q : Nat) (x : QSt) : (d.setQ q x).cas = d.cas := rfl
@[simp] theorem Dev.setQ_cirIn (d : Dev) (q : Nat) (x : QSt) : (d.setQ q x).cirIn = d.cirIn := rfl
@[simp] theorem Dev.setQ_cirs (d : Dev) (q : Nat) (x : QSt) : (d.setQ q x).cirs = d.cirs := rfl
@[simp] theorem Dev.setQ_cry (d : Dev) (q : Nat) (x : QSt) : (d.setQ q x).cry = d.cry := rfl
@[simp] theorem Dev.setQ_reg (d : Dev) (q : Nat) (x : QSt) : (d.setQ q x).reg = d.reg := rfl
@[simp] theorem Dev.setQ_lines (d : Dev) (q : Nat) (x : QSt) : (d.setQ q x).lines = d.lines := rfl
@[simp] theorem Dev.setQ_gnt (d : Dev) (q : Nat) (x : QSt) : (d.setQ q x).gnt = d.gnt := rfl
@[simp] theorem Dev.setQ_emus (d : Dev) (q : Nat) (x : QSt) : (d.setQ q x).emus = d.emus := rfl
@[simp] theorem Dev.setQ_micro (d : Dev) (q : Nat) (x : QSt) : (d.setQ q x).micro = d.micro := rfl
@[simp] theorem Dev.setQ_stl (d : Dev) (q : Nat) (x : QSt) : (d.setQ q x).stl = d.stl := rfl
@[simp] theorem Dev.setQ_quill (d : Dev) (q : Nat) (x : QSt) : (d.setQ q x).quill = d.quill := rfl

@[simp] theorem Dev.setQ_get (d : Dev) (q : Nat) (x : QSt) (f : Fld) (i' j' : Nat) : (d.setQ q x).get f i' j' = d.get f i' j' := rfl

@[simp] theorem Dev.setQ_use (d : Dev) (q : Nat) (x : QSt) (f : Fld) (i' j' : Nat) : (d.setQ q x).use f i' j' = d.use f i' j' := rfl

/-! ### `setN` -/

@[simp] theorem Dev.setN_regs (d : Dev) (n : Nat) (x : NSt) : (d.setN n x).regs = d.regs := rfl
@[simp] theorem Dev.setN_eff (d : Dev) (n : Nat) (x : NSt) : (d.setN n x).eff = d.eff := rfl
@[simp] theorem Dev.setN_imgApplied (d : Dev) (n : Nat) (x : NSt) : (d.setN n x).imgApplied = d.imgApplied := rfl
@[simp] theorem Dev.setN_obs (d : Dev) (n : Nat) (x : NSt) : (d.setN n x).obs = d.obs := rfl
@[simp] theorem Dev.setN_free (d : Dev) (n : Nat) (x : NSt) : (d.setN n x).free = d.free := rfl
@[simp] theorem Dev.setN_clk (d : Dev) (n : Nat) (x : NSt) : (d.setN n x).clk = d.clk := rfl
@[simp] theorem Dev.setN_blot (d : Dev) (n : Nat) (x : NSt) : (d.setN n x).blot = d.blot := rfl
@[simp] theorem Dev.setN_host (d : Dev) (n : Nat) (x : NSt) : (d.setN n x).host = d.host := rfl
@[simp] theorem Dev.setN_boot (d : Dev) (n : Nat) (x : NSt) : (d.setN n x).boot = d.boot := rfl
@[simp] theorem Dev.setN_arb (d : Dev) (n : Nat) (x : NSt) : (d.setN n x).arb = d.arb := rfl
@[simp] theorem Dev.setN_fab (d : Dev) (n : Nat) (x : NSt) : (d.setN n x).fab = d.fab := rfl
@[simp] theorem Dev.setN_tim (d : Dev) (n : Nat) (x : NSt) : (d.setN n x).tim = d.tim := rfl
@[simp] theorem Dev.setN_tm (d : Dev) (n : Nat) (x : NSt) :
    (d.setN n x).tm = { d.tm with nst := Tbl.set d.tm.nst n x } := rfl
@[simp] theorem Dev.setN_par (d : Dev) (n : Nat) (x : NSt) : (d.setN n x).par = d.par := rfl
@[simp] theorem Dev.setN_fwd (d : Dev) (n : Nat) (x : NSt) : (d.setN n x).fwd = d.fwd := rfl
@[simp] theorem Dev.setN_buf (d : Dev) (n : Nat) (x : NSt) : (d.setN n x).buf = d.buf := rfl
@[simp] theorem Dev.setN_mac (d : Dev) (n : Nat) (x : NSt) : (d.setN n x).mac = d.mac := rfl
@[simp] theorem Dev.setN_lanes (d : Dev) (n : Nat) (x : NSt) : (d.setN n x).lanes = d.lanes := rfl
@[simp] theorem Dev.setN_mem (d : Dev) (n : Nat) (x : NSt) : (d.setN n x).mem = d.mem := rfl
@[simp] theorem Dev.setN_pmu (d : Dev) (n : Nat) (x : NSt) : (d.setN n x).pmu = d.pmu := rfl
@[simp] theorem Dev.setN_cas (d : Dev) (n : Nat) (x : NSt) : (d.setN n x).cas = d.cas := rfl
@[simp] theorem Dev.setN_cirIn (d : Dev) (n : Nat) (x : NSt) : (d.setN n x).cirIn = d.cirIn := rfl
@[simp] theorem Dev.setN_cirs (d : Dev) (n : Nat) (x : NSt) : (d.setN n x).cirs = d.cirs := rfl
@[simp] theorem Dev.setN_cry (d : Dev) (n : Nat) (x : NSt) : (d.setN n x).cry = d.cry := rfl
@[simp] theorem Dev.setN_reg (d : Dev) (n : Nat) (x : NSt) : (d.setN n x).reg = d.reg := rfl
@[simp] theorem Dev.setN_lines (d : Dev) (n : Nat) (x : NSt) : (d.setN n x).lines = d.lines := rfl
@[simp] theorem Dev.setN_gnt (d : Dev) (n : Nat) (x : NSt) : (d.setN n x).gnt = d.gnt := rfl
@[simp] theorem Dev.setN_emus (d : Dev) (n : Nat) (x : NSt) : (d.setN n x).emus = d.emus := rfl
@[simp] theorem Dev.setN_micro (d : Dev) (n : Nat) (x : NSt) : (d.setN n x).micro = d.micro := rfl
@[simp] theorem Dev.setN_stl (d : Dev) (n : Nat) (x : NSt) : (d.setN n x).stl = d.stl := rfl
@[simp] theorem Dev.setN_quill (d : Dev) (n : Nat) (x : NSt) : (d.setN n x).quill = d.quill := rfl

@[simp] theorem Dev.setN_get (d : Dev) (n : Nat) (x : NSt) (f : Fld) (i' j' : Nat) : (d.setN n x).get f i' j' = d.get f i' j' := rfl

@[simp] theorem Dev.setN_use (d : Dev) (n : Nat) (x : NSt) (f : Fld) (i' j' : Nat) : (d.setN n x).use f i' j' = d.use f i' j' := rfl

/-! ### `setTrig` -/

@[simp] theorem Dev.setTrig_regs (d : Dev) (k : Nat) (x : Trig) : (d.setTrig k x).regs = d.regs := rfl
@[simp] theorem Dev.setTrig_eff (d : Dev) (k : Nat) (x : Trig) : (d.setTrig k x).eff = d.eff := rfl
@[simp] theorem Dev.setTrig_imgApplied (d : Dev) (k : Nat) (x : Trig) : (d.setTrig k x).imgApplied = d.imgApplied := rfl
@[simp] theorem Dev.setTrig_obs (d : Dev) (k : Nat) (x : Trig) : (d.setTrig k x).obs = d.obs := rfl
@[simp] theorem Dev.setTrig_free (d : Dev) (k : Nat) (x : Trig) : (d.setTrig k x).free = d.free := rfl
@[simp] theorem Dev.setTrig_clk (d : Dev) (k : Nat) (x : Trig) : (d.setTrig k x).clk = d.clk := rfl
@[simp] theorem Dev.setTrig_blot (d : Dev) (k : Nat) (x : Trig) : (d.setTrig k x).blot = d.blot := rfl
@[simp] theorem Dev.setTrig_host (d : Dev) (k : Nat) (x : Trig) : (d.setTrig k x).host = d.host := rfl
@[simp] theorem Dev.setTrig_boot (d : Dev) (k : Nat) (x : Trig) : (d.setTrig k x).boot = d.boot := rfl
@[simp] theorem Dev.setTrig_arb (d : Dev) (k : Nat) (x : Trig) : (d.setTrig k x).arb = d.arb := rfl
@[simp] theorem Dev.setTrig_fab (d : Dev) (k : Nat) (x : Trig) : (d.setTrig k x).fab = d.fab := rfl
@[simp] theorem Dev.setTrig_tim (d : Dev) (k : Nat) (x : Trig) :
    (d.setTrig k x).tim = { d.tim with trigs := Tbl.set d.tim.trigs k x } := rfl
@[simp] theorem Dev.setTrig_tm (d : Dev) (k : Nat) (x : Trig) : (d.setTrig k x).tm = d.tm := rfl
@[simp] theorem Dev.setTrig_par (d : Dev) (k : Nat) (x : Trig) : (d.setTrig k x).par = d.par := rfl
@[simp] theorem Dev.setTrig_fwd (d : Dev) (k : Nat) (x : Trig) : (d.setTrig k x).fwd = d.fwd := rfl
@[simp] theorem Dev.setTrig_buf (d : Dev) (k : Nat) (x : Trig) : (d.setTrig k x).buf = d.buf := rfl
@[simp] theorem Dev.setTrig_mac (d : Dev) (k : Nat) (x : Trig) : (d.setTrig k x).mac = d.mac := rfl
@[simp] theorem Dev.setTrig_lanes (d : Dev) (k : Nat) (x : Trig) : (d.setTrig k x).lanes = d.lanes := rfl
@[simp] theorem Dev.setTrig_mem (d : Dev) (k : Nat) (x : Trig) : (d.setTrig k x).mem = d.mem := rfl
@[simp] theorem Dev.setTrig_pmu (d : Dev) (k : Nat) (x : Trig) : (d.setTrig k x).pmu = d.pmu := rfl
@[simp] theorem Dev.setTrig_cas (d : Dev) (k : Nat) (x : Trig) : (d.setTrig k x).cas = d.cas := rfl
@[simp] theorem Dev.setTrig_cirIn (d : Dev) (k : Nat) (x : Trig) : (d.setTrig k x).cirIn = d.cirIn := rfl
@[simp] theorem Dev.setTrig_cirs (d : Dev) (k : Nat) (x : Trig) : (d.setTrig k x).cirs = d.cirs := rfl
@[simp] theorem Dev.setTrig_cry (d : Dev) (k : Nat) (x : Trig) : (d.setTrig k x).cry = d.cry := rfl
@[simp] theorem Dev.setTrig_reg (d : Dev) (k : Nat) (x : Trig) : (d.setTrig k x).reg = d.reg := rfl
@[simp] theorem Dev.setTrig_lines (d : Dev) (k : Nat) (x : Trig) : (d.setTrig k x).lines = d.lines := rfl
@[simp] theorem Dev.setTrig_gnt (d : Dev) (k : Nat) (x : Trig) : (d.setTrig k x).gnt = d.gnt := rfl
@[simp] theorem Dev.setTrig_emus (d : Dev) (k : Nat) (x : Trig) : (d.setTrig k x).emus = d.emus := rfl
@[simp] theorem Dev.setTrig_micro (d : Dev) (k : Nat) (x : Trig) : (d.setTrig k x).micro = d.micro := rfl
@[simp] theorem Dev.setTrig_stl (d : Dev) (k : Nat) (x : Trig) : (d.setTrig k x).stl = d.stl := rfl
@[simp] theorem Dev.setTrig_quill (d : Dev) (k : Nat) (x : Trig) : (d.setTrig k x).quill = d.quill := rfl

@[simp] theorem Dev.setTrig_get (d : Dev) (k : Nat) (x : Trig) (f : Fld) (i' j' : Nat) : (d.setTrig k x).get f i' j' = d.get f i' j' := rfl

@[simp] theorem Dev.setTrig_use (d : Dev) (k : Nat) (x : Trig) (f : Fld) (i' j' : Nat) : (d.setTrig k x).use f i' j' = d.use f i' j' := rfl

/-! ### `setEmu` -/

@[simp] theorem Dev.setEmu_regs (d : Dev) (g : Nat) (e : Emu) : (d.setEmu g e).regs = d.regs := rfl
@[simp] theorem Dev.setEmu_eff (d : Dev) (g : Nat) (e : Emu) : (d.setEmu g e).eff = d.eff := rfl
@[simp] theorem Dev.setEmu_imgApplied (d : Dev) (g : Nat) (e : Emu) : (d.setEmu g e).imgApplied = d.imgApplied := rfl
@[simp] theorem Dev.setEmu_obs (d : Dev) (g : Nat) (e : Emu) : (d.setEmu g e).obs = d.obs := rfl
@[simp] theorem Dev.setEmu_free (d : Dev) (g : Nat) (e : Emu) : (d.setEmu g e).free = d.free := rfl
@[simp] theorem Dev.setEmu_clk (d : Dev) (g : Nat) (e : Emu) : (d.setEmu g e).clk = d.clk := rfl
@[simp] theorem Dev.setEmu_blot (d : Dev) (g : Nat) (e : Emu) : (d.setEmu g e).blot = d.blot := rfl
@[simp] theorem Dev.setEmu_host (d : Dev) (g : Nat) (e : Emu) : (d.setEmu g e).host = d.host := rfl
@[simp] theorem Dev.setEmu_boot (d : Dev) (g : Nat) (e : Emu) : (d.setEmu g e).boot = d.boot := rfl
@[simp] theorem Dev.setEmu_arb (d : Dev) (g : Nat) (e : Emu) : (d.setEmu g e).arb = d.arb := rfl
@[simp] theorem Dev.setEmu_fab (d : Dev) (g : Nat) (e : Emu) : (d.setEmu g e).fab = d.fab := rfl
@[simp] theorem Dev.setEmu_tim (d : Dev) (g : Nat) (e : Emu) : (d.setEmu g e).tim = d.tim := rfl
@[simp] theorem Dev.setEmu_tm (d : Dev) (g : Nat) (e : Emu) : (d.setEmu g e).tm = d.tm := rfl
@[simp] theorem Dev.setEmu_par (d : Dev) (g : Nat) (e : Emu) : (d.setEmu g e).par = d.par := rfl
@[simp] theorem Dev.setEmu_fwd (d : Dev) (g : Nat) (e : Emu) : (d.setEmu g e).fwd = d.fwd := rfl
@[simp] theorem Dev.setEmu_buf (d : Dev) (g : Nat) (e : Emu) : (d.setEmu g e).buf = d.buf := rfl
@[simp] theorem Dev.setEmu_mac (d : Dev) (g : Nat) (e : Emu) : (d.setEmu g e).mac = d.mac := rfl
@[simp] theorem Dev.setEmu_lanes (d : Dev) (g : Nat) (e : Emu) : (d.setEmu g e).lanes = d.lanes := rfl
@[simp] theorem Dev.setEmu_mem (d : Dev) (g : Nat) (e : Emu) : (d.setEmu g e).mem = d.mem := rfl
@[simp] theorem Dev.setEmu_pmu (d : Dev) (g : Nat) (e : Emu) : (d.setEmu g e).pmu = d.pmu := rfl
@[simp] theorem Dev.setEmu_cas (d : Dev) (g : Nat) (e : Emu) : (d.setEmu g e).cas = d.cas := rfl
@[simp] theorem Dev.setEmu_cirIn (d : Dev) (g : Nat) (e : Emu) : (d.setEmu g e).cirIn = d.cirIn := rfl
@[simp] theorem Dev.setEmu_cirs (d : Dev) (g : Nat) (e : Emu) : (d.setEmu g e).cirs = d.cirs := rfl
@[simp] theorem Dev.setEmu_cry (d : Dev) (g : Nat) (e : Emu) : (d.setEmu g e).cry = d.cry := rfl
@[simp] theorem Dev.setEmu_reg (d : Dev) (g : Nat) (e : Emu) : (d.setEmu g e).reg = d.reg := rfl
@[simp] theorem Dev.setEmu_lines (d : Dev) (g : Nat) (e : Emu) : (d.setEmu g e).lines = d.lines := rfl
@[simp] theorem Dev.setEmu_gnt (d : Dev) (g : Nat) (e : Emu) : (d.setEmu g e).gnt = d.gnt := rfl
@[simp] theorem Dev.setEmu_emus (d : Dev) (g : Nat) (e : Emu) :
    (d.setEmu g e).emus = { d.emus with terms := Tbl.put newEmu d.emus.terms g e } := rfl
@[simp] theorem Dev.setEmu_micro (d : Dev) (g : Nat) (e : Emu) : (d.setEmu g e).micro = d.micro := rfl
@[simp] theorem Dev.setEmu_stl (d : Dev) (g : Nat) (e : Emu) : (d.setEmu g e).stl = d.stl := rfl
@[simp] theorem Dev.setEmu_quill (d : Dev) (g : Nat) (e : Emu) : (d.setEmu g e).quill = d.quill := rfl

@[simp] theorem Dev.setEmu_get (d : Dev) (g : Nat) (e : Emu) (f : Fld) (i' j' : Nat) : (d.setEmu g e).get f i' j' = d.get f i' j' := rfl

@[simp] theorem Dev.setEmu_use (d : Dev) (g : Nat) (e : Emu) (f : Fld) (i' j' : Nat) : (d.setEmu g e).use f i' j' = d.use f i' j' := rfl

/-! ### `setPair` -/

@[simp] theorem Dev.setPair_regs (d : Dev) (i x : Nat) : (d.setPair i x).regs = d.regs := rfl
@[simp] theorem Dev.setPair_eff (d : Dev) (i x : Nat) : (d.setPair i x).eff = d.eff := rfl
@[simp] theorem Dev.setPair_imgApplied (d : Dev) (i x : Nat) : (d.setPair i x).imgApplied = d.imgApplied := rfl
@[simp] theorem Dev.setPair_obs (d : Dev) (i x : Nat) : (d.setPair i x).obs = d.obs := rfl
@[simp] theorem Dev.setPair_free (d : Dev) (i x : Nat) : (d.setPair i x).free = d.free := rfl
@[simp] theorem Dev.setPair_clk (d : Dev) (i x : Nat) : (d.setPair i x).clk = d.clk := rfl
@[simp] theorem Dev.setPair_blot (d : Dev) (i x : Nat) : (d.setPair i x).blot = d.blot := rfl
@[simp] theorem Dev.setPair_host (d : Dev) (i x : Nat) : (d.setPair i x).host = d.host := rfl
@[simp] theorem Dev.setPair_boot (d : Dev) (i x : Nat) : (d.setPair i x).boot = d.boot := rfl
@[simp] theorem Dev.setPair_arb (d : Dev) (i x : Nat) : (d.setPair i x).arb = d.arb := rfl
@[simp] theorem Dev.setPair_fab (d : Dev) (i x : Nat) :
    (d.setPair i x).fab = { d.fab with pairs := Tbl.set d.fab.pairs i x } := rfl
@[simp] theorem Dev.setPair_tim (d : Dev) (i x : Nat) : (d.setPair i x).tim = d.tim := rfl
@[simp] theorem Dev.setPair_tm (d : Dev) (i x : Nat) : (d.setPair i x).tm = d.tm := rfl
@[simp] theorem Dev.setPair_par (d : Dev) (i x : Nat) : (d.setPair i x).par = d.par := rfl
@[simp] theorem Dev.setPair_fwd (d : Dev) (i x : Nat) : (d.setPair i x).fwd = d.fwd := rfl
@[simp] theorem Dev.setPair_buf (d : Dev) (i x : Nat) : (d.setPair i x).buf = d.buf := rfl
@[simp] theorem Dev.setPair_mac (d : Dev) (i x : Nat) : (d.setPair i x).mac = d.mac := rfl
@[simp] theorem Dev.setPair_lanes (d : Dev) (i x : Nat) : (d.setPair i x).lanes = d.lanes := rfl
@[simp] theorem Dev.setPair_mem (d : Dev) (i x : Nat) : (d.setPair i x).mem = d.mem := rfl
@[simp] theorem Dev.setPair_pmu (d : Dev) (i x : Nat) : (d.setPair i x).pmu = d.pmu := rfl
@[simp] theorem Dev.setPair_cas (d : Dev) (i x : Nat) : (d.setPair i x).cas = d.cas := rfl
@[simp] theorem Dev.setPair_cirIn (d : Dev) (i x : Nat) : (d.setPair i x).cirIn = d.cirIn := rfl
@[simp] theorem Dev.setPair_cirs (d : Dev) (i x : Nat) : (d.setPair i x).cirs = d.cirs := rfl
@[simp] theorem Dev.setPair_cry (d : Dev) (i x : Nat) : (d.setPair i x).cry = d.cry := rfl
@[simp] theorem Dev.setPair_reg (d : Dev) (i x : Nat) : (d.setPair i x).reg = d.reg := rfl
@[simp] theorem Dev.setPair_lines (d : Dev) (i x : Nat) : (d.setPair i x).lines = d.lines := rfl
@[simp] theorem Dev.setPair_gnt (d : Dev) (i x : Nat) : (d.setPair i x).gnt = d.gnt := rfl
@[simp] theorem Dev.setPair_emus (d : Dev) (i x : Nat) : (d.setPair i x).emus = d.emus := rfl
@[simp] theorem Dev.setPair_micro (d : Dev) (i x : Nat) : (d.setPair i x).micro = d.micro := rfl
@[simp] theorem Dev.setPair_stl (d : Dev) (i x : Nat) : (d.setPair i x).stl = d.stl := rfl
@[simp] theorem Dev.setPair_quill (d : Dev) (i x : Nat) : (d.setPair i x).quill = d.quill := rfl

@[simp] theorem Dev.setPair_get (d : Dev) (i x : Nat) (f : Fld) (m n : Nat) : (d.setPair i x).get f m n = d.get f m n := rfl

@[simp] theorem Dev.setPair_use (d : Dev) (i x : Nat) (f : Fld) (m n : Nat) : (d.setPair i x).use f m n = d.use f m n := rfl

/-! ### `setLink` -/

@[simp] theorem Dev.setLink_regs (d : Dev) (a b : Nat) (x : Link) : (d.setLink a b x).regs = d.regs := rfl
@[simp] theorem Dev.setLink_eff (d : Dev) (a b : Nat) (x : Link) : (d.setLink a b x).eff = d.eff := rfl
@[simp] theorem Dev.setLink_imgApplied (d : Dev) (a b : Nat) (x : Link) :
    (d.setLink a b x).imgApplied = d.imgApplied := rfl
@[simp] theorem Dev.setLink_obs (d : Dev) (a b : Nat) (x : Link) : (d.setLink a b x).obs = d.obs := rfl
@[simp] theorem Dev.setLink_free (d : Dev) (a b : Nat) (x : Link) : (d.setLink a b x).free = d.free := rfl
@[simp] theorem Dev.setLink_clk (d : Dev) (a b : Nat) (x : Link) : (d.setLink a b x).clk = d.clk := rfl
@[simp] theorem Dev.setLink_blot (d : Dev) (a b : Nat) (x : Link) : (d.setLink a b x).blot = d.blot := rfl
@[simp] theorem Dev.setLink_host (d : Dev) (a b : Nat) (x : Link) : (d.setLink a b x).host = d.host := rfl
@[simp] theorem Dev.setLink_boot (d : Dev) (a b : Nat) (x : Link) : (d.setLink a b x).boot = d.boot := rfl
@[simp] theorem Dev.setLink_arb (d : Dev) (a b : Nat) (x : Link) : (d.setLink a b x).arb = d.arb := rfl
@[simp] theorem Dev.setLink_fab (d : Dev) (a b : Nat) (x : Link) :
    (d.setLink a b x).fab = { d.fab with links := Tbl.set d.fab.links (2 * a + b) x } := rfl
@[simp] theorem Dev.setLink_tim (d : Dev) (a b : Nat) (x : Link) : (d.setLink a b x).tim = d.tim := rfl
@[simp] theorem Dev.setLink_tm (d : Dev) (a b : Nat) (x : Link) : (d.setLink a b x).tm = d.tm := rfl
@[simp] theorem Dev.setLink_par (d : Dev) (a b : Nat) (x : Link) : (d.setLink a b x).par = d.par := rfl
@[simp] theorem Dev.setLink_fwd (d : Dev) (a b : Nat) (x : Link) : (d.setLink a b x).fwd = d.fwd := rfl
@[simp] theorem Dev.setLink_buf (d : Dev) (a b : Nat) (x : Link) : (d.setLink a b x).buf = d.buf := rfl
@[simp] theorem Dev.setLink_mac (d : Dev) (a b : Nat) (x : Link) : (d.setLink a b x).mac = d.mac := rfl
@[simp] theorem Dev.setLink_lanes (d : Dev) (a b : Nat) (x : Link) : (d.setLink a b x).lanes = d.lanes := rfl
@[simp] theorem Dev.setLink_mem (d : Dev) (a b : Nat) (x : Link) : (d.setLink a b x).mem = d.mem := rfl
@[simp] theorem Dev.setLink_pmu (d : Dev) (a b : Nat) (x : Link) : (d.setLink a b x).pmu = d.pmu := rfl
@[simp] theorem Dev.setLink_cas (d : Dev) (a b : Nat) (x : Link) : (d.setLink a b x).cas = d.cas := rfl
@[simp] theorem Dev.setLink_cirIn (d : Dev) (a b : Nat) (x : Link) : (d.setLink a b x).cirIn = d.cirIn := rfl
@[simp] theorem Dev.setLink_cirs (d : Dev) (a b : Nat) (x : Link) : (d.setLink a b x).cirs = d.cirs := rfl
@[simp] theorem Dev.setLink_cry (d : Dev) (a b : Nat) (x : Link) : (d.setLink a b x).cry = d.cry := rfl
@[simp] theorem Dev.setLink_reg (d : Dev) (a b : Nat) (x : Link) : (d.setLink a b x).reg = d.reg := rfl
@[simp] theorem Dev.setLink_lines (d : Dev) (a b : Nat) (x : Link) : (d.setLink a b x).lines = d.lines := rfl
@[simp] theorem Dev.setLink_gnt (d : Dev) (a b : Nat) (x : Link) : (d.setLink a b x).gnt = d.gnt := rfl
@[simp] theorem Dev.setLink_emus (d : Dev) (a b : Nat) (x : Link) : (d.setLink a b x).emus = d.emus := rfl
@[simp] theorem Dev.setLink_micro (d : Dev) (a b : Nat) (x : Link) : (d.setLink a b x).micro = d.micro := rfl
@[simp] theorem Dev.setLink_stl (d : Dev) (a b : Nat) (x : Link) : (d.setLink a b x).stl = d.stl := rfl
@[simp] theorem Dev.setLink_quill (d : Dev) (a b : Nat) (x : Link) : (d.setLink a b x).quill = d.quill := rfl

@[simp] theorem Dev.setLink_get (d : Dev) (a b : Nat) (x : Link) (f : Fld) (i' j' : Nat) : (d.setLink a b x).get f i' j' = d.get f i' j' := rfl

@[simp] theorem Dev.setLink_use (d : Dev) (a b : Nat) (x : Link) (f : Fld) (i' j' : Nat) : (d.setLink a b x).use f i' j' = d.use f i' j' := rfl

/-! ### `setTags` -/

@[simp] theorem Dev.setTags_regs (d : Dev) (p n : Nat) : (d.setTags p n).regs = d.regs := rfl
@[simp] theorem Dev.setTags_eff (d : Dev) (p n : Nat) : (d.setTags p n).eff = d.eff := rfl
@[simp] theorem Dev.setTags_imgApplied (d : Dev) (p n : Nat) : (d.setTags p n).imgApplied = d.imgApplied := rfl
@[simp] theorem Dev.setTags_obs (d : Dev) (p n : Nat) : (d.setTags p n).obs = d.obs := rfl
@[simp] theorem Dev.setTags_free (d : Dev) (p n : Nat) : (d.setTags p n).free = d.free := rfl
@[simp] theorem Dev.setTags_clk (d : Dev) (p n : Nat) : (d.setTags p n).clk = d.clk := rfl
@[simp] theorem Dev.setTags_blot (d : Dev) (p n : Nat) : (d.setTags p n).blot = d.blot := rfl
@[simp] theorem Dev.setTags_host (d : Dev) (p n : Nat) : (d.setTags p n).host = d.host := rfl
@[simp] theorem Dev.setTags_boot (d : Dev) (p n : Nat) : (d.setTags p n).boot = d.boot := rfl
@[simp] theorem Dev.setTags_arb (d : Dev) (p n : Nat) : (d.setTags p n).arb = d.arb := rfl
@[simp] theorem Dev.setTags_fab (d : Dev) (p n : Nat) : (d.setTags p n).fab = d.fab := rfl
@[simp] theorem Dev.setTags_tim (d : Dev) (p n : Nat) : (d.setTags p n).tim = d.tim := rfl
@[simp] theorem Dev.setTags_tm (d : Dev) (p n : Nat) : (d.setTags p n).tm = d.tm := rfl
@[simp] theorem Dev.setTags_par (d : Dev) (p n : Nat) : (d.setTags p n).par = d.par := rfl
@[simp] theorem Dev.setTags_fwd (d : Dev) (p n : Nat) : (d.setTags p n).fwd = d.fwd := rfl
@[simp] theorem Dev.setTags_buf (d : Dev) (p n : Nat) : (d.setTags p n).buf = d.buf := rfl
@[simp] theorem Dev.setTags_mac (d : Dev) (p n : Nat) : (d.setTags p n).mac = d.mac := rfl
@[simp] theorem Dev.setTags_lanes (d : Dev) (p n : Nat) : (d.setTags p n).lanes = d.lanes := rfl
@[simp] theorem Dev.setTags_mem (d : Dev) (p n : Nat) :
    (d.setTags p n).mem = { d.mem with tags := Tbl.set d.mem.tags p n } := rfl
@[simp] theorem Dev.setTags_pmu (d : Dev) (p n : Nat) : (d.setTags p n).pmu = d.pmu := rfl
@[simp] theorem Dev.setTags_cas (d : Dev) (p n : Nat) : (d.setTags p n).cas = d.cas := rfl
@[simp] theorem Dev.setTags_cirIn (d : Dev) (p n : Nat) : (d.setTags p n).cirIn = d.cirIn := rfl
@[simp] theorem Dev.setTags_cirs (d : Dev) (p n : Nat) : (d.setTags p n).cirs = d.cirs := rfl
@[simp] theorem Dev.setTags_cry (d : Dev) (p n : Nat) : (d.setTags p n).cry = d.cry := rfl
@[simp] theorem Dev.setTags_reg (d : Dev) (p n : Nat) : (d.setTags p n).reg = d.reg := rfl
@[simp] theorem Dev.setTags_lines (d : Dev) (p n : Nat) : (d.setTags p n).lines = d.lines := rfl
@[simp] theorem Dev.setTags_gnt (d : Dev) (p n : Nat) : (d.setTags p n).gnt = d.gnt := rfl
@[simp] theorem Dev.setTags_emus (d : Dev) (p n : Nat) : (d.setTags p n).emus = d.emus := rfl
@[simp] theorem Dev.setTags_micro (d : Dev) (p n : Nat) : (d.setTags p n).micro = d.micro := rfl
@[simp] theorem Dev.setTags_stl (d : Dev) (p n : Nat) : (d.setTags p n).stl = d.stl := rfl
@[simp] theorem Dev.setTags_quill (d : Dev) (p n : Nat) : (d.setTags p n).quill = d.quill := rfl

@[simp] theorem Dev.setTags_get (d : Dev) (p n : Nat) (f : Fld) (i' j' : Nat) : (d.setTags p n).get f i' j' = d.get f i' j' := rfl

@[simp] theorem Dev.setTags_use (d : Dev) (p n : Nat) (f : Fld) (i' j' : Nat) : (d.setTags p n).use f i' j' = d.use f i' j' := rfl

/-! ### `setJobs` -/

@[simp] theorem Dev.setJobs_regs (d : Dev) (q : Nat) (l : List Job) : (d.setJobs q l).regs = d.regs := rfl
@[simp] theorem Dev.setJobs_eff (d : Dev) (q : Nat) (l : List Job) : (d.setJobs q l).eff = d.eff := rfl
@[simp] theorem Dev.setJobs_imgApplied (d : Dev) (q : Nat) (l : List Job) :
    (d.setJobs q l).imgApplied = d.imgApplied := rfl
@[simp] theorem Dev.setJobs_obs (d : Dev) (q : Nat) (l : List Job) : (d.setJobs q l).obs = d.obs := rfl
@[simp] theorem Dev.setJobs_free (d : Dev) (q : Nat) (l : List Job) : (d.setJobs q l).free = d.free := rfl
@[simp] theorem Dev.setJobs_clk (d : Dev) (q : Nat) (l : List Job) : (d.setJobs q l).clk = d.clk := rfl
@[simp] theorem Dev.setJobs_blot (d : Dev) (q : Nat) (l : List Job) : (d.setJobs q l).blot = d.blot := rfl
@[simp] theorem Dev.setJobs_host (d : Dev) (q : Nat) (l : List Job) : (d.setJobs q l).host = d.host := rfl
@[simp] theorem Dev.setJobs_boot (d : Dev) (q : Nat) (l : List Job) : (d.setJobs q l).boot = d.boot := rfl
@[simp] theorem Dev.setJobs_arb (d : Dev) (q : Nat) (l : List Job) : (d.setJobs q l).arb = d.arb := rfl
@[simp] theorem Dev.setJobs_fab (d : Dev) (q : Nat) (l : List Job) : (d.setJobs q l).fab = d.fab := rfl
@[simp] theorem Dev.setJobs_tim (d : Dev) (q : Nat) (l : List Job) : (d.setJobs q l).tim = d.tim := rfl
@[simp] theorem Dev.setJobs_tm (d : Dev) (q : Nat) (l : List Job) : (d.setJobs q l).tm = d.tm := rfl
@[simp] theorem Dev.setJobs_par (d : Dev) (q : Nat) (l : List Job) : (d.setJobs q l).par = d.par := rfl
@[simp] theorem Dev.setJobs_fwd (d : Dev) (q : Nat) (l : List Job) : (d.setJobs q l).fwd = d.fwd := rfl
@[simp] theorem Dev.setJobs_buf (d : Dev) (q : Nat) (l : List Job) : (d.setJobs q l).buf = d.buf := rfl
@[simp] theorem Dev.setJobs_mac (d : Dev) (q : Nat) (l : List Job) : (d.setJobs q l).mac = d.mac := rfl
@[simp] theorem Dev.setJobs_lanes (d : Dev) (q : Nat) (l : List Job) : (d.setJobs q l).lanes = d.lanes := rfl
@[simp] theorem Dev.setJobs_mem (d : Dev) (q : Nat) (l : List Job) : (d.setJobs q l).mem = d.mem := rfl
@[simp] theorem Dev.setJobs_pmu (d : Dev) (q : Nat) (l : List Job) : (d.setJobs q l).pmu = d.pmu := rfl
@[simp] theorem Dev.setJobs_cas (d : Dev) (q : Nat) (l : List Job) : (d.setJobs q l).cas = d.cas := rfl
@[simp] theorem Dev.setJobs_cirIn (d : Dev) (q : Nat) (l : List Job) : (d.setJobs q l).cirIn = d.cirIn := rfl
@[simp] theorem Dev.setJobs_cirs (d : Dev) (q : Nat) (l : List Job) : (d.setJobs q l).cirs = d.cirs := rfl
@[simp] theorem Dev.setJobs_cry (d : Dev) (q : Nat) (l : List Job) :
    (d.setJobs q l).cry = { d.cry with jobs := Tbl.set d.cry.jobs q l } := rfl
@[simp] theorem Dev.setJobs_reg (d : Dev) (q : Nat) (l : List Job) : (d.setJobs q l).reg = d.reg := rfl
@[simp] theorem Dev.setJobs_lines (d : Dev) (q : Nat) (l : List Job) : (d.setJobs q l).lines = d.lines := rfl
@[simp] theorem Dev.setJobs_gnt (d : Dev) (q : Nat) (l : List Job) : (d.setJobs q l).gnt = d.gnt := rfl
@[simp] theorem Dev.setJobs_emus (d : Dev) (q : Nat) (l : List Job) : (d.setJobs q l).emus = d.emus := rfl
@[simp] theorem Dev.setJobs_micro (d : Dev) (q : Nat) (l : List Job) : (d.setJobs q l).micro = d.micro := rfl
@[simp] theorem Dev.setJobs_stl (d : Dev) (q : Nat) (l : List Job) : (d.setJobs q l).stl = d.stl := rfl
@[simp] theorem Dev.setJobs_quill (d : Dev) (q : Nat) (l : List Job) : (d.setJobs q l).quill = d.quill := rfl

@[simp] theorem Dev.setJobs_get (d : Dev) (q : Nat) (l : List Job) (f : Fld) (i' j' : Nat) : (d.setJobs q l).get f i' j' = d.get f i' j' := rfl

@[simp] theorem Dev.setJobs_use (d : Dev) (q : Nat) (l : List Job) (f : Fld) (i' j' : Nat) : (d.setJobs q l).use f i' j' = d.use f i' j' := rfl

/-! ### `setSample` -/

@[simp] theorem Dev.setSample_regs (d : Dev) (k : Nat) (x : QSample) : (d.setSample k x).regs = d.regs := rfl
@[simp] theorem Dev.setSample_eff (d : Dev) (k : Nat) (x : QSample) : (d.setSample k x).eff = d.eff := rfl
@[simp] theorem Dev.setSample_imgApplied (d : Dev) (k : Nat) (x : QSample) :
    (d.setSample k x).imgApplied = d.imgApplied := rfl
@[simp] theorem Dev.setSample_obs (d : Dev) (k : Nat) (x : QSample) : (d.setSample k x).obs = d.obs := rfl
@[simp] theorem Dev.setSample_free (d : Dev) (k : Nat) (x : QSample) : (d.setSample k x).free = d.free := rfl
@[simp] theorem Dev.setSample_clk (d : Dev) (k : Nat) (x : QSample) : (d.setSample k x).clk = d.clk := rfl
@[simp] theorem Dev.setSample_blot (d : Dev) (k : Nat) (x : QSample) : (d.setSample k x).blot = d.blot := rfl
@[simp] theorem Dev.setSample_host (d : Dev) (k : Nat) (x : QSample) : (d.setSample k x).host = d.host := rfl
@[simp] theorem Dev.setSample_boot (d : Dev) (k : Nat) (x : QSample) : (d.setSample k x).boot = d.boot := rfl
@[simp] theorem Dev.setSample_arb (d : Dev) (k : Nat) (x : QSample) : (d.setSample k x).arb = d.arb := rfl
@[simp] theorem Dev.setSample_fab (d : Dev) (k : Nat) (x : QSample) : (d.setSample k x).fab = d.fab := rfl
@[simp] theorem Dev.setSample_tim (d : Dev) (k : Nat) (x : QSample) : (d.setSample k x).tim = d.tim := rfl
@[simp] theorem Dev.setSample_tm (d : Dev) (k : Nat) (x : QSample) : (d.setSample k x).tm = d.tm := rfl
@[simp] theorem Dev.setSample_par (d : Dev) (k : Nat) (x : QSample) : (d.setSample k x).par = d.par := rfl
@[simp] theorem Dev.setSample_fwd (d : Dev) (k : Nat) (x : QSample) : (d.setSample k x).fwd = d.fwd := rfl
@[simp] theorem Dev.setSample_buf (d : Dev) (k : Nat) (x : QSample) : (d.setSample k x).buf = d.buf := rfl
@[simp] theorem Dev.setSample_mac (d : Dev) (k : Nat) (x : QSample) : (d.setSample k x).mac = d.mac := rfl
@[simp] theorem Dev.setSample_lanes (d : Dev) (k : Nat) (x : QSample) : (d.setSample k x).lanes = d.lanes := rfl
@[simp] theorem Dev.setSample_mem (d : Dev) (k : Nat) (x : QSample) : (d.setSample k x).mem = d.mem := rfl
@[simp] theorem Dev.setSample_pmu (d : Dev) (k : Nat) (x : QSample) : (d.setSample k x).pmu = d.pmu := rfl
@[simp] theorem Dev.setSample_cas (d : Dev) (k : Nat) (x : QSample) : (d.setSample k x).cas = d.cas := rfl
@[simp] theorem Dev.setSample_cirIn (d : Dev) (k : Nat) (x : QSample) : (d.setSample k x).cirIn = d.cirIn := rfl
@[simp] theorem Dev.setSample_cirs (d : Dev) (k : Nat) (x : QSample) : (d.setSample k x).cirs = d.cirs := rfl
@[simp] theorem Dev.setSample_cry (d : Dev) (k : Nat) (x : QSample) : (d.setSample k x).cry = d.cry := rfl
@[simp] theorem Dev.setSample_reg (d : Dev) (k : Nat) (x : QSample) : (d.setSample k x).reg = d.reg := rfl
@[simp] theorem Dev.setSample_lines (d : Dev) (k : Nat) (x : QSample) : (d.setSample k x).lines = d.lines := rfl
@[simp] theorem Dev.setSample_gnt (d : Dev) (k : Nat) (x : QSample) : (d.setSample k x).gnt = d.gnt := rfl
@[simp] theorem Dev.setSample_emus (d : Dev) (k : Nat) (x : QSample) : (d.setSample k x).emus = d.emus := rfl
@[simp] theorem Dev.setSample_micro (d : Dev) (k : Nat) (x : QSample) : (d.setSample k x).micro = d.micro := rfl
@[simp] theorem Dev.setSample_stl (d : Dev) (k : Nat) (x : QSample) : (d.setSample k x).stl = d.stl := rfl
@[simp] theorem Dev.setSample_quill (d : Dev) (k : Nat) (x : QSample) :
    (d.setSample k x).quill = { d.quill with samples := Tbl.set d.quill.samples k x } := rfl

@[simp] theorem Dev.setSample_get (d : Dev) (k : Nat) (x : QSample) (f : Fld) (i' j' : Nat) : (d.setSample k x).get f i' j' = d.get f i' j' := rfl

@[simp] theorem Dev.setSample_use (d : Dev) (k : Nat) (x : QSample) (f : Fld) (i' j' : Nat) : (d.setSample k x).use f i' j' = d.use f i' j' := rfl

/-! ### `setQstate` -/

@[simp] theorem Dev.setQstate_regs (d : Dev) (i : Nat) (x : QState) : (d.setQstate i x).regs = d.regs := rfl
@[simp] theorem Dev.setQstate_eff (d : Dev) (i : Nat) (x : QState) : (d.setQstate i x).eff = d.eff := rfl
@[simp] theorem Dev.setQstate_imgApplied (d : Dev) (i : Nat) (x : QState) :
    (d.setQstate i x).imgApplied = d.imgApplied := rfl
@[simp] theorem Dev.setQstate_obs (d : Dev) (i : Nat) (x : QState) : (d.setQstate i x).obs = d.obs := rfl
@[simp] theorem Dev.setQstate_free (d : Dev) (i : Nat) (x : QState) : (d.setQstate i x).free = d.free := rfl
@[simp] theorem Dev.setQstate_clk (d : Dev) (i : Nat) (x : QState) : (d.setQstate i x).clk = d.clk := rfl
@[simp] theorem Dev.setQstate_blot (d : Dev) (i : Nat) (x : QState) : (d.setQstate i x).blot = d.blot := rfl
@[simp] theorem Dev.setQstate_host (d : Dev) (i : Nat) (x : QState) : (d.setQstate i x).host = d.host := rfl
@[simp] theorem Dev.setQstate_boot (d : Dev) (i : Nat) (x : QState) : (d.setQstate i x).boot = d.boot := rfl
@[simp] theorem Dev.setQstate_arb (d : Dev) (i : Nat) (x : QState) : (d.setQstate i x).arb = d.arb := rfl
@[simp] theorem Dev.setQstate_fab (d : Dev) (i : Nat) (x : QState) : (d.setQstate i x).fab = d.fab := rfl
@[simp] theorem Dev.setQstate_tim (d : Dev) (i : Nat) (x : QState) : (d.setQstate i x).tim = d.tim := rfl
@[simp] theorem Dev.setQstate_tm (d : Dev) (i : Nat) (x : QState) : (d.setQstate i x).tm = d.tm := rfl
@[simp] theorem Dev.setQstate_par (d : Dev) (i : Nat) (x : QState) : (d.setQstate i x).par = d.par := rfl
@[simp] theorem Dev.setQstate_fwd (d : Dev) (i : Nat) (x : QState) : (d.setQstate i x).fwd = d.fwd := rfl
@[simp] theorem Dev.setQstate_buf (d : Dev) (i : Nat) (x : QState) : (d.setQstate i x).buf = d.buf := rfl
@[simp] theorem Dev.setQstate_mac (d : Dev) (i : Nat) (x : QState) : (d.setQstate i x).mac = d.mac := rfl
@[simp] theorem Dev.setQstate_lanes (d : Dev) (i : Nat) (x : QState) : (d.setQstate i x).lanes = d.lanes := rfl
@[simp] theorem Dev.setQstate_mem (d : Dev) (i : Nat) (x : QState) : (d.setQstate i x).mem = d.mem := rfl
@[simp] theorem Dev.setQstate_pmu (d : Dev) (i : Nat) (x : QState) : (d.setQstate i x).pmu = d.pmu := rfl
@[simp] theorem Dev.setQstate_cas (d : Dev) (i : Nat) (x : QState) : (d.setQstate i x).cas = d.cas := rfl
@[simp] theorem Dev.setQstate_cirIn (d : Dev) (i : Nat) (x : QState) : (d.setQstate i x).cirIn = d.cirIn := rfl
@[simp] theorem Dev.setQstate_cirs (d : Dev) (i : Nat) (x : QState) : (d.setQstate i x).cirs = d.cirs := rfl
@[simp] theorem Dev.setQstate_cry (d : Dev) (i : Nat) (x : QState) : (d.setQstate i x).cry = d.cry := rfl
@[simp] theorem Dev.setQstate_reg (d : Dev) (i : Nat) (x : QState) : (d.setQstate i x).reg = d.reg := rfl
@[simp] theorem Dev.setQstate_lines (d : Dev) (i : Nat) (x : QState) : (d.setQstate i x).lines = d.lines := rfl
@[simp] theorem Dev.setQstate_gnt (d : Dev) (i : Nat) (x : QState) : (d.setQstate i x).gnt = d.gnt := rfl
@[simp] theorem Dev.setQstate_emus (d : Dev) (i : Nat) (x : QState) : (d.setQstate i x).emus = d.emus := rfl
@[simp] theorem Dev.setQstate_micro (d : Dev) (i : Nat) (x : QState) : (d.setQstate i x).micro = d.micro := rfl
@[simp] theorem Dev.setQstate_stl (d : Dev) (i : Nat) (x : QState) : (d.setQstate i x).stl = d.stl := rfl
@[simp] theorem Dev.setQstate_quill (d : Dev) (i : Nat) (x : QState) :
    (d.setQstate i x).quill = { d.quill with states := Tbl.set d.quill.states i x } := rfl

@[simp] theorem Dev.setQstate_get (d : Dev) (i : Nat) (x : QState) (f : Fld) (i' j' : Nat) : (d.setQstate i x).get f i' j' = d.get f i' j' := rfl

@[simp] theorem Dev.setQstate_use (d : Dev) (i : Nat) (x : QState) (f : Fld) (i' j' : Nat) : (d.setQstate i x).use f i' j' = d.use f i' j' := rfl

end Sys2Proof.Machine
end

