-- ==== Sys2Proof/Laws/WriteBuffer.lean ====
section
/-!
SUPPORT. What a write request does to the observation region: it stands there once it has entered the write buffer, and
changes nothing while it waits or where it is discarded (R365, R372, R377).
-/

namespace Sys2Proof.Machine

open Sys2Proof

theorem bump_obs (d : Dev) (f : Fld) (i j n : Nat) : (d.bump f i j n).obs = d.obs := (bumpAt_notes _ _ _ _).rest.2.1

theorem memCount_obs (d : Dev) (k n : Nat) : (d.memCount k n).obs = d.obs := bump_obs ..

theorem touch_obs (d : Dev) (a : Nat) : (d.touch a).obs = d.obs := by
  unfold Dev.touch Dev.touchBank
  simp only [memCount_obs]

/-- The reads of a write that enables accesses in part change no byte. -/
theorem mergeReads_obs {d e : Dev} {w : WrReq} (h : d.mergeReads w = some e) : e.obs = d.obs := by
  have fo (c : List Nat) (l : List Nat) (d : Dev) :
      (l.foldl (fun d i => if c.contains i then d.memCount 2 else (d.touch (256 * w.block)).memCount 0) d).obs = d.obs := by
    induction l generalizing d with
    | nil => rfl
    | cons i r ih => rw [List.foldl_cons, ih]; split <;> simp only [memCount_obs, touch_obs]
  unfold Dev.mergeReads at h
  simp only at h
  generalize (if w.port = 4 then w.accs.filter w.part else []) = l at h
  split at h
  · cases h; rfl
  · split at h
    · cases h
    · cases h; exact fo ..

/-- With a tag of CXL_HOST free, or from another port, a write finds its reads. -/
theorem mergeReads_some {d : Dev} {w : WrReq} (h : w.port ≠ 4 ∨ 0 < d.tagsFree 4) : ∃ e, d.mergeReads w = some e := by
  unfold Dev.mergeReads
  simp only
  rcases h with h | h
  · rw [if_neg h]; exact ⟨_, rfl⟩
  · generalize (if w.port = 4 then w.accs.filter w.part else []) = l
    rw [if_neg (Nat.ne_of_gt h)]
    split
    · exact ⟨_, rfl⟩
    · exact ⟨_, rfl⟩

/-- What a write that enters the buffer leaves of the bytes. -/
theorem enterWrite_obs {d e : Dev} {w : WrReq} (h : d.enterWrite w = some e) :
    e.obs = if d.memUsable (256 * w.block) = true ∧ w.spills = false then Mem.writeN d.obs (256 * w.block + w.off) w.bytes
      else d.obs := by
  unfold Dev.enterWrite at h
  split at h
  · rename_i hu; cases h; rw [if_neg (by simp [hu])]
  · rename_i hu
    simp only at h
    split at h
    · cases h
    · split at h
      · cases h
      · rename_i g hg
        have ho := mergeReads_obs hg
        cases h
        have e1 (x : Dev) (p : Prop) [Decidable p] (l : List WrEnt) :
            (if p then x else { x with mem := { x.mem with wbuf := l } }).obs = x.obs := by split <;> rfl
        rw [e1]
        have hu' : d.memUsable (256 * w.block) = true := by simpa using hu
        unfold Dev.landWrite
        cases hs : w.spills <;> simp [hu', ho]

/-- With room for an entry, and a tag where the write reads first, a write enters. -/
theorem enterWrite_some {d : Dev} {w : WrReq} (hr : d.mem.wbuf.length < 1024) (ht : w.port ≠ 4 ∨ 0 < d.tagsFree 4) :
    ∃ e, d.enterWrite w = some e := by
  unfold Dev.enterWrite
  split
  · exact ⟨_, rfl⟩
  · simp only
    rw [if_neg (by omega)]
    obtain ⟨g, hg⟩ := mergeReads_some (w := w) ht
    rw [hg]
    exact ⟨_, rfl⟩

/-- A write request changes the bytes that it carries, where their memory is usable, or none. -/
theorem putWrite_obs (d : Dev) (w : WrReq) : (d.putWrite w).obs = d.obs ∨
    d.memUsable (256 * w.block) = true ∧ w.spills = false ∧
      (d.putWrite w).obs = Mem.writeN d.obs (256 * w.block + w.off) w.bytes := by
  unfold Dev.putWrite
  simp only
  split
  · exact .inl rfl
  · split
    · rename_i e he
      rw [enterWrite_obs he]
      split
      · rename_i h; exact .inr ⟨h.1, h.2, rfl⟩
      · exact .inl rfl
    · refine .inl ?_
      split
      · exact memCount_obs ..
      · rfl

/-- A write that finds its port and the buffer free stands in memory at once. -/
theorem putWrite_room {d : Dev} {w : WrReq} (hp : (d.mem.waiting.any fun x => x.port == w.port) = false)
    (hr : d.mem.wbuf.length < 1024) (ht : w.port ≠ 4 ∨ 0 < d.tagsFree 4) (hu : d.memUsable (256 * w.block) = true)
    (hs : w.spills = false) : (d.putWrite w).obs = Mem.writeN d.obs (256 * w.block + w.off) w.bytes := by
  obtain ⟨e, he⟩ := enterWrite_some hr ht
  unfold Dev.putWrite
  simp only [hp, he]
  rw [if_neg (by simp), enterWrite_obs he, if_pos ⟨hu, hs⟩]

/-- A write behind others of its port waits, and changes nothing. -/
theorem putWrite_waits {d : Dev} {w : WrReq} (hp : (d.mem.waiting.any fun x => x.port == w.port) = true) :
    d.putWrite w = { d with mem := { d.mem with waiting := d.mem.waiting ++ [w] } } := by
  unfold Dev.putWrite
  simp only
  rw [if_pos hp]

/-- The request of a write within one block. -/
def oneReq (d : Dev) (port a : Nat) (l : List Byte) : WrReq :=
  { block := a / 256, port := port, at_ := d.clk.cyc, off := a % 256, bytes := l }

/-- A write within one 256-byte block is one request (R363). -/
theorem memWrite_one (d : Dev) (port a : Nat) (l : List Byte) (h0 : 0 < l.length) (h : a % 256 + l.length ≤ 256) :
    d.memWrite port a l = d.putWrite (oneReq d port a l) := by
  have nl : l.isEmpty = false := by cases l; simp at h0; rfl
  have e (n : Nat) (d : Dev) (a : Nat) : d.writeBlocks port a [] n = d := by cases n <;> rfl
  unfold Dev.memWrite Dev.writeBlocks
  simp only [nl, Bool.false_eq_true, if_false]
  rw [List.take_of_length_le (by omega), List.drop_eq_nil_of_le (by omega), e]
  rfl

theorem oneReq_place (d : Dev) (port a : Nat) (l : List Byte) :
    256 * (oneReq d port a l).block + (oneReq d port a l).off = a := by
  unfold oneReq; simp only; omega

end Sys2Proof.Machine
end

