-- ==== Sys2Proof/Tests/Slice0.lean ====
section
/-!
SUPPORT. The model's own tests: ill-formed terms that the check refuses, worked examples of the manual, and for every
statement with hypotheses a state and operands that meet them.
-/

namespace Sys2Proof.Tests

open Sys2Proof Sys2Proof.Machine Sys2Proof.Crypto

-- One theorem after another: the kernel evaluates each, and many at once need more threads than there are.
set_option Elab.async false
set_option linter.unusedVariables false

/-! ### States of the tests -/

/-- The device at reset. -/
def idle : Dev := Dev.reset Fuses.blank [] false

/-- The device at reset with some register fields set. -/
def dev (l : List (Fld × Nat × Nat × Nat)) : Dev :=
  { idle with regs := l.foldl (fun t e => Tbl.set t (e.1.key e.2.1 e.2.2.1) e.2.2.2) idle.regs }

/-- A device that runs in mode `m`, with some register fields set. -/
def up (m : Nat) (l : List (Fld × Nat × Nat × Nat)) : Dev :=
  let d := dev ((F.BOOT_STAT_PHASE, 0, 0, 7) :: (F.GLB_MODE_CURRENT, 0, 0, m) :: l)
  { d with imgApplied := true, boot := { d.boot with powerGood := true, resetHeld := false } }

/-- Channel 5 enabled. -/
def on5 : Fld × Nat × Nat × Nat := (F.SLN_CTL_ENABLE, 5, 0, 1)

/-- Blank fuses as they are sensed. -/
def blankIn : FuseIn :=
  { rootKey := 0, rootPresent := false, hash0 := 0, hash1 := 0, hashPresent := 0, revoked := 0, version := 0 }

/-- The slots have been ordered, and slot 1 is in turn. -/
def slotted : Dev :=
  let d := dev [(F.BOOT_STAT_PHASE, 0, 0, 2)]
  { d with boot := { d.boot with slots := [1] } }

/-- An accepted image whose only record is of no known type. -/
def badRecord : Dev :=
  let d := dev [(F.BOOT_STAT_PHASE, 0, 0, 4)]
  { d with boot := { d.boot with slots := [0], records := [{ type := 0x7F, flags := 0, off := 64, body := [] }] } }

/-- Quad 3 moves, and its move is still to drain. -/
def pendingQuad : Dev :=
  let p : InPkt :=
    { bytes := List.replicate 64 0, quad := 3, port := 0, loc := 0, label := 0, popPcp := none, bufs := [], de := false,
      term := none }
  let fab := { idle.fab with moves := [(3, { target := 1, started := 0 })] }
  { idle with fab := { fab with inq := [(idle.pipeOf 3, [p])] } }

/-- A packet to send. -/
def onePkt : Pkt :=
  { bytes := List.replicate 64 0, tc := 0, colour := 0, de := false, service := 0, label := 0, hash := 0, buf := 0,
    passedMem := false, tag := none }

/-- A packet begun. -/
def onePart : PartTx := { pkt := onePkt, queue := 2560, sent := 0, label := 0, keyIdx := 0, owner := 0 }

/-- Channel 5's framer within a frame. -/
def framed (sf : Nat) (p : Option PartTx) : Dev :=
  let d := up 0 [on5]
  { d with lines := { d.lines with tx := [(5, { idleTx with framed := true, sf := sf, part := p })] } }

/-- Channel 5's receiver in IN_FRAME. -/
def withRx (m : Nat) (x : RxLine) : Dev :=
  let d := up m [on5, (F.TCH_FRMCFG_RX_EN, 5, 0, 1), (F.TCH_FRMSTAT_ALIGN, 5, 0, 2)]
  { d with lines := { d.lines with rx := [(5, x)] } }

/-- Delivered control blocks. -/
def blanks (n : Nat) : List Blk := List.replicate n { ctl := true, pay := 0, bad := false }

/-- A burst of terminal 3. -/
def oneBurst : Burst :=
  { sub := 0, loc := 3, start := 16, cold := false, power := false, report := false, answers := 0, shares := [],
    why := .container }

/-- A codeword of `n` data positions, all data blocks of zeros, and its parity blocks. -/
def wordOf (n : Nat) : CwIn := { raw := List.replicate (n + 32) { hdr := 1, pay := 0 }, flips := [], bad := false }

/-- A downstream codeword. -/
def oneWord : CwIn := wordOf 224

/-- What arrives of the burst: its delimiter at its place, and one codeword. -/
def oneArrival : BurstIn :=
  { energy := 0, search := Fin.ofNat _ ((2 * 2 ^ 130 + delimPay * 2 ^ 66 + 2 * 2 ^ 64 + (2 ^ 64 - 1 - delimPay)) * 2 ^ 258),
    hdr := 0, words := [wordOf 32], pre := [], post := [], err := default, term := 0x1E1E1E1E1E1E1E1E }

/-- Light without a delimiter. -/
def noArrival : BurstIn := { oneArrival with search := 0 }

/-- A word of one lane whose parity bit is wrong: the parity is odd. -/
def badWord : WordIn := { dir := 0, lanes := [1], parity := [true] }

/-- A management message to send. -/
def oneMgmt : MgmtMsg := { bytes := List.replicate 64 0, dest := 3 }

/-- Trigger 15 in mode 3 has an edge planned. -/
def plannedTrig : Dev :=
  let d := up 0 [(F.TIM_TRIG_CTL_ENABLE, 15, 0, 1), (F.TIM_TRIG_CTL_MODE, 15, 0, 3)]
  { d with tim := { d.tim with trigs := [(15, { idle.trig 15 with plan := [1000000] })] } }

/-- Quill's pass is replaced by a patch word that ends it. -/
def divertedPass : Dev :=
  let d := dev [(F.QUL_MATCH_VALID, 0, 0, 1), (F.QUL_MATCH_ROM_ADDR, 0, 0, 0x400)]
  { d with boot := { d.boot with resetHeld := false }, quill := { d.quill with patches := [(0, 6 * 2 ^ 26)] } }

/-- Channel 5's burst receiver runs. -/
def rxBursts : Dev := up 0 [on5, (F.TCH_BRXCFG_RX_EN, 5, 0, 1), (F.SLN_STAT_STATE, 5, 0, 4)]

/-- Channel 5's burst receiver waits for the burst. -/
def scheduled : Dev :=
  { rxBursts with lines := { idle.lines with brx := [(5, { idleBrx with sched := [oneBurst] })] } }

/-- A discovery window. -/
def oneWindow : Disc := { sub := 0, blocks := 64, sSub := 0, sOff := 0, slots := 1, preEqd := 0 }

/-- Channel 5's Scribe in a state of its own. -/
def withScribe (m : Nat) (x : Scribe) : Dev := { up m [on5] with reg := { idle.reg with scribes := [(5, x)] } }

/-- A discovery window of channel 5 is open. -/
def discovering : Dev :=
  { rxBursts with reg := { idle.reg with scribes := [(5, { idleScribe with windows := [oneWindow] })] } }

/-- Channel 5's recovery period ends at frame 9. -/
def recovering : Dev := withScribe 0 { idleScribe with recoverTo := some 9 }

/-- Channel 5's recall pass is due. -/
def recalling : Dev :=
  let w : White :=
    { serial := 7, pinTree := some 2, pinLoc := none, hint := 0, flagged := true, lastCh := none, wraps := [] }
  { up 0 [on5] with reg := { idle.reg with white := [(0, w)] } }

/-- Channel 5 has been taken over. -/
def takingOver : Dev := withScribe 0 { idleScribe with todo := [(128, .takeover)] }

/-- A message waits for channel 5's Scribe. -/
def inboxAt (m : Nat) : Dev :=
  withScribe m { idleScribe with inbox := [{ sub := 0, bytes := List.replicate 64 0, loc := 3, keyIdx := 0, seq := 0 }], todo := [(3, .msg)] }

/-- A terminal in a state, without its history. -/
def termIn (st : Reg_) : Term := { freeTerm with st := st }

/-- Terminal 3 of channel 5 in a state. -/
def withTerm (st : Reg_) : Dev := { up 0 [on5] with reg := { idle.reg with terms := [(643, termIn st)] } }

/-- Work waits for terminal 3 of channel 5. -/
def workAt (st : Reg_) (t : Todo) : Dev :=
  let d := withTerm st
  { d with reg := { d.reg with scribes := [(5, { idleScribe with todo := [(3, t)] })] } }

/-- A message whose answer is late. -/
def oneTxn : Txn := { type := 6, xid := 1, body := [], tries := 0, sent := some 0, granted := none, due := true }

/-- Emulated terminal 3 of channel 5 in a state. -/
def withEmu (e : Emu) (st : Nat) : Dev :=
  let d := up 2 [on5, (F.TCH_EMUSTAT_STATE, 5, 3, st), (F.TCH_EMUCTL_EMU_EN, 5, 3, 1), (F.TCH_EMUCTL_ALARM, 5, 3, 1),
    (F.TCH_TRMCFG_EMU_COUNT, 5, 0, 4)]
  { d with emus := { d.emus with terms := [(643, e)] } }

/-- Its receiver has taken a frame header. -/
def withEmuLine (e : Emu) (st : Nat) : Dev :=
  let d := withEmu e st
  { d with lines := { d.lines with rx := [(5, { freshRx with arrived := some (0, 0) })] } }

/-- A packet that waits at a pipeline. -/
def oneIn : InPkt :=
  { bytes := List.replicate 64 0, quad := 32, port := 0, loc := 0, label := 0, popPcp := none, bufs := [], de := false,
    term := none }

/-- A fragment entry. -/
def oneFrag : Frag :=
  { dir := 0, port := 0, proto := 17, ident := 1, sip := 2, dip := 3, action := 0, hash := 0, bytes := 0, total := none,
    stamp := 0 }

/-- A spill page whose read has returned well. -/
def onePage : Page := { slot := 4, seq := 0, hdr := [], pkts := [onePkt], at_ := .back true, landing := 0, gone := false }

/-- A frame as it comes from the PCS of port 0. -/
def oneFrame : MacIn :=
  { port := 0, bytes := List.replicate 64 0, codeErr := false, corrected := 0, uncorrected := 0, symbols := [], bipErrs := [] }

/-- A job. -/
def oneJob : Job :=
  { ring := 48, mode := 1, key := 0, length := 16, src := 0, dst := 0, chain := 0, id := 1, tag := 1, loaded := none,
    done := 0 }

/-- A PTP message of a kind in domain `n`. -/
def ptpIn (kind : Fin 16) (n : Fin 256) : PtpIn :=
  { port := 0, kind := kind, domain := n, transport := 0, seq := 1, twoStep := false, time := 0, corr := 0, body := [] }

/-- A device whose clock follows port 0. -/
def ptpSlaveDev : Dev := up 0 [(F.TIM_CFG_SRC, 0, 0, 2), (F.TIM_PTPCFG_SLAVE_EN, 0, 0, 1), (F.UPL_STAT_LINK_UP, 0, 0, 1),
    (F.UPL_MACCFG_RX_EN, 0, 0, 1)]

/-- Flags that show a healthy partner. -/
def okFlags : StFlags := { synced := true, ready := true, healthy := true }

/-- A HELLO of side 1. -/
def oneHello : HelloIn := { flags := okFlags, side := 1, mode := 0, epoch := 0, pairId := 0, digest := 0 }

/-- Quill's samples of a cold chip. -/
def cold : QuillIn :=
  { dies := List.replicate 24 0, supplies := List.replicate 8 0, hbm := List.replicate 4 0, adc := List.replicate 16 none }

/-- All four stacks are in use. -/
def stacksOn : List (Fld × Nat × Nat × Nat) := (List.range 4).map fun s => (F.MEM_STACK_STATE, s, 0, 1)

/-- A queue has a stored page, and the spill owner may hold no buffer of its class. -/
def noSpill : Dev :=
  { idle with
    imgApplied := true
    buf := { idle.buf with ocfg := [(512, 2 ^ 128)] }
    tm := { idle.tm with qst := [(7, { emptyQ with m := [{ onePage with at_ := .stored }] })] } }

/-- A write in the write buffer, and its end. -/
def oneWrite : WrEnt := { block := 5, port := 1, at_ := 0, old := [], issued := false }

/-- Its write buffer. -/
def oneBuffered : Dev := { up 0 stacksOn with mem := { idle.mem with wbuf := [oneWrite] } }

/-- The pseudo-channel of that write acknowledges. -/
def oneAck : WrAck := { pc := Fin.ofNat 128 (oneBuffered.pcOf 1280), end_ := .good, ns := 0 }

/-- Both accesses of a migration step end well. -/
def oneMigEnds : MigEnds := { rd := .good, rdNs := 0, wr := .good, wrNs := 0 }

/-- A migration is under way. -/
def migrating : Dev :=
  { up 0 [(F.MEM_STACK_STATE, 1, 0, 1)] with mem := { idle.mem with mig := some { s := 1, ch := 0, psid := 0 } } }

/-- A migration whose port has no tag free. -/
def migNoTag : Dev :=
  { migrating with mem := { migrating.mem with tags := [(5, 3072)] } }

/-- Block headers of four stitch lanes, enough to lock them. -/
def fourLanes : List (Fin 8 × List (Fin 4)) := (List.range 4).map fun i => (Fin.ofNat 8 i, List.replicate 64 1)

/-- Four lanes of the stitch link of a standby run. -/
def stitchWakes : Dev :=
  up 3 ((F.GLB_MODE_PAIRED, 0, 0, 1) :: (List.range 4).map fun i => (F.SLN_STAT_STATE, 256 + i, 0, 4))

/-- Ring `n` offers an entry with an opcode below 256. -/
def offering (n op : Nat) : Dev :=
  { up 0 ((F.HST_RINGCFG_ENABLE, n, 0, 1) :: (F.HST_SQTAIL_TAIL, n, 0, 1) :: stacksOn) with obs := [(sqAddr n 0, BitVec.ofNat 8 op)] }

/-- Egress queue 7 of port 0 holds a packet. -/
def egress (l : List (Fld × Nat × Nat × Nat)) : Dev :=
  let d := up 0 ((F.UPL_STAT_LINK_UP, 0, 0, 1) :: l)
  { d with tm := { d.tm with qcfg := [(65543, 2 ^ 32)], qst := [(65543, { emptyQ with h := [onePkt] })] } }

/-- Port 0 may send from queue 7. -/
def sending : Dev := egress []

/-- Port 0 has been paused for long. -/
def stormy : Dev := { egress [] with mac := { idle.mac with since := [(7, 0)], portPause := [(0, 10 ^ 10)] } }

/-- Circuit 40, of channel 5, with a receiver. -/
def withCir (x : Cir) : Dev := { up 0 [on5, (F.CIR_CFG_UP_EN, 40, 0, 1)] with cirs := [(40, x)] }

/-- A job of queue 0 runs, and one of queue 3 waits. -/
def preempted : Dev :=
  { up 0 [(F.CRY_CFG_JOB_EN, 0, 0, 1)] with
    cry := { idle.cry with running := some 0, jobs := [(0, [{ oneJob with length := 64 }]), (3, [oneJob])] } }

/-- The optics module of channel 5 reads a transmit fault. -/
def darkModule : Dev :=
  { up 0 [on5, (F.GLB_MODE_PAIRED, 0, 0, 1)] with
    quill := { idle.quill with
      slots := [(1, { bus := 0, seg := 0, first := 4, lanes := 4 })]
      samples := [(71, { raw := 1, filt := 1, status := 0, fails := 0, hist := [], restart := false })] } }

/-- A new active device that has found no burst on channel 5. -/
def silentTree : Dev :=
  let d := up 0 [on5, (F.GLB_MODE_PAIRED, 0, 0, 1)]
  { d with
    reg := { idle.reg with terms := [(643, termIn .active)] }
    stl := { idle.stl with begun := some 2384 } }

/-- Optics slot 3 is fitted. -/
def withModule : Dev :=
  { up 0 [] with quill := { idle.quill with slots := [(3, { bus := 0, seg := 0, first := 4, lanes := 4 })] } }

/-- A completion. -/
def oneDone : Completion := { tag := 1, opcode := 1, status := 0, result := 0, frame := 0, detail := 0 }

/-- An entry of the Blotter. -/
def oneEntry : BlotEntry :=
  { ev := { source := 0, event := 5, inst := 0, data := 0 }, count := 1, firstSec := 0, firstNs := 0, last := 0, frame := 0,
    openedAt := 0, waiting := false }

/-! ### Ill-formed terms, which the check refuses -/

/-- A codeword with no block, and one in which a bit changes twice. -/
theorem test_wf_codeword : CwIn.ok { raw := [], flips := [], bad := false } = false ∧
    CwIn.ok { oneWord with flips := [7, 7] } = false ∧ oneWord.ok = true := by decide +kernel

/-- A burst without a codeword, with one of 31 data positions, and with a short one before the last. -/
theorem test_wf_burst : ({ oneArrival with words := [] } : BurstIn).ok = false ∧
    ({ oneArrival with words := [wordOf 31] } : BurstIn).ok = false ∧
    ({ oneArrival with words := [wordOf 32, wordOf 32] } : BurstIn).ok = false ∧ oneArrival.ok = true := by decide +kernel

/-- A burst of a window of 33 positions. -/
theorem test_wf_window (w : WindowIn) (h : w.word.raw.length = 65) : w.ok = false := by simp [WindowIn.ok, CwIn.okOf, h]

/-- A word without lanes, and one with a lane and no parity bit. -/
theorem test_wf_word : WordIn.ok { dir := 0, lanes := [], parity := [] } = false ∧ WordIn.ok { dir := 0, lanes := [0], parity := [] } = false ∧
    badWord.ok = true := by decide

/-- A copied record of 65,536 bytes. -/
theorem test_wf_record (r : CopyRec) (h : r.data.length = 65536) : r.ok = false := by simp [CopyRec.ok, h]

/-- Quill's samples without a supply. -/
theorem test_wf_quill : ({ cold with supplies := [] } : QuillIn).ok = false ∧ cold.ok = true := by decide

/-- A PTP message whose correction field does not fit. -/
theorem test_wf_ptp : ({ ptpIn 0 0 with corr := 2 ^ 63 } : PtpIn).ok = false ∧ (ptpIn 0 0).ok = true := by decide

/-- A frame with nine faulty symbol lanes, a wrapped key of 39 bytes, a forwarded write of 9 bytes, host writes of no byte
and across two accesses. -/
theorem test_wf_lengths :
    Instr.wf (.macFrameRx { oneFrame with symbols := List.replicate 9 0 }) = false ∧
      Instr.wf (.stitchKey 0 (List.replicate 39 0)) = false ∧ Instr.wf (.stitchConfig 0 (List.replicate 9 0)) = false ∧
      Instr.wf (.hostMemoryWrite 0 []) = false ∧ Instr.wf (.hostMemoryWrite 60 (List.replicate 8 0)) = false := by decide

/-- A map of 65,536 entries. -/
theorem test_wf_map (c : Ch) (l : List (Fin (2 ^ 64))) (h : l.length = 65536) :
    Instr.wf (.stitchMap c 0 l) = false := by simp [Instr.wf, h]

/-- A terminal's key of 39 wrapped bytes. -/
theorem test_wf_keys (c : Ch) (n : Loc) (k : KeyReq) (h : k.wrap.length = 39) :
    Instr.wf (.keys c n (some k)) = false := by simp [Instr.wf, h]

/-! ### The table gives no row any bits -/

theorem test_no_word : decodeTableWord 64 0 = none ∧ (State.reset.withFetchWord 64 0) = State.reset := by
  constructor <;> rfl

/-! ### Worked examples of the manual -/

/-- The Gray code of the symbols (R43): 00, 01, 11 and 10 are the levels in rising order. -/
theorem test_pam4 : [0, 1, 3, 2].map pam4 = [-3, -1, 1, 3] := by decide

/-- The terminator is found with 8 wrong bits and not with 9 (R86). -/
theorem test_terminator : termFound (0x1E1E1E1E1E1E1E1E ^^^ 0xFF) = true ∧ termFound (0x1E1E1E1E1E1E1E1E ^^^ 0x1FF) = false := by
  decide +kernel

/-- The layout of a Scribe microword (R491): each field has a value of its own. -/
theorem test_microword :
    MWord.of (0x2001 * 2 ^ 82 + 2 ^ 81 + 17 * 2 ^ 76 + 5 * 2 ^ 72 + 33 * 2 ^ 66 + 34 * 2 ^ 60 + 35 * 2 ^ 54 + 36 * 2 ^ 48 +
      2 * 2 ^ 46 + 3 * 2 ^ 44 + 9 * 2 ^ 40 + 0x8000000001) =
    { next := 0x2001, nsp := true, cond := 17, cinv := false, seq := 5, op := 33, dst := 34, sa := 35, sb := 36, mem := 2,
      width := 3, space := 9, imm := 0x8000000001 } := by decide +kernel

/-- CG9 is TBEN of CH43, EJ85 the positive reference clock of CXL, and the balls beside it do not repeat it (R601 to R604). -/
theorem test_balls : ballName 64 9 = "CG9" ∧ ballNet 64 9 = .tben 43 ∧ rowName 104 = "EJ" ∧
    ballNet 104 85 = .signal "CXL_REFCLKP" 0 ∧ ballNet 104 86 = .signal "CXL_REFCLKN" 0 := by decide +kernel

/-- The totals of the tables of draw, of the budget at full load and of the dies' heat (R42, R528, R617). -/
theorem test_power :
    [DrawCase.maximum, .fullLoad, .standby, .lanesLit, .vigil].map deviceDraw = [760000, 640000, 355000, 310000, 4500] ∧
      loadBudget.sum = 716 ∧
      ([DieKind.central, .treeEdge, .uplinkEdge, .stack].map fun k => k.heat.1 * k.heat.2.1).sum = 7160 := by decide

/-- The optic of the worked example takes START 1 and WIDTH 7, and neither START 2 nor WIDTH 6 (R616). -/
theorem test_optic : optic 1 7 3000 1800 2000 = true ∧ optic 2 7 3000 1800 2000 = false ∧ optic 1 6 3000 1800 2000 = false := by
  decide

/-- The layout of a Quill microword (R506). -/
theorem test_quill_word :
    QWord.of (0x801 * 2 ^ 36 + 17 * 2 ^ 30 + 2 ^ 29 + 3 * 2 ^ 26 + 9 * 2 ^ 22 + 10 * 2 ^ 18 + 11 * 2 ^ 14 + 0x2001) =
    { next := 0x801, nsp := false, cond := 17, cinv := true, seq := 3, op := 9, dst := 10, sa := 11, imm := 0x2001 } := by
  decide +kernel

/-- The nonce of the cipher's example: downstream on CH43, local number 77, counter value 0x0123_4567 (R417). -/
theorem test_nonce : segNonce 0 43 false 77 0x01234567 = 0x102B004D0000000001234567 := by decide +kernel

/-- The candidate of the same example: high-water 0x1FFF0 and SEQUENCE 5 give 0x20005 (R418). -/
theorem test_candidate : candidates { emptySlot with rx := some 0x1FFF0 } 5 = [0x20005] := by decide +kernel

/-- Local terminal 77 of CH43 with KEY_INDEX 1 has slot 11,163 (R411). -/
theorem test_slot : termSlot 5581 1 = 11163 := by decide

/-- The channel engine of CH43 begins at 0x006B_0000, that of CH127 at 0x00BF_0000 (R8). -/
theorem test_channel_base :
    RegOf.TCH_FRMCFG.addr + 43 * RegOf.TCH_FRMCFG.s1 = 0x6B0000 ∧
      RegOf.TCH_FRMCFG.addr + 127 * RegOf.TCH_FRMCFG.s1 = 0xBF0000 := by decide

/-- Terminal 8's first entry of the grant engine's example (R168). -/
theorem test_map_entry : mapEntry 0x0080 0x2996 1500 false true false false false 8 = 0x0080299605DC4084 := by
  decide +kernel

/-- PRE_EQD of CH43 with EqRT 84,863,877 and a reach of 20 to 60 km (R115). -/
theorem test_pre_eqd :
    (up 0 [(F.RUL_CHCFG_EQRT, 43, 0, 84863877), (F.TCH_DISCCFG_DIST_MIN_KM, 43, 0, 20),
      (F.TCH_DISCCFG_DIST_MAX_KM, 43, 0, 60)]).preEqd 43 = 11945769 := by decide +kernel

/-- A stack at 1× with 7 refreshes owed reads 85 °C: 2×, and 14 are owed (R371). -/
theorem test_crossing :
    ((({ up 0 [(F.MEM_STACK_STATE, 2, 0, 1)] with mem := { idle.mem with owed := [(74, 7)] } } : Dev).tempSample 2 85).owed 74,
     (({ up 0 [(F.MEM_STACK_STATE, 2, 0, 1)] with mem := { idle.mem with owed := [(74, 7)] } } : Dev).tempSample 2 85).get
      F.MEM_STACK_RATE 2) = (14, 1) := by decide +kernel

/-- 14 owed, an interval falls due with 5 refreshes done: 10 owed (the same example). -/
theorem test_interval :
    (({ up 0 [(F.MEM_STACK_STATE, 2, 0, 1)] with mem := { idle.mem with owed := [(74, 14)] } } : Dev).refreshInterval 74
      (List.replicate 5 false)).owed 74 = 10 := by decide +kernel

/-- The AES-256 example of FIPS 197. -/
theorem test_aes :
    Crypto.aes 0x000102030405060708090A0B0C0D0E0F101112131415161718191A1B1C1D1E1F 0x00112233445566778899AABBCCDDEEFF =
      0x8EA2B7CA516745BFEAFC49904B496089 := by decide +kernel

/-- The check value of CRC-32C over the digits 1 to 9. -/
theorem test_crc32c : crc32c ((List.range 9).map fun i => BitVec.ofNat 8 (0x31 + i)) = 0xE3069283 := by decide +kernel

/-! ### Witnesses: states and operands that meet the hypotheses of the other statements -/

theorem witness_IllFormedCommandsAreRefused : ∃ c : Instr, c.wf = false := ⟨.stitchKey 0 [], by decide⟩

theorem witness_WellFormedCommandsComplete : ∃ c : Instr, c.wf = true := ⟨.stitchKey 0 (List.replicate 40 0), by decide⟩

theorem witness_AFedQueueRunsToItsEnd : ∃ s : State, s.fed = true ∧ s.pending.length = 2 :=
  ⟨{ pending := [.frameStart, .stitchKey 0 (List.replicate 40 0)], dev := idle }, by decide +kernel, rfl⟩

/-- Narrow by one byte, and unaligned by one; the Blotter on with room. -/
theorem witness_NarrowOrUnalignedAccessIsAnError :
    ∃ (a b : Fin (2 ^ 26)) (m n : Fin 65) (d : Dev), d.boot.resetHeld = false ∧ d.mode ≠ 4 ∧ m.val = 7 ∧ a.val % 8 = 0 ∧
      n.val = 8 ∧ b.val % 8 = 1 ∧ d.get F.EVT_CFG_ENABLE = 1 ∧ d.blot.used < 1024 :=
  ⟨0, 1, 7, 8, up 0 [], by decide +kernel⟩

/-- An address without a register; bit 63 of a register of narrower fields. -/
theorem witness_UnusedAddressesAndReservedBitsReadZero :
    (∃ (a : Fin (2 ^ 26)) (fails : Fin 4) (d : Dev), findReg a.val allRegs = none ∧ a.val % 8 = 0 ∧ fails.val < 3 ∧
      d.boot.resetHeld = false ∧ d.mode ≠ 4) ∧
    ∃ r ∈ allRegs, ∀ f ∈ r.fields, 63 < f.lo ∨ f.lo + f.w ≤ 63 :=
  ⟨⟨8, 2, up 0 [], by decide +kernel⟩, by decide +kernel⟩

/-- A field of each access type. -/
theorem witness_FieldsStoreByTheirAccessType :
    (∃ f : Fld, calm (f.key 5 0) = true ∧ f.acc = .rw) ∧ (∃ f : Fld, calm (f.key 0 0) = true ∧ f.acc = .rwl) ∧
      (∃ f : Fld, calm (f.key 5 0) = true ∧ f.acc = .w1c ∧ 0 < f.w) ∧
      (∃ f : Fld, calm (f.key 0 0) = true ∧ f.acc = .w1s ∧ 0 < f.w) ∧ ∃ f : Fld, calm (f.key 0 0) = true ∧ f.acc = .ro :=
  ⟨⟨F.TCH_FRMCFG_SYNC_TOL, by decide⟩, ⟨F.STL_CFG_SIDE, by decide⟩, ⟨F.TCH_FRMSTAT_LOF, by decide⟩,
   ⟨F.QUL_IND_CTL_GO, by decide⟩, ⟨F.TIM_NOW_NS_NS, by decide⟩⟩

theorem witness_BootLockHoldsRwlFields :
    (∃ r ∈ allRegs, r.hasRwl = true ∧ 0 < r.n1 ∧ 0 < r.n2 ∧ ∃ f ∈ r.fields, f.acc = .rwl) ∧
      ∃ d : Dev, d.get F.BOOT_STAT_LOCKED = 1 ∧ d.get F.EVT_CFG_ENABLE = 1 ∧ d.blot.used < 1024 :=
  ⟨by decide +kernel, up 0 [(F.BOOT_STAT_LOCKED, 0, 0, 1)], by decide +kernel⟩

theorem witness_FlagsSetCountAndTell :
    ∃ (f : Fld) (i j : Nat) (d : Dev), f.cntAddr ≠ 0 ∧ calm (f.key i j) = true ∧
      calm ((f.cntAddr + i * f.cntStride) * 64) = true ∧ f.key i j ≠ (f.cntAddr + i * f.cntStride) * 64 ∧
      Tbl.get 0 d.regs ((f.cntAddr + i * f.cntStride) * 64) < 2 ^ 39 - 1 ∧ d.get F.EVT_CFG_ENABLE = 1 ∧ d.blot.used < 1024 :=
  ⟨F.TCH_FRMSTAT_LOF, 5, 0, up 0 [], by decide +kernel⟩

/-- Below half range, at the step to it, and past it. -/
theorem witness_CountersAddTheirIncrements :
    ∃ (a : Nat) (d e : Dev), calm (a * 64) = true ∧ Tbl.get 0 d.regs (a * 64) = 2 ^ 39 - 1 ∧
      Tbl.get 0 e.regs (a * 64) = 2 ^ 40 - 1 ∧ d.get F.EVT_CFG_ENABLE = 1 ∧ d.blot.used < 1024 :=
  ⟨0x400130, { up 0 [] with regs := [(0x400130 * 64, 2 ^ 39 - 1)] }, { up 0 [] with regs := [(0x400130 * 64, 2 ^ 40 - 1)] },
   by decide +kernel⟩

/-- An event, and a Blotter with an entry of its key that waits, with one that is open, with none. -/
theorem witness_EventsCoalesce :
    ∃ (e : EvIn) (d1 d2 d3 d4 : Dev), e.late = false ∧
      (∀ d, d = d1 ∨ d = d2 ∨ d = d3 ∨ d = d4 → d.get F.EVT_CFG_ENABLE = 1 ∧ d.get F.EVT_CNT_COUNT 0 < 2 ^ 39 - 1 ∧
        d.get F.EVT_CNT_COUNT 2 < 2 ^ 39 - 1 ∧ d.get F.EVT_CNT_COUNT 5 < 2 ^ 39 - 1) ∧
      (d1.blot.closed.any fun y => y.ev.sameKey { source := e.source, event := e.event, inst := e.inst, data := e.data }) = true ∧
      (d2.blot.closed.any fun y => y.ev.sameKey { source := e.source, event := e.event, inst := e.inst, data := e.data }) = false ∧
      (d2.blot.opened.any fun y => y.ev.sameKey { source := e.source, event := e.event, inst := e.inst, data := e.data }) = true ∧
      d3.blot.closed = [] ∧ d3.blot.opened = [] ∧ d3.use F.EVT_CFG_COALESCE_US = 100 ∧
      d4.blot.closed = [] ∧ d4.blot.opened = [] ∧ d4.use F.EVT_CFG_COALESCE_US = 0 := by
  refine ⟨{ source := 0, event := 5, inst := 0, data := 0, late := false },
    { up 0 [] with blot := { idle.blot with closed := [oneEntry] } },
    { up 0 [] with blot := { idle.blot with opened := [oneEntry] } }, up 0 [], up 0 [(F.EVT_CFG_COALESCE_US, 0, 0, 0)], rfl,
    ?_, by decide +kernel⟩
  rintro d (rfl | rfl | rfl | rfl) <;> decide +kernel

theorem witness_ALostLeaseSquelchesAtOnce :
    ∃ d : Dev, d.active = true ∧ d.get F.STL_STAT_ROLE = 1 ∧ d.on F.STL_STAT_LEASE = true ∧ d.shutdownAsked = false ∧
      (d.arb.trans.any fun t => t.target != 3) = false :=
  ⟨up 0 [(F.GLB_MODE_PAIRED, 0, 0, 1), (F.STL_STAT_ROLE, 0, 0, 1), (F.STL_STAT_LEASE, 0, 0, 1)], by decide +kernel⟩

theorem witness_ReadingTheTimeLatchesTheSeconds :
    ∃ (fails : Fin 4) (d : Dev), fails.val < 3 ∧ d.boot.resetHeld = false ∧ d.mode ≠ 4 := ⟨2, up 0 [], by decide +kernel⟩

theorem witness_ClearingTheMonitorZeroesItsCounters :
    ∃ (v : Fin (2 ^ 64)) (d : Dev), d.hostOpen = true ∧ d.boot.resetHeld = false ∧ bit v.val 1 = true :=
  ⟨2, up 0 [], by decide +kernel⟩

/-- A receiver out of frame, one that has set LOF, and one in frame. -/
theorem witness_LossOfFrameSetsOncePerPeriod :
    ∃ (c : Ch) (d1 d2 d3 : Dev), d1.rxRuns c = true ∧ d1.align c ≠ 2 ∧ (d1.rx c).lofSet = false ∧
      d2.rxRuns c = true ∧ (d2.rx c).lofSet = true ∧ d3.rxRuns c = true ∧ d3.align c = 2 :=
  ⟨5, { withRx 2 freshRx with regs := Tbl.set (withRx 2 freshRx).regs (F.TCH_FRMSTAT_ALIGN.key 5 0) 0 },
    withRx 2 { freshRx with lofSet := true }, withRx 2 freshRx, by decide +kernel⟩

/-- The first byte of the job buffer area, its last byte, and the byte after it; usable memory and a stack out of use. -/
theorem witness_HostWritesReachOnlyTheirArea :
    ∃ d1 d2 d3 : Dev, d1.host.linkUp = true ∧ d2.host.linkUp = true ∧ d3.host.linkUp = true ∧ Mem.wf d1.obs = true ∧
      Mem.wf d2.obs = true ∧ Mem.wf d3.obs = true ∧
      hostMayWrite 0x110000000 1 = true ∧ hostMayWrite 0x14FFFFFFF 1 = true ∧ hostMayWrite 0x150000000 1 = false ∧
      hostMayWrite 0x100801000 64 = true ∧ hostMayWrite 0x100800FC0 64 = false ∧
      d1.memUsable (256 * (0x110000000 / 256)) = true ∧ d1.mem.wbuf.length = 1023 ∧ 0 < d1.tagsFree 4 ∧
      (d1.mem.waiting.any fun w => w.port == 4) = false ∧ (d2.mem.waiting.any fun w => w.port == 4) = true ∧
      d3.memUsable (256 * (0x110000000 / 256)) = false :=
  ⟨{ up 0 stacksOn with
     host := { idle.host with linkUp := true }, mem := { idle.mem with wbuf := List.replicate 1023 oneWrite } },
   { up 0 stacksOn with
     host := { idle.host with linkUp := true }
     mem := { idle.mem with waiting := [{ block := 0, port := 4, at_ := 0, off := 0, bytes := [1] }] } },
   { up 0 [] with host := { idle.host with linkUp := true } },
   by decide +kernel⟩

/-- At the first and at the last place of the ring. -/
theorem witness_TheBlotterWritesItsOldestRecord :
    ∃ d1 d2 : Dev, d1.blot.stopped = false ∧ d1.blot.closed = [oneEntry] ∧ d1.get F.EVT_STAT_UNREAD ≠ 131072 ∧
      Mem.wf d1.obs = true ∧ d1.get F.EVT_PROD_PROD = 0 ∧ d1.memUsable (256 * (0x100000000 / 256)) = true ∧
      d1.mem.wbuf = [] ∧ d1.mem.waiting = [] ∧ d2.blot.stopped = false ∧
      d2.blot.closed = [oneEntry] ∧ d2.get F.EVT_STAT_UNREAD ≠ 131072 ∧ Mem.wf d2.obs = true ∧
      d2.get F.EVT_PROD_PROD = 131071 ∧ d2.memUsable (256 * ((0x100000000 + 64 * 131071) / 256)) = true ∧
      d2.mem.wbuf.length = 1023 ∧ (d2.mem.waiting.any fun w => w.port == 2) = false :=
  ⟨{ up 0 stacksOn with blot := { idle.blot with closed := [oneEntry] } },
   { up 0 ((F.EVT_PROD_PROD, 0, 0, 131071) :: stacksOn) with
     blot := { idle.blot with closed := [oneEntry] }
     mem := { idle.mem with
       wbuf := List.replicate 1023 oneWrite, waiting := [{ block := 0, port := 4, at_ := 0, off := 0, bytes := [1] }] } },
   by decide +kernel⟩

theorem witness_ACompletionIsStoredAtItsTail :
    ∃ (n : RingNo) (d : Dev), (d.ring n).done = [oneDone] ∧ d.get F.HST_RINGSTAT_CQ_TAIL n = 2047 ∧ Mem.wf d.obs = true ∧
      d.memUsable (256 * (cqAddr n 2047 / 256)) = true ∧ d.mem.wbuf = [] ∧ d.mem.waiting = [] :=
  ⟨63, { up 0 ((F.HST_RINGSTAT_CQ_TAIL, 63, 0, 2047) :: stacksOn) with
     host := { idle.host with rings := [(63, { phase := true, running := [], done := [oneDone] })] } },
   by decide +kernel⟩

/-- An erase, a program and a read. -/
theorem witness_FlashOperationsStayInTheirBlock :
    ∃ d1 d2 d3 : Dev, Mem.wf d1.boot.flash = true ∧ d1.boot.flashOp = some { op := 2, addr := 65536 } ∧
      Mem.wf d2.boot.flash = true ∧ d2.boot.flashOp = some { op := 1, addr := 256 } ∧ d2.flashBytes 256 1 = [0xFF] ∧
      Mem.wf d3.boot.flash = true ∧ d3.boot.flashOp = some { op := 0, addr := 0 } :=
  ⟨{ idle with boot := { idle.boot with flashOp := some { op := 2, addr := 65536 } } },
   { idle with boot := { idle.boot with flashOp := some { op := 1, addr := 256 } } },
   { idle with boot := { idle.boot with flashOp := some { op := 0, addr := 0 } } }, by decide +kernel⟩

/-- A valid slot, an erasing one that no job holds, and one whose key a job holds. -/
theorem witness_AnErasingSlotServesNoOperation :
    ∃ (i : Fin (2 ^ 17)) (d1 d2 d3 d4 : Dev), Tbl.sorted d1.cry.slots = true ∧ (d1.eraseSlot i).isSome = true ∧
      Tbl.sorted d2.cry.slots = true ∧ (d2.slot i).state = 2 ∧ (d2.slotSeen i).state = 2 ∧ d2.slotHeld i = false ∧
      d4.cry.old.1 ≠ d4.clk.cyc ∧
      Tbl.sorted d3.cry.slots = true ∧ (d3.slot i).state = 2 ∧ d3.slotHeld i = true :=
  ⟨98304, { idle with cry := { idle.cry with slots := [(98304, { emptySlot with state := 1 })] } },
   { idle with cry := { idle.cry with slots := [(98304, { emptySlot with state := 2 })] } },
   { idle with cry := { idle.cry with
      slots := [(98304, { emptySlot with state := 2 })], jobs := [(0, [{ oneJob with loaded := some 0 }])] } },
   { idle with clk := { idle.clk with cyc := 1 } },
   by decide +kernel⟩

/-- Each field at the top of its range. -/
theorem witness_HeadersReadBack :
    (∃ label len key : Nat, label < 2 ^ 16 ∧ len < 2 ^ 14 ∧ key < 2 ∧ 65535 ≤ label ∧ 16383 ≤ len ∧ 1 ≤ key) ∧
      (∃ loc rei : Nat, loc < 2 ^ 7 ∧ rei < 2 ^ 8 ∧ 127 ≤ loc ∧ 255 ≤ rei) ∧
      ∃ cont start loc : Nat, cont < 2 ^ 16 ∧ start < 2 ^ 16 ∧ loc < 2 ^ 7 ∧ cont ≤ 0x7FF ∧ bits cont 4 7 = loc ∧ 127 ≤ loc :=
  ⟨⟨65535, 16383, 1, by decide⟩, ⟨127, 255, by decide⟩, ⟨0x7F0, 65535, 127, by decide⟩⟩

/-- A parity block has 66 bits. -/
theorem parity_lt (l : List Nat) (k : Nat) : flipHdr (parityBlk l k) < 2 ^ 66 := by
  have h : bits (Config.ldpcParity l k) 64 1 < 2 := Nat.mod_lt _ (by decide)
  have g : Config.ldpcParity l k % 2 ^ 64 < 2 ^ 64 := Nat.mod_lt _ (by decide)
  refine Nat.xor_lt_two_pow ?_ (by decide)
  simp only [parityBlk]
  omega

/-- The first place a descrambler may start; a codeword of one data position whose first bit changed on the way; the
largest block. -/
theorem witness_TheReceiverUndoesTheSendersLineCode :
    (∃ k : Nat, 2 ≤ k ∧ k = 2) ∧
      (∃ raw : List LineBlk, (raw.map fun b => b.hdr.val * 2 ^ 64 + b.pay.val) =
        ([(0 : Fin 16896)].map (·.val)).foldl flipAt (encodeCw ([(true, 5)].map fun e => codeBlk e.1 e.2))) ∧
      ∃ a : Nat, a < 2 ^ 66 ∧ 2 ^ 66 - 1 ≤ a := by
  refine ⟨⟨2, by decide⟩, ⟨{ hdr := 0, pay := 5 } :: (List.range 32).map fun k =>
    let b := flipHdr (parityBlk (codeBlk true 5 :: List.replicate 223 (codeBlk false 0)) k)
    { hdr := ⟨b / 2 ^ 64 % 4, Nat.mod_lt _ (by decide)⟩, pay := ⟨b % 2 ^ 64, Nat.mod_lt _ (by decide)⟩ }, ?_⟩,
    2 ^ 66 - 1, by decide, by decide⟩
  have h : ∀ b : Nat, b < 2 ^ 66 → b / 2 ^ 64 % 4 * 2 ^ 64 + b % 2 ^ 64 = b := by omega
  have e : encodeCw ([(true, 5)].map fun e => codeBlk e.1 e.2) = codeBlk true 5 :: (List.range 32).map fun k =>
      flipHdr (parityBlk (codeBlk true 5 :: List.replicate 223 (codeBlk false 0)) k) := rfl
  rw [e]
  generalize (codeBlk true 5 :: List.replicate 223 (codeBlk false 0)) = info
  have m : ∀ l : List Nat, (l.map fun k => flipHdr (parityBlk info k) / 2 ^ 64 % 4 * 2 ^ 64 +
      flipHdr (parityBlk info k) % 2 ^ 64) = l.map fun k => flipHdr (parityBlk info k) :=
    fun l => List.map_congr_left fun k _ => h _ (parity_lt _ _)
  simp only [List.map_cons, List.map_map, Function.comp_def, m]
  rfl

theorem witness_ResetLeavesEveryFieldAtItsResetValue :
    ∃ r ∈ allRegs, ∃ f ∈ r.fields, 0 < r.n1 ∧ 0 < r.n2 ∧ f.addr ≠ F.GLB_D2DSTAT_LINK_UP.addr := by decide +kernel

theorem witness_TheAlertPinFollowsTheUnmaskedConditions :
    ∃ d : Dev, d.get F.HST_ALERT_LATCHED < 2 ^ 16 ∧ d.get F.HST_ALERTMASK_MASK < 2 ^ 16 ∧ d.get F.HST_ALERT_LATCHED = 3 :=
  ⟨up 0 [(F.HST_ALERT_LATCHED, 0, 0, 3)], by decide +kernel⟩

theorem witness_IndirectReadsStayInTheirBlock : ∃ d : Dev, d.hostOpen = true := ⟨up 0 [], by decide +kernel⟩

theorem witness_MemoryCommandsKeepTheirForm :
    ∃ (i : Instr) (s : State), i.wf = true ∧ s.canonical = true ∧ i = .hostMemoryWrite 0 [1, 2, 3, 4] ∧
      s.dev.host.linkUp = true :=
  ⟨.hostMemoryWrite 0 [1, 2, 3, 4],
    { pending := [], dev := { up 0 stacksOn with host := { idle.host with linkUp := true } } }, by decide +kernel⟩

theorem witness_StepKeepsMemoryForm :
    ∃ s t : State, step s = .next t ∧ s.canonical = true ∧ s.fed = true ∧ s.pending.length = 1 :=
  ⟨{ pending := [.flashOpDone false], dev := idle }, _, rfl, by decide +kernel⟩

/-! ### Witnesses of the completion statements -/

theorem witness_BootStepsComplete_a :
    (∃ (d : Dev), d.boot.powerGood) ∧
    (∃ (d : Dev), d.boot.resetHeld = false ∧ d.mode ≠ 4) ∧
    (∃ (d : Dev), d.clk.cyc = 0) ∧
    (∃ (d : Dev), d.boot.powerGood = false) ∧
    (∃ (f : FuseIn) (d : Dev), d.get F.BOOT_STAT_PHASE = 1) ∧
    (∃ (x : SlotIn) (e : Dev) (i : Nat) (r : List Nat) (d : Dev),
        (d.get F.BOOT_STAT_PHASE = 2 ∨ d.get F.BOOT_STAT_PHASE = 3) ∧
        e = { d with host := { d.host with linkUp := true } }.stacksReady x.failed ∧ e.boot.slots = i :: r) ∧
    (∃ (e f : Dev) (d : Dev), d.get F.BOOT_STAT_PHASE = 4 ∧ f = { d.dropImage with imgApplied := true }.clearMirrors ∧
        Dev.applyRecords 0 0 f.boot.records f.applyBundle = (e, none)) ∧
    (∃ (e f : Dev) (code n off : Nat) (d : Dev), d.get F.BOOT_STAT_PHASE = 4 ∧
        f = { d.dropImage with imgApplied := true }.clearMirrors ∧
        Dev.applyRecords 0 0 f.boot.records f.applyBundle = (e, some (code, n, off))) ∧
    (∃ (fuseBad : Bool) (d : Dev), d.get F.BOOT_STAT_PHASE = 5) ∧
    (∃ (d : Dev), d.get F.BOOT_STAT_PHASE = 6) :=
  ⟨⟨{ idle with boot := { idle.boot with powerGood := true } }, by decide +kernel⟩,
   ⟨up 0 [], by decide +kernel, by decide +kernel⟩,
   ⟨idle, by decide +kernel⟩,
   ⟨idle, by decide +kernel⟩,
   ⟨blankIn, dev [(F.BOOT_STAT_PHASE, 0, 0, 1)], by decide +kernel⟩,
   ⟨{ readErr := true, failed := [] }, _, 1, [], slotted, by decide +kernel, rfl, by decide +kernel⟩,
   ⟨_, _, dev [(F.BOOT_STAT_PHASE, 0, 0, 4)], by decide +kernel, rfl, rfl⟩,
   ⟨_, _, _, _, _, badRecord, by decide +kernel, rfl, rfl⟩,
   ⟨false, dev [(F.BOOT_STAT_PHASE, 0, 0, 5)], by decide +kernel⟩,
   ⟨dev [(F.BOOT_STAT_PHASE, 0, 0, 6)], by decide +kernel⟩⟩

theorem witness_BootStepsComplete_b :
    (∃ (a : Fin (2 ^ 27)) (d : Dev), d.boot.resetHeld = false ∧ d.mode ≠ 4 ∧ d.on F.BOOT_FLCTL_BUSY = false ∧
        a.val + 256 ≤ 2 ^ 27) ∧
    (∃ (a : Fin (2 ^ 27)) (d : Dev), d.boot.resetHeld = false ∧ d.mode ≠ 4 ∧ d.on F.BOOT_FLCTL_BUSY = false ∧
        a.val + 256 ≤ 2 ^ 27 ∧ a.val % 256 = 0 ∧ ¬(d.bootDone ∧ a.val / 0x04000000 = d.get F.BOOT_STAT_SLOT)) ∧
    (∃ (a : Fin (2 ^ 27)) (d : Dev), d.boot.resetHeld = false ∧ d.mode ≠ 4 ∧ d.on F.BOOT_FLCTL_BUSY = false ∧
        a.val + 256 ≤ 2 ^ 27 ∧ a.val % 65536 = 0 ∧ ¬(d.bootDone ∧ a.val / 0x04000000 = d.get F.BOOT_STAT_SLOT)) ∧
    (∃ (err : Bool) (o : FlashOp) (d : Dev), d.boot.flashOp = some o) :=
  ⟨⟨0x7FFFF00, up 0 [], by decide +kernel, by decide +kernel, by decide +kernel, by decide +kernel⟩,
   ⟨0x5000000, up 0 [], by decide +kernel, by decide +kernel, by decide +kernel, by decide +kernel, by decide +kernel,
       by decide +kernel⟩,
   ⟨0x5000000, up 0 [], by decide +kernel, by decide +kernel, by decide +kernel, by decide +kernel, by decide +kernel,
       by decide +kernel⟩,
   ⟨false, { op := 2, addr := 0 }, { idle with boot := { idle.boot with flashOp := some { op := 2, addr := 0 } } },
       by decide +kernel⟩⟩

theorem witness_HostAccessesComplete :
    (∃ (a : Fin (2 ^ 26)) (v : Fin (2 ^ 64)) (fails : Fin 4) (d : Dev), d.boot.resetHeld = false ∧ d.mode ≠ 4 ∧
        a.val % 8 = 0 ∧ fails.val < 3) ∧
    (∃ (a : Fin (2 ^ 26)) (v : Fin (2 ^ 64)) (d : Dev), d.boot.resetHeld = false ∧ d.mode ≠ 4 ∧ a.val % 8 = 0) ∧
    (∃ (a : Fin (2 ^ 26)) (fails : Fin 4) (d : Dev), d.boot.resetHeld = false ∧ d.mode ≠ 4 ∧ a.val % 8 = 0 ∧
        fails.val < 3) ∧
    (∃ (a : Fin (2 ^ 26)) (d : Dev), d.boot.resetHeld = false ∧ d.mode ≠ 4 ∧ a.val % 8 = 0) ∧
    (∃ (off : Fin (2 ^ 33)) (bytes : List Byte) (d : Dev), 0 < bytes.length ∧ off.val % 64 + bytes.length ≤ 64 ∧
        d.host.linkUp ∧ hostMayWrite off bytes.length) ∧
    (∃ (off : Fin (2 ^ 33)) (bytes : List Byte) (d : Dev), 0 < bytes.length ∧ off.val % 64 + bytes.length ≤ 64 ∧
        d.host.linkUp ∧ hostMayWrite off bytes.length = false) ∧
    (∃ (op : Fin 65536) (d : Dev), d.host.linkUp) :=
  ⟨⟨8, 1, 2, up 0 [], by decide +kernel, by decide +kernel, by decide +kernel, by decide +kernel⟩,
   ⟨8, 1, up 0 [], by decide +kernel, by decide +kernel, by decide +kernel⟩,
   ⟨8, 2, up 0 [], by decide +kernel, by decide +kernel, by decide +kernel, by decide +kernel⟩,
   ⟨8, up 0 [], by decide +kernel, by decide +kernel, by decide +kernel⟩,
   ⟨0x100801000, [1], { up 0 [] with host := { idle.host with linkUp := true } }, by decide +kernel,
       by decide +kernel, by decide +kernel, by decide +kernel⟩,
   ⟨0, [1], { up 0 [] with host := { idle.host with linkUp := true } }, by decide +kernel, by decide +kernel,
       by decide +kernel, by decide +kernel⟩,
   ⟨0x4000, { up 0 [] with host := { idle.host with linkUp := true } }, by decide +kernel⟩⟩

theorem witness_PlacementCommandsComplete :
    (∃ (q : Fin 64) (t : Nat) (d : Dev), Tbl.find? d.fab.due q = some t) ∧
    (∃ (q : Fin 64) (m : QuadMove) (d : Dev), Tbl.find? d.fab.moves q = some m ∧
        (d.portQuads q).any d.quadPending = false ∧ d.clk.cyc ≤ m.started + 3000) ∧
    (∃ (q : Fin 64) (m : QuadMove) (d : Dev), Tbl.find? d.fab.moves q = some m ∧
        ((d.reach (m.started + 3000)).portQuads q).any (d.reach (m.started + 3000)).quadPending) ∧
    (∃ (src : Fin 9) (w : WordIn) (d : Dev), w.ok ∧ w.fails ∧ d.on F.GLB_D2DSTAT_LINK_UP src ∧
        (d.link src w.dir).discarding = false) ∧
    (∃ (src : Fin 9) (dir : Fin 2) (d : Dev), (d.link src dir).discarding) ∧
    (∃ (src : Fin 9) (dir : Fin 2) (x : Xfer) (d : Dev), (d.link src dir).discarding) ∧
    (∃ (src : Fin 9) (dir : Fin 2) (d : Dev), d.clk.cyc = 0) ∧
    (∃ (d : Dev), d.booted ∧ d.mode ≠ 4) ∧
    (∃ (p : Fin 8) (d : Dev), d.pairSt p = 3) :=
  ⟨⟨3, 1, { idle with fab := { idle.fab with due := [(3, 1)] } }, by decide +kernel⟩,
   ⟨3, { target := 1, started := 0 },
       { idle with fab := { idle.fab with moves := [(3, { target := 1, started := 0 })] } }, by decide +kernel,
       by decide +kernel, by decide +kernel⟩,
   ⟨3, { target := 1, started := 0 }, pendingQuad, by decide +kernel, by decide +kernel⟩,
   ⟨4, badWord, idle, by decide +kernel, by decide +kernel, by decide +kernel, by decide +kernel⟩,
   ⟨4, 0,
       { idle with fab := { idle.fab with links := [(8, { held := 16, waiting := [], again := [], discarding := true })] } },
       by decide +kernel⟩,
   ⟨4, 0, .packet 0,
       { idle with fab := { idle.fab with links := [(8, { held := 16, waiting := [], again := [], discarding := true })] } },
       by decide +kernel⟩,
   ⟨4, 0,
       { idle with fab := { idle.fab with links := [(8, { held := 16, waiting := [], again := [], discarding := true })] } },
       by decide +kernel⟩,
   ⟨up 0 [], by decide +kernel, by decide +kernel⟩,
   ⟨2, { idle with fab := { idle.fab with pairs := [(2, 3)] } }, by decide +kernel⟩⟩

theorem witness_ModeCommandsComplete :
    (∃ (d : Dev), d.booted) ∧
    (∃ (d : Dev), d.arb.vigilStage = 1) ∧
    (∃ (d : Dev), d.arb.vigilStage = 2) ∧
    (∃ (d : Dev), d.arb.vigilStage = 3) ∧
    (∃ (d : Dev), d.mode = 4 ∧ (d.arb.trans.any fun t => t.cause == 6)) ∧
    (∃ (d : Dev), (d.arb.trans.any fun t => t.target == 5)) ∧
    (∃ (d : Dev), d.active ∧ d.get F.STL_STAT_ROLE = 1 ∧ d.on F.STL_STAT_LEASE) :=
  ⟨⟨up 0 [], by decide +kernel⟩,
   ⟨{ idle with arb := { idle.arb with vigilStage := 1 } }, by decide +kernel⟩,
   ⟨{ idle with arb := { idle.arb with vigilStage := 2 } }, by decide +kernel⟩,
   ⟨{ idle with arb := { idle.arb with vigilStage := 3 } }, by decide +kernel⟩,
   ⟨{ up 4 [] with arb := { idle.arb with trans := some { cause := 6, target := 0, cmd := none } } },
       by decide +kernel, by decide +kernel⟩,
   ⟨{ up 0 [] with arb := { idle.arb with trans := some { cause := 1, target := 5, cmd := none } } },
       by decide +kernel⟩,
   ⟨up 0 [(F.GLB_MODE_PAIRED, 0, 0, 1), (F.STL_STAT_ROLE, 0, 0, 1), (F.STL_STAT_LEASE, 0, 0, 1)], by decide +kernel,
       by decide +kernel, by decide +kernel⟩⟩

theorem witness_FramerCommandsComplete :
    (∃ (d : Dev), d.booted ∧ d.mode ≠ 4) ∧
    (∃ (c : Ch) (sf : Fin 4) (d : Dev), (d.tx c).framed ∧ (d.tx c).sf = sf ∧ d.framerRuns c ∧
        (d.outOpen (c / 64) ∨ d.cirsDown c = [])) ∧
    (∃ (c : Ch) (p : PartTx) (d : Dev), d.outOpen (c / 64) ∧ (d.tx c).framed ∧ (d.tx c).sf ≠ 0 ∧ (d.tx c).room ≠ 0 ∧
        d.framerRuns c ∧ (d.tx c).part = some p) ∧
    (∃ (c : Ch) (q : Nat) (p : Pkt) (r : List Sel) (d : Dev), d.outOpen (c / 64) ∧ (d.tx c).framed ∧ (d.tx c).sf ≠ 0 ∧
        (d.tx c).room ≠ 0 ∧ d.framerRuns c ∧ (d.tx c).part = none ∧ Tbl.get [] d.tm.ahead c = .pkt q p :: r ∧
        p.bytes.length ≤ 16000 ∧ ¬(0x80 < p.label ∧ p.label < 0x100)) ∧
    (∃ (c : Ch) (m : MgmtMsg) (r : List Sel) (d : Dev), d.outOpen (c / 64) ∧ (d.tx c).framed ∧ (d.tx c).sf ≠ 0 ∧
        (d.tx c).room ≠ 0 ∧ d.framerRuns c ∧ (d.tx c).part = none ∧ Tbl.get [] d.tm.ahead c = .mgmt m :: r ∧
        9 ≤ (d.tx c).room) ∧
    (∃ (c : Ch) (d : Dev), d.clk.cyc = 0) :=
  ⟨⟨up 0 [], by decide +kernel, by decide +kernel⟩,
   ⟨5, 0, framed 0 none, by decide +kernel, by decide +kernel, by decide +kernel, by decide +kernel⟩,
   ⟨5, onePart, framed 1 (some onePart), by decide +kernel, by decide +kernel, by decide +kernel, by decide +kernel,
       by decide +kernel, by decide +kernel⟩,
   ⟨5, 0, onePkt, [], { framed 1 none with tm := { idle.tm with ahead := [(5, [.pkt 0 onePkt])] } },
       by decide +kernel, by decide +kernel, by decide +kernel, by decide +kernel, by decide +kernel,
       by decide +kernel, by decide +kernel, by decide +kernel, by decide +kernel⟩,
   ⟨5, oneMgmt, [], { framed 1 none with tm := { idle.tm with ahead := [(5, [.mgmt oneMgmt])] } }, by decide +kernel,
       by decide +kernel, by decide +kernel, by decide +kernel, by decide +kernel, by decide +kernel,
       by decide +kernel, by decide +kernel⟩,
   ⟨5, idle, by decide +kernel⟩⟩

theorem witness_LineReceiverComplete :
    (∃ (c : Ch) (hdr : Fin 4) (pay : Fin (2 ^ 64)) (d : Dev), d.rxRuns c ∧ d.laneUp c ∧ (d.rxBoundary c).rxRuns c) ∧
    (∃ (c : Ch) (d : Dev), d.rxRuns c ∧ d.align c = 2 ∧ d.use F.TCH_FRMCFG_MISSES c ≤ (d.rx c).miss) ∧
    (∃ (c : Ch) (d : Dev), d.rxRuns c ∧ d.align c = 2 ∧ (d.rx c).miss < d.use F.TCH_FRMCFG_MISSES c ∧
        d.laneUp c = false) ∧
    (∃ (c : Ch) (d : Dev), d.rxRuns c ∧ d.align c = 3) ∧
    (∃ (c : Ch) (d : Dev), d.rxRuns c ∧ d.align c ≠ 2 ∧ (d.rx c).lofSet = false) ∧
    (∃ (c : Ch) (w : CwIn) (d : Dev), w.ok ∧ d.rxRuns c ∧ 2 ≤ d.align c) ∧
    (∃ (c : Ch) (ago : Fin (2 ^ 34)) (d : Dev), d.rxRuns c ∧ (d.rx c).qd = 0 ∧ 24 ≤ (d.rx c).queue.length) ∧
    (∃ (c : Ch) (d : Dev), d.rxRuns c ∧
        ((d.rx c).qd = 24 ∨ (d.rx c).qd = 48832 ∨ (d.rx c).qd = 97664 ∨ (d.rx c).qd = 146496) ∧
        8 ≤ (d.rx c).queue.length ∧ 8 + be (blkBytes ((d.rx c).queue.take 8)) 2 2 ≤ (d.rx c).queue.length) ∧
    (∃ (c : Ch) (d : Dev), d.rxRuns c ∧ (d.rx c).qd ≠ 0 ∧ (d.rx c).qd ≠ 24 ∧ (d.rx c).queue ≠ []) :=
  ⟨⟨5, 2, 0, up 2 [(F.SLN_CTL_ENABLE, 5, 0, 1), (F.TCH_FRMCFG_RX_EN, 5, 0, 1), (F.SLN_STAT_STATE, 5, 0, 4)],
       by decide +kernel, by decide +kernel, by decide +kernel⟩,
   ⟨5, withRx 2 { freshRx with miss := 31 }, by decide +kernel, by decide +kernel, by decide +kernel⟩,
   ⟨5, withRx 2 freshRx, by decide +kernel, by decide +kernel, by decide +kernel, by decide +kernel⟩,
   ⟨5, up 2 [(F.SLN_CTL_ENABLE, 5, 0, 1), (F.TCH_FRMCFG_RX_EN, 5, 0, 1), (F.TCH_FRMSTAT_ALIGN, 5, 0, 3)],
       by decide +kernel, by decide +kernel⟩,
   ⟨5, up 2 [(F.SLN_CTL_ENABLE, 5, 0, 1), (F.TCH_FRMCFG_RX_EN, 5, 0, 1)], by decide +kernel, by decide +kernel,
       by decide +kernel⟩,
   ⟨5, oneWord, up 2 [(F.SLN_CTL_ENABLE, 5, 0, 1), (F.TCH_FRMCFG_RX_EN, 5, 0, 1), (F.TCH_FRMSTAT_ALIGN, 5, 0, 2)],
       by decide +kernel, by decide +kernel, by decide +kernel⟩,
   ⟨5, 0, withRx 2 { freshRx with queue := blanks 24 }, by decide +kernel, by decide +kernel, by decide +kernel⟩,
   ⟨5, withRx 2 { freshRx with qd := 24, queue := blanks 8 }, by decide +kernel, by decide +kernel, by decide +kernel,
       by decide +kernel⟩,
   ⟨5, withRx 2 { freshRx with qd := 32, queue := blanks 1 }, by decide +kernel, by decide +kernel, by decide +kernel,
       by decide +kernel⟩⟩

theorem witness_BurstReceiverComplete :
    (∃ (c : Ch) (parityBad : Bool) (d : Dev), (d.toBurst c).brxRuns c ∧
        (Tbl.find? (d.toBurst c).lanes.loaded c).isNone) ∧
    (∃ (c : Ch) (b i : BurstIn) (x : Burst) (r : List Burst) (a : Dev × EqVals × Int) (y : Option (Int × Nat)) (o : Int × Nat) (d : Dev),
        b.ok ∧ (d.toBurst c).brxRuns c ∧ ((d.toBurst c).brx c).sched = x :: r ∧
        i = (if ((d.toBurst c).loadFirst c).useB F.SLN_CTL_RX_INV c then b.inv else b) ∧
        a = ((d.toBurst c).loadFirst c).preambleTo c (((Tbl.find? ((d.toBurst c).loadFirst c).lanes.loaded c).map (·.value)).getD 0) x.cold i.pre ∧
        y = findDelim i.search (((d.toBurst c).loadFirst c).use F.TCH_BRXCFG_WINDOW c) (((d.toBurst c).loadFirst c).use F.TCH_BRXCFG_DELIM_TOL c) a.2.1.phase a.2.2 ∧
        y = some o ∧ ((d.toBurst c).loadFirst c).laneUp c) ∧
    (∃ (c : Ch) (b i : BurstIn) (x : Burst) (r : List Burst) (a : Dev × EqVals × Int) (y : Option (Int × Nat)) (d : Dev),
        b.ok ∧ (d.toBurst c).brxRuns c ∧ ((d.toBurst c).brx c).sched = x :: r ∧
        i = (if ((d.toBurst c).loadFirst c).useB F.SLN_CTL_RX_INV c then b.inv else b) ∧
        a = ((d.toBurst c).loadFirst c).preambleTo c (((Tbl.find? ((d.toBurst c).loadFirst c).lanes.loaded c).map (·.value)).getD 0) x.cold i.pre ∧
        y = findDelim i.search (((d.toBurst c).loadFirst c).use F.TCH_BRXCFG_WINDOW c) (((d.toBurst c).loadFirst c).use F.TCH_BRXCFG_DELIM_TOL c) a.2.1.phase a.2.2 ∧
        (y = none ∨ ((d.toBurst c).loadFirst c).laneUp c = false)) ∧
    (∃ (c : Ch) (b : Burst) (r : List Burst) (d : Dev), (d.toBurst c).brxRuns c ∧
        ((d.toBurst c).brx c).sched = b :: r) ∧
    (∃ (c : Ch) (b : Burst) (r : List Burst) (d : Dev), (d.toBurst c).brxRuns c ∧
        ((d.toBurst c).brx c).intruded = false ∧ ((d.toBurst c).brx c).sched = b :: r) ∧
    (∃ (g : Gidx) (d : Dev), d.booted ∧ (d.preset g).state = 1) :=
  ⟨⟨5, false, scheduled, by decide +kernel, by decide +kernel⟩,
   ⟨5, oneArrival, _, oneBurst, [], _, some (0, 0), (0, 0), scheduled, by decide +kernel, by decide +kernel,
       by decide +kernel, rfl, rfl, by decide +kernel, by decide +kernel, by decide +kernel⟩,
   ⟨5, noArrival, _, oneBurst, [], _, none, scheduled, by decide +kernel, by decide +kernel, by decide +kernel, rfl,
       rfl, by decide +kernel, by decide +kernel⟩,
   ⟨5, oneBurst, [], scheduled, by decide +kernel, by decide +kernel⟩,
   ⟨5, oneBurst, [], scheduled, by decide +kernel, by decide +kernel, by decide +kernel⟩,
   ⟨640, { up 0 [] with lanes := { idle.lanes with presets := [(640, { value := 0, state := 1, since := 0 })] } },
       by decide +kernel, by decide +kernel⟩⟩

theorem witness_HeadScribeRoutinesComplete_a :
    (∃ (c : Ch) (d : Dev), d.headScribe c ∧ (d.scribe c).lastTick ≠ some d.subNow) ∧
    (∃ (c : Ch) (rs : List WindowIn) (w : Disc) (r : List Disc) (d : Dev), rs.all WindowIn.ok ∧ d.headScribe c ∧
        d.brxRuns c ∧ d.mgmtRoom c rs.length ∧ (d.scribe c).windows = w :: r) ∧
    (∃ (c : Ch) (loc : Loc) (r : Option WindowIn) (d : Dev), r.all WindowIn.ok ∧ d.headScribe c ∧ d.brxRuns c ∧
        d.mgmtRoom c 1 ∧ (d.term (128 * c + loc)).st = .ranging) ∧
    (∃ (c : Ch) (loc : Loc) (d : Dev), d.headScribe c ∧ d.mgmtRoom c 1 ∧
        (d.turn c loc fun t => t == .activate || t == .activated) ∧ (d.term (128 * c + loc)).st = .activating) ∧
    (∃ (c : Ch) (d : Dev), d.headScribe c ∧ ((d.scribe c).inbox.head?.any fun m => d.turn c m.loc (· == .msg))) ∧
    (∃ (c : Ch) (loc : Loc) (type : Fin 256) (d : Dev), d.headScribe c ∧ d.mgmtRoom c 1 ∧
        (((d.scribe c).inbox.any fun m => m.loc == loc.val) = false) ∧
        d.clear c loc (if d.rerangeDue c loc then 3 else 4) ∧
        ((d.term (128 * c + loc)).txns.any fun x => x.type == type.val && x.due)) ∧
    (∃ (c : Ch) (loc : Loc) (o : Int) (f : Nat) (d : Dev), d.headScribe c ∧ d.mgmtRoom c 1 ∧
        d.nextTodo c loc = some (.track o f)) ∧
    (∃ (c : Ch) (loc : Loc) (d : Dev), d.headScribe c ∧ d.hasTodo c loc .loss) ∧
    (∃ (c : Ch) (loc : Loc) (d : Dev), d.headScribe c ∧ d.hasTodo c loc .gasp) ∧
    (∃ (c : Ch) (f : Nat) (d : Dev), (d.scribe c).recoverTo = some f ∧ d.headRole c ∧ d.booted) :=
  ⟨⟨5, up 0 [(F.SLN_CTL_ENABLE, 5, 0, 1)], by decide +kernel, by decide +kernel⟩,
   ⟨5, [], oneWindow, [], discovering, by decide +kernel, by decide +kernel, by decide +kernel, by decide +kernel,
       by decide +kernel⟩,
   ⟨5, 3, none, { withTerm .ranging with regs := (rxBursts).regs }, by decide +kernel, by decide +kernel,
       by decide +kernel, by decide +kernel, by decide +kernel⟩,
   ⟨5, 3, workAt .activating .activate, by decide +kernel, by decide +kernel, by decide +kernel, by decide +kernel⟩,
   ⟨5, inboxAt 0, by decide +kernel, by decide +kernel⟩,
   ⟨5, 3, 6,
       { withTerm .active with reg := { (withTerm .active).reg with terms := [(643, { (withTerm .active).term 643 with txns := [oneTxn] })] } },
       by decide +kernel, by decide +kernel, by decide +kernel, by decide +kernel, by decide +kernel⟩,
   ⟨5, 3, 4, 0, workAt .active (.track 4 0), by decide +kernel, by decide +kernel, by decide +kernel⟩,
   ⟨5, 3, workAt .active .loss, by decide +kernel, by decide +kernel⟩,
   ⟨5, 3, workAt .active .gasp, by decide +kernel, by decide +kernel⟩,
   ⟨5, 9, recovering, by decide +kernel, by decide +kernel, by decide +kernel⟩⟩

theorem witness_HeadScribeRoutinesComplete_b :
    (∃ (c : Ch) (loc : Loc) (d : Dev), d.headScribe c ∧ (d.term (128 * c + loc)).st = .hold) ∧
    (∃ (c : Ch) (loc : Loc) (d : Dev), d.headScribe c ∧ d.mgmtRoom c 1 ∧
        (d.hasTodo c loc .mark ∨ d.hasTodo c loc .evidence)) ∧
    (∃ (c : Ch) (d : Dev), d.headScribe c ∧ d.mgmtRoom c 1 ∧ 0 < d.slotsFor c .recalled ∧ (d.recallNext c).isSome) ∧
    (∃ (c : Ch) (loc : Loc) (ring tag : Nat) (args : List Byte) (d : Dev), d.headScribe c ∧ d.mgmtRoom c 1 ∧
        d.nextTodo c loc = some (.host ring 0x14 tag args)) ∧
    (∃ (c : Ch) (loc : Loc) (m : Move) (d : Dev), d.booted ∧ d.headRole c ∧ (d.term (128 * c + loc)).st = .moving ∧
        (d.term (128 * c + loc)).move = some m ∧ m.taken = false) ∧
    (∃ (c : Ch) (loc : Loc) (ok : Bool) (d : Dev), d.headScribe c ∧ d.mgmtRoom c 1 ∧
        d.nextTodo c loc = some (.moved ok)) ∧
    (∃ (c : Ch) (loc : Loc) (t : Todo) (d : Dev), d.headScribe c ∧ d.mgmtRoom c 1 ∧ d.nextTodo c loc = some t ∧
        (t = .dozeEnd ∨ ∃ p xid, t = .doze p xid)) ∧
    (∃ (c : Ch) (loc : Loc) (r : KeyReq) (d : Dev), r.wrap.length = 40 ∧ d.headScribe c ∧ d.mgmtRoom c 1) ∧
    (∃ (c : Ch) (loc : Loc) (d : Dev), d.headScribe c ∧ d.mgmtRoom c 1 ∧ d.hasTodo c loc .keys) ∧
    (∃ (c : Ch) (loc : Loc) (xid q code detail : Nat) (d : Dev), d.headScribe c ∧ d.mgmtRoom c 1 ∧
        d.nextTodo c loc = some (.alarm xid q code detail)) :=
  ⟨⟨5, 3, withTerm .hold, by decide +kernel, by decide +kernel⟩,
   ⟨5, 3, workAt .active .mark, by decide +kernel, by decide +kernel, by decide +kernel⟩,
   ⟨5, recalling, by decide +kernel, by decide +kernel, by decide +kernel, by decide +kernel⟩,
   ⟨5, 3, 0, 1, [], workAt .active (.host 0 0x14 1 []), by decide +kernel, by decide +kernel, by decide +kernel⟩,
   ⟨5, 3, { peer := 640, frame := 0, taken := false },
       { withTerm .moving with reg := { (withTerm .moving).reg with terms := [(643, { (withTerm .moving).term 643 with move := some { peer := 640, frame := 0, taken := false } })] } },
       by decide +kernel, by decide +kernel, by decide +kernel, by decide +kernel, by decide +kernel⟩,
   ⟨5, 3, true, workAt .ranging (.moved true), by decide +kernel, by decide +kernel, by decide +kernel⟩,
   ⟨5, 3, .dozeEnd, workAt .doze .dozeEnd, by decide +kernel, by decide +kernel, by decide +kernel, Or.inl rfl⟩,
   ⟨5, 3, { index := 0, wrap := List.replicate 40 0 }, up 0 [(F.SLN_CTL_ENABLE, 5, 0, 1)], by decide +kernel,
       by decide +kernel, by decide +kernel⟩,
   ⟨5, 3, workAt .active .keys, by decide +kernel, by decide +kernel, by decide +kernel⟩,
   ⟨5, 3, 1, 2, 3, 4, workAt .active (.alarm 1 2 3 4), by decide +kernel, by decide +kernel, by decide +kernel⟩⟩

theorem witness_HeadScribeRoutinesComplete_c :
    (∃ (c : Ch) (loc : Loc) (ring op tag : Nat) (args : List Byte) (d : Dev), d.scribeUp c ∧ d.mgmtRoom c 1 ∧
        op ≠ 0x14 ∧ d.nextTodo c loc = some (.host ring op tag args)) ∧
    (∃ (c : Ch) (d : Dev), d.headScribe c ∧ d.hasTodo c 128 .takeover) :=
  ⟨⟨5, 3, 0, 0x13, 1, [], workAt .active (.host 0 0x13 1 []), by decide +kernel, by decide +kernel, by decide +kernel,
       by decide +kernel⟩,
   ⟨5, takingOver, by decide +kernel, by decide +kernel⟩⟩

theorem witness_TerminalRoleComplete_a :
    (∃ (c : Ch) (t : Loc) (d : Dev), d.hostOpen) ∧
    (∃ (c : Ch) (t : Loc) (d : Dev), d.hostOpen) ∧
    (∃ (c : Ch) (t : Loc) (d : Dev), d.hostOpen) ∧
    (∃ (c : Ch) (t : Loc) (d : Dev), d.hostOpen) ∧
    (∃ (c : Ch) (t : Loc) (d : Dev), d.hostOpen) ∧
    (∃ (c : Ch) (t : Loc) (f : Nat) (d : Dev), (d.emu (128 * c + t)).gaspAt = some f ∧ d.booted) ∧
    (∃ (c : Ch) (t : Loc) (f : Nat) (d : Dev), (d.emu (128 * c + t)).alarmAt = some f ∧ d.termScribe c ∧
        d.on F.TCH_EMUCTL_ALARM c t ∧ d.emuSt c t ≠ 0 ∧ d.emuSt c t ≠ 1 ∧ d.emuSt c t ≠ 7) ∧
    (∃ (c : Ch) (d : Dev), d.booted) ∧
    (∃ (b : Fin 256) (m : Nat) (d : Dev), d.booted ∧ d.mode = 1 ∧ Tbl.find? d.cas.due b = some m) ∧
    (∃ (b : Fin 256) (h : CasHold) (d : Dev), Tbl.find? d.cas.holds b = some h ∧ d.booted ∧
        (h.marks.all fun m => decide (m.2 < (d.qst m.1).out) || (m.2 == (d.qst m.1).out && (d.bind (m.1 / 4) (m.1 % 4)).part.isNone))) :=
  ⟨⟨5, 3, up 2 [(F.SLN_CTL_ENABLE, 5, 0, 1)], by decide +kernel⟩,
   ⟨5, 3, up 2 [(F.SLN_CTL_ENABLE, 5, 0, 1)], by decide +kernel⟩,
   ⟨5, 3, up 2 [(F.SLN_CTL_ENABLE, 5, 0, 1)], by decide +kernel⟩,
   ⟨5, 3, up 2 [(F.SLN_CTL_ENABLE, 5, 0, 1)], by decide +kernel⟩,
   ⟨5, 3, up 2 [(F.SLN_CTL_ENABLE, 5, 0, 1)], by decide +kernel⟩,
   ⟨5, 3, 2, withEmu { newEmu with gaspAt := some 2 } 3, by decide +kernel, by decide +kernel⟩,
   ⟨5, 3, 2, withEmu { newEmu with alarmAt := some 2 } 3, by decide +kernel, by decide +kernel, by decide +kernel,
       by decide +kernel, by decide +kernel, by decide +kernel⟩,
   ⟨5, up 0 [], by decide +kernel⟩,
   ⟨7, 5, { up 1 [] with cas := { due := [(7, 5)], holds := [] } }, by decide +kernel, by decide +kernel,
       by decide +kernel⟩,
   ⟨7, { marks := [(0, 0)], pkts := [] },
       { up 1 [] with cas := { due := [], holds := [(7, { marks := [(0, 0)], pkts := [] })] } }, by decide +kernel,
       by decide +kernel, by decide +kernel⟩⟩

theorem witness_TerminalRoleComplete_b :
    (∃ (c : Ch) (d : Dev), d.termScribe c ∧ (d.scribe c).inbox ≠ []) ∧
    (∃ (c : Ch) (d : Dev), d.termScribe c ∧ (d.scribe c).lastTick ≠ some d.subNow) ∧
    (∃ (c : Ch) (t : Loc) (d : Dev), d.termScribe c ∧ d.emuSt c t = 6 ∧ 8 ≤ (d.emu (128 * c + t)).missed ∧
        d.align c ≠ 2) ∧
    (∃ (c : Ch) (t : Loc) (d : Dev), d.termScribe c ∧ d.emuSt c t = 2) ∧
    (∃ (c : Ch) (t : Loc) (f : Nat) (d : Dev), (d.emu (128 * c + t)).deactAt = some f ∧ d.termScribe c) ∧
    (∃ (c : Ch) (t : Loc) (s a : Nat) (d : Dev), d.booted ∧ d.termRole c ∧ (d.rx c).arrived.isSome ∧ d.emuOn c t ∧
        d.arb.squelch = false ∧ d.arb.vigilStage < 2 ∧ d.outOpen (c / 64) ∧ d.emuSt c t = 2 ∧
        (d.emu (128 * c + t)).rangeSub = some s ∧ (d.emu (128 * c + t)).rangeAt = some a) ∧
    (∃ (c : Ch) (t : Loc) (b : Burst) (r : List Burst) (d : Dev), d.booted ∧ d.termRole c ∧ (d.rx c).arrived.isSome ∧
        d.emuOn c t ∧ d.arb.squelch = false ∧ d.arb.vigilStage < 2 ∧ d.outOpen (c / 64) ∧ d.emuSt c t = 4 ∧
        (d.emu (128 * c + t)).bursts = b :: r) :=
  ⟨⟨5, inboxAt 2, by decide +kernel, by decide +kernel⟩,
   ⟨5, up 2 [(F.SLN_CTL_ENABLE, 5, 0, 1)], by decide +kernel, by decide +kernel⟩,
   ⟨5, 3, withEmu { newEmu with missed := 8 } 6, by decide +kernel, by decide +kernel, by decide +kernel,
       by decide +kernel⟩,
   ⟨5, 3, withEmu newEmu 2, by decide +kernel, by decide +kernel⟩,
   ⟨5, 3, 2, withEmu { newEmu with deactAt := some 2 } 4, by decide +kernel, by decide +kernel⟩,
   ⟨5, 3, 8, 16, withEmuLine { newEmu with rangeSub := some 8, rangeAt := some 16 } 2, by decide +kernel,
       by decide +kernel, by decide +kernel, by decide +kernel, by decide +kernel, by decide +kernel,
       by decide +kernel, by decide +kernel, by decide +kernel, by decide +kernel⟩,
   ⟨5, 3, oneBurst, [], withEmuLine { newEmu with bursts := [oneBurst] } 4, by decide +kernel, by decide +kernel,
       by decide +kernel, by decide +kernel, by decide +kernel, by decide +kernel, by decide +kernel,
       by decide +kernel, by decide +kernel⟩⟩

theorem witness_GrantCommandsComplete :
    (∃ (c : Ch) (d : Dev), d.booted) ∧
    (∃ (c : Ch) (p : Report) (r : List Report) (d : Dev), Tbl.get [] d.gnt.reports c = p :: r) ∧
    (∃ (table : Fin 4) (index : Fin 65536) (d : Dev), d.hostOpen ∧ d.on F.GNT_IND_CTL_BUSY = false ∧ table.val < 2) ∧
    (∃ (table : Fin 4) (index : Fin 65536) (d : Dev), d.hostOpen ∧ d.on F.GNT_IND_CTL_BUSY = false ∧ table.val = 0) :=
  ⟨⟨5, up 0 [], by decide +kernel⟩,
   ⟨5, { sub := 8, loc := 3, body := 0 }, [],
       { idle with gnt := { idle.gnt with reports := [(5, [{ sub := 8, loc := 3, body := 0 }])] } },
       by decide +kernel⟩,
   ⟨1, 65535, up 0 [], by decide +kernel, by decide +kernel, by decide +kernel⟩,
   ⟨0, 65535, up 0 [], by decide +kernel, by decide +kernel, by decide +kernel⟩⟩

theorem witness_ForwardingCommandsComplete_a :
    (∃ (pipe : Pipe) (p : InPkt) (r : List InPkt) (d : Dev), Tbl.get [] d.fab.inq pipe = p :: r) ∧
    (∃ (q : LearnReq) (r : List LearnReq) (d : Dev), d.fwd.queue = q :: r) ∧
    (∃ (pipe : Pipe) (e : Nat × Nat) (r : List (Nat × Nat)) (d : Dev), Tbl.get [] d.fwd.filter pipe = e :: r) ∧
    (∃ (d : Dev), d.clk.cyc = 0) ∧
    (∃ (id : Fin (2 ^ 17)) (d : Dev), d.hostOpen ∧ d.on F.FWD_FLUSH_BUSY = false ∧ id.val < 16384) ∧
    (∃ (id : Fin (2 ^ 17)) (d : Dev), d.hostOpen ∧ d.on F.FWD_FLUSH_BUSY = false) ∧
    (∃ (id : Fin (2 ^ 17)) (d : Dev), d.hostOpen ∧ d.on F.FWD_FLUSH_BUSY = false ∧ id.val < 16384) ∧
    (∃ (id : Fin (2 ^ 17)) (d : Dev), d.hostOpen ∧ d.on F.FWD_FLUSH_BUSY = false) ∧
    (∃ (table : Fin 8) (index : Fin (2 ^ 20)) (d : Dev), d.hostOpen ∧ d.on F.FWD_IND_CTL_BUSY = false) ∧
    (∃ (table : Fin 8) (index : Fin (2 ^ 20)) (d : Dev), d.hostOpen ∧ d.on F.FWD_IND_CTL_BUSY = false) :=
  ⟨⟨2, oneIn, [], { idle with fab := { idle.fab with inq := [(2, [oneIn])] } }, by decide +kernel⟩,
   ⟨{ pair := 1, service := 2, pipe := 0, at_ := 0 }, [],
       { idle with fwd := { idle.fwd with queue := [{ pair := 1, service := 2, pipe := 0, at_ := 0 }] } },
       by decide +kernel⟩,
   ⟨2, (1, 0), [], { idle with fwd := { idle.fwd with filter := [(2, [(1, 0)])] } }, by decide +kernel⟩,
   ⟨idle, by decide +kernel⟩,
   ⟨16383, up 0 [], by decide +kernel, by decide +kernel, by decide +kernel⟩,
   ⟨131071, up 0 [], by decide +kernel, by decide +kernel⟩,
   ⟨16383, up 0 [], by decide +kernel, by decide +kernel, by decide +kernel⟩,
   ⟨0, up 0 [], by decide +kernel, by decide +kernel⟩,
   ⟨0, 5, up 0 [], by decide +kernel, by decide +kernel⟩,
   ⟨0, 5, up 0 [], by decide +kernel, by decide +kernel⟩⟩

theorem witness_ForwardingCommandsComplete_b :
    (∃ (table : Fin 8) (index : Fin (2 ^ 20)) (d : Dev), d.hostOpen ∧ d.on F.FWD_IND_CTL_BUSY = false) ∧
    (∃ (i r : Nat) (d : Dev), d.fwd.insert = some (i, r)) :=
  ⟨⟨0, 5, up 0 [], by decide +kernel, by decide +kernel⟩,
   ⟨4, 9, { idle with fwd := { idle.fwd with insert := some (4, 9) } }, by decide +kernel⟩⟩

theorem witness_TrafficCommandsComplete :
    (∃ (c : Ch) (m : MgmtMsg) (r : List MgmtMsg) (d : Dev), d.schedules c ∧ (Tbl.get [] d.tm.ahead c).length < 2 ∧
        (d.use F.TMG_CHCFG_CH_RATE c = 0 ∨ 0 ≤ Tbl.get 0 d.tm.chCredit c) ∧ Tbl.get [] d.tm.mgmt c = m :: r) ∧
    (∃ (d : Dev), d.clk.cyc = 0) ∧
    (∃ (d : Dev), d.clk.cyc = 0) ∧
    (∃ (q : Fin 65536) (old : Nat) (d : Dev), Tbl.find? d.tm.qold q = some old) ∧
    (∃ (table : Fin 8) (index : Fin (2 ^ 17)) (d : Dev), d.hostOpen ∧ d.on F.TMG_IND_CTL_BUSY = false ∧
        index.val < tmgSize table) ∧
    (∃ (table : Fin 8) (index : Fin (2 ^ 17)) (d : Dev), d.hostOpen ∧ d.on F.TMG_IND_CTL_BUSY = false) :=
  ⟨⟨5, { bytes := [], dest := 0 }, [],
       { up 3 [(F.SLN_CTL_ENABLE, 5, 0, 1)] with tm := { idle.tm with mgmt := [(5, [{ bytes := [], dest := 0 }])] } },
       by decide +kernel, by decide +kernel, by decide +kernel, by decide +kernel⟩,
   ⟨idle, by decide +kernel⟩,
   ⟨idle, by decide +kernel⟩,
   ⟨9, 1, { idle with tm := { idle.tm with qold := [(9, 1)] } }, by decide +kernel⟩,
   ⟨0, 5, up 0 [], by decide +kernel, by decide +kernel, by decide +kernel⟩,
   ⟨0, 5, up 0 [], by decide +kernel, by decide +kernel⟩⟩

theorem witness_ParserCommandsComplete :
    (∃ (table : Fin 4) (index : Fin 8192) (d : Dev), d.hostOpen ∧ d.on F.PAR_IND_CTL_BUSY = false ∧ table.val ≠ 3) ∧
    (∃ (index : Fin 8192) (d : Dev), d.hostOpen ∧ d.on F.PAR_IND_CTL_BUSY = false) ∧
    (∃ (i : Fin 8192) (x : Frag) (d : Dev), Tbl.find? d.par.frags i = some x) :=
  ⟨⟨0, 8191, up 0 [], by decide +kernel, by decide +kernel, by decide +kernel⟩,
   ⟨8191, up 0 [], by decide +kernel, by decide +kernel⟩,
   ⟨3, oneFrag, { idle with par := { idle.par with frags := [(3, oneFrag)] } }, by decide +kernel⟩⟩

theorem witness_SpillCommandsComplete :
    (∃ (q : Fin 66560) (d : Dev), d.clk.cyc = 0) ∧
    (∃ (q : Fin 66560) (l : List Pkt) (d : Dev), ¬ d.headKeep (d.qOwner q) ≤ d.chargedAll q (d.qst q).h ∧
        (d.qst q).m = [] ∧ (d.qst q).opened = some l) ∧
    (∃ (q : Fin 66560) (p : Page) (b : Nat) (d : Dev), ¬ d.headKeep (d.qOwner q) ≤ d.chargedAll q (d.qst q).h ∧
        ((d.qst q).m.find? (fun g => g.at_ == .stored) = some p) ∧ d.takeSp.2 = some b) ∧
    (∃ (q : Fin 66560) (p : Page) (d : Dev), ¬ d.headKeep (d.qOwner q) ≤ d.chargedAll q (d.qst q).h ∧
        ((d.qst q).m.find? (fun g => g.at_ == .stored) = some p) ∧ d.takeSp.2 = none) ∧
    (∃ (q : Fin 66560) (slot : Fin 3670016) (headerBad : Bool) (p : Page) (ok : Bool) (d : Dev),
        (((d.qst q).m.find? fun g => g.slot == slot.val) = some p) ∧ p.at_ = .back ok) ∧
    (∃ (table : Fin 4) (index : Fin 1024) (d : Dev), d.hostOpen ∧ d.on F.BUF_IND_CTL_BUSY = false ∧ table.val < 2 ∧
        index.val ≤ 512) ∧
    (∃ (index : Fin 1024) (d : Dev), d.hostOpen ∧ d.on F.BUF_IND_CTL_BUSY = false ∧ index.val ≤ 512) :=
  ⟨⟨66559, idle, by decide +kernel⟩,
   ⟨7, [onePkt],
       { idle with imgApplied := true, tm := { idle.tm with qst := [(7, { emptyQ with opened := some [onePkt] })] } },
       by decide +kernel, by decide +kernel, by decide +kernel⟩,
   ⟨7, { onePage with at_ := .stored }, 1,
       { idle with imgApplied := true, tm := { idle.tm with qst := [(7, { emptyQ with m := [{ onePage with at_ := .stored }] })] } },
       by decide +kernel, by decide +kernel, by decide +kernel⟩,
   ⟨7, { onePage with at_ := .stored }, noSpill, by decide +kernel, by decide +kernel, by decide +kernel⟩,
   ⟨7, 4, false, onePage, true, { idle with tm := { idle.tm with qst := [(7, { emptyQ with m := [onePage] })] } },
       by decide +kernel, by decide +kernel⟩,
   ⟨1, 512, up 0 [], by decide +kernel, by decide +kernel, by decide +kernel, by decide +kernel⟩,
   ⟨512, up 0 [], by decide +kernel, by decide +kernel, by decide +kernel⟩⟩

theorem witness_StackCommandsComplete_a :
    (∃ (access : Fin (2 ^ 27)) (n : Fin 4) (e : MemEnd) (blk : Fin 64) (ns : Fin (2 ^ 20)) (m : Nat) (d : Dev),
        d.memUsable (64 * access) ∧ m = min (n.val + 1) (4 - access.val % 4)) ∧
    (∃ (access : Fin (2 ^ 27)) (n : Fin 4) (e : MemEnd) (blk : Fin 64) (ns : Fin (2 ^ 20)) (d : Dev),
        d.memUsable (64 * access) = false) ∧
    (∃ (q : Fin 66560) (slot : Nat) (e : MemEnd) (blk : Fin 64) (ns : Fin (2 ^ 20)) (d : Dev), d.clk.cyc = 0) ∧
    (∃ (n : RingNo) (e : MemEnd) (blk : Fin 64) (ns : Fin (2 ^ 20)) (a : Nat) (d : Dev),
        a = sqAddr n (d.get F.HST_RINGSTAT_SQ_HEAD n)) ∧
    (∃ (e : WrAck) (w : WrEnt) (f : Dev) (d : Dev),
        (d.mem.wbuf.find? (fun w => d.pcOf (256 * w.block) == e.pc.val) = some w) ∧
        (f = Dev.issueUntil e.pc (fun f => f.mem.wbuf.any fun w => w.issued && d.pcOf (256 * w.block) == e.pc.val) ((d.reach (w.at_ + cdiv (3 * e.ns) 2)).slotsAhead e.pc) (d.reach (w.at_ + cdiv (3 * e.ns) 2)))) ∧
    (∃ (pc : Fin 128) (issued : List Bool) (d : Dev), d.stackUp (pc / 32)) ∧
    (∃ (st : Fin 4) (raw : Fin 256) (d : Dev), (d.set F.MEM_STACK_TEMP raw st).get F.MEM_STACK_STATE st = 1 ∧
        105 < sgn 8 raw) ∧
    (∃ (st : Fin 4) (raw : Fin 256) (d : Dev), (d.set F.MEM_STACK_TEMP raw st).get F.MEM_STACK_STATE st = 1 ∧
        sgn 8 raw ≤ 105) ∧
    (∃ (st : Fin 4) (t : Nat) (d : Dev), d.get F.MEM_STACK_STATE st = 4 ∧ Tbl.find? d.mem.coolSince st = some t) ∧
    (∃ (bank : Fin 8192) (b : Bank) (d : Dev), Tbl.find? d.mem.banks bank = some b) :=
  ⟨⟨0, 3, .good, 0, 0, 4, up 0 stacksOn, by decide +kernel, by decide +kernel⟩,
   ⟨0, 3, .good, 0, 0, idle, by decide +kernel⟩,
   ⟨7, 4, .good, 0, 0, idle, by decide +kernel⟩,
   ⟨0, .good, 0, 0, _, idle, rfl⟩,
   ⟨oneAck, oneWrite, _, oneBuffered, by decide +kernel, rfl⟩,
   ⟨40, [], up 0 [(F.MEM_STACK_STATE, 1, 0, 1)], by decide +kernel⟩,
   ⟨1, 106, up 0 [(F.MEM_STACK_STATE, 1, 0, 1)], by decide +kernel, by decide +kernel⟩,
   ⟨1, 105, up 0 [(F.MEM_STACK_STATE, 1, 0, 1)], by decide +kernel, by decide +kernel⟩,
   ⟨1, 0, { up 0 [(F.MEM_STACK_STATE, 1, 0, 4)] with mem := { idle.mem with coolSince := [(1, 0)] } },
       by decide +kernel, by decide +kernel⟩,
   ⟨7, { openRow := some 9, last := 9, k := 3, hits := 0 },
       { idle with mem := { idle.mem with banks := [(7, { openRow := some 9, last := 9, k := 3, hits := 0 })] } },
       by decide +kernel⟩⟩

theorem witness_StackCommandsComplete_b :
    (∃ (stack : Fin 4) (ch : Fin 16) (psid : Fin 4) (u : MUnit) (d : Dev), d.hostOpen ∧
        u = { s := stack.val, ch := ch.val, psid := psid.val } ∧ d.unitSpare u = false ∧ d.unitDead u = false ∧
        d.unitRetired u = false ∧ d.stackUp u.s ∧ d.mem.migWait.length < 16) ∧
    (∃ (e : MigEnds) (access : Fin 4) (u : MUnit) (f : Dev) (a : Nat) (d : Dev), d.mem.mig = some u ∧ d.stackUp u.s ∧
        d.mem.wbuf.length < 1024 ∧ f = d.reach (d.mem.migAt + cdiv 1500 (d.use F.MEM_CFG_MIGRATE_SHARE)) ∧
        a = f.blockAddr (f.logicalOf u) u.s u.ch (f.get F.MEM_MIGSTAT_CURSOR) ∧
        (f.readNow 5 (a / 256) [0, 1, 2, 3] e.rd a e.rdNs).2 = none) ∧
    (∃ (e : MigEnds) (access : Fin 4) (u : MUnit) (f : Dev) (a : Nat) (k : Dev × Option Bool) (ok : Bool) (d : Dev),
        d.mem.mig = some u ∧ d.stackUp u.s ∧ d.mem.wbuf.length < 1024 ∧
        f = d.reach (d.mem.migAt + cdiv 1500 (d.use F.MEM_CFG_MIGRATE_SHARE)) ∧
        a = f.blockAddr (f.logicalOf u) u.s u.ch (f.get F.MEM_MIGSTAT_CURSOR) ∧
        k = f.readNow 5 (a / 256) [0, 1, 2, 3] e.rd a e.rdNs ∧ k.2 = some ok ∧
        (if ok then k.1 else k.1.poison (a / 64 + access)).mem.mig = some u) :=
  ⟨⟨1, 2, 2, { s := 1, ch := 2, psid := 2 }, up 0 [(F.MEM_STACK_STATE, 1, 0, 1)], by decide +kernel,
       by decide +kernel, by decide +kernel, by decide +kernel, by decide +kernel, by decide +kernel,
       by decide +kernel⟩,
   ⟨oneMigEnds, 0, { s := 1, ch := 0, psid := 0 }, _, _, migNoTag, by decide +kernel, by decide +kernel,
       by decide +kernel, rfl, rfl, by decide +kernel⟩,
   ⟨oneMigEnds, 0, { s := 1, ch := 0, psid := 0 }, _, _, _, true, migrating, by decide +kernel, by decide +kernel,
       by decide +kernel, rfl, rfl, rfl, by decide +kernel, by decide +kernel⟩⟩

theorem witness_UplinkPortCommandsComplete :
    (∃ (m : MacIn) (d : Dev), m.symbols.length ≤ 8 ∧ m.bipErrs.length ≤ 8 ∧
        (d.fecCounts (d.firstPort m.port) m).on F.UPL_STAT_LINK_UP (d.firstPort m.port) ∧
        (d.fecCounts (d.firstPort m.port) m).mode ≠ 4 ∧ (d.fecCounts (d.firstPort m.port) m).mode ≠ 5) ∧
    (∃ (port : LanePort) (e : TxEnd) (k : Nat) (d : Dev), d.macSends (d.firstPort port) ∧
        d.outOpen (quadLink (d.firstPort port / 4)) ∧ d.egPick (d.firstPort port) = some k) ∧
    (∃ (port : LanePort) (k : Fin 9) (t : Nat) (d : Dev),
        (if k.val = 8 then Tbl.find? d.mac.portPause (d.firstPort port) else Tbl.find? d.mac.queuePause (8 * d.firstPort port + k)) = some t) ∧
    (∃ (port : LanePort) (k : Fin 8) (p t : Nat) (d : Dev), p = d.firstPort port ∧
        Tbl.find? d.mac.since (8 * p + k) = some t ∧ d.use F.UPL_MACCFG_STORM_MS p ≠ 0 ∧
        t + d.use F.UPL_MACCFG_STORM_MS p * 1500000 ≤ max (Tbl.get 0 d.mac.portPause p) (Tbl.get 0 d.mac.queuePause (8 * p + k)) ∧
        (d.qst (65536 + 8 * p + k)).all ≠ []) ∧
    (∃ (port : LanePort) (t : Nat) (d : Dev), Tbl.find? d.mac.ignore (d.firstPort port) = some t) ∧
    (∃ (port : LanePort) (p : Nat) (d : Dev), p = d.firstPort port ∧ d.on F.UPL_STAT_LINK_UP p = false ∧
        ((List.range (d.portWidth p)).all fun i => d.laneUp (128 + p + i))) ∧
    (∃ (port : LanePort) (k : DownCause) (sending : Bool) (d : Dev), d.on F.UPL_STAT_LINK_UP (d.firstPort port)) :=
  ⟨⟨oneFrame, up 0 [(F.UPL_STAT_LINK_UP, 0, 0, 1)], by decide +kernel, by decide +kernel, by decide +kernel,
       by decide +kernel, by decide +kernel⟩,
   ⟨0, .whole, 7, sending, by decide +kernel, by decide +kernel, by decide +kernel⟩,
   ⟨0, 8, 40, { idle with mac := { idle.mac with portPause := [(0, 40)] } }, by decide +kernel⟩,
   ⟨0, 7, 0, 0, stormy, by decide +kernel, by decide +kernel, by decide +kernel, by decide +kernel, by decide +kernel⟩,
   ⟨0, 40, { idle with mac := { idle.mac with ignore := [(0, 40)] } }, by decide +kernel⟩,
   ⟨0, 0, up 0 [(F.SLN_STAT_STATE, 128, 0, 4), (F.UPL_QUADCFG_MODE, 0, 0, 0)], by decide +kernel, by decide +kernel,
       by decide +kernel⟩,
   ⟨0, .localFault, true, up 0 [(F.UPL_STAT_LINK_UP, 0, 0, 1)], by decide +kernel⟩⟩

theorem witness_CircuitCommandsComplete :
    (∃ (k : Nat) (l : List Byte) (r : List (Nat × List Byte)) (d : Dev), d.cirIn = (k, l) :: r) ∧
    (∃ (i : Fin 1024) (d : Dev), d.termRole (i / 8)) ∧
    (∃ (i : Fin 1024) (t : Nat) (e : Nat × List Blk) (d : Dev), d.termRole (i / 8) = false ∧ d.headRole (i / 8) ∧
        d.useB F.CIR_CFG_UP_EN i ∧ (d.cir i).nextSub = some t ∧ (((d.cir i).filed.find? fun e => e.1 == t) = some e)) ∧
    (∃ (i : Fin 1024) (t : Nat) (d : Dev), d.headRole (i / 8) ∧ d.useB F.CIR_CFG_UP_EN i ∧
        (d.cir i).nextSub = some t ∧ (((d.cir i).filed.any fun e => e.1 == t) = false)) :=
  ⟨⟨0, List.replicate 64 0, [], { idle with cirIn := [(0, List.replicate 64 0)] }, by decide +kernel⟩,
   ⟨40, up 2 [(F.SLN_CTL_ENABLE, 5, 0, 1)], by decide +kernel⟩,
   ⟨40, 8, (8, []), withCir { idleCir with nextSub := some 8, filed := [(8, [])] }, by decide +kernel,
       by decide +kernel, by decide +kernel, by decide +kernel, by decide +kernel⟩,
   ⟨40, 8, withCir { idleCir with nextSub := some 8 }, by decide +kernel, by decide +kernel, by decide +kernel,
       by decide +kernel⟩⟩

theorem witness_LaneCommandsComplete_a :
    (∃ (n : LaneNo) (d : Dev), d.hostOpen ∧ d.get F.SLN_STAT_STATE n = 0 ∧ d.on F.SLN_CTL_ENABLE n = false) ∧
    (∃ (n : LaneNo) (d : Dev), d.hostOpen ∧ d.on F.SLN_CTL_ENABLE n) ∧
    (∃ (n : LaneNo) (d : Dev), d.lanes.descending.contains n.val) ∧
    (∃ (n : LaneNo) (d : Dev), d.get F.SLN_STAT_STATE n = 1 ∧ d.lanes.descending.contains n.val = false) ∧
    (∃ (n : LaneNo) (d : Dev), d.get F.SLN_STAT_STATE n = 2 ∧ d.lanes.descending.contains n.val = false ∧
        d.burstLane n) ∧
    (∃ (n : LaneNo) (d : Dev), d.get F.SLN_STAT_STATE n = 2 ∧ d.lanes.descending.contains n.val = false ∧
        d.burstLane n = false) ∧
    (∃ (n : LaneNo) (v : RxVals) (d : Dev), v.ok ∧ d.get F.SLN_STAT_STATE n = 3 ∧ d.on F.SLN_STAT_SIG_DET n ∧
        d.lanes.descending.contains n.val = false) ∧
    (∃ (n : LaneNo) (d : Dev), d.get F.SLN_STAT_STATE n = 3 ∧ d.on F.SLN_STAT_SIG_DET n ∧
        d.lanes.descending.contains n.val = false) ∧
    (∃ (n : LaneNo) (d : Dev), d.get F.SLN_STAT_STATE n = 5 ∧ d.lanes.descending.contains n.val = false) ∧
    (∃ (n : LaneNo) (d : Dev), d.continuousRx n) :=
  ⟨⟨263, up 0 [], by decide +kernel, by decide +kernel, by decide +kernel⟩,
   ⟨263, up 0 [(F.SLN_CTL_ENABLE, 263, 0, 1)], by decide +kernel, by decide +kernel⟩,
   ⟨3, { idle with lanes := { idle.lanes with descending := [3] } }, by decide +kernel⟩,
   ⟨3, up 0 [(F.SLN_STAT_STATE, 3, 0, 1)], by decide +kernel, by decide +kernel⟩,
   ⟨3, up 0 [(F.SLN_STAT_STATE, 3, 0, 2)], by decide +kernel, by decide +kernel, by decide +kernel⟩,
   ⟨130, up 0 [(F.SLN_STAT_STATE, 130, 0, 2)], by decide +kernel, by decide +kernel, by decide +kernel⟩,
   ⟨130, { spans := [], err := 0 }, up 0 [(F.SLN_STAT_STATE, 130, 0, 3), (F.SLN_STAT_SIG_DET, 130, 0, 1)],
       by decide +kernel, by decide +kernel, by decide +kernel, by decide +kernel⟩,
   ⟨130, up 0 [(F.SLN_STAT_STATE, 130, 0, 3), (F.SLN_STAT_SIG_DET, 130, 0, 1)], by decide +kernel, by decide +kernel,
       by decide +kernel⟩,
   ⟨130, up 0 [(F.SLN_STAT_STATE, 130, 0, 5)], by decide +kernel, by decide +kernel⟩,
   ⟨130, up 0 [(F.SLN_STAT_STATE, 130, 0, 3)], by decide +kernel⟩⟩

theorem witness_LaneCommandsComplete_b :
    (∃ (n : LaneNo) (d : Dev), d.continuousRx n ∧ d.on F.SLN_STAT_SIG_DET n = false) ∧
    (∃ (n : LaneNo) (d : Dev), d.continuousRx n ∧ d.on F.SLN_STAT_CDR_LOCK n) ∧
    (∃ (n : LaneNo) (ws : List RxVals) (d : Dev), ws.all RxVals.ok ∧ d.hostOpen ∧ d.laneUp n ∧ d.burstLane n = false) ∧
    (∃ (n : LaneNo) (ws : List RxVals) (e : Dev) (l : List Nat) (d : Dev), ws.all RxVals.ok ∧ d.continuousRx n ∧
        e = ws.foldl (Dev.rxWindow n) d ∧ l = (Tbl.get [] e.lanes.foms n).take (e.use F.SLN_RXCFG_RETRAIN_WIN n)) ∧
    (∃ (n : LaneNo) (d : Dev), d.hostOpen ∧ d.mode = 5 ∧ d.get F.SLN_PATCFG_INJ_MODE n = 1) ∧
    (∃ (n : LaneNo) (d : Dev), d.mode = 5 ∧ d.get F.SLN_PATCFG_INJ_MODE n = 2) ∧
    (∃ (n : LaneNo) (d : Dev), d.checking n ∧ d.on F.SLN_STAT_PAT_SYNC n = false) ∧
    (∃ (n : LaneNo) (nbits errs : Fin (2 ^ 40)) (d : Dev), d.checking n ∧ d.on F.SLN_STAT_PAT_SYNC n) ∧
    (∃ (index : Gidx) (dflt : Bool) (e : Dev) (k i : Nat) (d : Dev), d.hostOpen ∧ d.on F.SLN_PRE_CTL_BUSY = false ∧
        e = (((d.set F.SLN_PRE_CTL_INDEX index).set F.SLN_PRE_CTL_DEFAULT (b2n dflt)).set F.SLN_PRE_CTL_OP 0) ∧
        (k = if dflt then index.val % 128 else index.val / 128) ∧ (i = if dflt then 16384 + k else index.val) ∧
        e.termRole k = false) ∧
    (∃ (index : Gidx) (dflt : Bool) (e : Dev) (k i : Nat) (d : Dev), d.hostOpen ∧ d.on F.SLN_PRE_CTL_BUSY = false ∧
        e = (((d.set F.SLN_PRE_CTL_INDEX index).set F.SLN_PRE_CTL_DEFAULT (b2n dflt)).set F.SLN_PRE_CTL_OP 1) ∧
        (k = if dflt then index.val % 128 else index.val / 128) ∧ (i = if dflt then 16384 + k else index.val) ∧
        e.termRole k = false ∧ presetOk (e.readData F.SLN_PRE_DATA_DATA 2)) :=
  ⟨⟨130, up 0 [(F.SLN_STAT_STATE, 130, 0, 3)], by decide +kernel, by decide +kernel⟩,
   ⟨130, up 0 [(F.SLN_STAT_STATE, 130, 0, 3), (F.SLN_STAT_CDR_LOCK, 130, 0, 1)], by decide +kernel, by decide +kernel⟩,
   ⟨130, [], up 0 [(F.SLN_STAT_STATE, 130, 0, 4)], by decide +kernel, by decide +kernel, by decide +kernel,
       by decide +kernel⟩,
   ⟨130, [], _, _, up 0 [(F.SLN_STAT_STATE, 130, 0, 4)], by decide +kernel, by decide +kernel, rfl, rfl⟩,
   ⟨130, up 5 [(F.SLN_PATCFG_INJ_MODE, 130, 0, 1)], by decide +kernel, by decide +kernel, by decide +kernel⟩,
   ⟨130, up 5 [(F.SLN_PATCFG_INJ_MODE, 130, 0, 2)], by decide +kernel, by decide +kernel⟩,
   ⟨130, up 5 [(F.SLN_PATCFG_CHK_EN, 130, 0, 1)], by decide +kernel, by decide +kernel⟩,
   ⟨130, 64, 3, up 5 [(F.SLN_PATCFG_CHK_EN, 130, 0, 1), (F.SLN_STAT_PAT_SYNC, 130, 0, 1)], by decide +kernel,
       by decide +kernel⟩,
   ⟨640, false, _, 5, 640, up 0 [], by decide +kernel, by decide +kernel, rfl, by decide +kernel, by decide +kernel,
       by decide +kernel⟩,
   ⟨640, false, _, 5, 640, up 0 [], by decide +kernel, by decide +kernel, rfl, by decide +kernel, by decide +kernel,
       by decide +kernel, by decide +kernel⟩⟩

theorem witness_LaneCommandsComplete_c :
    ∃ (index : Gidx) (dflt : Bool) (e : Dev) (k i : Nat) (d : Dev), d.hostOpen ∧ d.on F.SLN_PRE_CTL_BUSY = false ∧
        e = (((d.set F.SLN_PRE_CTL_INDEX index).set F.SLN_PRE_CTL_DEFAULT (b2n dflt)).set F.SLN_PRE_CTL_OP 2) ∧
        (k = if dflt then index.val % 128 else index.val / 128) ∧ (i = if dflt then 16384 + k else index.val) ∧
        e.termRole k = false ∧ dflt = false :=
  ⟨640, false, _, 5, 640, up 0 [], by decide +kernel, by decide +kernel, rfl, by decide +kernel, by decide +kernel, by decide +kernel, by decide +kernel⟩

theorem witness_CipherCommandsComplete :
    (∃ (index : Fin (2 ^ 17)) (d : Dev), d.hostOpen ∧ d.on F.CRY_KEY_CTL_BUSY = false ∧ index.val ≤ 98367) ∧
    (∃ (index : Fin (2 ^ 17)) (d : Dev), d.hostOpen ∧ d.on F.CRY_KEY_CTL_BUSY = false ∧ index.val ≤ 98367) ∧
    (∃ (index : Fin (2 ^ 17)) (e : Dev) (d : Dev), d.hostOpen ∧ d.on F.CRY_KEY_CTL_BUSY = false ∧ index.val ≤ 98367 ∧
        ((d.set F.CRY_KEY_CTL_INDEX index).set F.CRY_KEY_CTL_OP 2).eraseSlot index = some e) ∧
    (∃ (index : Fin (2 ^ 17)) (d : Dev), (d.slot index).state = 2 ∧ d.slotHeld index = false) ∧
    (∃ (q : Nat) (j : Job) (r : List Job) (d : Dev), d.cry.running = some q ∧ d.jobs q = j :: r) ∧
    (∃ (blocks : Fin (2 ^ 24)) (q u : Nat) (j : Job) (r : List Job) (d : Dev), d.cry.running = some q ∧
        d.urgent = some u ∧ d.jobs q = j :: r ∧ q < u ∧ j.done + blocks * jobUnit j.mode < j.length ∧
        d.on F.CRY_CFG_JOB_EN) :=
  ⟨⟨98367, up 0 [], by decide +kernel, by decide +kernel, by decide +kernel⟩,
   ⟨98367, up 0 [], by decide +kernel, by decide +kernel, by decide +kernel⟩,
   ⟨9, _, { up 0 [] with cry := { idle.cry with slots := [(9, { emptySlot with state := 1 })] } }, by decide +kernel,
       by decide +kernel, by decide +kernel, rfl⟩,
   ⟨9, { up 0 [] with cry := { idle.cry with slots := [(9, { emptySlot with state := 2 })] } }, by decide +kernel,
       by decide +kernel⟩,
   ⟨3, oneJob, [], { idle with cry := { idle.cry with running := some 3, jobs := [(3, [oneJob])] } },
       by decide +kernel, by decide +kernel⟩,
   ⟨0, 0, 3, { oneJob with length := 64 }, [], preempted, by decide +kernel, by decide +kernel, by decide +kernel,
       by decide +kernel, by decide +kernel, by decide +kernel⟩⟩

theorem witness_TimeCommandsComplete_a :
    (∃ (f p : Int) (d : Dev), d.tim.sample = some p ∧ d.hasSource) ∧
    (∃ (d : Dev), (d.get F.TIM_STAT_STATE = 1 ∨ d.get F.TIM_STAT_STATE = 2)) ∧
    (∃ (ns : Fin (2 ^ 30)) (atPps : Bool) (d : Dev), d.hostOpen) ∧
    (∃ (d : Dev), d.on F.TIM_SET_NS_GO ∧ d.on F.TIM_SET_NS_AT_PPS) ∧
    (∃ (x : Int) (d : Dev), (d.on F.TIM_SET_NS_GO && d.on F.TIM_SET_NS_AT_PPS) = false ∧ d.use F.TIM_CFG_SRC = 2 ∧
        d.mode ≠ 3 ∧ x = d.clk.ns * 65536 + d.clk.frac / 65536) ∧
    (∃ (m : PtpIn) (d : Dev), m.ok ∧ d.on F.UPL_STAT_LINK_UP m.port ∧ d.useB F.UPL_MACCFG_RX_EN m.port ∧ d.mode ≠ 4 ∧
        d.mode ≠ 5 ∧ m.domain.val = d.use F.TIM_PTPCFG_DOMAIN ∧ m.transport.val = d.use F.TIM_PTPCFG_TRANSPORT ∧
        d.ptpSlave m.port ∧ m.kind.val = 0) ∧
    (∃ (m : PtpIn) (d : Dev), m.ok ∧ d.on F.UPL_STAT_LINK_UP m.port ∧ d.useB F.UPL_MACCFG_RX_EN m.port ∧ d.mode ≠ 4 ∧
        d.mode ≠ 5 ∧ m.domain.val = d.use F.TIM_PTPCFG_DOMAIN ∧ m.transport.val = d.use F.TIM_PTPCFG_TRANSPORT ∧
        d.ptpSlave m.port ∧ m.kind.val = 11) ∧
    (∃ (port : LanePort) (kind : Fin 16) (e : Dev) (d : Dev), d.ptpLeaves port ∧
        e = d.ptpDue (port.val * 16 + kind.val) ∧ e.ptpLeaves port ∧ e.ptpMaster port ∧ kind.val = 0) ∧
    (∃ (k : Fin 16) (d : Dev), d.useB F.TIM_TRIG_CTL_ENABLE k ∧ d.mode ≠ 4 ∧ d.use F.TIM_TRIG_CTL_MODE k = 1 ∧
        (d.trig k).spent = false ∧ d.nowNs ≤ d.trigStart k) ∧
    (∃ (k : Fin 16) (per from_ at_ : Nat) (d : Dev), d.useB F.TIM_TRIG_CTL_ENABLE k ∧ d.mode ≠ 4 ∧
        d.use F.TIM_TRIG_CTL_MODE k = 2 ∧ per = max 1 (d.use F.TIM_TRIG_TIME_PERIOD k) ∧
        from_ = max d.nowNs (d.trig k).after ∧
        (at_ = if from_ ≤ d.trigStart k then d.trigStart k else d.trigStart k + cdiv (from_ - d.trigStart k) per * per)) :=
  ⟨⟨0, 5, { up 0 [(F.TIM_CFG_SRC, 0, 0, 1)] with tim := { idle.tim with sample := some 5 } }, by decide +kernel,
       by decide +kernel⟩,
   ⟨up 0 [(F.TIM_STAT_STATE, 0, 0, 2)], by decide +kernel⟩,
   ⟨7, true, up 0 [], by decide +kernel⟩,
   ⟨up 0 [(F.TIM_SET_NS_GO, 0, 0, 1), (F.TIM_SET_NS_AT_PPS, 0, 0, 1)], by decide +kernel, by decide +kernel⟩,
   ⟨0, up 0 [(F.TIM_CFG_SRC, 0, 0, 2)], by decide +kernel, by decide +kernel, by decide +kernel, by decide +kernel⟩,
   ⟨ptpIn 0 0, ptpSlaveDev, by decide +kernel, by decide +kernel, by decide +kernel, by decide +kernel,
       by decide +kernel, by decide +kernel, by decide +kernel, by decide +kernel, by decide +kernel⟩,
   ⟨ptpIn 11 0, ptpSlaveDev, by decide +kernel, by decide +kernel, by decide +kernel, by decide +kernel,
       by decide +kernel, by decide +kernel, by decide +kernel, by decide +kernel, by decide +kernel⟩,
   ⟨0, 0, _, up 0 [(F.TIM_PTPMASTER_PORTS, 0, 0, 1), (F.UPL_STAT_LINK_UP, 0, 0, 1), (F.UPL_MACCFG_TX_EN, 0, 0, 1)],
       by decide +kernel, rfl, by decide +kernel, by decide +kernel, by decide +kernel⟩,
   ⟨15, up 0 [(F.TIM_TRIG_CTL_ENABLE, 15, 0, 1), (F.TIM_TRIG_CTL_MODE, 15, 0, 1)], by decide +kernel,
       by decide +kernel, by decide +kernel, by decide +kernel, by decide +kernel⟩,
   ⟨15, _, _, _, up 0 [(F.TIM_TRIG_CTL_ENABLE, 15, 0, 1), (F.TIM_TRIG_CTL_MODE, 15, 0, 2)], by decide +kernel,
       by decide +kernel, by decide +kernel, rfl, rfl, rfl⟩⟩

theorem witness_TimeCommandsComplete_b :
    (∃ (k : Fin 16) (a : Int) (r : List Int) (d : Dev), d.useB F.TIM_TRIG_CTL_ENABLE k ∧ d.mode ≠ 4 ∧
        d.use F.TIM_TRIG_CTL_MODE k = 3 ∧ (d.trig k).plan = a :: r) ∧
    (∃ (k : Fin 16) (e : Nat) (r : List Nat) (d : Dev), (d.trig k).pulses = e :: r ∧ r ≠ []) ∧
    (∃ (d : Dev), d.useB F.TIM_CFG_PPS_OUT_EN ∧ d.mode ≠ 4) ∧
    (∃ (k : Fin 4) (rising : Bool) (d : Dev), d.mode ≠ 4 ∧ bit (d.use F.TIM_CAPCTL_EDGE k) (if rising then 0 else 1) ∧
        Tbl.find? d.tim.capLast k = none ∧ (Tbl.get [] d.tim.caps k).length < 16) ∧
    (∃ (k : Fin 4) (d : Dev), d.boot.resetHeld = false ∧ d.mode ≠ 4) ∧
    (∃ (d : Dev), d.boot.resetHeld = false ∧ d.mode ≠ 4) :=
  ⟨⟨15, 1000000, [], plannedTrig, by decide +kernel, by decide +kernel, by decide +kernel, by decide +kernel⟩,
   ⟨15, 8, [16], { idle with tim := { idle.tim with trigs := [(15, { idle.trig 15 with pulses := [8, 16] })] } },
       by decide +kernel, by decide +kernel⟩,
   ⟨up 0 [(F.TIM_CFG_PPS_OUT_EN, 0, 0, 1)], by decide +kernel, by decide +kernel⟩,
   ⟨3, true, up 0 [(F.TIM_CAPCTL_EDGE, 3, 0, 1)], by decide +kernel, by decide +kernel, by decide +kernel,
       by decide +kernel⟩,
   ⟨3, up 0 [], by decide +kernel, by decide +kernel⟩,
   ⟨up 0 [], by decide +kernel, by decide +kernel⟩⟩

theorem witness_StitchMessagesComplete_a :
    (∃ (h : HelloIn) (d : Dev), d.paired ∧ d.booted ∧ d.get F.STL_STAT_LINK ≠ 0 ∧ d.pairs h) ∧
    (∃ (h : HelloIn) (d : Dev), d.paired ∧ d.booted ∧ d.get F.STL_STAT_LINK ≠ 0 ∧ d.pairs h = false) ∧
    (∃ (f : Fin (2 ^ 48)) (epoch : Fin 65536) (fl : StFlags) (d : Dev), d.standby ∧ d.stitchUp ∧ d.arb.trans = none) ∧
    (∃ (f : Fin (2 ^ 48)) (fl : StFlags) (d : Dev), d.active ∧ d.stitchUp ∧ d.arb.releaseAt = none ∧
        f.val ≤ d.frameNow) ∧
    (∃ (p : Fin (2 ^ 48)) (d : Dev), d.standby ∧ d.stitchUp ∧ d.arb.trans = none ∧ d.shutdownAsked = false ∧
        d.on F.STL_STAT_SYNCED) ∧
    (∃ (cause : Fin 256) (d : Dev), d.active ∧ d.stitchUp ∧ d.arb.releaseAt = none) ∧
    (∃ (f : Fin (2 ^ 48)) (recs : List CopyRec) (d : Dev), recs.all CopyRec.ok ∧ d.standby ∧ d.stitchUp) ∧
    (∃ (recs : List CopyRec) (last : Bool) (d : Dev), recs.all CopyRec.ok ∧ d.standby ∧ d.stitchUp) ∧
    (∃ (f : Fin (2 ^ 48)) (count crc : Fin (2 ^ 32)) (d : Dev), d.standby ∧ d.stitchUp) ∧
    (∃ (us : List LearnIn) (d : Dev), d.standby ∧ d.stitchUp) :=
  ⟨⟨oneHello, up 3 [(F.GLB_MODE_PAIRED, 0, 0, 1), (F.STL_STAT_LINK, 0, 0, 2)], by decide +kernel, by decide +kernel,
       by decide +kernel, by decide +kernel⟩,
   ⟨{ oneHello with side := 0 }, up 3 [(F.GLB_MODE_PAIRED, 0, 0, 1), (F.STL_STAT_LINK, 0, 0, 2)], by decide +kernel,
       by decide +kernel, by decide +kernel, by decide +kernel⟩,
   ⟨8, 0, okFlags, up 3 [(F.GLB_MODE_PAIRED, 0, 0, 1), (F.STL_STAT_LINK, 0, 0, 2)], by decide +kernel,
       by decide +kernel, by decide +kernel⟩,
   ⟨0, okFlags, up 0 [(F.GLB_MODE_PAIRED, 0, 0, 1), (F.STL_STAT_LINK, 0, 0, 2)], by decide +kernel, by decide +kernel,
       by decide +kernel, by decide +kernel⟩,
   ⟨8, up 3 [(F.GLB_MODE_PAIRED, 0, 0, 1), (F.STL_STAT_LINK, 0, 0, 2), (F.STL_STAT_SYNCED, 0, 0, 1)],
       by decide +kernel, by decide +kernel, by decide +kernel, by decide +kernel, by decide +kernel⟩,
   ⟨0, up 0 [(F.GLB_MODE_PAIRED, 0, 0, 1), (F.STL_STAT_LINK, 0, 0, 2)], by decide +kernel, by decide +kernel,
       by decide +kernel⟩,
   ⟨0, [], up 3 [(F.GLB_MODE_PAIRED, 0, 0, 1), (F.STL_STAT_LINK, 0, 0, 2)], by decide +kernel, by decide +kernel,
       by decide +kernel⟩,
   ⟨[], true, up 3 [(F.GLB_MODE_PAIRED, 0, 0, 1), (F.STL_STAT_LINK, 0, 0, 2)], by decide +kernel, by decide +kernel,
       by decide +kernel⟩,
   ⟨0, 0, 0, up 3 [(F.GLB_MODE_PAIRED, 0, 0, 1), (F.STL_STAT_LINK, 0, 0, 2)], by decide +kernel, by decide +kernel⟩,
   ⟨[], up 3 [(F.GLB_MODE_PAIRED, 0, 0, 1), (F.STL_STAT_LINK, 0, 0, 2)], by decide +kernel, by decide +kernel⟩⟩

theorem witness_StitchMessagesComplete_b :
    (∃ (slot : Fin (2 ^ 32)) (wrapped : List Byte) (d : Dev), wrapped.length = 40 ∧ d.standby ∧ d.stitchUp ∧
        slot.val < 98304) ∧
    (∃ (a : Fin (2 ^ 64)) (data : List Byte) (d : Dev), data.length ≤ 192 ∧ data.length % 8 = 0 ∧ d.standby ∧
        d.stitchUp) ∧
    (∃ (ch : Ch) (target : Fin 65536) (entries : List (Fin (2 ^ 64))) (d : Dev), entries.length < 65536 ∧ d.standby ∧
        d.stitchUp ∧ d.enabled ch) ∧
    (∃ (t1 : Stamp) (d : Dev), d.active ∧ d.stitchUp) ∧
    (∃ (t1 t2 t3 : Stamp) (d : Dev), d.standby ∧ d.stitchUp) ∧
    (∃ (d : Dev), d.active ∧ d.stitchUp) :=
  ⟨⟨98303, List.replicate 40 0, up 3 [(F.GLB_MODE_PAIRED, 0, 0, 1), (F.STL_STAT_LINK, 0, 0, 2)], by decide +kernel,
       by decide +kernel, by decide +kernel, by decide +kernel⟩,
   ⟨8, [], up 3 [(F.GLB_MODE_PAIRED, 0, 0, 1), (F.STL_STAT_LINK, 0, 0, 2)], by decide +kernel, by decide +kernel,
       by decide +kernel, by decide +kernel⟩,
   ⟨5, 0, [], up 3 [(F.GLB_MODE_PAIRED, 0, 0, 1), (F.STL_STAT_LINK, 0, 0, 2), (F.SLN_CTL_ENABLE, 5, 0, 1)],
       by decide +kernel, by decide +kernel, by decide +kernel, by decide +kernel⟩,
   ⟨{ sec := 0, ns := 0, frac := 0 }, up 0 [(F.GLB_MODE_PAIRED, 0, 0, 1), (F.STL_STAT_LINK, 0, 0, 2)],
       by decide +kernel, by decide +kernel⟩,
   ⟨{ sec := 0, ns := 0, frac := 0 }, { sec := 0, ns := 0, frac := 0 }, { sec := 0, ns := 0, frac := 0 },
       up 3 [(F.GLB_MODE_PAIRED, 0, 0, 1), (F.STL_STAT_LINK, 0, 0, 2)], by decide +kernel, by decide +kernel⟩,
   ⟨up 0 [(F.GLB_MODE_PAIRED, 0, 0, 1), (F.STL_STAT_LINK, 0, 0, 2)], by decide +kernel, by decide +kernel⟩⟩

theorem witness_RedundancyEventsComplete :
    (∃ (type : Fin 256) (d : Dev), d.paired ∧ d.booted ∧ d.get F.STL_STAT_LINK ≠ 0) ∧
    (∃ (type : Fin 256) (d : Dev), d.paired ∧ d.booted ∧ d.get F.STL_STAT_LINK ≠ 0 ∧ type.val ≠ 1 ∧ type.val ≠ 4 ∧
        type.val ≠ 5) ∧
    (∃ (hdrs : List (Fin 8 × List (Fin 4))) (d : Dev), d.paired ∧ d.booted ∧ d.mode ≠ 4 ∧ d.get F.STL_STAT_LINK = 0 ∧
        ((hdrs.foldl Dev.stHeaders d).stitchLanes (hdrs.foldl Dev.stHeaders d).stMask).get F.STL_STAT_LINK ≠ 0) ∧
    (∃ (hdrs : List (Fin 8 × List (Fin 4))) (d : Dev), d.paired ∧ d.booted ∧ d.mode ≠ 4 ∧ d.get F.STL_STAT_LINK ≠ 0 ∧
        ((hdrs.foldl Dev.stHeaders d).stitchLanes (hdrs.foldl Dev.stHeaders d).stMask).get F.STL_STAT_LINK = 0) ∧
    (∃ (f : Nat) (d : Dev), d.standby ∧ d.on F.STL_STAT_SYNCED ∧ d.arb.trans = none ∧ d.shutdownAsked = false ∧
        d.lossAt = some f) ∧
    (∃ (c : Ch) (d : Dev), d.paired ∧ d.booted ∧ d.enabled c ∧ d.on F.STL_CHSTAT_TX_SUSPECT c = false ∧
        d.opticsFault c) ∧
    (∃ (c : Ch) (f : Nat) (d : Dev), d.paired ∧ d.booted ∧ d.enabled c ∧ d.on F.STL_CHSTAT_TX_SUSPECT c = false ∧
        d.silentAt c = some f) ∧
    (∃ (d : Dev), d.standby ∧ d.on F.STL_STAT_SYNCED = false ∧ d.stitchUp = false ∧ d.stl.wasActive ∧
        d.useB F.STL_CFG_REVIVE_EN ∧ d.arb.trans = none ∧ d.shutdownAsked = false) ∧
    (∃ (d : Dev), d.active ∧ d.stl.waiting ∧ d.stitchUp = false) :=
  ⟨⟨6, up 3 [(F.GLB_MODE_PAIRED, 0, 0, 1), (F.STL_STAT_LINK, 0, 0, 2)], by decide +kernel, by decide +kernel,
       by decide +kernel⟩,
   ⟨6, up 3 [(F.GLB_MODE_PAIRED, 0, 0, 1), (F.STL_STAT_LINK, 0, 0, 2)], by decide +kernel, by decide +kernel,
       by decide +kernel, by decide +kernel, by decide +kernel, by decide +kernel⟩,
   ⟨fourLanes, stitchWakes, by decide +kernel, by decide +kernel, by decide +kernel, by decide +kernel,
       by decide +kernel⟩,
   ⟨[], up 3 [(F.GLB_MODE_PAIRED, 0, 0, 1), (F.STL_STAT_LINK, 0, 0, 2)], by decide +kernel, by decide +kernel,
       by decide +kernel, by decide +kernel, by decide +kernel⟩,
   ⟨3,
       { up 3 [(F.GLB_MODE_PAIRED, 0, 0, 1), (F.STL_STAT_SYNCED, 0, 0, 1), (F.STL_STAT_LINK, 0, 0, 2)] with stl := { idle.stl with heard := some 0 } },
       by decide +kernel, by decide +kernel, by decide +kernel, by decide +kernel, by decide +kernel⟩,
   ⟨5, darkModule, by decide +kernel, by decide +kernel, by decide +kernel, by decide +kernel, by decide +kernel⟩,
   ⟨5, 2400, silentTree, by decide +kernel, by decide +kernel, by decide +kernel, by decide +kernel,
       by decide +kernel⟩,
   ⟨{ up 3 [(F.GLB_MODE_PAIRED, 0, 0, 1), (F.STL_CFG_REVIVE_EN, 0, 0, 1)] with stl := { idle.stl with wasActive := true } },
       by decide +kernel, by decide +kernel, by decide +kernel, by decide +kernel, by decide +kernel,
       by decide +kernel, by decide +kernel⟩,
   ⟨{ up 0 [(F.GLB_MODE_PAIRED, 0, 0, 1)] with stl := { idle.stl with waiting := true } }, by decide +kernel,
       by decide +kernel, by decide +kernel⟩⟩

theorem witness_MicrocodeCommandsComplete :
    (∃ (c : Ch) (x : Nat × Nat × Nat × Nat × Option Nat) (d : Dev), d.runningOf c = some x ∧ d.scribeUp c ∧
        d.on F.SCR_STAT_PROTECT c = false ∧ d.compat c x.2.1 = false) ∧
    (∃ (c : Ch) (d : Dev), d.scribeUp c) ∧
    (∃ (c : Ch) (addr : Fin 32768) (d : Dev), d.scribeUp c) ∧
    (∃ (c : Ch) (d : Dev), d.hostOpen ∧ d.get F.SCR_STAT_STATE c = 3) ∧
    (∃ (v : Fin (2 ^ 64)) (d : Dev), d.hostOpen ∧ written F.SCR_TRCCFG_TARGET v ≤ 128) ∧
    (∃ (index : Fin 65536) (d : Dev), d.hostOpen ∧ d.on F.SCR_IND_CTL_BUSY = false) :=
  ⟨⟨5, _, inboxAt 0, rfl, by decide +kernel, by decide +kernel, by decide +kernel⟩,
   ⟨5, up 0 [], by decide +kernel⟩,
   ⟨5, 512, up 0 [], by decide +kernel⟩,
   ⟨5, up 0 [(F.SCR_STAT_STATE, 5, 0, 3)], by decide +kernel, by decide +kernel⟩,
   ⟨0, up 0 [], by decide +kernel, by decide +kernel⟩,
   ⟨65535, up 0 [], by decide +kernel, by decide +kernel⟩⟩

theorem witness_QuillCommandsComplete :
    (∃ (x : QuillIn) (d : Dev), x.ok ∧ d.boot.resetHeld = false ∧ ((d.reach d.sampleAt).tripSample x.dies).quillRuns) ∧
    (∃ (x : QuillIn) (e r z : Dev) (d : Dev), x.ok ∧ d.boot.resetHeld = false ∧
        e = (d.reach d.sampleAt).tripSample x.dies ∧ e.quillRuns ∧ (e.quillPatch 0x010).2 ∧
        r = ((((((e.quillPatch 0x010).1.takeSamples 0 x.dies).takeSamples 24 x.supplies).takeSamples 32 x.hbm).takeAdc x.adc).vigilSeconds).1 ∧
        z = r.takeSample 52 ((((((e.quillPatch 0x010).1.takeSamples 0 x.dies).takeSamples 24 x.supplies).takeSamples 32 x.hbm).takeAdc x.adc).vigilSeconds).2 ∧
        (z.quillPatch 0x200).2) ∧
    (∃ (m : Fin 128) (o : OptIn) (d : Dev), d.quillRuns ∧ d.pollDue m) ∧
    (∃ (m : Fin 128) (d : Dev), d.quillRuns ∧ d.pollDue m) ∧
    (∃ (e : Dev) (d : Dev), d.quillRuns ∧ (d.bump F.QUL_CNT_COUNT 0).quillPatch 0x400 = (e, true)) ∧
    (∃ (e : Dev) (d : Dev), d.quillRuns ∧ (d.bump F.QUL_CNT_COUNT 0).quillPatch 0x400 = (e, false)) ∧
    (∃ (d : Dev), d.quillRuns) ∧
    (∃ (d : Dev), d.quill.hotTwice ∧ d.quill.armed ∧ d.boot.resetHeld = false) ∧
    (∃ (index : Fin 1024) (table : Fin 4) (d : Dev), d.hostOpen ∧ d.on F.QUL_IND_CTL_BUSY = false ∧
        qulBeyond table index = false) ∧
    (∃ (index : Fin 1024) (table : Fin 4) (d : Dev), d.hostOpen ∧ d.on F.QUL_IND_CTL_BUSY = false ∧ table.val % 2 = 0) :=
  ⟨⟨cold, { idle with boot := { idle.boot with resetHeld := false } }, by decide +kernel, by decide +kernel,
       by decide +kernel⟩,
   ⟨cold, _, _, _, { idle with boot := { idle.boot with resetHeld := false } }, by decide +kernel, by decide +kernel,
       rfl, by decide +kernel, by decide +kernel, rfl, rfl, by decide +kernel⟩,
   ⟨3, { temp := 0, supply := 0, rx := 0, flags := 0 }, withModule, by decide +kernel, by decide +kernel⟩,
   ⟨3, withModule, by decide +kernel, by decide +kernel⟩,
   ⟨_, { idle with boot := { idle.boot with resetHeld := false } }, by decide +kernel, rfl⟩,
   ⟨_, divertedPass, by decide +kernel, rfl⟩,
   ⟨{ idle with boot := { idle.boot with resetHeld := false } }, by decide +kernel⟩,
   ⟨{ idle with boot := { idle.boot with resetHeld := false }, quill := { idle.quill with hotTwice := true } },
       by decide +kernel, by decide +kernel, by decide +kernel⟩,
   ⟨0, 0, up 0 [], by decide +kernel, by decide +kernel, by decide +kernel⟩,
   ⟨0, 2, up 0 [], by decide +kernel, by decide +kernel, by decide +kernel⟩⟩

theorem witness_RingCommandsComplete_a :
    (∃ (ring : RingNo) (d : Dev), d.offers ring 0x0001 false 0) ∧
    (∃ (ring : RingNo) (d : Dev), d.offers ring 0x0010 false 8) ∧
    (∃ (ring : RingNo) (d : Dev), d.offers ring 0x0011 true 0) ∧
    (∃ (ring : RingNo) (d : Dev), d.offers ring 0x0012 true 0) ∧
    (∃ (ring : RingNo) (d : Dev), d.offers ring 0x0013 true 0) ∧
    (∃ (ring : RingNo) (d : Dev), d.offers ring 0x0014 true 0) ∧
    (∃ (ring : RingNo) (d : Dev), d.offers ring 0x0015 true 0) ∧
    (∃ (ring : RingNo) (d : Dev), d.offers ring 0x0016 true 6) ∧
    (∃ (ring : RingNo) (d : Dev), d.offers ring 0x0017 false 8) ∧
    (∃ (ring : RingNo) (d : Dev), d.offers ring 0x0020 false 24) :=
  ⟨⟨0, offering 0 1, by decide +kernel⟩,
   ⟨0, offering 0 16, by decide +kernel⟩,
   ⟨0, offering 0 0x0011, by decide +kernel⟩,
   ⟨0, offering 0 0x0012, by decide +kernel⟩,
   ⟨0, offering 0 0x0013, by decide +kernel⟩,
   ⟨0, offering 0 0x0014, by decide +kernel⟩,
   ⟨0, offering 0 0x0015, by decide +kernel⟩,
   ⟨0, offering 0 0x0016, by decide +kernel⟩,
   ⟨0, offering 0 23, by decide +kernel⟩,
   ⟨0, offering 0 32, by decide +kernel⟩⟩

theorem witness_RingCommandsComplete_b :
    (∃ (ring : RingNo) (d : Dev), d.offers ring 0x0030 true 40) ∧
    (∃ (ring : RingNo) (d : Dev), d.offers ring 0x0031 true 0) ∧
    (∃ (ring : RingNo) (d : Dev), d.offers ring 0x0040 false 1) ∧
    (∃ (ring : RingNo) (d : Dev), d.offers ring 0x0041 false 0) ∧
    (∃ (ring : RingNo) (d : Dev), d.offers ring 0x0050 false 48) ∧
    (∃ (ring : RingNo) (k : Completion) (r : List Completion) (d : Dev), (d.ring ring).done = k :: r) ∧
    (∃ (n : RingNo) (tail : Fin 2048) (d : Dev), d.hostOpen ∧ tail.val < d.ringEntries n ∧
        modSub (d.get F.HST_SQTAIL_TAIL n) (d.get F.HST_RINGSTAT_SQ_HEAD n) (d.ringEntries n) + modSub tail (d.get F.HST_SQTAIL_TAIL n) (d.ringEntries n) ≤ d.ringEntries n - 1) ∧
    (∃ (n : RingNo) (head : Fin 2048) (d : Dev), d.hostOpen ∧ head.val < d.ringEntries n ∧
        modSub head (d.get F.HST_CQHEAD_HEAD n) (d.ringEntries n) ≤ modSub (d.get F.HST_RINGSTAT_CQ_TAIL n) (d.get F.HST_CQHEAD_HEAD n) (d.ringEntries n)) ∧
    (∃ (n : RingNo) (d : Dev), d.hostOpen) :=
  ⟨⟨0, offering 0 48, by decide +kernel⟩,
   ⟨0, offering 0 49, by decide +kernel⟩,
   ⟨0, offering 0 64, by decide +kernel⟩,
   ⟨0, offering 0 65, by decide +kernel⟩,
   ⟨48, offering 48 0x50, by decide +kernel⟩,
   ⟨0, oneDone, [],
       { idle with host := { idle.host with rings := [(0, { phase := true, running := [], done := [oneDone] })] } },
       by decide +kernel⟩,
   ⟨63, 5, up 0 [], by decide +kernel, by decide +kernel, by decide +kernel⟩,
   ⟨63, 0, up 0 [], by decide +kernel, by decide +kernel, by decide +kernel⟩,
   ⟨63, up 0 [], by decide +kernel⟩⟩

theorem witness_EventCommandsComplete :
    (∃ (e : EvIn) (d : Dev), d.clk.cyc = 0) ∧
    (∃ (x : BlotEntry) (r : List BlotEntry) (d : Dev), d.blot.stopped = false ∧ d.blot.opened = x :: r) ∧
    (∃ (x : BlotEntry) (r : List BlotEntry) (d : Dev), d.blot.stopped = false ∧ d.get F.EVT_STAT_UNREAD ≠ 131072 ∧
        d.blot.closed = x :: r) ∧
    (∃ (cons : Fin 131072) (d : Dev), d.hostOpen ∧
        modSub cons (d.get F.EVT_CONS_CONS) 131072 ≤ d.get F.EVT_STAT_UNREAD) ∧
    (∃ (a : Nat) (r : List Nat) (d : Dev), d.blot.ages = a :: r ∧ d.blot.stopped = false ∧
        d.on F.HST_IRQSTAT_BLOTTER = false) ∧
    (∃ (v : Fin 66) (d : Dev), d.host.linkUp ∧ d.host.msiOwed.contains v.val ∧ d.msiMasked v = false) :=
  ⟨⟨{ source := 0, event := 5, inst := 0, data := 0, late := false }, idle, by decide +kernel⟩,
   ⟨oneEntry, [], { idle with blot := { idle.blot with opened := [oneEntry] } }, by decide +kernel, by decide +kernel⟩,
   ⟨oneEntry, [], { idle with blot := { idle.blot with closed := [oneEntry] } }, by decide +kernel, by decide +kernel,
       by decide +kernel⟩,
   ⟨0, up 0 [], by decide +kernel, by decide +kernel⟩,
   ⟨8, [], { idle with blot := { idle.blot with ages := [8] } }, by decide +kernel, by decide +kernel,
       by decide +kernel⟩,
   ⟨65, { up 0 [(F.HST_RINGMASK_MASK, 0, 0, 0)] with host := { idle.host with linkUp := true, msiOwed := [65] } },
       by decide +kernel, by decide +kernel, by decide +kernel⟩⟩

theorem witness_MonitorCommandsComplete :
    (∃ (d : Dev), d.booted ∧ d.mode ≠ 4 ∧ d.useB F.PMU_SHEETCFG_EN) ∧
    (∃ (a : Fin (2 ^ 26)) (r : Reg) (i j : Nat) (d : Dev), findReg a allRegs = some (r, i, j) ∧ r.fields.length = 1 ∧
        (r.fields.all fun f => f.w == 40 && f.acc == .ro && f.lo == 0) ∧ d.getReg r i j = 2 ^ 39 - 1) ∧
    (∃ (d : Dev), d.on F.BOOT_STAT_LOCKED ∧ d.mode ≠ 4) ∧
    (∃ (d : Dev), d.hostOpen) ∧
    (∃ (d : Dev), d.booted ∧ d.mode ≠ 4) :=
  ⟨⟨up 0 [(F.PMU_SHEETCFG_EN, 0, 0, 1)], by decide +kernel, by decide +kernel, by decide +kernel⟩,
   ⟨0x80108, RegOf.HST_CNT, 1, 0, dev [(F.HST_CNT_COUNT, 1, 0, 2 ^ 39 - 1)], rfl, by decide +kernel,
       by decide +kernel, by decide +kernel⟩,
   ⟨up 0 [(F.BOOT_STAT_LOCKED, 0, 0, 1)], by decide +kernel, by decide +kernel⟩,
   ⟨up 0 [], by decide +kernel⟩,
   ⟨up 0 [], by decide +kernel, by decide +kernel⟩⟩

end Sys2Proof.Tests
end

/-!
PROOFS of the statements of 00_scope.md: register accesses (R10, R11), access types and boot lock (R12, R15), flags
(R13, R571) and reset values (R14, R27).
-/

namespace Sys2Proof.Tbl

theorem find?_eq_none_of_forall_ne {α : Type} {t : Tbl α} {k : Nat} (h : ∀ e ∈ t, e.1 ≠ k) : find? t k = none := by
  induction t with
  | nil => rfl
  | cons e r ih =>
    obtain ⟨he, hr⟩ := List.forall_mem_cons.mp h
    rw [find?, if_neg he.symm, ih hr]

end Sys2Proof.Tbl

namespace Sys2Proof.Machine

open Sys2Proof

/-! ### Noting an occurrence, in the terms of the statements -/

theorem offMon_of_calm {k : Nat} (h : calm k = true) : offMon k := by
  simp only [calm, Bool.or_eq_true, decide_eq_true_eq] at h
  unfold offMon
  omega

theorem calm_noteKeys : ∀ k ∈ noteKeys, calm k = false := by decide

theorem not_mem_noteKeys_of_calm {k : Nat} (h : calm k = true) : k ∉ noteKeys :=
  fun hk => Bool.false_ne_true ((calm_noteKeys k hk).symm.trans h)

/-- A change of registers, noted, changes no more than the registers of `keys` where the registers say so. -/
theorem Notes.onlyRegs_of_find {d e : Dev} {r : Tbl Nat} {keys : List Nat} (h : Notes { d with regs := r } e)
    (hr : ∀ k, calm k = true → k ∉ keys → Tbl.find? r k = Tbl.find? d.regs k) : Dev.onlyRegs keys d e :=
  ⟨h.same, fun k hk hn => (h.regs k hk).trans (hr k hk hn)⟩

theorem Notes.onlyRegs {d e : Dev} (h : Notes d e) (keys : List Nat) : Dev.onlyRegs keys d e :=
  h.onlyRegs_of_find (r := d.regs) fun _ _ _ => rfl

theorem onlyRegs_set (d : Dev) (f : Fld) (v i j : Nat) : Dev.onlyRegs [f.key i j] d (d.set f v i j) :=
  (set_notes d f v i j).onlyRegs_of_find fun _ _ hn => Tbl.find?_set_other _ _ (by simpa using hn)

theorem onlyRegs_flag (d : Dev) (f : Fld) (i j : Nat) :
    Dev.onlyRegs [f.key i j, (f.cntAddr + i * f.cntStride) * 64] d (d.flag f i j) :=
  (flag_notes d f i j true).onlyRegs_of_find fun k hk hn => by
    simp only [List.mem_cons, List.not_mem_nil, or_false, not_or] at hn
    exact flag_find d f i j true k (offMon_of_calm hk) (not_mem_noteKeys_of_calm hk) hn.1 hn.2

/-! ### Events -/

/-- The Blotter's table holds an event by its key: DATA counts modulo 2^32 (R573). -/
theorem holdsEvent_of_sameKey {d : Dev} {x y : Ev} (h : d.holdsEvent x) (hs : x.source = y.source)
    (he : x.event = y.event) (hi : x.inst = y.inst) (hd : x.data % 2 ^ 32 = y.data % 2 ^ 32) : d.holdsEvent y := by
  obtain ⟨z, hz, hk⟩ := h
  refine ⟨z, hz, ?_⟩
  simpa only [Ev.sameKey, hs, he, hi, hd] using hk

/-- An event of the codes of R572, posted while the Blotter is on and has room, has an entry. -/
theorem event_holds (d : Dev) (a code inst data : Nat) (he : d.get F.EVT_CFG_ENABLE = 1) (hu : d.blot.used < 1024) :
    (d.event a code inst data).holdsEvent { source := sourceOf a, event := code, inst := inst, data := data } :=
  holdsEvent_of_sameKey (post_new d _ he hu) rfl rfl rfl (Nat.mod_mod_of_dvd _ (by decide))

/-- ENABLE of the Blotter reads alike on two devices of the same image whose registers list it alike. -/
theorem get_enable_of_find {d e : Dev} (hi : e.imgApplied = d.imgApplied)
    (h : Tbl.find? e.regs (F.EVT_CFG_ENABLE.key 0 0) = Tbl.find? d.regs (F.EVT_CFG_ENABLE.key 0 0)) :
    e.get F.EVT_CFG_ENABLE = d.get F.EVT_CFG_ENABLE := get_eq_of_find d e F.EVT_CFG_ENABLE 0 0 hi h

theorem offMon_enable : offMon (F.EVT_CFG_ENABLE.key 0 0) := .inl (by decide)

/-! ### Counts -/

/-- A count that does not cross half range raises no event (R582). -/
theorem bumpAt_blot_below {d : Dev} {a inst n : Nat} (h : Tbl.get 0 d.regs (a * 64) + n < 2 ^ 39) :
    (d.bumpAt a inst n).blot = d.blot := by
  have hq : (d.addRaw (a * 64) n).2 = false := by
    simp only [Dev.addRaw, Bool.and_eq_false_iff, decide_eq_false_iff_not]
    exact .inr (by omega)
  unfold Dev.bumpAt
  split
  · rfl
  · simp only [hq, Bool.false_eq_true, if_false]
    exact pmuCount_blot _ _ _

theorem bumpAt_imgApplied (d : Dev) (a inst n : Nat) : (d.bumpAt a inst n).imgApplied = d.imgApplied := by
  rw [(bumpAt_notes d a inst n).same]

/-- A count outside the noting blocks ends at its sum modulo 2^40 (R581). -/
theorem count_bumpAt {d : Dev} {a inst n : Nat} (hk : calm (a * 64) = true) (hn : n ≠ 0) :
    Tbl.get 0 (d.bumpAt a inst n).regs (a * 64) = (Tbl.get 0 d.regs (a * 64) + n) % 2 ^ 40 := by
  have h := (bumpAt_notes d a inst n).regs _ hk
  simp only [hn, if_false, Tbl.find?_set_same] at h
  simp [Tbl.get, h]

/-! ### Flags -/

/-- The bit of a flag stands, and the monitor has seen it set: the first of the steps of `Dev.flag`. -/
def Dev.bitSet (d : Dev) (f : Fld) (i j : Nat) : Dev :=
  Dev.pmuEdge { d with regs := Tbl.set d.regs (f.key i j) 1 } (f.addr + i * f.s1 + j * f.s2) f.lo 1 0 1

theorem bitSet_find {d : Dev} {f : Fld} {i j k : Nat} (hk : offMon k) (h : k ≠ f.key i j) :
    Tbl.find? (d.bitSet f i j).regs k = Tbl.find? d.regs k :=
  (pmuEdge_find _ _ _ _ _ _ _ hk).trans (Tbl.find?_set_other _ _ h)

theorem bitSet_blot (d : Dev) (f : Fld) (i j : Nat) : (d.bitSet f i j).blot = d.blot := pmuEdge_blot ..

theorem bitSet_imgApplied (d : Dev) (f : Fld) (i j : Nat) : (d.bitSet f i j).imgApplied = d.imgApplied := by
  rw [Dev.bitSet, pmuEdge_same]

/-- A set of a flag with a companion count is its bit, then the count, then the event (R13, R571). -/
theorem flag_eq (d : Dev) {f : Fld} (i j : Nat) (hc : f.cntAddr ≠ 0) :
    d.flag f i j = ((d.bitSet f i j).bumpAt (f.cntAddr + i * f.cntStride) i 1).post
      (flagEv (f.addr + i * f.s1 + j * f.s2) f.lo i) := by
  simp [Dev.flag, Dev.bitSet, hc]

/-- The companion count rises by one with the flag (R13). -/
theorem count_flag {d : Dev} {f : Fld} {i j : Nat} (hc : f.cntAddr ≠ 0)
    (hk : calm ((f.cntAddr + i * f.cntStride) * 64) = true) (hne : f.key i j ≠ (f.cntAddr + i * f.cntStride) * 64)
    (hlt : Tbl.get 0 d.regs ((f.cntAddr + i * f.cntStride) * 64) < 2 ^ 39 - 1) :
    Tbl.get 0 (d.flag f i j).regs ((f.cntAddr + i * f.cntStride) * 64) =
      Tbl.get 0 d.regs ((f.cntAddr + i * f.cntStride) * 64) + 1 := by
  rw [flag_eq d i j hc, Tbl.get, (notes_post _ _).regs _ hk, ← Tbl.get, count_bumpAt hk (by decide), Tbl.get,
    bitSet_find (offMon_of_calm hk) hne.symm, ← Tbl.get]
  omega

/-- The flag event of a set has an entry, with the Blotter on and room in its table: neither the bit nor a count below
half range takes a place of it (R571). -/
theorem flag_holds {d : Dev} {f : Fld} {i j : Nat} (hc : f.cntAddr ≠ 0) (hf : calm (f.key i j) = true)
    (hk : calm ((f.cntAddr + i * f.cntStride) * 64) = true) (hne : f.key i j ≠ (f.cntAddr + i * f.cntStride) * 64)
    (hlt : Tbl.get 0 d.regs ((f.cntAddr + i * f.cntStride) * 64) < 2 ^ 39 - 1)
    (he : d.get F.EVT_CFG_ENABLE = 1) (hu : d.blot.used < 1024) :
    (d.flag f i j).holdsEvent (flagEv (f.addr + i * f.s1 + j * f.s2) f.lo i) := by
  have hn : calm (F.EVT_CFG_ENABLE.key 0 0) = false := by decide
  have hb : Tbl.find? (d.bitSet f i j).regs (F.EVT_CFG_ENABLE.key 0 0) = Tbl.find? d.regs (F.EVT_CFG_ENABLE.key 0 0) :=
    bitSet_find offMon_enable (ne_of_calm hf hn).symm
  rw [flag_eq d i j hc]
  apply post_new
  · rw [get_enable_of_find (bumpAt_imgApplied ..)
      (bumpAt_find _ _ _ _ _ offMon_enable (by decide) (ne_of_calm hk hn).symm),
      get_enable_of_find (bitSet_imgApplied ..) hb, he]
  · rw [bumpAt_blot_below, bitSet_blot]
    · exact hu
    · rw [Tbl.get, bitSet_find (offMon_of_calm hk) hne.symm, ← Tbl.get]
      omega

/-- Settles O11: the bit, the count and the event are the three steps of a flag's set, and each is noted in EVT, PMU and
HST only. -/
theorem flagsSetCountAndTell : Obligations.FlagsSetCountAndTell :=
  fun f i j d hc hf hk hne hlt =>
    ⟨get_flag_same d f i j true hf hne, count_flag hc hk hne hlt, onlyRegs_flag d f i j,
      fun he hu => flag_holds hc hf hk hne hlt he hu⟩

/-! ### A software write of one field (R12, R15) -/

theorem testBit_written (f : Fld) (v b : Nat) :
    (written f v).testBit b = (decide (b < f.w) && v.testBit (f.lo + b)) := by
  simp [written, bits, Nat.testBit_mod_two_pow, Nat.testBit_shiftRight]

theorem written_lt (f : Fld) (v : Nat) : written f v < 2 ^ f.w := Nat.mod_lt _ (Nat.two_pow_pos _)

/-- A software write leaves a field as it was, or is a hardware write of some value. -/
theorem storeField_cases (d : Dev) (f : Fld) (i j v : Nat) :
    d.storeField f i j v = d ∨ (f.acc = .rwl → d.on F.BOOT_STAT_LOCKED = false) ∧
      ∃ x, d.storeField f i j v = d.set f x i j := by
  unfold Dev.storeField
  cases f.acc
  case ro => exact .inl rfl
  case rwl =>
    cases d.on F.BOOT_STAT_LOCKED
    · exact .inr ⟨fun _ => rfl, _, rfl⟩
    · exact .inl rfl
  all_goals exact .inr ⟨nofun, _, rfl⟩

theorem onlyRegs_storeField (d : Dev) (f : Fld) (i j v : Nat) : Dev.onlyRegs [f.key i j] d (d.storeField f i j v) := by
  rcases storeField_cases d f i j v with h | ⟨-, x, h⟩
  · rw [h]
    exact (Notes.refl d).onlyRegs _
  · rw [h]
    exact onlyRegs_set d f x i j

section
variable {d : Dev} {f : Fld} {i j : Nat} (v : Nat) (hk : calm (f.key i j) = true)
include hk

theorem get_storeField_rw (ha : f.acc = .rw) : (d.storeField f i j v).get f i j = written f v := by
  simp only [Dev.storeField, ha]
  rw [get_set_same _ _ _ _ _ hk]
  exact Nat.mod_eq_of_lt (written_lt f v)

theorem get_storeField_rwl (ha : f.acc = .rwl) :
    (d.storeField f i j v).get f i j = if d.on F.BOOT_STAT_LOCKED then d.get f i j else written f v := by
  simp only [Dev.storeField, ha]
  split
  · rfl
  · rw [get_set_same _ _ _ _ _ hk]
    exact Nat.mod_eq_of_lt (written_lt f v)

theorem testBit_storeField_w1c (ha : f.acc = .w1c) {b : Nat} (hb : b < f.w) :
    ((d.storeField f i j v).get f i j).testBit b = ((d.get f i j).testBit b && !v.testBit (f.lo + b)) := by
  have hx : (2 ^ f.w - 1 - written f v).testBit b = !v.testBit (f.lo + b) := by
    rw [Nat.sub_sub, Nat.add_comm 1, Nat.testBit_two_pow_sub_succ (written_lt f v), testBit_written]
    simp [hb]
  simp only [Dev.storeField, ha]
  rw [get_set_same _ _ _ _ _ hk, Nat.testBit_mod_two_pow, Nat.testBit_and]
  change (_ && (_ && (2 ^ f.w - 1 - written f v).testBit b)) = _
  simp [hb, hx]

theorem testBit_storeField_w1s (ha : f.acc = .w1s) {b : Nat} (hb : b < f.w) :
    ((d.storeField f i j v).get f i j).testBit b = ((d.get f i j).testBit b || v.testBit (f.lo + b)) := by
  simp only [Dev.storeField, ha]
  rw [get_set_same _ _ _ _ _ hk, Nat.testBit_mod_two_pow, Nat.testBit_or]
  change (_ && (_ || (written f v).testBit b)) = _
  simp [hb, testBit_written]

end

theorem storeField_ro {d : Dev} {f : Fld} {i j v : Nat} (ha : f.acc = .ro) : d.storeField f i j v = d := by
  simp only [Dev.storeField, ha]

/-- Settles O9: one lemma for each access type. -/
theorem fieldsStoreByTheirAccessType : Obligations.FieldsStoreByTheirAccessType :=
  fun f i j v d hk =>
    ⟨onlyRegs_storeField d f i j v, get_storeField_rw v hk, get_storeField_rwl v hk,
      fun ha _ hb => testBit_storeField_w1c v hk ha hb, fun ha _ hb => testBit_storeField_w1s v hk ha hb, storeField_ro⟩

/-! ### How the register tables lie -/

/-- A field stands at its register's address, with its register's strides, within 64 bits. -/
theorem field_place : ∀ r ∈ allRegs, ∀ f ∈ r.fields,
    f.addr = r.addr ∧ f.s1 = r.s1 ∧ f.s2 = r.s2 ∧ 0 < f.w ∧ f.lo + f.w ≤ 64 := by decide +kernel

/-- The fields of a register follow each other from its low bits up. -/
theorem fields_rise : ∀ r ∈ allRegs, r.fields.Pairwise fun f g => f.lo + f.w ≤ g.lo := by decide +kernel

/-- Registers with an RWL field stand above the BOOT block and outside EVT, PMU and HST, with all their instances. -/
theorem rwl_place : ∀ r ∈ allRegs, r.hasRwl = true → 0x20000 ≤ r.addr ∧
    (r.addr + (r.n1 - 1) * r.s1 + (r.n2 - 1) * r.s2 < 0x60000 ∨ 0x100000 ≤ r.addr) := by decide +kernel

theorem field_key {r : Reg} {f : Fld} (hr : r ∈ allRegs) (hf : f ∈ r.fields) (i j : Nat) :
    f.key i j = (r.addr + i * r.s1 + j * r.s2) * 64 + f.lo ∧ f.lo < 64 := by
  obtain ⟨ha, h1, h2, hw, hlo⟩ := field_place r hr f hf
  exact ⟨by rw [Fld.key, ha, h1, h2], by omega⟩

/-- Two fields of a register share no place. -/
theorem field_eq_of_key {r : Reg} {f g : Fld} (hr : r ∈ allRegs) (hf : f ∈ r.fields) (hg : g ∈ r.fields) {i j : Nat}
    (h : f.key i j = g.key i j) : f = g := by
  have hlo : f.lo = g.lo := by
    rw [(field_key hr hf i j).1, (field_key hr hg i j).1] at h
    omega
  have apart : r.fields.Pairwise fun f g => f.lo ≠ g.lo :=
    (fields_rise r hr).imp_of_mem fun {a _} ha _ hab => by
      obtain ⟨-, -, -, hw, -⟩ := field_place r hr a ha
      omega
  exact List.inj_on_of_nodup_map (List.pairwise_map.mpr apart) hf hg hlo

/-- The fields of a register with an RWL field lie, at all its indices, above the BOOT block and outside EVT, PMU and
HST. -/
theorem rwl_key {r : Reg} {f : Fld} (hr : r ∈ allRegs) (hl : r.hasRwl = true) (hf : f ∈ r.fields) {i j : Nat}
    (hi : i < r.n1) (hj : j < r.n2) : 0x20000 * 64 ≤ f.key i j ∧ calm (f.key i j) = true := by
  obtain ⟨hlow, hout⟩ := rwl_place r hr hl
  obtain ⟨hkey, hlo⟩ := field_key hr hf i j
  have h1 : i * r.s1 ≤ (r.n1 - 1) * r.s1 := Nat.mul_le_mul_right _ (by omega)
  have h2 : j * r.s2 ≤ (r.n2 - 1) * r.s2 := Nat.mul_le_mul_right _ (by omega)
  rw [hkey]
  simp only [calm, Bool.or_eq_true, decide_eq_true_eq]
  omega

/-! ### A software write of a whole register after boot lock -/

/-- The software's write of every field of a register: the first of the steps of `Dev.store`. -/
def Dev.storeFields (d : Dev) (l : List Fld) (i j v : Nat) : Dev := l.foldl (fun a f => a.storeField f i j v) d

theorem store_eq (d : Dev) (r : Reg) (i j v : Nat) : d.store r i j v = (d.storeFields r.fields i j v).rwlWrite r i j := rfl

theorem storeField_imgApplied (d : Dev) (f : Fld) (i j v : Nat) : (d.storeField f i j v).imgApplied = d.imgApplied := by
  rw [(onlyRegs_storeField d f i j v).1]

theorem storeField_blot (d : Dev) (f : Fld) (i j v : Nat) : (d.storeField f i j v).blot = d.blot := by
  rcases storeField_cases d f i j v with h | ⟨-, x, h⟩
  · rw [h]
  · rw [h]
    exact set_blot d f x i j

theorem storeFields_imgApplied (d : Dev) (l : List Fld) (i j v : Nat) :
    (d.storeFields l i j v).imgApplied = d.imgApplied := by
  induction l generalizing d with
  | nil => rfl
  | cons f r ih => exact (ih _).trans (storeField_imgApplied ..)

theorem storeFields_blot (d : Dev) (l : List Fld) (i j v : Nat) : (d.storeFields l i j v).blot = d.blot :=
  foldl_blot _ _ _ fun _ _ _ => storeField_blot ..

/-- After boot lock a write of a field changes no other register outside the monitor, and nothing of an RWL field
(R15). -/
theorem storeField_find_locked {d : Dev} {f : Fld} {i j v k : Nat} (hL : d.on F.BOOT_STAT_LOCKED = true) (hk : offMon k)
    (h : f.acc = .rwl ∨ k ≠ f.key i j) : Tbl.find? (d.storeField f i j v).regs k = Tbl.find? d.regs k := by
  rcases storeField_cases d f i j v with hs | ⟨hl, x, hs⟩
  · rw [hs]
  · have hne : k ≠ f.key i j := h.resolve_left fun ha => Bool.false_ne_true ((hl ha).symm.trans hL)
    rw [hs, set_find d f x i j k hk hne]

/-- A register write that does not reach LOCKED itself finds boot lock on at each of its fields. -/
theorem storeFields_find_locked {d : Dev} {l : List Fld} {i j v k : Nat} (hL : d.on F.BOOT_STAT_LOCKED = true)
    (hk : offMon k) (hl : ∀ f ∈ l, F.BOOT_STAT_LOCKED.key 0 0 ≠ f.key i j) (h : ∀ f ∈ l, f.acc = .rwl ∨ k ≠ f.key i j) :
    Tbl.find? (d.storeFields l i j v).regs k = Tbl.find? d.regs k := by
  induction l generalizing d with
  | nil => rfl
  | cons f r ih =>
    obtain ⟨hlf, hlr⟩ := List.forall_mem_cons.mp hl
    obtain ⟨hf, hr⟩ := List.forall_mem_cons.mp h
    have hL' : (d.storeField f i j v).on F.BOOT_STAT_LOCKED = true := by
      rw [← hL, Dev.on, Dev.on, get_eq_of_find d _ _ _ _ (storeField_imgApplied ..)
        (storeField_find_locked hL (.inl (by decide)) (.inr hlf))]
    exact (ih hL' hlr hr).trans (storeField_find_locked hL hk hf)

section
variable {r : Reg} {i j v : Nat} {d : Dev} (hr : r ∈ allRegs) (hrwl : r.hasRwl = true) (hi : i < r.n1) (hj : j < r.n2)
include hr hrwl hi hj

/-- A register with an RWL field is not the one of LOCKED. -/
theorem locked_ne_key {f : Fld} (hf : f ∈ r.fields) : F.BOOT_STAT_LOCKED.key 0 0 ≠ f.key i j :=
  Nat.ne_of_lt (Nat.lt_of_lt_of_le (by decide) (rwl_key hr hrwl hf hi hj).1)

variable (hL : d.on F.BOOT_STAT_LOCKED = true)
include hL

/-- The fields of a write after boot lock leave every place that no writable field of the register has. -/
theorem rwl_storeFields_find {k : Nat} (hk : offMon k) (h : ∀ f ∈ r.fields, f.acc = .rwl ∨ k ≠ f.key i j) :
    Tbl.find? (d.storeFields r.fields i j v).regs k = Tbl.find? d.regs k :=
  storeFields_find_locked hL hk (fun _ => locked_ne_key hr hrwl hi hj) h

/-- After boot lock a write of a register with an RWL field raises the event after its fields (R12). -/
theorem rwl_store_eq : d.store r i j v =
    (d.storeFields r.fields i j v).event (r.addr + i * r.s1 + j * r.s2) 2 i (r.addr + i * r.s1 + j * r.s2) := by
  have hL' : (d.storeFields r.fields i j v).on F.BOOT_STAT_LOCKED = true := by
    rw [← hL, Dev.on, Dev.on, get_eq_of_find d _ _ _ _ (storeFields_imgApplied ..)
      (rwl_storeFields_find hr hrwl hi hj hL (.inl (by decide)) fun _ hf => .inr (locked_ne_key hr hrwl hi hj hf))]
  simp [store_eq, Dev.rwlWrite, hrwl, hL']

/-- After boot lock no write changes an RWL field (R15). -/
theorem get_store_rwl {f : Fld} (hf : f ∈ r.fields) (ha : f.acc = .rwl) : (d.store r i j v).get f i j = d.get f i j := by
  have hcalm := (rwl_key hr hrwl hf hi hj).2
  rw [rwl_store_eq hr hrwl hi hj hL, (notes_event ..).get f i j hcalm]
  refine get_eq_of_find d _ f i j (storeFields_imgApplied ..)
    (rwl_storeFields_find hr hrwl hi hj hL (offMon_of_calm hcalm) fun g hg => ?_)
  by_cases hg' : g.acc = .rwl
  · exact .inl hg'
  · exact .inr fun hkey => hg' (field_eq_of_key hr hf hg hkey ▸ ha)

/-- The write of the fields leaves ENABLE and the Blotter's table as they were, so the RWL_WRITE event has an entry. -/
theorem store_rwl_holds (he : d.get F.EVT_CFG_ENABLE = 1) (hu : d.blot.used < 1024) :
    (d.store r i j v).holdsEvent
      { source := sourceOf (r.addr + i * r.s1 + j * r.s2), event := 2, inst := i, data := r.addr + i * r.s1 + j * r.s2 } := by
  have hon : (d.storeFields r.fields i j v).get F.EVT_CFG_ENABLE = d.get F.EVT_CFG_ENABLE :=
    get_enable_of_find (storeFields_imgApplied ..) (rwl_storeFields_find hr hrwl hi hj hL offMon_enable fun _ hf =>
      .inr (ne_of_calm (rwl_key hr hrwl hf hi hj).2 (by decide)).symm)
  rw [rwl_store_eq hr hrwl hi hj hL]
  exact event_holds _ _ _ _ _ (hon.trans he) (by rwa [storeFields_blot])

end

/-- Settles O10: no field of the write reaches an RWL field or LOCKED, and the event follows. -/
theorem bootLockHoldsRwlFields : Obligations.BootLockHoldsRwlFields := by
  intro r i j v d hr hrwl hi hj hlock
  have hL : d.on F.BOOT_STAT_LOCKED = true := by simp [Dev.on, hlock]
  exact ⟨fun f hf ha => get_store_rwl hr hrwl hi hj hL hf ha,
    fun he hu => store_rwl_holds hr hrwl hi hj hL he hu⟩

/-! ### Accesses of the host (R10, R26) -/

theorem exec_registerWrite (a : Fin (2 ^ 26)) (size : Fin 65) (v : Fin (2 ^ 64)) (fails : Fin 4) (s : State) :
    exec (.registerWrite a size v fails) s = execRegisterWrite a size v fails s := rfl

theorem exec_registerRead (a : Fin (2 ^ 26)) (size : Fin 65) (fails : Fin 4) (s : State) :
    exec (.registerRead a size fails) s = execRegisterRead a size fails s := rfl

theorem exec_hostMemoryWrite (off : Fin (2 ^ 33)) (l : List Byte) (s : State) :
    exec (.hostMemoryWrite off l) s = execHostMemoryWrite off l s := rfl

theorem exec_mailboxCommand (op : Fin 65536) (s : State) : exec (.mailboxCommand op) s = execMailboxCommand op s := rfl

section
variable {d e : Dev} (a : Fin (2 ^ 26)) (size : Fin 65) (v : Fin (2 ^ 64)) (fails : Fin 4)
  (hr : d.boot.resetHeld = false) (hm : d.mode ≠ 4)
include hr hm

/-- What a write does on a part that answers accesses. -/
theorem registerWrite_answers
    (he : (if size.val ≠ 8 ∨ a.val % 8 ≠ 0 then d.accessError a size true
      else if 3 ≤ fails.val then d.writeFault a else (d.hostWrite a v).sendConfig a v) = e) :
    Answers (.registerWrite a size v fails) d e := by
  intro q
  rw [exec_registerWrite, execRegisterWrite, run_wf rfl]
  simp only [hr, hm, Bool.false_eq_true, or_self, if_false, he]

/-- What a read does on a part that answers accesses. -/
theorem registerRead_answers
    (he : (if size.val ≠ 8 ∨ a.val % 8 ≠ 0 then (d.accessError a size false).readOut 0
      else if 3 ≤ fails.val then d.readOut (2 ^ 64 - 1) true else d.readAt a) = e) :
    Answers (.registerRead a size fails) d e := by
  intro q
  rw [exec_registerRead, execRegisterRead, run_wf rfl]
  simp only [hr, hm, Bool.false_eq_true, or_self, if_false, he]

end

/-- Where the host link is up, a host write of memory goes to the write buffer or is dropped and counted (R365, R555). -/
theorem hostMemoryWrite_answers {off : Fin (2 ^ 33)} {l : List Byte} {d e : Dev} (h0 : 0 < l.length)
    (h64 : off.val % 64 + l.length ≤ 64) (hl : d.host.linkUp = true)
    (he : (if hostMayWrite off l.length then d.memWrite 4 off l else d.bump F.HST_CNT_COUNT 5) = e) :
    Answers (.hostMemoryWrite off l) d e := by
  intro q
  rw [exec_hostMemoryWrite, execHostMemoryWrite, run_wf (by simp [Instr.wf, h0, h64])]
  simp only [hl, Bool.not_true, Bool.false_eq_true, if_false, he]

theorem mailboxCommand_answers (op : Fin 65536) {d : Dev} (hl : d.host.linkUp = true) :
    Answers (.mailboxCommand op) d
      { d with host := { d.host with mailbox := if op.val = 0x4000 ∨ op.val = 0x4200 then 1 else 2 } } := by
  intro q
  rw [exec_mailboxCommand, execMailboxCommand, run_wf rfl]
  simp only [hl, if_true]

/-- Settles O35: each clause is one branch of its command. -/
theorem hostAccessesComplete : Obligations.HostAccessesComplete := by
  refine ⟨fun a v fails d hr hm ha hf => registerWrite_answers _ _ _ _ hr hm ?_,
    fun a v d hr hm ha => registerWrite_answers _ _ _ _ hr hm ?_,
    fun a fails d hr hm ha hf => registerRead_answers _ _ _ hr hm ?_,
    fun a d hr hm ha => registerRead_answers _ _ _ hr hm ?_,
    fun off l d h0 h64 hl hmay => hostMemoryWrite_answers h0 h64 hl (if_pos hmay),
    fun off l d h0 h64 hl hmay => hostMemoryWrite_answers h0 h64 hl (if_neg (by simp [hmay])),
    fun op d hl => mailboxCommand_answers op hl⟩
  · rw [if_neg (by simp [ha]), if_neg (by omega)]
  · rw [if_neg (by simp [ha]), if_pos (by decide)]
  · rw [if_neg (by simp [ha]), if_neg (by omega)]
  · rw [if_neg (by simp [ha]), if_pos (by decide)]

/-- Settles O7: the access is an ACCESS_ERROR event and no more. -/
theorem narrowOrUnalignedAccessIsAnError : Obligations.NarrowOrUnalignedAccessIsAnError := by
  intro a size v fails d hr hm hbad
  have hbad : size.val ≠ 8 ∨ a.val % 8 ≠ 0 := hbad.imp_left Nat.ne_of_lt
  exact ⟨⟨_, registerWrite_answers _ _ _ _ hr hm (if_pos hbad), (notes_event ..).onlyRegs _,
      fun he hu => event_holds _ _ _ _ _ he hu⟩,
    ⟨_, registerRead_answers _ _ _ hr hm (if_pos hbad), (notes_event ..).onlyRegs _,
      fun he hu => event_holds _ _ _ _ _ he hu⟩⟩

/-! ### Addresses without a register (R11) -/

theorem hostWrite_unused {a : Nat} (h : findReg a allRegs = none) (d : Dev) (v : Nat) : d.hostWrite a v = d := by
  have hw (e : Dev) : e.writeAt a v = e := by simp only [Dev.writeAt, h]
  unfold Dev.hostWrite Dev.bootW Dev.hostW
  simp only [hw, ite_self]

theorem sendConfig_unused {a : Nat} (h : findReg a allRegs = none) (d : Dev) (v : Nat) : d.sendConfig a v = d := by
  simp [Dev.sendConfig, carried, h]

theorem readAt_unused {a : Nat} (h : findReg a allRegs = none) {d : Dev}
    (hu : a < 0x78000 ∨ 0x7A000 ≤ a ∨ d.on F.PMU_GCTL_USER_EN = false) : d.readAt a = d.readOut 0 := by
  simp only [Dev.readAt, h]
  split
  · rw [Dev.userValue, hu.resolve_left (by omega) |>.resolve_left (by omega)]
    rfl
  · rfl

/-! ### Bits without a field (R11) -/

/-- A register's value before the fields of `l`, with those of `l` put in. -/
def packFields (g : Fld → Nat) (a : Nat) (l : List Fld) : Nat := l.foldl (fun a f => a + g f % 2 ^ f.w * 2 ^ f.lo) a

theorem getReg_eq (d : Dev) (r : Reg) (i j : Nat) : d.getReg r i j = packFields (fun f => d.get f i j) 0 r.fields := rfl

theorem testBit_addField {a lo : Nat} (x w b : Nat) (ha : a < 2 ^ lo) (hb : b < lo ∨ lo + w ≤ b) :
    (a + x % 2 ^ w * 2 ^ lo).testBit b = a.testBit b := by
  rw [Nat.add_comm, Nat.mul_comm, Nat.testBit_two_pow_mul_add _ ha]
  rcases hb with hb | hb
  · rw [if_pos hb]
  · rw [if_neg (by omega), Nat.testBit_mod_two_pow, decide_eq_false (by omega), Bool.false_and,
      Nat.testBit_lt_two_pow (Nat.lt_of_lt_of_le ha (Nat.pow_le_pow_right (by decide) (by omega)))]

theorem addField_lt {a lo : Nat} (x w : Nat) (ha : a < 2 ^ lo) : a + x % 2 ^ w * 2 ^ lo < 2 ^ (lo + w) := by
  have hx : x % 2 ^ w + 1 ≤ 2 ^ w := Nat.mod_lt _ (Nat.two_pow_pos w)
  calc a + x % 2 ^ w * 2 ^ lo < (x % 2 ^ w + 1) * 2 ^ lo := by rw [Nat.add_mul]; omega
    _ ≤ 2 ^ w * 2 ^ lo := Nat.mul_le_mul_right _ hx
    _ = 2 ^ (lo + w) := by rw [Nat.mul_comm, Nat.pow_add]

/-- Fields that follow each other leave the bits between them as they were. -/
theorem testBit_packFields (g : Fld → Nat) {l : List Fld} {a n b : Nat} (ha : a < 2 ^ n) (hn : ∀ f ∈ l, n ≤ f.lo)
    (hl : l.Pairwise fun f g => f.lo + f.w ≤ g.lo) (hb : ∀ f ∈ l, b < f.lo ∨ f.lo + f.w ≤ b) :
    (packFields g a l).testBit b = a.testBit b := by
  induction l generalizing a n with
  | nil => rfl
  | cons f r ih =>
    obtain ⟨hf, hr⟩ := List.pairwise_cons.mp hl
    obtain ⟨hbf, hbr⟩ := List.forall_mem_cons.mp hb
    have ha : a < 2 ^ f.lo :=
      Nat.lt_of_lt_of_le ha (Nat.pow_le_pow_right (by decide) (hn f (List.mem_cons_self ..)))
    exact (ih (addField_lt _ _ ha) hf hr hbr).trans (testBit_addField _ _ _ ha hbf)

theorem testBit_getReg_reserved {r : Reg} {b : Nat} (d : Dev) (i j : Nat)
    (hl : r.fields.Pairwise fun f g => f.lo + f.w ≤ g.lo) (hb : ∀ f ∈ r.fields, b < f.lo ∨ f.lo + f.w ≤ b) :
    (d.getReg r i j).testBit b = false := by
  rw [getReg_eq, testBit_packFields _ (Nat.two_pow_pos 0) (fun _ _ => Nat.zero_le _) hl hb, Nat.zero_testBit]

/-- Clearing low bits sets none. -/
theorem testBit_setBits_zero {v b : Nat} (w : Nat) (h : v.testBit b = false) : (setBits v 0 w 0).testBit b = false := by
  simp only [setBits, Nat.zero_add, Nat.zero_mod, Nat.zero_shiftLeft, Nat.pow_zero, Nat.mod_one, Nat.add_zero,
    Nat.testBit_shiftLeft, Nat.testBit_shiftRight, Bool.and_eq_false_iff, decide_eq_false_iff_not]
  by_cases hw : w ≤ b
  · exact .inr (by rwa [Nat.add_sub_cancel' hw])
  · exact .inl hw

/-- Settles O8: a write finds no register to store in, and a register's value has its fields' bits only. -/
theorem unusedAddressesAndReservedBitsReadZero : Obligations.UnusedAddressesAndReservedBitsReadZero := by
  refine ⟨fun a v fails d hnone ha hf hr hm => ⟨registerWrite_answers _ _ _ _ hr hm ?_,
    fun hu => registerRead_answers _ _ _ hr hm ?_⟩, fun r i j b d hr hb => ?_⟩
  · rw [if_neg (by simp [ha]), if_neg (by omega), hostWrite_unused hnone, sendConfig_unused hnone]
  · rw [if_neg (by simp [ha]), if_neg (by omega), readAt_unused hnone hu]
  · have hv : (d.getReg { r with fields := r.fields.filter fun f => f.acc != .wo } i j).testBit b = false :=
      testBit_getReg_reserved d i j ((fields_rise r hr).filter _) fun f hf => hb f (List.mem_of_mem_filter hf)
    unfold Dev.hostValue
    simp only
    split
    · exact Nat.zero_testBit b
    · split
      · exact testBit_setBits_zero 3 hv
      · exact hv

/-! ### The reset state (R14, R27) -/

/-- Besides the link registers of the internal buses, no register of the map stands at an address of theirs. -/
theorem link_place : ∀ r ∈ allRegs, 0x400 ≤ r.addr ∨ ∀ i < r.n1, ∀ j < r.n2, ∀ l < 5,
    r.addr + i * r.s1 + j * r.s2 = 0x180 + 0x20 * l → r.addr = 0x100 ∧ i = 4 + l := by decide +kernel

theorem link_key (l : Nat) : F.GLB_D2DSTAT_LINK_UP.key (4 + l) 0 = (0x180 + 0x20 * l) * 64 + 8 := by
  simp only [Fld.key, F.GLB_D2DSTAT_LINK_UP]
  omega

/-- The only field at a place of LINK_UP of an internal bus is that LINK_UP. -/
theorem eq_link_of_key {r : Reg} {f : Fld} {i j l : Nat} (hr : r ∈ allRegs) (hf : f ∈ r.fields) (hi : i < r.n1)
    (hj : j < r.n2) (hl : l < 5) (h : f.key i j = F.GLB_D2DSTAT_LINK_UP.key (4 + l) 0) :
    f.addr = F.GLB_D2DSTAT_LINK_UP.addr ∧ f.lo = F.GLB_D2DSTAT_LINK_UP.lo ∧ i = 4 + l := by
  obtain ⟨hkey, hlo⟩ := field_key hr hf i j
  rw [hkey, link_key] at h
  have hlo8 : f.lo = 8 := by omega
  rcases link_place r hr with hp | hp
  · omega
  · obtain ⟨ha, hi4⟩ := hp i hi j hj l hl (by omega)
    exact ⟨(field_place r hr f hf).1.trans ha, hlo8, hi4⟩

theorem find_resetRegs_link : ∀ l < 5, Tbl.find? resetRegs (F.GLB_D2DSTAT_LINK_UP.key (4 + l) 0) = some 1 := by decide

theorem find_resetRegs_none {k : Nat} (h : ∀ l < 5, k ≠ F.GLB_D2DSTAT_LINK_UP.key (4 + l) 0) :
    Tbl.find? resetRegs k = none := by
  refine Tbl.find?_eq_none_of_forall_ne fun e he => ?_
  obtain ⟨l, hl, rfl⟩ := List.mem_map.mp he
  exact (h l (List.mem_range.mp hl)).symm

/-- At reset a field reads what stands for it unwritten, but for the links that `resetRegs` lists. -/
theorem get_reset {f : Fld} {i j : Nat} (h : ∀ l < 5, f.key i j ≠ F.GLB_D2DSTAT_LINK_UP.key (4 + l) 0) :
    State.reset.dev.get f i j = if f.img then 0 else f.dflt.val i j := by
  have hn : Tbl.find? State.reset.dev.regs (f.key i j) = none := find_resetRegs_none h
  have hi : State.reset.dev.imgApplied = false := rfl
  simp [Dev.get, Tbl.get, hn, Dev.unwritten, hi]

/-- Settles O28: the registers of the reset state list the links of the internal buses and nothing else. -/
theorem resetLeavesEveryFieldAtItsResetValue : Obligations.ResetLeavesEveryFieldAtItsResetValue := by
  refine ⟨rfl, rfl, fun r hr f hf i j hi hj hnot => get_reset fun l hl hkey => hnot ?_, fun l hl => ?_⟩
  · obtain ⟨ha, hlo, hi4⟩ := eq_link_of_key hr hf hi hj hl hkey
    exact ⟨ha, hlo, by omega, by omega⟩
  · have hfind : Tbl.find? State.reset.dev.regs (F.GLB_D2DSTAT_LINK_UP.key (4 + l) 0) = some 1 :=
      find_resetRegs_link l hl
    simp [Dev.get, Tbl.get, hfind]

end Sys2Proof.Machine

/-!
PROOFS of the statements of 01_architecture.md: the completion of the placement and mode commands (R21 to R25, R35 to R40,
R524 to R526), and the loss of the lease (R37, R468).
-/

namespace Sys2Proof.Machine

open Sys2Proof

/-- A command whose function `x` runs `f` on the device answers what `f` makes of it, where its operands are well formed. -/
theorem answers_of_run {i : Instr} (x : State → Res) {f : Dev → Dev} {d e : Dev} (hx : exec i = x)
    (hr : ∀ s, x s = run i s f) (hw : i.wf = true) (he : f d = e) : Answers i d e :=
  fun q => by rw [hx, hr, run_wf hw, he]

/-! ### Quads and fold pairs (R21, R22, R524 to R526) -/

theorem quadMove_answers {q : Fin 64} {t : Nat} {d : Dev} (h : Tbl.find? d.fab.due q = some t) :
    Answers (.quadMove q) d ((d.portQuads q).foldl Dev.startMove d.toFrame) := by
  refine answers_of_run (execQuadMove q) rfl (fun _ => rfl) rfl ?_
  exact if_pos (by rw [h, Option.isSome_some])

theorem quadDrainEnd_answers {q : Fin 64} {m : QuadMove} {d : Dev} (h : Tbl.find? d.fab.moves q = some m)
    (hp : (d.portQuads q).any d.quadPending = false) (ht : d.clk.cyc ≤ m.started + 3000) :
    Answers (.quadDrainEnd q) d (((d.portQuads q).foldl Dev.endMove d).settlePair (q / 8)) := by
  refine answers_of_run (execQuadDrainEnd q) rfl (fun _ => rfl) rfl ?_
  simp only [Dev.quadDrained, h]
  exact if_neg (by simp [hp, ht])

theorem foldWindow_answers {d : Dev} (hb : d.booted = true) (hm : d.mode ≠ 4) : Answers .foldWindow d d.foldWindow := by
  refine answers_of_run execFoldWindow rfl (fun _ => rfl) rfl ?_
  exact if_pos (by simp [hb, hm])

theorem unfoldLocked_answers {p : Fin 8} {d : Dev} (h : d.pairSt p = 3) :
    Answers (.unfoldLocked p) d
      (let w := d.draw 30001
      (((w.1.runCycles w.2).park p false).moveQuads (pairQuads p) (pairEven p + 1)).setPair p 4) := by
  refine answers_of_run (execUnfoldLocked p) rfl (fun _ => rfl) rfl ?_
  exact if_pos h

/-! ### Words of the links and buses (R23 to R27) -/

theorem wordFailed_answers {src : Fin 9} {w : WordIn} {d : Dev} (hw : w.ok = true) (hf : w.fails = true)
    (hl : d.on F.GLB_D2DSTAT_LINK_UP src = true) (hd : (d.link src w.dir).discarding = false) :
    Answers (.wordFailed src w) d
      ((d.setLink src w.dir { d.link src w.dir with discarding := true }).flag F.GLB_D2DSTAT_REPLAYED src) := by
  refine answers_of_run (execWordFailed src w) rfl (fun _ => rfl) hw ?_
  exact if_pos (by simp [hf, hl, hd])

/-- Where the receiver waits for the replayed word, its good or its bad end is taken. -/
theorem replayedWord_answers {src : Fin 9} {dir : Fin 2} (bad : Option Xfer) {d : Dev}
    (h : (d.link src dir).discarding = true) :
    Answers (.replayedWord src dir bad) d
      (match bad with
      | none => d.resume src dir
      | some x =>
        ((((d.flag F.GLB_D2DSTAT_UNCORR src).alert 7).alertActive 7 true).uncorrectable src dir x).resume src dir) := by
  refine answers_of_run (execReplayedWord src dir bad) rfl (fun _ => rfl) rfl ?_
  exact if_pos h

theorem replayAck_answers (src : Fin 9) (dir : Fin 2) (d : Dev) :
    Answers (.replayAck src dir) d
      (let r := Link.fill { d.link src dir with held := (d.link src dir).held - 16 } src
      (d.setLink src dir r.1).goOn src r.2) := by
  refine answers_of_run (execReplayAck src dir) rfl (fun _ => rfl) rfl ?_
  rfl

/-- Settles O36: each clause is one branch of its command. -/
theorem placementCommandsComplete : Obligations.PlacementCommandsComplete := by
  refine ⟨fun _ _ _ h => quadMove_answers h,
    fun _ _ _ h hp ht => quadDrainEnd_answers h hp ht,
    fun q m d h hp => answers_of_run (execQuadMoveAbandoned q) rfl (fun _ => rfl) rfl ?_,
    fun _ _ _ hw hf hl hd => wordFailed_answers hw hf hl hd,
    fun _ _ _ h => replayedWord_answers none h,
    fun _ _ x _ h => replayedWord_answers (some x) h,
    replayAck_answers,
    fun _ hb hm => foldWindow_answers hb hm,
    fun _ _ h => unfoldLocked_answers h⟩
  simp only [Dev.quadAbandoned, h, hp, if_true]

/-! ### The mode arbiter and its transitions (R35 to R40) -/

theorem modeTrigger_answers {d : Dev} (hb : d.booted = true) : Answers .modeTrigger d d.arbitrate := by
  refine answers_of_run execModeTrigger rfl (fun _ => rfl) rfl ?_
  exact if_pos (by simp [Dev.arbiterRuns, hb])

theorem leaseExpiry_answers {d : Dev} (ha : d.active = true) (hr : d.get F.STL_STAT_ROLE = 1)
    (hl : d.on F.STL_STAT_LEASE = true) : Answers .leaseExpiry d d.expireLease.loseLease := by
  refine answers_of_run execLeaseExpiry rfl (fun _ => rfl) rfl ?_
  exact if_pos (by simp [ha, hr, hl])

/-- Settles O37: each clause is the branch of its command whose condition the clause names. -/
theorem modeCommandsComplete : Obligations.ModeCommandsComplete := by
  refine ⟨fun _ hb => modeTrigger_answers hb,
    fun d h => answers_of_run execVigilEntry rfl (fun _ => rfl) rfl ?_,
    fun d h => answers_of_run execVigilDrained rfl (fun _ => rfl) rfl ?_,
    fun d h => answers_of_run execVigilPowerDown rfl (fun _ => rfl) rfl ?_,
    fun d hm hw => answers_of_run execWake rfl (fun _ => rfl) rfl ?_,
    fun d ht => answers_of_run execTestEntry rfl (fun _ => rfl) rfl ?_,
    fun _ ha hr hl => leaseExpiry_answers ha hr hl⟩
  · exact if_pos h
  · exact if_pos h
  · exact if_pos h
  · exact if_pos ⟨hm, hw⟩
  · exact if_pos ht

/-! ### What leaves the arbiter and the clock alone -/

/-- The arbiter stands as it was, and with it the squelch of the tree, and no time has passed. -/
structure SameArb (d e : Dev) : Prop where
  arb : e.arb = d.arb
  clk : e.clk = d.clk

namespace SameArb

theorem refl (d : Dev) : SameArb d d := ⟨rfl, rfl⟩

theorem trans {d e f : Dev} (h : SameArb d e) (g : SameArb e f) : SameArb d f :=
  ⟨g.arb.trans h.arb, g.clk.trans h.clk⟩

variable {d e : Dev} (h : SameArb d e)
include h

theorem foldl {α : Type} {f : Dev → α → Dev} (hf : ∀ {e a}, SameArb d e → SameArb d (f e a)) (l : List α) :
    SameArb d (l.foldl f e) := by
  induction l generalizing e with
  | nil => exact h
  | cons a r ih => exact ih (hf h)

theorem notes {b : Dev} (hn : Notes e b) : SameArb d b := by
  have hb : SameArb e b := by
    rw [hn.same]
    exact ⟨rfl, rfl⟩
  exact h.trans hb

theorem regs (r : Tbl Nat) : SameArb d { e with regs := r } := ⟨h.arb, h.clk⟩

theorem set (f : Fld) (v i j : Nat) : SameArb d (e.set f v i j) := (h.regs _).notes (set_notes ..)

theorem bumpAt (a inst n : Nat) : SameArb d (e.bumpAt a inst n) := (h.regs _).notes (bumpAt_notes ..)

theorem flag (f : Fld) (i j : Nat) : SameArb d (e.flag f i j) := (h.regs _).notes (flag_notes ..)

theorem event (a code inst data : Nat) : SameArb d (e.event a code inst data) := h.notes (notes_event ..)

theorem flagBit (f : Fld) (b a inst : Nat) : SameArb d (e.flagBit f b a inst) := by
  have hbit : SameArb d
      (Dev.pmuEdge { e with regs := Tbl.set e.regs (f.key 0 0) (e.get f ||| 2 ^ b) } f.addr (f.lo + b) 1 0 1) :=
    (h.regs _).notes (notes_pmuEdge ..)
  simp only [Dev.flagBit, if_true]
  exact (hbit.bumpAt ..).notes (notes_post ..)

theorem msi (v : Nat) : SameArb d (e.msi v) := by
  unfold Dev.msi
  extract_lets masked
  split
  · exact h
  · exact ⟨h.arb, h.clk⟩

theorem alert (b : Nat) : SameArb d (e.alert b) := by
  unfold Dev.alert Dev.irqAlert
  exact ((h.flagBit ..).flag ..).msi _

theorem stlAlarm (f : Fld) : SameArb d (e.stlAlarm f) := by
  unfold Dev.stlAlarm Dev.alertActive
  exact ((h.flag ..).alert _).set ..

theorem stSend (type : Nat) (body : List Byte) : SameArb d (e.stSend type body) := by
  unfold Dev.stSend
  split
  · exact ⟨h.arb, h.clk⟩
  · exact h

theorem setRing (n : Nat) (r : Ring) : SameArb d (e.setRing n r) := by
  have hrings : SameArb d { e with host := { e.host with rings := Tbl.set e.host.rings n r } } :=
    ⟨h.arb, h.clk⟩
  exact hrings.set ..

/-- The end of a command is its ring's affair (R562). -/
theorem endCmd (n tag opcode status : Nat) : SameArb d (e.endCmd n tag opcode status) := by
  unfold Dev.endCmd
  simp only
  split
  · exact (h.setRing ..).bumpAt ..
  · split
    · exact ((h.setRing ..).bumpAt ..).bumpAt ..
    · exact ((h.setRing ..).bumpAt ..).bumpAt ..

theorem dropTrigger (cause : Nat) : SameArb d (e.dropTrigger cause) := h.event ..

theorem refuseTrig (x : Trig_) : SameArb d (e.refuseTrig x) := by
  unfold Dev.refuseTrig
  split
  · exact h.endCmd ..
  · exact h.endCmd ..
  · exact h

theorem toMode (target cause : Nat) : SameArb d (e.toMode target cause) := by
  unfold Dev.toMode
  exact (((((h.set ..).set ..).set ..).set ..).set ..).event ..

end SameArb

/-! ### The entry into STANDBY (R35, R484) -/

/-- The entry into STANDBY squelches the tree and plans no start; the arbiter and the clock stand otherwise as they were. -/
theorem enterStandby_sameArb (d : Dev) (cause : Nat) : SameArb d.squelch (d.enterStandby cause) := by
  have hmap {e : Dev} (h : SameArb d.squelch e) :
      SameArb d.squelch (foldUpTo 128 (fun c e => e.set F.STL_CHSTAT_DSTATE 0 c) e) := h.foldl (fun g => g.set ..) _
  have hforget (stl : Stl) (lines : Lines) : SameArb d.squelch { d.squelch with stl := stl, lines := lines } := ⟨rfl, rfl⟩
  unfold Dev.enterStandby
  exact ((((hmap ((((hforget _ _).set ..).set ..).set ..)).set ..).toMode ..).set ..).stSend ..

theorem event_get (d : Dev) (a code inst data : Nat) (f : Fld) (i j : Nat) (hk : calm (f.key i j) = true) :
    (d.event a code inst data).get f i j = d.get f i j := (notes_event ..).get f i j hk

/-- A transition that completes shows its mode and its cause (R33). -/
theorem get_toMode (d : Dev) (target cause : Nat) :
    (d.toMode target cause).get F.GLB_MODE_CURRENT = target % 8 ∧
      (d.toMode target cause).get F.GLB_MODE_LAST_CAUSE = cause % 16 := by
  unfold Dev.toMode Dev.modeEvent Dev.bumpIn
  constructor
  · simp (disch := decide) only [event_get, get_set_other, get_set_same]
    rfl
  · simp (disch := decide) only [event_get, get_set_other, get_set_same]
    rfl

@[simp] theorem stSend_get (d : Dev) (type : Nat) (body : List Byte) (f : Fld) (i j : Nat) :
    (d.stSend type body).get f i j = d.get f i j := by
  unfold Dev.stSend
  split <;> rfl

/-- The entry into STANDBY shows the mode and the cause: what follows the change of mode is the lease end's field and a
message to the partner. -/
theorem get_enterStandby (d : Dev) (cause : Nat) :
    (d.enterStandby cause).get F.GLB_MODE_CURRENT = 3 ∧ (d.enterStandby cause).get F.GLB_MODE_LAST_CAUSE = cause % 16 := by
  unfold Dev.enterStandby Dev.sendHello Dev.showLease
  simp (disch := decide) only [stSend_get, get_set_other]
  exact get_toMode ..

/-! ### The loss of the lease (R37, R468) -/

/-- Once the tree is squelched at the lease's instant, its end shows in registers. -/
theorem leaseLost_sameArb (d : Dev) : SameArb (d.runTo (d.stl.lease * 125000)).squelch
    (((d.runTo (d.stl.lease * 125000)).squelch.set F.STL_STAT_LEASE 0).stlAlarm F.STL_STAT_LEASELOST) :=
  ((SameArb.refl _).set ..).stlAlarm _

/-- The arbiter squelches the tree, drops a planned start and a planned release, and keeps its triggers and its
transition. -/
theorem expireLease_arb (d : Dev) :
    d.expireLease.arb = { d.arb with squelch := true, startAt := none, releaseAt := none } := by
  have hrun : (d.runTo (d.stl.lease * 125000)).arb = d.arb := by rw [(runTo_notes ..).same]
  unfold Dev.expireLease
  simp only
  rw [(leaseLost_sameArb d).arb, Dev.squelch_arb, hrun]

theorem expireLease_clk (d : Dev) : d.expireLease.clk = (d.runTo (d.stl.lease * 125000)).clk := by
  unfold Dev.expireLease
  simp only
  exact (leaseLost_sameArb d).clk

theorem dropAsked_clk (d : Dev) : d.dropAsked.clk = d.clk := by
  have h := (SameArb.refl { d with arb := { d.arb with asked := [] } }).foldl
    (f := fun d y => (d.dropTrigger y.cause).refuseTrig y) (fun g => (g.dropTrigger _).refuseTrig _) d.arb.asked
  exact h.clk

theorem endTrans_clk (d : Dev) (status : Nat) : (d.endTrans status).clk = d.clk := by
  unfold Dev.endTrans
  split
  · rfl
  · simp only
    split
    · exact ((SameArb.refl { d with arb := { d.arb with trans := none } }).endCmd ..).clk
    · rfl

/-- What goes before the loss of the lease (R36): a shut-down of the same cycle, or a transition to a mode but STANDBY. -/
def Dev.leaseYields (d : Dev) : Bool := d.shutdownAsked || d.arb.trans.any fun t => t.target != 3

theorem expireLease_leaseYields (d : Dev) : d.expireLease.leaseYields = d.leaseYields := by
  rw [Dev.leaseYields, Dev.shutdownAsked, expireLease_arb]
  rfl

/-- Where a shut-down or a transition to another mode goes before it, the loss of the lease is a dropped trigger (R36). -/
theorem loseLease_dropped {d : Dev} (h : d.leaseYields = true) :
    d.loseLease = d.dropTrigger 3 := if_pos h

/-- Elsewhere the device enters STANDBY with cause 3, once triggers are dropped and a switch-over's command has ended. -/
theorem loseLease_standby {d : Dev} (h : d.leaseYields = false) :
    ∃ e : Dev, e.clk = d.clk ∧ d.loseLease = e.enterStandby 3 := by
  have hdrop (c : Nat) : ((d.dropAsked.dropTrigger c).endTrans 1).clk = d.clk := by
    rw [endTrans_clk, ((SameArb.refl _).dropTrigger c).clk, dropAsked_clk]
  rw [Dev.leaseYields] at h
  simp only [Dev.loseLease, h, Bool.false_eq_true, if_false]
  split
  · exact ⟨_, hdrop _, rfl⟩
  · exact ⟨_, dropAsked_clk d, rfl⟩

/-- Losing the lease leaves a squelched tree squelched, with no start planned, and takes no time. -/
theorem loseLease_squelched {d : Dev} (hq : d.arb.squelch = true) (hs : d.arb.startAt = none) :
    d.loseLease.arb.squelch = true ∧ d.loseLease.arb.startAt = none ∧ d.loseLease.clk = d.clk := by
  cases h : d.leaseYields
  case true =>
    have hd := (SameArb.refl d).dropTrigger 3
    rw [loseLease_dropped h, hd.arb]
    exact ⟨hq, hs, hd.clk⟩
  case false =>
    obtain ⟨e, hclk, he⟩ := loseLease_standby h
    have hb := enterStandby_sameArb e 3
    rw [he, hb.arb]
    exact ⟨rfl, rfl, hb.clk.trans hclk⟩

/-- Settles O14: the squelch comes with the instant of expiry, and STANDBY follows where nothing goes before it. -/
theorem aLostLeaseSquelchesAtOnce : Obligations.ALostLeaseSquelchesAtOnce := by
  intro d hactive hrole hlease
  obtain ⟨hq, hs, hclk⟩ := loseLease_squelched (d := d.expireLease) (by rw [expireLease_arb]) (by rw [expireLease_arb])
  refine ⟨_, leaseExpiry_answers hactive hrole hlease, hq, hs, hclk.trans (expireLease_clk d), fun hshut htrans => ?_⟩
  have hfirst : d.expireLease.leaseYields = false := by
    rw [expireLease_leaseYields, Dev.leaseYields, hshut, htrans, Bool.or_self]
  obtain ⟨e, -, he⟩ := loseLease_standby hfirst
  rw [he]
  exact get_enterStandby e 3

end Sys2Proof.Machine

/-!
PROOFS of the statements of 02_downstream_line.md: the segment header (R62), the line code (R43, R48 to R50), loss of frame
(R71), and the completion of the framer's and the downstream receiver's commands.
-/

namespace Sys2Proof

/-! ### Bit fields -/

theorem bits_eq_div_mod (x lo w : Nat) : bits x lo w = x / 2 ^ lo % 2 ^ w := by
  rw [bits, Nat.shiftRight_eq_div_pow]

theorem testBit_bits (x lo w i : Nat) : (bits x lo w).testBit i = (decide (i < w) && x.testBit (lo + i)) := by
  rw [bits, Nat.testBit_mod_two_pow, Nat.testBit_shiftRight]

theorem b2n_le_one (b : Bool) : b2n b ≤ 1 := by cases b <;> decide

/-- A one-bit field that holds a Boolean's number reads as the Boolean. -/
theorem bit_eq_of_bits {x n : Nat} {b : Bool} (h : bits x n 1 = b2n b) : bit x n = b := by
  cases b <;> simp [bit, h, b2n]

/-! ### Check codes (R62) -/

/-- A CRC of `w` bits has `w` bits. -/
theorem crcMsb_lt {w poly : Nat} (hp : poly < 2 ^ w) (x n : Nat) {c : Nat} (hc : c < 2 ^ w) :
    crcMsb w poly x n c < 2 ^ w := by
  induction n generalizing c with
  | zero => exact hc
  | succ n ih =>
    have hshift : c * 2 % 2 ^ w < 2 ^ w := Nat.mod_lt _ (Nat.two_pow_pos w)
    rw [crcMsb]
    apply ih
    split
    · exact Nat.xor_lt_two_pow hshift hp
    · exact hshift

theorem crc14_lt (h : Nat) : crc14 h < 2 ^ 14 := crcMsb_lt (by decide) _ _ (by decide)

/-- The check leaves its own place out: it covers bits [63:14]. -/
theorem crc14_congr {a b : Nat} (h : a / 2 ^ 14 = b / 2 ^ 14) : crc14 a = crc14 b := by
  simp only [crc14, Nat.shiftRight_eq_div_pow, h]

/-! ### The coded line (R43, R47 to R49) -/

/-- The data positions of a codeword are sent as they are, before the parity (R47). -/
theorem getElem?_encodeCw {l : List Nat} {k : Nat} (hk : k < l.length) : (encodeCw l)[k]? = l[k]? := by
  rw [encodeCw, List.getElem?_append_left hk]

/-- The line values of the blocks of a received codeword. -/
def CwIn.received (w : CwIn) : List Nat := w.raw.map fun b => b.hdr.val * 2 ^ 64 + b.pay.val

/-- The decoder works on data positions as received: R48 touches parity alone. -/
theorem CwIn.getElem?_input {w : CwIn} {k : Nat} (hk : k < w.size) : w.input[k]? = w.received[k]? := by
  have hlen : k < (w.received.take w.size).length := by
    simp only [received, List.length_take, List.length_map, size] at hk ⊢
    omega
  change (w.received.take w.size ++ (w.received.drop w.size).map flipHdr)[k]? = _
  rw [List.getElem?_append_left hlen, List.getElem?_take_of_lt hk]

end Sys2Proof

namespace Sys2Proof.Machine

open Sys2Proof

/-- Bits changed on the way and corrected by the decoder leave the data positions as sent (R49): each block is XORed with
the same value twice. -/
theorem output_of_corrected {w : CwIn} {l : List Nat} (hb : w.bad = false)
    (hr : w.received = (w.flips.map (·.val)).foldl flipAt (encodeCw l)) : w.output = l := by
  obtain ⟨m, hm⟩ := getElem?_foldl_flipAt (w.flips.map (·.val))
  have hsize : w.size = l.length := by
    have hlen := congrArg List.length hr
    rw [length_foldl_flipAt, length_encodeCw, CwIn.received, List.length_map] at hlen
    rw [CwIn.size, hlen, Nat.add_sub_cancel]
  apply List.ext_getElem?
  intro k
  simp only [CwIn.output, hb, Bool.false_eq_true, if_false]
  by_cases hk : k < l.length
  · rw [List.getElem?_take_of_lt (hsize ▸ hk), hm, CwIn.getElem?_input (hsize ▸ hk), hr, hm, getElem?_encodeCw hk,
      Option.map_map]
    simp [Function.comp_def]
  · have hk : l.length ≤ k := Nat.le_of_not_lt hk
    rw [List.getElem?_eq_none (List.length_take_le _ _ |>.trans (hsize ▸ hk)), List.getElem?_eq_none hk]

/-- A data position as coded is delivered with its kind and payload (R44). -/
theorem decodedBlk_codeBlk (bad ctl : Bool) {pay : Nat} (hp : pay < 2 ^ 64) :
    decodedBlk bad (codeBlk ctl pay) = { ctl := ctl, pay := pay, bad := bad } := by
  have hhdr : codeBlk ctl pay / 2 ^ 64 = if ctl then 2 else 1 := by rw [codeBlk]; omega
  have hpay : codeBlk ctl pay % 2 ^ 64 = pay := by rw [codeBlk]; omega
  rw [decodedBlk, hhdr, hpay]
  cases ctl <;> rfl

/-- Descrambling undoes scrambling, block by block, and both ends step alike (R50). -/
theorem descramble_scramble (l : List Blk) {k : Nat} (s : Nat) (hk : 2 ≤ k) :
    descramble false k s (List.zipWith (fun b p => { b with pay := p }) l (scramble s (l.map Blk.pay)).2) =
      ((scramble s (l.map Blk.pay)).1, l) := by
  induction l generalizing s k with
  | nil => rfl
  | cons b r ih =>
    have hplain : (false || decide (k < 2)) = false := decide_eq_false (by omega)
    simp only [List.map_cons, scramble, List.zipWith_cons_cons, descramble, hplain, Bool.false_eq_true, if_false,
      ih (scrWord 64 s 0).1 (Nat.le_succ_of_le hk), Nat.xor_assoc, Nat.xor_self, Nat.xor_zero]

theorem length_scramble (s : Nat) (l : List Nat) : (scramble s l).2.length = l.length := by
  induction l generalizing s with
  | nil => rfl
  | cons p r ih => rw [scramble, List.length_cons, List.length_cons, ih]

/-- The four levels stand for the four bit pairs (R43). -/
theorem pam4_injective : ∀ x < 4, ∀ y < 4, pam4 x = pam4 y → x = y := by decide

/-- Blocks of the same symbols have the same bits: bit `i` is in the pair of symbol 32 - i / 2 (R43). -/
theorem eq_of_blockSymbols {a b : Nat} (ha : a < 2 ^ 66) (hb : b < 2 ^ 66) (h : blockSymbols a = blockSymbols b) :
    a = b := by
  have hpair : ∀ k < 33, bits a (64 - 2 * k) 2 = bits b (64 - 2 * k) 2 := fun k hk =>
    pam4_injective _ (Nat.mod_lt _ (by decide)) _ (Nat.mod_lt _ (by decide))
      (List.map_inj_left.mp h k (List.mem_range.mpr hk))
  apply Nat.eq_of_testBit_eq
  intro i
  by_cases hi : i < 66
  · have hbit := congrArg (·.testBit (i % 2)) (hpair (32 - i / 2) (by omega))
    have hplace : 64 - 2 * (32 - i / 2) + i % 2 = i := by omega
    simpa [testBit_bits, hplace, Nat.mod_lt i (by decide : 0 < 2)] using hbit
  · have hi : 2 ^ 66 ≤ 2 ^ i := Nat.pow_le_pow_right (by decide) (Nat.le_of_not_lt hi)
    rw [Nat.testBit_lt_two_pow (ha.trans_le hi), Nat.testBit_lt_two_pow (hb.trans_le hi)]

/-- Settles O27: the scrambler block by block, the codeword by its data positions, the symbols by their bit pairs. -/
theorem theReceiverUndoesTheSendersLineCode : Obligations.TheReceiverUndoesTheSendersLineCode := by
  refine ⟨fun s k l hk => ?_, fun l raw flips hl hraw => ?_, fun _ _ ha hb h => eq_of_blockSymbols ha hb h⟩
  · rw [descramble_scramble l s hk, length_scramble, List.length_map]
    exact ⟨rfl, rfl, rfl⟩
  · intro w
    rw [output_of_corrected (w := w) rfl hraw, List.map_map]
    exact List.map_congr_left fun e he => decodedBlk_codeBlk false e.1 (hl e he)

/-! ### Segment headers (R62) -/

/-- The fields of a segment header in their places, HDR_CHECK zero. -/
def segFields (label len : Nat) (last : Bool) (key : Nat) (enc first : Bool) (seq : Nat) : Nat :=
  label * 2 ^ 48 + len * 2 ^ 34 + b2n last * 2 ^ 33 + key * 2 ^ 32 + b2n enc * 2 ^ 31 + b2n first * 2 ^ 30 +
    seq % 65536 * 2 ^ 14

theorem segHeader_eq (label len : Nat) (last : Bool) (key : Nat) (enc first : Bool) (seq : Nat) :
    segHeader label len last key enc first seq =
      segFields label len last key enc first seq + crc14 (segFields label len last key enc first seq) := rfl

section
variable {label len key seq c : Nat} {last enc first : Bool}

/-- HDR_CHECK lies below the fields it covers. -/
theorem crc14_segFields_add (hc : c < 2 ^ 14) :
    crc14 (segFields label len last key enc first seq + c) = crc14 (segFields label len last key enc first seq) :=
  crc14_congr (by rw [segFields]; omega)

variable (hlabel : label < 2 ^ 16) (hlen : len < 2 ^ 14) (hkey : key < 2) (hc : c < 2 ^ 14)
include hlabel hlen hkey hc

theorem segFields_add_lt : segFields label len last key enc first seq + c < 2 ^ 64 := by
  have hl := b2n_le_one last
  have he := b2n_le_one enc
  have hf := b2n_le_one first
  rw [segFields]
  omega

/-- Each field reads back from its place, whatever stands in HDR_CHECK. -/
theorem bits_segFields_add :
    let h := segFields label len last key enc first seq + c
    bits h 48 16 = label ∧ bits h 34 14 = len ∧ bits h 33 1 = b2n last ∧ bits h 32 1 = key ∧ bits h 31 1 = b2n enc ∧
      bits h 30 1 = b2n first ∧ bits h 14 16 = seq % 2 ^ 16 ∧ bits h 0 14 = c := by
  have hl := b2n_le_one last
  have he := b2n_le_one enc
  have hf := b2n_le_one first
  simp only [bits_eq_div_mod, segFields]
  omega

theorem segOf_segFields_add :
    Seg.of (segFields label len last key enc first seq + c) =
      { hdr := segFields label len last key enc first seq + c, label := label, len := len, last := last, key := key,
        enc := enc, first := first, seq := seq % 2 ^ 16 } := by
  obtain ⟨h48, h34, h33, h32, h31, h30, h14, -⟩ :=
    bits_segFields_add (seq := seq) (last := last) (enc := enc) (first := first) hlabel hlen hkey hc
  rw [Seg.of, h48, h34, bit_eq_of_bits h33, h32, bit_eq_of_bits h31, bit_eq_of_bits h30, h14]

end

/-- Settles O24: the check does not reach into the fields, nor the fields into one another. -/
theorem segmentHeadersReadBack : Obligations.SegmentHeadersReadBack := by
  intro label len key seq last enc first hlabel hlen hkey
  have hc := crc14_lt (segFields label len last key enc first seq)
  obtain ⟨-, -, -, -, -, -, -, h0⟩ :=
    bits_segFields_add (seq := seq) (last := last) (enc := enc) (first := first) hlabel hlen hkey hc
  rw [segHeader_eq]
  exact ⟨segFields_add_lt hlabel hlen hkey hc, (crc14_segFields_add hc).trans h0.symm,
    segOf_segFields_add hlabel hlen hkey hc⟩

/-! ### The framer's commands (R51 to R53, R58, R66, R67, R73) -/

/-- A framed channel with room in its subframe takes what comes next, once its words can cross (R66, R67). -/
theorem segmentTx_answers {c : Ch} {d e : Dev} (hopen : d.outOpen (c / 64) = true) (he : d.segmentOut c = e) :
    Answers (.segmentTx c) d e :=
  answers_of_run (execSegmentTx c) rfl (fun _ => rfl) rfl ((if_pos hopen).trans he)

section
variable {c : Nat} {d : Dev} (hframed : (d.tx c).framed = true) (hsf : (d.tx c).sf ≠ 0) (hroom : (d.tx c).room ≠ 0)
  (hruns : d.framerRuns c = true)
include hframed hsf hroom hruns

/-- The packet begun goes first. -/
theorem segmentOut_part {p : PartTx} (hp : (d.tx c).part = some p) : d.segmentOut c = d.sendPart c p := by
  simp [Dev.segmentOut, hframed, hsf, hroom, hruns, hp]

/-- With no packet begun, the selection ahead goes. -/
theorem segmentOut_pkt {q : Nat} {p : Pkt} {r : List Sel} (hp : (d.tx c).part = none)
    (ha : Tbl.get [] d.tm.ahead c = .pkt q p :: r) (hlen : p.bytes.length ≤ 16000)
    (hlabel : ¬(0x80 < p.label ∧ p.label < 0x100)) :
    d.segmentOut c =
      (let e : Dev := { d with tm := { d.tm with ahead := Tbl.set d.tm.ahead c r } }
      let sl := e.txSlot c q p.label
      e.sendPart c { pkt := p, queue := q, sent := 0, label := p.label, keyIdx := sl.2.1, owner := d.qParent q % 16384 }) := by
  simp [Dev.segmentOut, hframed, hsf, hroom, hruns, hp, ha, Nat.not_lt.mpr hlen, hlabel]

theorem segmentOut_mgmt {m : MgmtMsg} {r : List Sel} (hp : (d.tx c).part = none)
    (ha : Tbl.get [] d.tm.ahead c = .mgmt m :: r) (hfit : 9 ≤ (d.tx c).room) :
    d.segmentOut c =
      ({ d with tm := { d.tm with ahead := Tbl.set d.tm.ahead c r } }.sendMgmt c m).release1 m.buf := by
  simp [Dev.segmentOut, hframed, hsf, hroom, hruns, hp, ha, Nat.not_lt.mpr hfit]

end

/-- Settles O38: each clause is one branch of its command. -/
theorem framerCommandsComplete : Obligations.FramerCommandsComplete := by
  refine ⟨fun d hb hm => answers_of_run execFrameStart rfl (fun _ => rfl) rfl ?_,
    fun c sf d hf hsf hr hx => answers_of_run (execSubframeStart c sf) rfl (fun _ => rfl) rfl (if_neg ?_),
    fun _ _ _ ho hf hsf hroom hr hp => segmentTx_answers ho (segmentOut_part hf hsf hroom hr hp),
    fun _ _ _ _ _ ho hf hsf hroom hr hp ha hlen hlabel =>
      segmentTx_answers ho (segmentOut_pkt hf hsf hroom hr hp ha hlen hlabel),
    fun _ _ _ _ ho hf hsf hroom hr hp ha hfit => segmentTx_answers ho (segmentOut_mgmt hf hsf hroom hr hp ha hfit),
    fun c _ => answers_of_run (execFramerConfigApply c) rfl (fun _ => rfl) rfl rfl⟩
  · exact if_pos (by simp [hb, hm])
  · rcases hx with hopen | hnone
    · simp [hf, hsf, hr, hopen]
    · simp [hf, hsf, hr, hnone]

/-! ### The receiver's commands (R49, R50, R55, R56, R68 to R72) -/

/-- A command of the downstream receiver acts where the receiver runs. -/
theorem answers_of_rxRuns {i : Instr} (x : State → Res) {c : Nat} {f : Dev → Dev} {d e : Dev} (hx : exec i = x)
    (hr : ∀ s, x s = run i s fun d => if d.rxRuns c then f d else d) (hw : i.wf = true) (hruns : d.rxRuns c = true)
    (he : f d = e) : Answers i d e :=
  answers_of_run x hx hr hw ((if_pos hruns).trans he)

theorem oof_answers {c : Ch} {d e : Dev} (hruns : d.rxRuns c = true) (he : d.oof c = e) : Answers (.oof c) d e :=
  answers_of_rxRuns (execOof c) rfl (fun _ => rfl) rfl hruns he

theorem lof_answers {c : Ch} {d e : Dev} (hruns : d.rxRuns c = true) (he : d.lof c = e) : Answers (.lof c) d e :=
  answers_of_rxRuns (execLof c) rfl (fun _ => rfl) rfl hruns he

/-- Out of IN_FRAME with LOF not yet set in this period, time runs to the end of the 24 frames and LOF sets (R71). -/
theorem lof_sets {c : Nat} {d : Dev} (ha : d.align c ≠ 2) (hs : (d.rx c).lofSet = false) :
    d.lof c = ((d.reach ((d.rx c).leftAt + 24 * frameCycles)).setRx c { d.rx c with lofSet := true }).flag
      F.TCH_FRMSTAT_LOF c := by
  simp [Dev.lof, ha, hs]

/-- In IN_FRAME, or with LOF set in this period, nothing happens (R71). -/
theorem lof_rests {c : Nat} {d : Dev} (h : d.align c = 2 ∨ (d.rx c).lofSet = true) : d.lof c = d := if_pos h

@[simp] theorem setRx_rx_same (d : Dev) (c : Nat) (x : RxLine) : (d.setRx c x).rx c = x := Tbl.get_set_same ..

theorem flag_rx (d : Dev) (f : Fld) (i j c : Nat) : (d.flag f i j).rx c = d.rx c := by
  rw [(flag_notes d f i j true).same]
  rfl

theorem flag_clk (d : Dev) (f : Fld) (i j : Nat) : (d.flag f i j).clk = d.clk := by
  rw [(flag_notes d f i j true).same]

/-- The flag LOF of a channel lies outside the noting blocks and apart from its count. -/
theorem get_flag_lof (d : Dev) (c : Ch) : (d.flag F.TCH_FRMSTAT_LOF c).get F.TCH_FRMSTAT_LOF c = 1 := by
  apply get_flag_same
  · simp only [calm, Fld.key, F.TCH_FRMSTAT_LOF]
    exact Bool.or_eq_true_iff.mpr (.inr (decide_eq_true (by omega)))
  · simp only [Fld.key, F.TCH_FRMSTAT_LOF]
    omega

/-- Settles O17: LOF sets at the end of the 24 frames, and a period that has its LOF, or none to come, changes nothing. -/
theorem lossOfFrameSetsOncePerPeriod : Obligations.LossOfFrameSetsOncePerPeriod := by
  intro c d hruns
  refine ⟨fun ha hs => ⟨_, lof_answers hruns (lof_sets ha hs), get_flag_lof _ c, ?_, ?_⟩,
    fun hs => lof_answers hruns (lof_rests (.inr hs)), fun ha => lof_answers hruns (lof_rests (.inl ha))⟩
  · rw [flag_clk, Dev.setRx_clk, reach_cyc, frameCycles]
  · rw [flag_rx, setRx_rx_same]

/-- Settles O39: each clause is one branch of its command. -/
theorem lineReceiverComplete : Obligations.LineReceiverComplete := by
  refine ⟨fun c hdr pay d hr hup hk => answers_of_run (execBlockReceived c hdr pay) rfl (fun _ => rfl) rfl ?_,
    fun _ _ hr ha hm => oof_answers hr (if_pos ⟨ha, hm⟩),
    fun _ _ hr ha hm hup => oof_answers hr ?_,
    fun c _ hr ha => answers_of_rxRuns (execRetainExpired c) rfl (fun _ => rfl) rfl hr (if_pos ha),
    fun _ _ hr ha hs => lof_answers hr (lof_sets ha hs),
    fun c w _ hw hr ha => answers_of_rxRuns (execCodewordDecode c w) rfl (fun _ => rfl) hw hr (if_neg (Nat.not_lt.mpr ha)),
    fun c ago _ hr hq hl => answers_of_rxRuns (execFrameHeaderRx c ago) rfl (fun _ => rfl) rfl hr (if_neg ?_),
    fun c _ hr _ _ _ => answers_of_rxRuns (execSubframeHeaderRx c) rfl (fun _ => rfl) rfl hr rfl,
    fun c _ hr _ _ _ => answers_of_rxRuns (execSegmentRx c) rfl (fun _ => rfl) rfl hr rfl⟩
  · exact (if_pos (by simp [hr, hup])).trans (if_pos hk)
  · exact (if_neg (by omega)).trans (if_pos ⟨ha, hup⟩)
  · omega

end Sys2Proof.Machine

/-!
PROOFS of the statements of 03_upstream_bursts.md: the burst header (R84), and the completion of the burst receiver's commands
(R91 to R93, R96, R97, R99).
-/

namespace Sys2Proof

/-! ### The check code of a burst header (R84) -/

theorem crc16_lt (h : Nat) : crc16 h < 2 ^ 16 := crcMsb_lt (by decide) _ _ (by decide)

/-- The check leaves its own place out: it covers bits [63:16]. -/
theorem crc16_congr {a b : Nat} (h : a / 2 ^ 16 = b / 2 ^ 16) : crc16 a = crc16 b := by
  simp only [crc16, Nat.shiftRight_eq_div_pow, h]

end Sys2Proof

namespace Sys2Proof.Machine

open Sys2Proof

/-! ### Burst headers (R84) -/

/-- The fields of a burst header in their places, HDR_CRC zero. -/
def burstFields (loc rei echo : Nat) (report gasp alarm : Bool) (level : Nat) : Nat :=
  loc * 2 ^ 57 + rei * 2 ^ 49 + echo % 65536 * 2 ^ 33 + b2n report * 2 ^ 32 + b2n gasp * 2 ^ 31 + b2n alarm * 2 ^ 30 +
    level % 8 * 2 ^ 27

theorem burstHeader_eq (loc rei echo : Nat) (report gasp alarm : Bool) (level : Nat) :
    burstHeader loc rei echo report gasp alarm level =
      burstFields loc rei echo report gasp alarm level + crc16 (burstFields loc rei echo report gasp alarm level) := rfl

section
variable {loc rei echo level crc : Nat} {report gasp alarm : Bool}

/-- HDR_CRC lies below the fields it covers. -/
theorem crc16_burstFields_add (hcrc : crc < 2 ^ 16) :
    crc16 (burstFields loc rei echo report gasp alarm level + crc) =
      crc16 (burstFields loc rei echo report gasp alarm level) :=
  crc16_congr (by rw [burstFields]; omega)

variable (hloc : loc < 2 ^ 7) (hrei : rei < 2 ^ 8) (hcrc : crc < 2 ^ 16)
include hloc hrei hcrc

theorem burstFields_add_lt : burstFields loc rei echo report gasp alarm level + crc < 2 ^ 64 := by
  have hr := b2n_le_one report
  have hg := b2n_le_one gasp
  have ha := b2n_le_one alarm
  rw [burstFields]
  omega

/-- Each field reads back from its place, whatever stands in HDR_CRC. -/
theorem bits_burstFields_add :
    let h := burstFields loc rei echo report gasp alarm level + crc
    bits h 57 7 = loc ∧ bits h 49 8 = rei ∧ bits h 33 16 = echo % 2 ^ 16 ∧ bits h 32 1 = b2n report ∧
      bits h 31 1 = b2n gasp ∧ bits h 30 1 = b2n alarm ∧ bits h 27 3 = level % 8 ∧ bits h 16 11 = 0 ∧
      bits h 0 16 = crc := by
  have hr := b2n_le_one report
  have hg := b2n_le_one gasp
  have ha := b2n_le_one alarm
  simp only [bits_eq_div_mod, burstFields]
  omega

end

/-- Settles O25: HDR_CRC does not reach into the fields, nor the fields into one another. -/
theorem burstHeadersReadBack : Obligations.BurstHeadersReadBack := by
  intro loc rei echo level report gasp alarm hloc hrei
  have hcrc := crc16_lt (burstFields loc rei echo report gasp alarm level)
  obtain ⟨h57, h49, h33, h32, h31, h30, h27, h16, h0⟩ :=
    bits_burstFields_add (echo := echo) (level := level) (report := report) (gasp := gasp) (alarm := alarm) hloc hrei hcrc
  have hgood := (crc16_burstFields_add hcrc).trans h0.symm
  rw [burstHeader_eq]
  exact ⟨burstFields_add_lt hloc hrei hcrc, beq_iff_eq.mpr hgood, h57, h49, h33, bit_eq_of_bits h32, bit_eq_of_bits h31,
    bit_eq_of_bits h30, h27, h16⟩

/-! ### The burst receiver's commands (R91 to R93, R96, R97, R99) -/

/-- A command of the burst receiver acts on the device as it stands at the guard of the next burst, where `p` holds of it
(R92, R102). -/
theorem answers_of_atGuard {i : Instr} (x : State → Res) {c : Nat} {p : Dev → Bool} {f : Dev → Dev} {d e : Dev}
    (hx : exec i = x) (hr : ∀ s, x s = run i s fun d => if p (d.toBurst c) then f (d.toBurst c) else d)
    (hw : i.wf = true) (hp : p (d.toBurst c) = true) (he : f (d.toBurst c) = e) : Answers i d e :=
  answers_of_run x hx hr hw ((if_pos hp).trans he)

theorem burstReceived_answers {c : Ch} {b : BurstIn} {d e : Dev} (hw : b.ok = true)
    (hruns : (d.toBurst c).brxRuns c = true) (he : (d.toBurst c).burstReceived c b = e) :
    Answers (.burstReceived c b) d e :=
  answers_of_atGuard (p := (·.brxRuns c)) (f := (·.burstReceived c b)) (execBurstReceived c b) rfl (fun _ => rfl) hw hruns he

section
variable {c : Nat} {d : Dev} {b i : BurstIn} {x : Burst} {r : List Burst} {a : Dev × EqVals × Int} {y : Option (Int × Nat)}
  (hs : (d.brx c).sched = x :: r)
  (hi : i = if (d.loadFirst c).useB F.SLN_CTL_RX_INV c then b.inv else b)
  (ha : a = (d.loadFirst c).preambleTo c (((Tbl.find? (d.loadFirst c).lanes.loaded c).map (·.value)).getD 0) x.cold i.pre)
  (hy : y = findDelim i.search ((d.loadFirst c).use F.TCH_BRXCFG_WINDOW c) ((d.loadFirst c).use F.TCH_BRXCFG_DELIM_TOL c)
    a.2.1.phase a.2.2)
include hs hi ha hy

/-- A burst whose delimiter is found on a lane that is up is taken at its offset (R92, R95). -/
theorem burstReceived_found {o : Int × Nat} (ho : y = some o) (hup : (d.loadFirst c).laneUp c = true) :
    d.burstReceived c b =
      (let p := Dev.adaptBurst c false (a.1, a.2.1, 0) i.post
      p.1.takeBurst c x i p.2.1.num (o.1 + if (d.loadFirst c).acquiring c then i.energy else 0) o.2) := by
  have hfind := hy.symm.trans ho
  subst hi ha
  simp only [Dev.burstReceived, hs, hfind, hup]

/-- A burst with no delimiter, or on a lane that is down, is missing (R97). -/
theorem burstReceived_missing (h : y = none ∨ (d.loadFirst c).laneUp c = false) :
    d.burstReceived c b = (d.loadFirst c).burstMissing c := by
  subst hi ha
  cases y with
  | none => simp only [Dev.burstReceived, hs, ← hy]
  | some o =>
    have hdown : (d.loadFirst c).laneUp c = false := h.resolve_left (Option.some_ne_none o)
    simp only [Dev.burstReceived, hs, ← hy, hdown]

end

/-- Settles O40: each clause is one branch of its command, on the device as it stands at the guard of the next burst. -/
theorem burstReceiverComplete : Obligations.BurstReceiverComplete := by
  refine ⟨fun c bad _ hr hn => ?_,
    fun _ _ _ _ _ _ _ _ _ hw hr hs hi ha hy ho hup => burstReceived_answers hw hr (burstReceived_found hs hi ha hy ho hup),
    fun _ _ _ _ _ _ _ _ hw hr hs hi ha hy hm => burstReceived_answers hw hr (burstReceived_missing hs hi ha hy hm),
    fun c _ _ _ hr hs => ?_,
    fun c _ _ _ hr hq hs => ?_,
    fun g _ hb hv => answers_of_run (execPresetStale g) rfl (fun _ => rfl) rfl (if_pos ⟨hb, hv⟩)⟩
  · exact answers_of_atGuard (p := fun e => e.brxRuns c && (Tbl.find? e.lanes.loaded c).isNone)
      (f := (·.presetLoad c bad)) (execPresetLoad c bad) rfl (fun _ => rfl) rfl (Bool.and_eq_true_iff.mpr ⟨hr, hn⟩) rfl
  · exact answers_of_atGuard (p := (·.brxRuns c)) (f := (·.burstMissing c)) (execBurstMissing c) rfl (fun _ => rfl) rfl hr
      (by simp only [Dev.burstMissing, hs])
  -- `rfl` joins the statement's own `match` to the model's, which are two matchers where they stand in two files.
  · exact answers_of_atGuard (p := fun e => e.brxRuns c && !(e.brx c).intruded) (f := (·.guardIntrusion c))
      (execGuardIntrusion c) rfl (fun _ => rfl) rfl (by simp [hr, hq])
      (by simp only [Dev.guardIntrusion, hs] <;> rfl)

end Sys2Proof.Machine

/-!
PROOFS of the statements of 04_terminal_lifecycle.md: the completion of the head-end routines of a running Scribe (R112 to R142)
and of the commands of emulated terminals and buckets (R111, R233 to R252, R619, R620).
-/

namespace Sys2Proof.Machine

open Sys2Proof

/-- A command acts where its guard `p` holds of the device. -/
theorem answers_of_guard {i : Instr} (x : State → Res) {p : Dev → Bool} {f : Dev → Dev} {d e : Dev} (hx : exec i = x)
    (hr : ∀ s, x s = run i s fun d => if p d then f d else d) (hw : i.wf = true) (hp : p d = true) (he : f d = e) :
    Answers i d e :=
  answers_of_run x hx hr hw ((if_pos hp).trans he)

/-! ### The events of a terminal (R110) -/

/-- The event of a terminal that comes next takes its turn. -/
theorem turn_of_nextTodo {d : Dev} {c loc : Nat} {t : Todo} {p : Todo → Bool} (hn : d.nextTodo c loc = some t)
    (hp : p t = true) : d.turn c loc p = true := by
  rw [Dev.turn, hn]
  exact hp

/-- A routine runs for an event of a terminal where its guard `g` holds and the event comes next (R110). -/
theorem answers_of_turn {i : Instr} (x : State → Res) {c loc : Nat} {p : Todo → Bool} {g : Dev → Bool} {f : Dev → Dev}
    {d e : Dev} (hx : exec i = x) (hr : ∀ s, x s = run i s fun d => if g d && d.turn c loc p then f d else d)
    (hw : i.wf = true) (hg : g d = true) (ht : d.turn c loc p = true) (he : f d = e) : Answers i d e :=
  answers_of_guard x hx hr hw (Bool.and_eq_true_iff.mpr ⟨hg, ht⟩) he

/-- The guard that the head-end routines which may send a message share: the Scribe takes events, and the management queue
has room (R211). -/
theorem headScribe_and_mgmtRoom {d : Dev} {c n : Nat} (hs : d.headScribe c = true) (hm : d.mgmtRoom c n = true) :
    (d.headScribe c && d.mgmtRoom c n) = true :=
  Bool.and_eq_true_iff.mpr ⟨hs, hm⟩

/-! ### The head-end routines (R112 to R142) -/

/-- Settles O41: each clause is the branch of its command whose condition the clause names. -/
theorem headScribeRoutinesComplete : Obligations.HeadScribeRoutinesComplete := by
  refine ⟨
    fun c _ hs ht => answers_of_guard (execSubframeTick c) rfl (fun _ => rfl) rfl (by simp [hs, ht]) rfl,
    fun c rs _ _ _ hw hs hr hm _ =>
      answers_of_guard (execDiscRx c rs) rfl (fun _ => rfl) hw (by simp [hs, hr, hm]) rfl,
    fun c loc r _ hw hs hr hm hst =>
      answers_of_guard (execRangeRx c loc r) rfl (fun _ => rfl) hw (by simp [hs, hr, hm, hst]) rfl,
    fun c loc _ hs hm ht _ =>
      answers_of_turn (execActivate c loc) rfl (fun _ => rfl) rfl (headScribe_and_mgmtRoom hs hm) ht rfl,
    fun c _ hs ht => answers_of_guard (execMsgRx c) rfl (fun _ => rfl) rfl (by simp [hs, ht]) rfl,
    fun c loc type _ hs hm hi hc ht =>
      answers_of_guard (execMsgRetry c loc type) rfl (fun _ => rfl) rfl (by simp [hs, hm, hi, hc, ht]) rfl,
    fun c loc _ _ _ hs hm hn =>
      answers_of_turn (execTrack c loc) rfl (fun _ => rfl) rfl (headScribe_and_mgmtRoom hs hm)
        (turn_of_nextTodo hn rfl) rfl,
    fun c loc _ hs ht => answers_of_turn (execLoss c loc) rfl (fun _ => rfl) rfl hs ht rfl,
    fun c loc _ hs ht => answers_of_turn (execGasp c loc) rfl (fun _ => rfl) rfl hs ht rfl,
    fun c f d hf hh hb => answers_of_run (execRecoveryEnd c) rfl (fun _ => rfl) rfl ?_,
    fun c loc _ hs hst => answers_of_guard (execHoldExpired c loc) rfl (fun _ => rfl) rfl (by simp [hs, hst]) rfl,
    fun c loc _ hs hm ht => answers_of_guard (execRogue c loc) rfl (fun _ => rfl) rfl (by simp [hs, hm, ht]) rfl,
    fun c _ hs hm hsl hn => answers_of_guard (execRecallStep c) rfl (fun _ => rfl) rfl (by simp [hs, hm, hsl, hn]) rfl,
    fun c loc _ _ _ _ hs hm hn =>
      answers_of_turn (execMoveSource c loc) rfl (fun _ => rfl) rfl (headScribe_and_mgmtRoom hs hm)
        (turn_of_nextTodo hn rfl) rfl,
    fun c loc m _ hb hh hst hmv ht =>
      answers_of_guard (execSideMoveEffective c loc) rfl (fun _ => rfl) rfl (by simp [hb, hh, hst, hmv, ht]) rfl,
    fun c loc _ _ hs hm hn =>
      answers_of_turn (execMoveTarget c loc) rfl (fun _ => rfl) rfl (headScribe_and_mgmtRoom hs hm)
        (turn_of_nextTodo hn rfl) rfl,
    fun c loc t _ hs hm hn ht =>
      answers_of_turn (execDoze c loc) rfl (fun _ => rfl) rfl (headScribe_and_mgmtRoom hs hm)
        (turn_of_nextTodo hn ?_) rfl,
    fun c loc r _ hw hs hm =>
      answers_of_run (execKeys c loc (some r)) rfl (fun _ => rfl) (beq_iff_eq.mpr hw)
        (if_pos (headScribe_and_mgmtRoom hs hm)),
    fun c loc _ hs hm ht =>
      answers_of_run (execKeys c loc none) rfl (fun _ => rfl) rfl
        ((if_pos (headScribe_and_mgmtRoom hs hm)).trans (if_pos ht)),
    fun c loc _ _ _ _ _ hs hm hn =>
      answers_of_turn (execAlarm c loc) rfl (fun _ => rfl) rfl (headScribe_and_mgmtRoom hs hm)
        (turn_of_nextTodo hn rfl) rfl,
    fun c loc _ _ _ _ _ hs hm hop hn =>
      answers_of_turn (execHostCmd c loc) rfl (fun _ => rfl) rfl (by simp [hs, hm])
        (turn_of_nextTodo hn (bne_iff_ne.mpr hop)) rfl,
    fun c _ hs ht => answers_of_turn (execTakeover c) rfl (fun _ => rfl) rfl hs ht rfl⟩
  · simp [hf, hh, hb]
  · obtain rfl | ⟨p, xid, rfl⟩ := ht <;> rfl

/-! ### Emulated terminals, their timers and the buckets (R111, R233 to R252, R619, R620) -/

/-- A write by the host acts where its writes reach the device (R39, R543). -/
theorem answers_of_hostW {i : Instr} (x : State → Res) {f : Dev → Dev} {d e : Dev} (hx : exec i = x)
    (hr : ∀ s, x s = run i s fun d => d.hostW f) (hw : i.wf = true) (ho : d.hostOpen = true) (he : f d = e) :
    Answers i d e :=
  answers_of_run x hx hr hw ((if_pos ho).trans he)

/-- What an emulated terminal has to send goes out where its channel runs in terminal role and transmit is not stopped
(R24, R25, R38). -/
theorem burstTx_answers {c : Ch} {t : Loc} {d e : Dev} (hb : d.booted = true) (hr : d.termRole c = true)
    (ha : (d.rx c).arrived.isSome = true) (hon : d.emuOn c t = true) (hq : d.arb.squelch = false)
    (hv : d.arb.vigilStage < 2) (ho : d.outOpen (c / 64) = true) (he : d.burstTx c t = e) :
    Answers (.burstTx c t) d e :=
  answers_of_guard (execBurstTx c t) rfl (fun _ => rfl) rfl (by simp [hb, hr, ha, hon, hq, hv, ho]) he

/-- In state 2 the ranging burst goes (R119). -/
theorem burstTx_ranging {d : Dev} {c t s a : Nat} (hst : d.emuSt c t = 2)
    (hs : (d.emu (128 * c + t)).rangeSub = some s) (ha : (d.emu (128 * c + t)).rangeAt = some a) :
    d.burstTx c t = d.sendRanging c t s a := by
  simp only [Dev.burstTx, hst, hs, ha]

/-- In state 4 the oldest granted burst goes (R240). -/
theorem burstTx_granted {d : Dev} {c t : Nat} {b : Burst} {r : List Burst} (hst : d.emuSt c t = 4)
    (hb : (d.emu (128 * c + t)).bursts = b :: r) : d.burstTx c t = d.sendGranted c t b := by
  simp only [Dev.burstTx, hst, hb]

/-- Settles O42: each clause is the branch of its command whose condition the clause names. -/
theorem terminalRoleComplete : Obligations.TerminalRoleComplete := by
  refine ⟨
    fun c t _ ho => answers_of_hostW (execEmuEnable c t) rfl (fun _ => rfl) rfl ho rfl,
    fun c t _ ho => answers_of_hostW (execEmuDisable c t) rfl (fun _ => rfl) rfl ho rfl,
    fun c t _ ho => answers_of_hostW (execEmuGasp c t) rfl (fun _ => rfl) rfl ho rfl,
    fun c t _ ho => answers_of_hostW (execEmuAlarm c t) rfl (fun _ => rfl) rfl ho rfl,
    fun c t _ ho => answers_of_hostW (execEmuDoze c t) rfl (fun _ => rfl) rfl ho rfl,
    fun c t f d hf hb => answers_of_run (execEmuGaspTimeout c t) rfl (fun _ => rfl) rfl ?_,
    fun c t f d hf hs ha h0 h1 h7 => answers_of_run (execEmuAlarmResend c t) rfl (fun _ => rfl) rfl ?_,
    fun c _ hb => answers_of_guard (execEmuCountApply c) rfl (fun _ => rfl) rfl hb rfl,
    fun b _ _ hb hm _ => answers_of_run (execBucketMove b) rfl (fun _ => rfl) rfl (if_pos ⟨hb, hm⟩),
    fun b h d hh hb hg => answers_of_run (execBucketHoldEnd b) rfl (fun _ => rfl) rfl ?_,
    fun c _ hs hi => answers_of_guard (execTermRx c) rfl (fun _ => rfl) rfl (by simp [hs, hi]) rfl,
    fun c _ hs ht => answers_of_guard (execTermTick c) rfl (fun _ => rfl) rfl (by simp [hs, ht]) rfl,
    fun c t _ hs hst hm ha =>
      answers_of_guard (execHoldoverExpired c t) rfl (fun _ => rfl) rfl (by simp [hs, hst, hm, ha]) rfl,
    fun c t _ hs hst => answers_of_guard (execRangeWaitExpired c t) rfl (fun _ => rfl) rfl (by simp [hs, hst]) rfl,
    fun c t f d hf hs => answers_of_run (execDeactivateTimeout c t) rfl (fun _ => rfl) rfl ?_,
    fun _ _ _ _ _ hb hr ha hon hq hv ho hst hs hat =>
      burstTx_answers hb hr ha hon hq hv ho (burstTx_ranging hst hs hat),
    fun _ _ _ _ _ hb hr ha hon hq hv ho hst hbs =>
      burstTx_answers hb hr ha hon hq hv ho (burstTx_granted hst hbs)⟩
  · simp only [hf, hb, if_true]
  · simp only [hf]
    exact if_pos (by simp [hs, ha, h0, h1, h7])
  · simp only [hh]
    exact if_pos (Bool.and_eq_true_iff.mpr ⟨hb, hg⟩)
  · simp only [hf, hs, if_true]

end Sys2Proof.Machine

/-!
PROOFS of the statements of 05_upstream_grants.md: the burst map entry (R168, R169), reads through indirect ports (R179, R228,
R315, R357, R432, R514), and the completion of the grant engine's commands (R154 to R165, R178, R179).
-/

namespace Sys2Proof

/-! ### CHECK of a map entry (R168) -/

theorem xorNibbles_lt (x n : Nat) : xorNibbles x n < 2 ^ 4 := by
  induction n generalizing x with
  | zero => exact Nat.two_pow_pos 4
  | succ n ih => exact Nat.xor_lt_two_pow (Nat.mod_lt _ (by decide)) (ih _)

theorem mapCheck_lt (e : Nat) : mapCheck e < 2 ^ 4 := xorNibbles_lt _ _

/-- CHECK leaves its own place out: it covers bits [63:4]. -/
theorem mapCheck_congr {a b : Nat} (h : a / 2 ^ 4 = b / 2 ^ 4) : mapCheck a = mapCheck b := by
  simp only [mapCheck, Nat.shiftRight_eq_div_pow, h]

end Sys2Proof

namespace Sys2Proof.Machine

open Sys2Proof

/-! ### Map entries (R168, R169) -/

/-- The fields of a map entry in their places, CHECK zero. -/
def mapFields (cont start len : Nat) (cold report ranging power last : Bool) (loc : Nat) : Nat :=
  cont * 2 ^ 48 + start * 2 ^ 32 + len % 65536 * 2 ^ 16 + b2n cold * 2 ^ 15 + b2n report * 2 ^ 14 + b2n ranging * 2 ^ 13 +
    b2n power * 2 ^ 12 + b2n last * 2 ^ 11 + loc * 2 ^ 4

theorem mapEntry_eq (cont start len : Nat) (cold report ranging power last : Bool) (loc : Nat) :
    mapEntry cont start len cold report ranging power last loc =
      mapFields cont start len cold report ranging power last loc +
        mapCheck (mapFields cont start len cold report ranging power last loc) := rfl

section
variable {cont start len loc : Nat} {cold report ranging power last : Bool}

/-- CHECK lies below the fields it covers. -/
theorem mapCheck_mapFields_add {c : Nat} (hc : c < 2 ^ 4) :
    mapCheck (mapFields cont start len cold report ranging power last loc + c) =
      mapCheck (mapFields cont start len cold report ranging power last loc) :=
  mapCheck_congr (by rw [mapFields]; omega)

variable (hcont : cont < 2 ^ 16) (hstart : start < 2 ^ 16) (hloc : loc < 2 ^ 7)
include hcont hstart hloc

theorem mapFields_add_lt {c : Nat} (hc : c < 2 ^ 4) :
    mapFields cont start len cold report ranging power last loc + c < 2 ^ 64 := by
  have hcold := b2n_le_one cold
  have hreport := b2n_le_one report
  have hranging := b2n_le_one ranging
  have hpower := b2n_le_one power
  have hlast := b2n_le_one last
  rw [mapFields]
  omega

/-- Each field reads back from its place, whatever stands in CHECK. -/
theorem bits_mapFields_add {c : Nat} (hc : c < 2 ^ 4) :
    let e := mapFields cont start len cold report ranging power last loc + c
    bits e 48 16 = cont ∧ bits e 32 16 = start ∧ bits e 16 16 = len % 2 ^ 16 ∧ bits e 15 1 = b2n cold ∧
      bits e 14 1 = b2n report ∧ bits e 13 1 = b2n ranging ∧ bits e 12 1 = b2n power ∧ bits e 11 1 = b2n last ∧
      bits e 4 7 = loc ∧ bits e 0 4 = c := by
  have hcold := b2n_le_one cold
  have hreport := b2n_le_one report
  have hranging := b2n_le_one ranging
  have hpower := b2n_le_one power
  have hlast := b2n_le_one last
  simp only [bits_eq_div_mod, mapFields]
  omega

theorem mapCheck_mapEntry :
    mapCheck (mapEntry cont start len cold report ranging power last loc) =
      bits (mapEntry cont start len cold report ranging power last loc) 0 4 := by
  have hc := mapCheck_lt (mapFields cont start len cold report ranging power last loc)
  obtain ⟨-, -, -, -, -, -, -, -, -, h0⟩ := bits_mapFields_add (len := len) (cold := cold) (report := report)
    (ranging := ranging) (power := power) (last := last) hcont hstart hloc hc
  rw [mapEntry_eq, mapCheck_mapFields_add hc, h0]

theorem mapEntry_fields :
    let e := mapEntry cont start len cold report ranging power last loc
    bits e 48 16 = cont ∧ bits e 32 16 = start ∧ bits e 16 16 = len % 2 ^ 16 ∧ bit e 15 = cold ∧ bit e 14 = report ∧
      bit e 13 = ranging ∧ bit e 12 = power ∧ bit e 11 = last ∧ bits e 4 7 = loc := by
  obtain ⟨h48, h32, h16, h15, h14, h13, h12, h11, h4, -⟩ := bits_mapFields_add (len := len) (cold := cold)
    (report := report) (ranging := ranging) (power := power) (last := last) hcont hstart hloc
    (mapCheck_lt (mapFields cont start len cold report ranging power last loc))
  rw [mapEntry_eq]
  exact ⟨h48, h32, h16, bit_eq_of_bits h15, bit_eq_of_bits h14, bit_eq_of_bits h13, bit_eq_of_bits h12,
    bit_eq_of_bits h11, h4⟩

/-- CHECK of an entry always holds, so the receiver's checks are those of its container and window flag (R169). -/
theorem entryGood_mapEntry :
    entryGood (mapEntry cont start len cold report ranging power last loc) =
      if cont = 0xFFFF then ranging && loc == 0
      else if cont = 0xFFFE then ranging
      else decide (cont ≤ 0x7FF) && !ranging && loc == bits cont 4 7 := by
  obtain ⟨h48, -, -, -, -, h13, -, -, h4⟩ := mapEntry_fields (len := len) (cold := cold) (report := report)
    (ranging := ranging) (power := power) (last := last) hcont hstart hloc
  have hcheck := mapCheck_mapEntry (len := len) (cold := cold) (report := report) (ranging := ranging) (power := power)
    (last := last) hcont hstart hloc
  simp only [entryGood, h48, h13, h4, hcheck, beq_self_eq_true, Bool.true_and]

end

/-- Settles O26: CHECK does not reach into the fields, nor the fields into one another. -/
theorem mapEntriesReadBack : Obligations.MapEntriesReadBack := by
  intro cont start len loc cold report ranging power last hcont hstart hloc
  refine ⟨⟨?_, mapCheck_mapEntry hcont hstart hloc, mapEntry_fields hcont hstart hloc⟩, fun hle hown => ?_, ?_, ?_⟩
  · rw [mapEntry_eq]
    exact mapFields_add_lt hcont hstart hloc (mapCheck_lt _)
  · rw [entryGood_mapEntry hcont hstart hloc, if_neg (by omega), if_neg (by omega), hown]
    simpa using hle
  · rw [entryGood_mapEntry (by decide) hstart (by decide)]
    rfl
  · rw [entryGood_mapEntry (by decide) hstart hloc]
    rfl

/-! ### What stays in a block of registers -/

/-- A register key at an address from `lo` to below `hi`. -/
abbrev inBlock (lo hi k : Nat) : Prop := lo * 64 ≤ k ∧ k < hi * 64

theorem Notes.onlyBlock {d e : Dev} (h : Notes d e) (lo hi : Nat) : Dev.onlyBlock lo hi d e :=
  ⟨h.same, fun k hk _ => h.regs k hk⟩

namespace Dev.onlyBlock

variable {lo hi : Nat} {d e : Dev}

theorem refl (d : Dev) : Dev.onlyBlock lo hi d d := (Notes.refl d).onlyBlock lo hi

/-- Both ways of an access stay in the block. -/
theorem ite {p : Prop} [Decidable p] {a b : Dev} (ha : Dev.onlyBlock lo hi d a) (hb : Dev.onlyBlock lo hi d b) :
    Dev.onlyBlock lo hi d (if p then a else b) := by
  split
  · exact ha
  · exact hb

variable (h : Dev.onlyBlock lo hi d e)
include h

theorem notes {b : Dev} (hn : Notes e b) : Dev.onlyBlock lo hi d b := by
  obtain ⟨hsame, hregs⟩ := h
  refine ⟨?_, fun k hk hout => (hn.regs k hk).trans (hregs k hk hout)⟩
  rw [hn.same, hsame]

/-- A register of the block may change. -/
theorem setReg {k v : Nat} (hk : inBlock lo hi k) : Dev.onlyBlock lo hi d { e with regs := Tbl.set e.regs k v } := by
  obtain ⟨hsame, hregs⟩ := h
  refine ⟨by rw [hsame], fun j hj hout => ?_⟩
  have hne : j ≠ k := by
    obtain ⟨hlo, hhi⟩ := hk
    omega
  exact (Tbl.find?_set_other _ _ hne).trans (hregs j hj hout)

theorem set {f : Fld} {i j : Nat} (v : Nat) (hk : inBlock lo hi (f.key i j)) :
    Dev.onlyBlock lo hi d (e.set f v i j) :=
  (h.setReg hk).notes (set_notes ..)

theorem bumpAt {a : Nat} (inst n : Nat) (hk : inBlock lo hi (a * 64)) : Dev.onlyBlock lo hi d (e.bumpAt a inst n) := by
  have hn := bumpAt_notes e a inst n
  split at hn
  · exact h.notes hn
  · exact (h.setReg hk).notes hn

/-- An access of a port starts with three fields of its control register. -/
theorem setControl {f g k : Fld} (a b c : Nat)
    (hk : inBlock lo hi (f.key 0 0) ∧ inBlock lo hi (g.key 0 0) ∧ inBlock lo hi (k.key 0 0)) :
    Dev.onlyBlock lo hi d (((e.set f a).set g b).set k c) := by
  obtain ⟨hf, hg, hk⟩ := hk
  exact ((h.set a hf).set b hg).set c hk

/-- A flag stays in the block with its bit and, where it raises it, its companion count (R13). -/
theorem flag {f : Fld} {i j : Nat} {cnt : Bool} (hk : inBlock lo hi (f.key i j))
    (hc : (cnt && f.cntAddr != 0) = true → inBlock lo hi ((f.cntAddr + i * f.cntStride) * 64)) :
    Dev.onlyBlock lo hi d (e.flag f i j cnt) := by
  have hbit : Dev.onlyBlock lo hi d
      (Dev.pmuEdge { e with regs := Tbl.set e.regs (f.key i j) 1 } (f.addr + i * f.s1 + j * f.s2) f.lo 1 0 1) :=
    (h.setReg hk).notes (notes_pmuEdge ..)
  unfold Dev.flag
  refine notes ?_ (notes_post ..)
  split
  next hcnt => exact hbit.bumpAt _ _ (hc hcnt)
  next => exact hbit

/-- A port shows a record in the data words of its own block. -/
theorem showData {f : Fld} {n : Nat} (r : Nat) (hk : ∀ i < n, inBlock lo hi (f.key i 0)) :
    Dev.onlyBlock lo hi d (e.showData f n r) := by
  induction n with
  | zero => exact h
  | succ n ih =>
    have hlast : e.showData f (n + 1) r = (e.showData f n r).set f (bits r (64 * n) 64) n := by
      simp only [Dev.showData, foldUpTo, List.range_succ, List.foldl_append, List.foldl_cons, List.foldl_nil]
    rw [hlast]
    exact (ih fun i hlt => hk i (Nat.lt_succ_of_lt hlt)).set _ (hk n (Nat.lt_succ_self n))

end Dev.onlyBlock

/-- An access of the host whose effect stays in a block completes with that effect (R39, R543). -/
theorem answers_onlyBlock {i : Instr} (x : State → Res) {f : Dev → Dev} {lo hi : Nat} {d : Dev} (hx : exec i = x)
    (hr : ∀ s, x s = run i s fun d => d.hostW f) (hw : i.wf = true) (ho : d.hostOpen = true)
    (hb : Dev.onlyBlock lo hi d (f d)) : ∃ e, Answers i d e ∧ Dev.onlyBlock lo hi d e :=
  ⟨f d, answers_of_hostW x hx hr hw ho rfl, hb⟩

/-! ### Reads through the indirect ports (R179, R228, R291, R315, R357, R432, R514) -/

/-- The grant port's fields as an access leaves them (R179). -/
def Dev.gntCtl (d : Dev) (table index : Nat) (write : Bool) : Dev :=
  ((d.set F.GNT_IND_CTL_INDEX index).set F.GNT_IND_CTL_TABLE table).set F.GNT_IND_CTL_WRITE (b2n write)

/-- A read of the grant port shows a record, or is refused where the port has no such table (R179). -/
theorem gntAccess_read (d : Dev) (table index : Nat) : d.gntAccess table index false =
    if d.on F.GNT_IND_CTL_BUSY then d
    else if 2 ≤ table then (d.gntCtl table index false).gntRefuse index
    else (d.gntCtl table index false).showData F.GNT_IND_DATA_DATA 4
      (if table = 0 then Tbl.get 0 (d.gntCtl table index false).gnt.cfg index
       else Tbl.get 0 (d.gntCtl table index false).gnt.shown index) := rfl

/-- A write of the grant port is taken where its table is the configuration and its record passes, and refused elsewhere
(R179). -/
theorem gntAccess_write (d : Dev) (table index : Nat) : d.gntAccess table index true =
    if d.on F.GNT_IND_CTL_BUSY then d
    else
      let e := d.gntCtl table index true
      let r := e.readData F.GNT_IND_DATA_DATA 4 &&& contMask
      if table = 0 ∧ e.contOk index r then e.writeCont index r else e.gntRefuse index := rfl

section
variable (d : Dev)

/-- A refused access of the grant port shows in the channel of its slot (R179). -/
theorem gntRefuse_onlyBlock {d e : Dev} {index : Nat} (h : Dev.onlyBlock 0xD00000 0xE00000 d e) (hi : index < 65536) :
    Dev.onlyBlock 0xD00000 0xE00000 d (e.gntRefuse index) := by
  have hflag : inBlock 0xD00000 0xE00000 (F.GNT_CHSTAT_REFUSED.key (index / 512) 0) := by
    simp only [Fld.key, F.GNT_CHSTAT_REFUSED]
    omega
  have hcount : inBlock 0xD00000 0xE00000
      ((F.GNT_CHSTAT_REFUSED.cntAddr + index / 512 * F.GNT_CHSTAT_REFUSED.cntStride) * 64) := by
    simp only [F.GNT_CHSTAT_REFUSED]
    omega
  exact (h.flag hflag fun _ => hcount).flag (by decide) (by decide)

theorem gntAccess_read_onlyBlock (table : Nat) {index : Nat} (hi : index < 65536) :
    Dev.onlyBlock 0xD00000 0xE00000 d (d.gntAccess table index false) := by
  have hctl : Dev.onlyBlock 0xD00000 0xE00000 d (d.gntCtl table index false) :=
    (Dev.onlyBlock.refl d).setControl _ _ _ (by decide)
  rw [gntAccess_read]
  exact .ite (.refl d) (.ite (gntRefuse_onlyBlock hctl hi) (hctl.showData _ (by decide)))

/-- A read past the end of a table is refused in the count of channel 0 (R228). -/
theorem tmgRefuse_onlyBlock {d e : Dev} {table index : Nat} (h : Dev.onlyBlock 0x1000000 0x1400000 d e)
    (hsize : tmgSize table ≤ index) : Dev.onlyBlock 0x1000000 0x1400000 d (e.tmgRefuse table index) := by
  rw [Dev.tmgRefuse, Dev.tmgCh, if_pos hsize]
  exact (h.flag (by decide) (by decide)).flag (by decide) (by decide)

theorem tmgAccess_read_onlyBlock (table index : Nat) :
    Dev.onlyBlock 0x1000000 0x1400000 d (d.tmgAccess table index false) := by
  unfold Dev.tmgAccess
  simp only [Bool.false_eq_true, if_false]
  have hctl : Dev.onlyBlock 0x1000000 0x1400000 d
      (((d.set F.TMG_IND_CTL_INDEX index).set F.TMG_IND_CTL_TABLE table).set F.TMG_IND_CTL_WRITE (b2n false)) :=
    (Dev.onlyBlock.refl d).setControl _ _ _ (by decide)
  refine .ite (.refl d) ?_
  split
  next hsize => exact tmgRefuse_onlyBlock hctl hsize
  next => exact hctl.showData _ (by decide)

theorem parAccess_read_onlyBlock (index table : Nat) :
    Dev.onlyBlock 0x1400000 0x1500000 d (d.parAccess index table false) := by
  unfold Dev.parAccess
  simp only [Bool.false_eq_true, if_false]
  have hctl : Dev.onlyBlock 0x1400000 0x1500000 d
      (((d.set F.PAR_IND_CTL_INDEX index).set F.PAR_IND_CTL_TABLE table).set F.PAR_IND_CTL_WRITE (b2n false)) :=
    (Dev.onlyBlock.refl d).setControl _ _ _ (by decide)
  exact .ite (.refl d) (.ite
    (((hctl.bumpAt _ _ (by decide)).flag (by decide) (by decide)).flag (by decide) (by decide))
    (hctl.showData _ (by decide)))

theorem bufAccess_read_onlyBlock (index table : Nat) :
    Dev.onlyBlock 0x1800000 0x1900000 d (d.bufAccess index table false) := by
  unfold Dev.bufAccess
  simp only [Bool.false_eq_true, if_false]
  have hctl : Dev.onlyBlock 0x1800000 0x1900000 d
      (((d.set F.BUF_IND_CTL_INDEX index).set F.BUF_IND_CTL_TABLE table).set F.BUF_IND_CTL_WRITE (b2n false)) :=
    (Dev.onlyBlock.refl d).setControl _ _ _ (by decide)
  exact .ite (.refl d) (.ite ((hctl.flag (by decide) (by decide)).flag (by decide) (by decide))
    (hctl.showData _ (by decide)))

theorem scrRead_onlyBlock (index table : Nat) : Dev.onlyBlock 0x1E00000 0x2000000 d (d.scrRead index table) := by
  have hctl : Dev.onlyBlock 0x1E00000 0x2000000 d ((d.set F.SCR_IND_CTL_INDEX index).set F.SCR_IND_CTL_TABLE table) :=
    ((Dev.onlyBlock.refl d).set _ (by decide)).set _ (by decide)
  exact .ite (.refl d) (.ite (hctl.flag (by decide) (by decide)) (hctl.showData _ (by decide)))

/-- A refused access of the preset port shows in the lane of its channel (R291). -/
theorem presetRefuse_onlyBlock {d e : Dev} {c : Nat} (h : Dev.onlyBlock 0x100000 0x400000 d e) (hc : c < 128) :
    Dev.onlyBlock 0x100000 0x400000 d ((e.flag F.SLN_STAT_REFUSED c).flag F.SLN_PRE_CTL_REFUSED 0 0 false) := by
  have hflag : inBlock 0x100000 0x400000 (F.SLN_STAT_REFUSED.key c 0) := by
    simp only [Fld.key, F.SLN_STAT_REFUSED]
    omega
  have hcount : inBlock 0x100000 0x400000 ((F.SLN_STAT_REFUSED.cntAddr + c * F.SLN_STAT_REFUSED.cntStride) * 64) := by
    simp only [F.SLN_STAT_REFUSED]
    omega
  exact (h.flag hflag fun _ => hcount).flag (by decide) (by decide)

theorem presetAccess_read_onlyBlock {index : Nat} (dflt : Bool) (hi : index < 16384) :
    Dev.onlyBlock 0x100000 0x400000 d (d.presetAccess index dflt 0) := by
  have hctl : Dev.onlyBlock 0x100000 0x400000 d
      (((d.set F.SLN_PRE_CTL_INDEX index).set F.SLN_PRE_CTL_DEFAULT (b2n dflt)).set F.SLN_PRE_CTL_OP 0) :=
    (Dev.onlyBlock.refl d).setControl _ _ _ (by decide)
  have hchannel : (if dflt then index % 128 else index / 128) < 128 := by
    split <;> omega
  exact .ite (.refl d) (.ite (presetRefuse_onlyBlock hctl hchannel)
    (((hctl.showData _ (by decide)).set _ (by decide)).set _ (by decide)))

theorem showSlot_onlyBlock {d e : Dev} (index : Nat) (h : Dev.onlyBlock 0x1C00000 0x1E00000 d e) :
    Dev.onlyBlock 0x1C00000 0x1E00000 d (e.showSlot index) :=
  ((((h.set _ (by decide)).set _ (by decide)).set _ (by decide)).set _ (by decide)).set _ (by decide)

theorem keyAccess_read_onlyBlock (index : Nat) : Dev.onlyBlock 0x1C00000 0x1E00000 d (d.keyAccess index 0) := by
  have hctl : Dev.onlyBlock 0x1C00000 0x1E00000 d ((d.set F.CRY_KEY_CTL_INDEX index).set F.CRY_KEY_CTL_OP 0) :=
    ((Dev.onlyBlock.refl d).set _ (by decide)).set _ (by decide)
  exact .ite (.refl d) (.ite ((hctl.flag (by decide) (by decide)).flag (by decide) (by decide))
    (showSlot_onlyBlock index hctl))

end

/-- Settles O30: what each port writes, shows or flags lies in its own block. -/
theorem indirectReadsStayInTheirBlock : Obligations.IndirectReadsStayInTheirBlock := fun d ho =>
  ⟨fun t i => answers_onlyBlock (execGntIndRead t i) rfl (fun _ => rfl) rfl ho (gntAccess_read_onlyBlock d t i.isLt),
    fun t i => answers_onlyBlock (execTmgIndRead t i) rfl (fun _ => rfl) rfl ho (tmgAccess_read_onlyBlock d t i),
    fun t i => answers_onlyBlock (execParIndRead t i) rfl (fun _ => rfl) rfl ho (parAccess_read_onlyBlock d i t),
    fun t i => answers_onlyBlock (execBufIndRead t i) rfl (fun _ => rfl) rfl ho (bufAccess_read_onlyBlock d i t),
    fun i t => answers_onlyBlock (execScrIndRead i t) rfl (fun _ => rfl) rfl ho (scrRead_onlyBlock d i t),
    fun i b => answers_onlyBlock (execPresetRead i b) rfl (fun _ => rfl) rfl ho (presetAccess_read_onlyBlock d b i.isLt),
    fun i => answers_onlyBlock (execKeyStatusRead i) rfl (fun _ => rfl) rfl ho (keyAccess_read_onlyBlock d i)⟩

/-! ### The grant engine's commands (R154 to R165, R178, R179) -/

/-- The oldest report of the channel is the one processed (R157). -/
theorem reportProcess_cons {d : Dev} {c : Nat} {p : Report} {r : List Report} (h : Tbl.get [] d.gnt.reports c = p :: r) :
    d.reportProcess c =
      (let e := { d with gnt := { d.gnt with reports := Tbl.set d.gnt.reports c r } }.bump F.GNT_CNT_COUNT c 15
      (List.range 4).foldl (Dev.reportSlot c p) (e.landGrants c p.loc p.sub)) := by
  simp only [Dev.reportProcess, h]

/-- Settles O43: each clause is the branch of its command whose condition the clause names. -/
theorem grantCommandsComplete : Obligations.GrantCommandsComplete := by
  refine ⟨fun c _ hb => answers_of_guard (execSnapshot c) rfl (fun _ => rfl) rfl hb rfl,
    fun c _ _ _ h => answers_of_run (execReportProcess c) rfl (fun _ => rfl) rfl (reportProcess_cons h),
    fun t i d ho hbusy ht => answers_of_hostW (execGntIndRead t i) rfl (fun _ => rfl) rfl ho ?_,
    fun t i d ho hbusy ht => answers_of_hostW (execGntIndWrite t i) rfl (fun _ => rfl) rfl ho ?_⟩
  · rw [gntAccess_read, if_neg (by simp [hbusy]), if_neg (Nat.not_le.mpr ht)]
    rfl
  · rw [gntAccess_write, if_neg (by simp [hbusy])]
    exact if_congr (and_iff_right ht) rfl rfl

end Sys2Proof.Machine

/-!
PROOFS of the statements of 06_timed_circuits.md: the completion of the commands of circuit frames and regions (R186 to R197).
-/

namespace Sys2Proof.Machine

open Sys2Proof

/-! ### Circuit frames and regions (R186, R191, R195, R197) -/

/-- The frame at the front is the one in hand; taking it off leaves the parser's configuration, which says where its body
begins, as it was (R197). -/
theorem takeCircuitFrame_cons {d : Dev} {k : Nat} {l : List Byte} {r : List (Nat × List Byte)} (h : d.cirIn = (k, l) :: r) :
    d.takeCircuitFrame =
      { d with cirIn := r }.circuitFrame (l.drop (bodyAt ({ d with cirIn := r }.parCfg 0) l 12 4)) := by
  have hcfg : { d with cirIn := r }.parCfg 0 = d.parCfg 0 := rfl
  rw [Dev.takeCircuitFrame, h, hcfg]

/-- The head end plays out the region filed for the subframe that is next, and waits for the one after it (R191, R195). -/
theorem headRegion_filed {d : Dev} {i t : Nat} {e : Nat × List Blk} (hn : (d.cir i).nextSub = some t)
    (hf : ((d.cir i).filed.find? fun f => f.1 == t) = some e) :
    d.headRegion i =
      (let d' := d.setCir i { d.cir i with filed := (d.cir i).filed.filter (fun f => f.1 != t), nextSub := some (t + 1) }
      d'.rxRegion 1 i t (d'.sourceAt (i / 8) t) (d'.cirOwner i) e.2) := by
  simp only [Dev.headRegion, hn, hf]

/-- Settles O50: each clause is the branch of its command whose condition the clause names. -/
theorem circuitCommandsComplete : Obligations.CircuitCommandsComplete := by
  refine ⟨fun _ _ _ _ hc => answers_of_run execCircuitFrameRx rfl (fun _ => rfl) rfl (takeCircuitFrame_cons hc),
    fun i _ ht => answers_of_run (execCircuitRegionRx i) rfl (fun _ => rfl) rfl (if_pos ht),
    fun i t e d ht hh hu hn hf => answers_of_run (execCircuitRegionRx i) rfl (fun _ => rfl) rfl ?_,
    fun i _ _ hh hu _ _ => answers_of_run (execRegionMiss i) rfl (fun _ => rfl) rfl (if_pos ⟨hh, hu⟩)⟩
  rw [if_neg (by simp [ht]), if_pos ⟨hh, hu⟩, headRegion_filed hn hf]

end Sys2Proof.Machine

/-!
PROOFS of the statements of 07_traffic_management.md: the completion of the traffic manager's commands (R208 to R232).
-/

namespace Sys2Proof.Machine

open Sys2Proof

/-! ### The scheduler, its shapers and queues (R211, R214, R218) -/

/-- A channel that schedules, has room for a selection and whose shaper lets it send takes the management message that
waits longest, before any queue (R208, R211, R214). -/
theorem select_mgmt {d : Dev} {c : Nat} {m : MgmtMsg} {r : List MgmtMsg} (hs : d.schedules c = true)
    (hroom : (Tbl.get [] d.tm.ahead c).length < 2)
    (hcredit : d.use F.TMG_CHCFG_CH_RATE c = 0 ∨ 0 ≤ Tbl.get 0 d.tm.chCredit c) (hm : Tbl.get [] d.tm.mgmt c = m :: r) :
    d.select c =
      (let e := { d with tm := { d.tm with mgmt := Tbl.set d.tm.mgmt c r } }.set F.TMG_CHSTAT_MGMT_DEPTH r.length c
      (e.keepSel c (.mgmt m)).bump F.TMG_CHCNT_COUNT c 2) := by
  have hruns : ¬(d.schedules c = false ∨ 2 ≤ (Tbl.get [] d.tm.ahead c).length) := by simp [hs, hroom]
  have hsends : ¬(d.use F.TMG_CHCFG_CH_RATE c ≠ 0 ∧ Tbl.get 0 d.tm.chCredit c < 0) := by omega
  simp only [Dev.select, if_neg hruns, if_neg hsends, hm]

/-- A queue whose record waits takes its new parent at the frame boundary, and leaves its share where the parent is another
(R218). -/
theorem reparent_waiting {d : Dev} {q old : Nat} (h : Tbl.find? d.tm.qold q = some old) :
    d.reparent q =
      (let new := Tbl.get 0 d.tm.qcfg q
      let e := d.toFrame
      let now := setRec old 0 4 (recBytes new 0 4)
      let moved := decide (recBytes old 0 4 ≠ recBytes new 0 4)
      let e : Dev := { e with tm := { e.tm with
        qold := if now = new then Tbl.erase e.tm.qold q else Tbl.set e.tm.qold q now } }
      if moved then e.leaveShare q else e) := by
  simp only [Dev.reparent, h]

/-! ### The indirect port (R228 to R232) -/

/-- A read of the traffic-management port that is not busy shows a record of the table (R228). -/
theorem tmgAccess_read {d : Dev} {table index : Nat} (hbusy : d.on F.TMG_IND_CTL_BUSY = false)
    (hsize : index < tmgSize table) :
    d.tmgAccess table index false =
      (let e := ((d.set F.TMG_IND_CTL_INDEX index).set F.TMG_IND_CTL_TABLE table).set F.TMG_IND_CTL_WRITE 0
      e.showData F.TMG_IND_DATA_DATA 4 (e.tmgRec table index)) := by
  rw [Dev.tmgAccess, if_neg (by simp [hbusy])]
  exact if_neg (Nat.not_le.mpr hsize)

/-- A write of the traffic-management port that is not busy stores a record that the table takes, and is refused elsewhere
(R228). -/
theorem tmgAccess_write {d : Dev} {table index : Nat} (hbusy : d.on F.TMG_IND_CTL_BUSY = false) :
    d.tmgAccess table index true =
      (let e := ((d.set F.TMG_IND_CTL_INDEX index).set F.TMG_IND_CTL_TABLE table).set F.TMG_IND_CTL_WRITE 1
      let r := e.readData F.TMG_IND_DATA_DATA 4 &&& tmgMask table
      if tmgOk table index r then e.tmgWrite table index r else e.tmgRefuse table index) := by
  rw [Dev.tmgAccess, if_neg (by simp [hbusy])]
  rfl

/-- Settles O45: each clause is the branch of its command whose condition the clause names. -/
theorem trafficCommandsComplete : Obligations.TrafficCommandsComplete :=
  ⟨fun c _ _ _ hs hroom hcredit hm =>
      answers_of_run (execSchedulerSelect c) rfl (fun _ => rfl) rfl (select_mgmt hs hroom hcredit hm),
    fun _ => answers_of_run execRefill rfl (fun _ => rfl) rfl rfl,
    fun _ => answers_of_run execMeterSweep rfl (fun _ => rfl) rfl rfl,
    fun q _ _ hold => answers_of_run (execQueueReparent q) rfl (fun _ => rfl) rfl (reparent_waiting hold),
    fun t i _ ho hbusy hsize => answers_of_hostW (execTmgIndRead t i) rfl (fun _ => rfl) rfl ho (tmgAccess_read hbusy hsize),
    fun t i _ ho hbusy => answers_of_hostW (execTmgIndWrite t i) rfl (fun _ => rfl) rfl ho (tmgAccess_write hbusy)⟩

end Sys2Proof.Machine

/-!
PROOFS of the statements of 09_serial_lanes.md: the completion of the lane commands (R260 to R291).
-/

namespace Sys2Proof.Machine

open Sys2Proof

/-! ### Retraining (R270) -/

/-- The windows of a continuous receiver pass, and the last RETRAIN_WIN of them decide (R270). -/
theorem retrainBy_windows {d : Dev} {n : Nat} (ws : List RxVals) (hc : d.continuousRx n = true) :
    d.retrainBy n false ws =
      (let e := ws.foldl (Dev.rxWindow n) d
      let w := e.use F.SLN_RXCFG_RETRAIN_WIN n
      let l := (Tbl.get [] e.lanes.foms n).take w
      if l.length = w ∧ l.all (fun f => decide (f < e.use F.SLN_RXCFG_FOM_RETRAIN n)) = true then e.retrain n else e) :=
  if_pos hc

/-! ### The preset port (R276, R291) -/

/-- The device once an access of the preset port has stored its operands. -/
def Dev.presetCtl (d : Dev) (index : Nat) (dflt : Bool) (op : Nat) : Dev :=
  ((d.set F.SLN_PRE_CTL_INDEX index).set F.SLN_PRE_CTL_DEFAULT (b2n dflt)).set F.SLN_PRE_CTL_OP op

section
variable {d : Dev} {index k : Nat} {dflt : Bool} (hbusy : d.on F.SLN_PRE_CTL_BUSY = false)
  (hk : k = if dflt then index % 128 else index / 128)
include hbusy hk

/-- A read of the preset port that is not busy shows a preset of a channel in head role. -/
theorem presetAccess_read (hhead : (d.presetCtl index dflt 0).termRole k = false) :
    d.presetAccess index dflt 0 =
      (let i := if dflt then 16384 + k else index
      let e := d.presetCtl index dflt 0
      let f := e.showData F.SLN_PRE_DATA_DATA 2 (e.preset i).value
      (f.set F.SLN_PRE_CTL_STATE (f.preset i).state).set F.SLN_PRE_CTL_AGE (f.presetAge i)) := by
  subst hk
  rw [Dev.presetAccess, if_neg (by simp [hbusy])]
  exact if_neg (by simpa [Dev.presetCtl] using hhead)

/-- A write of the preset port that is not busy stores a good preset of a channel in head role. -/
theorem presetAccess_write (hhead : (d.presetCtl index dflt 1).termRole k = false)
    (hok : presetOk ((d.presetCtl index dflt 1).readData F.SLN_PRE_DATA_DATA 2) = true) :
    d.presetAccess index dflt 1 =
      (let i := if dflt then 16384 + k else index
      let e := d.presetCtl index dflt 1
      (e.setPreset i { value := e.readData F.SLN_PRE_DATA_DATA 2, state := 1, since := e.frameNow }).overBurst i) := by
  subst hk
  rw [Dev.presetAccess, if_neg (by simp [hbusy])]
  exact if_neg (by simpa [Dev.presetCtl] using ⟨hhead, hok⟩)

/-- An erase by the preset port that is not busy empties a preset, not a default one, of a channel in head role. -/
theorem presetAccess_erase (hhead : (d.presetCtl index dflt 2).termRole k = false) (hdflt : dflt = false) :
    d.presetAccess index dflt 2 =
      (let i := if dflt then 16384 + k else index
      let e := d.presetCtl index dflt 2
      (e.setPreset i { value := 0, state := 0, since := e.frameNow }).overBurst i) := by
  subst hk
  rw [Dev.presetAccess, if_neg (by simp [hbusy])]
  exact if_neg (by simpa [Dev.presetCtl, hdflt] using hhead)

end

/-- Settles O51: each clause is the branch of its command whose condition the clause names. -/
theorem laneCommandsComplete : Obligations.LaneCommandsComplete := by
  refine ⟨
    fun n _ ho _ _ => answers_of_hostW (execLaneEnable n) rfl (fun _ => rfl) rfl ho rfl,
    fun n _ ho _ => answers_of_hostW (execLaneDisable n) rfl (fun _ => rfl) rfl ho rfl,
    fun n _ hd => answers_of_run (execLaneOffReached n) rfl (fun _ => rfl) rfl (if_pos hd),
    fun n _ hs hd => answers_of_run (execLanePowerupDone n) rfl (fun _ => rfl) rfl (if_pos ⟨hs, hd⟩),
    fun n _ hs hd hb =>
      answers_of_run (execLaneCalDone n) rfl (fun _ => rfl) rfl ((if_pos ⟨hs, hd⟩).trans (if_pos hb)),
    fun n _ hs hd hb =>
      answers_of_run (execLaneCalDone n) rfl (fun _ => rfl) rfl ((if_pos ⟨hs, hd⟩).trans (if_neg (by simp [hb]))),
    fun n v _ hv _ _ _ => answers_of_run (execLaneLock n v) rfl (fun _ => rfl) hv rfl,
    fun n _ hs hsig hd => answers_of_run (execLaneFault n) rfl (fun _ => rfl) rfl (if_pos ⟨hs, hsig, hd⟩),
    fun n _ hs hd => answers_of_run (execFaultRetry n) rfl (fun _ => rfl) rfl (if_pos ⟨hs, hd⟩),
    fun n _ hc => answers_of_guard (execLos n) rfl (fun _ => rfl) rfl hc rfl,
    fun n _ hc hsig => answers_of_guard (execSignalReturns n) rfl (fun _ => rfl) rfl (by simp [hc, hsig]) rfl,
    fun n _ hc hl => answers_of_guard (execCdrLockLost n) rfl (fun _ => rfl) rfl (by simp [hc, hl]) rfl,
    fun n ws _ hw ho _ _ => answers_of_hostW (execRetrain n true ws) rfl (fun _ => rfl) hw ho rfl,
    fun n ws e l d hw hc he hl => ?_,
    fun n _ ho _ _ => answers_of_hostW (execInjOne n) rfl (fun _ => rfl) rfl ho rfl,
    fun n _ hm hi => answers_of_run (execRateInjection n) rfl (fun _ => rfl) rfl (if_pos ⟨hm, hi⟩),
    fun n _ hc hp => answers_of_guard (execPatSyncSet n) rfl (fun _ => rfl) rfl (by simp [hc, hp]) rfl,
    fun n nbits errs _ hc hp =>
      answers_of_guard (execPatSyncCleared n nbits errs) rfl (fun _ => rfl) rfl (by simp [hc, hp]) rfl,
    fun index dflt e k i d ho hbusy he hk hi hhead => ?_,
    fun index dflt e k i d ho hbusy he hk hi hhead hok => ?_,
    fun index dflt e k i d ho hbusy he hk hi hhead hdflt => ?_⟩
  · subst he hl
    exact answers_of_run (execRetrain n false ws) rfl (fun _ => rfl) hw (retrainBy_windows ws hc)
  · subst he hi
    exact answers_of_hostW (execPresetRead index dflt) rfl (fun _ => rfl) rfl ho (presetAccess_read hbusy hk hhead)
  · subst he hi
    exact answers_of_hostW (execPresetWrite index dflt) rfl (fun _ => rfl) rfl ho
      (presetAccess_write hbusy hk hhead hok)
  · subst he hi
    exact answers_of_hostW (execPresetErase index dflt) rfl (fun _ => rfl) rfl ho
      (presetAccess_erase hbusy hk hhead hdflt)

end Sys2Proof.Machine

/-!
PROOFS of the statements of 10_parsing_classification.md: the completion of the parsing, learning and forwarding commands
(R292 to R340).
-/

namespace Sys2Proof.Machine

open Sys2Proof

/-! ### Pipelines and learning (R292, R316, R325, R326) -/

/-- A pipeline takes the packet that waits first, counts its load, and lets its buffers go (R525). -/
theorem pipeNext_cons {d : Dev} {pipe : Nat} {p : InPkt} {r : List InPkt} (h : Tbl.get [] d.fab.inq pipe = p :: r) :
    d.pipeNext pipe =
      (let n := Tbl.get 0 d.fab.load (2 * pipe) + 8 * p.bytes.length
      let t := Tbl.set (Tbl.set d.fab.load (2 * pipe) n) (2 * pipe + 1) (Tbl.get 0 d.fab.load (2 * pipe + 1) + 1)
      let e := { d with fab := { d.fab with inq := Tbl.set d.fab.inq pipe r, load := t } }
      p.bufs.foldl Dev.release1 (if lateKnown d.clk.cyc p.fails then e else e.pipeline pipe p)) := by
  simp only [Dev.pipeNext, h]

/-- The first request in a pipeline's pending filter sets the instant, and every request as old as that goes with it
(R325). -/
theorem pendingFilterTimeout_answers {pipe : Pipe} {e : Nat × Nat} {r : List (Nat × Nat)} {d : Dev}
    (h : Tbl.get [] d.fwd.filter pipe = e :: r) :
    Answers (.pendingFilterTimeout pipe) d
      (let d := d.reach (e.2 + 15000)
      let l := (Tbl.get [] d.fwd.filter pipe).filter fun x => decide (d.clk.cyc < x.2 + 15000)
      { d with fwd := { d.fwd with filter := Tbl.set d.fwd.filter pipe l } }) := by
  refine answers_of_run (execPendingFilterTimeout pipe) rfl (fun _ => rfl) rfl ?_
  simp only [h]

/-! ### The flush register (R338) -/

/-- The dynamic entries that a flush of `scope` names go: those of a bridge domain, a service or a terminal, or all. -/
def Dev.dropScope (d : Dev) (scope id : Nat) : Dev :=
  match scope with
  | 0 => d.dropBd id
  | 1 => d.dropSvc id
  | 2 => d.dropTerm id
  | _ => d.dropBridges fun _ => true

/-- The identity of a flush is legal where the scope is one of bridge domains or terminals and there are so many of them,
and always elsewhere. -/
theorem flushBeyond_eq_false_iff {id scope : Nat} : flushBeyond id scope = false ↔ (scope % 2 = 0 → id < 16384) := by
  simp [flushBeyond]

/-- A flush of a legal identity runs at once where none is under way. -/
theorem fwdFlush_legal {d : Dev} {id scope : Nat} (hbusy : d.on F.FWD_FLUSH_BUSY = false)
    (hid : scope % 2 = 0 → id < 16384) :
    d.fwdFlush id scope = ((d.set F.FWD_FLUSH_ID id).set F.FWD_FLUSH_SCOPE scope).dropScope scope id :=
  if_neg (by simp [hbusy, flushBeyond_eq_false_iff.mpr hid])

/-- The host's flush of a legal identity drops what its scope names. -/
theorem fwdFlush_answers {id : Fin (2 ^ 17)} {scope : Fin 4} {d : Dev} (ho : d.hostOpen = true)
    (hbusy : d.on F.FWD_FLUSH_BUSY = false) (hid : scope.val % 2 = 0 → id.val < 16384) :
    Answers (.fwdFlush id scope) d (((d.set F.FWD_FLUSH_ID id).set F.FWD_FLUSH_SCOPE scope).dropScope scope id) :=
  answers_of_hostW (execFwdFlush id scope) rfl (fun _ => rfl) rfl ho (fwdFlush_legal hbusy hid)

/-! ### Prefix memory and the forwarding port (R334, R340) -/

/-- The last write of an insertion under way places its prefix, and the port is free again (R334). -/
theorem prefixDone_some {d : Dev} {i r : Nat} (h : d.fwd.insert = some (i, r)) :
    d.prefixDone = ((({ d with fwd := { d.fwd with insert := none } }.setPrefix i (some r)).set
      F.FWD_IND_CTL_BUSY 0).set F.FWD_IND_CTL_GO 0) := by
  simp only [Dev.prefixDone, h]

/-- An access of the forwarding port that is not busy stores its operands, and removes, writes or reads as they say
(R340). -/
theorem fwdAccess_idle {d : Dev} {index table : Nat} {write remove : Bool} (hbusy : d.on F.FWD_IND_CTL_BUSY = false) :
    d.fwdAccess index table write remove =
      (let e := d.fwdCtl index table write remove
      if write && remove then e.fwdRemove table index
      else if write then e.fwdWrite table index else e.fwdRead table index) :=
  if_neg (by simp [hbusy])

/-- Settles O44: each clause is the branch of its command whose condition the clause names. -/
theorem forwardingCommandsComplete : Obligations.ForwardingCommandsComplete :=
  ⟨fun pipe _ _ _ hq => answers_of_run (execPipelinePacket pipe) rfl (fun _ => rfl) rfl (pipeNext_cons hq),
    fun _ _ _ _ => answers_of_run execLearnApply rfl (fun _ => rfl) rfl rfl,
    fun _ _ _ _ hf => pendingFilterTimeout_answers hf,
    fun _ => answers_of_run execAgingSweep rfl (fun _ => rfl) rfl rfl,
    fun _ _ ho hbusy hid => fwdFlush_answers (scope := 0) ho hbusy fun _ => hid,
    fun _ _ ho hbusy => fwdFlush_answers (scope := 1) ho hbusy (by simp),
    fun _ _ ho hbusy hid => fwdFlush_answers (scope := 2) ho hbusy fun _ => hid,
    fun _ _ ho hbusy => fwdFlush_answers (scope := 3) ho hbusy (by simp),
    fun t i _ ho hbusy => answers_of_hostW (execFwdIndRead t i) rfl (fun _ => rfl) rfl ho (fwdAccess_idle hbusy),
    fun t i _ ho hbusy => answers_of_hostW (execFwdIndWrite t i) rfl (fun _ => rfl) rfl ho (fwdAccess_idle hbusy),
    fun t i _ ho hbusy => answers_of_hostW (execFwdIndRemove t i) rfl (fun _ => rfl) rfl ho (fwdAccess_idle hbusy),
    fun _ _ _ hi => answers_of_run execPrefixRelocationDone rfl (fun _ => rfl) rfl (prefixDone_some hi)⟩

/-! ### The parser's port and the fragment timer (R307, R315) -/

/-- A read of the parser's port that is not busy shows a record of one of its tables 0 to 2 (R315). -/
theorem parAccess_read {d : Dev} {index table : Nat} (hbusy : d.on F.PAR_IND_CTL_BUSY = false) (ht : table ≠ 3) :
    d.parAccess index table false =
      (let e := ((d.set F.PAR_IND_CTL_INDEX index).set F.PAR_IND_CTL_TABLE table).set F.PAR_IND_CTL_WRITE 0
      e.showData F.PAR_IND_DATA_DATA 24 (e.parRec table index)) := by
  rw [Dev.parAccess, if_neg (by simp [hbusy])]
  exact if_neg ht

/-- A write of a rule by the parser's port that is not busy stores it where its action is legal (R303), and is refused
elsewhere. -/
theorem parAccess_write_rule {d : Dev} {index : Nat} (hbusy : d.on F.PAR_IND_CTL_BUSY = false) :
    d.parAccess index 0 true =
      (let e := ((d.set F.PAR_IND_CTL_INDEX index).set F.PAR_IND_CTL_TABLE 0).set F.PAR_IND_CTL_WRITE 1
      let r := e.readData F.PAR_IND_DATA_DATA 24
      if actionOk (recBytes r 176 16) = false then e.parRefuse else e.putParRule index r) := by
  rw [Dev.parAccess, if_neg (by simp [hbusy])]
  simp only [if_true, ne_eq, not_true_eq_false, false_or, b2n]

/-- A fragment entry that is in use goes at the instant its age reaches TIMEOUT_MS (R307). -/
theorem fragTimeout_answers {i : Fin 8192} {x : Frag} {d : Dev} (h : Tbl.find? d.par.frags i = some x) :
    Answers (.fragTimeout i) d
      (let age := (sdiff 32 d.stamp x.stamp).toNat
      (d.runTo (d.nowNs + (d.use F.PAR_FRAGCFG_TIMEOUT_MS * 1000000 - age))).fragTimeout i) := by
  refine answers_of_run (execFragTimeout i) rfl (fun _ => rfl) rfl ?_
  simp only [h]

/-- Settles O46: each clause is the branch of its command whose condition the clause names. -/
theorem parserCommandsComplete : Obligations.ParserCommandsComplete :=
  ⟨fun t i _ ho hbusy ht => answers_of_hostW (execParIndRead t i) rfl (fun _ => rfl) rfl ho (parAccess_read hbusy ht),
    fun i _ ho hbusy => answers_of_hostW (execParIndWrite 0 i) rfl (fun _ => rfl) rfl ho (parAccess_write_rule hbusy),
    fun _ _ _ h => fragTimeout_answers h⟩

end Sys2Proof.Machine

/-!
PROOFS of the statements of 12_buffers_spill.md: the completion of the spill and buffer commands (R343 to R357).
-/

namespace Sys2Proof.Machine

open Sys2Proof

/-! ### Prefetch (R347) -/

section
variable {d : Dev} {q : Nat} (hkeep : ¬ d.headKeep (d.qOwner q) ≤ d.chargedAll q (d.qst q).h)
include hkeep

/-- With no page in M, the open page moves to H unwritten (R347). -/
theorem prefetch_open {l : List Pkt} (hm : (d.qst q).m = []) (ho : (d.qst q).opened = some l) :
    d.prefetch q =
      (let x := d.qst q
      let e := if l.isEmpty then d.release1 x.openBuf else d.addRef x.openBuf (l.length - 1)
      let l := l.map fun p => { p with buf := x.openBuf }
      (e.setQ q { x with h := x.h ++ l, opened := none }.settle).bump F.BUF_CNT_COUNT 7) := by
  rw [Dev.prefetch, if_neg hkeep]
  simp only [hm, ho]

/-- The oldest page of M that is still stored is read where SP has a landing buffer for it, and the queue waits where
SP has none (R347). -/
theorem prefetch_stored {p : Page} (hp : (d.qst q).m.find? (fun g => g.at_ == .stored) = some p) :
    d.prefetch q = d.takeSp.2.elim (d.takeSp.1.flag F.BUF_STAT_HEADWAIT) fun b =>
      let e := (d.takeSp.1.readPage q p b).bump F.BUF_CNT_COUNT 6
      if (d.qst q).h.isEmpty && ((d.qst q).m.head?.map (·.slot)) == some p.slot then e.headWait q else e := by
  rw [Dev.prefetch, if_neg hkeep]
  split
  next hm _ => simp [hm] at hp
  next =>
    cases hbuf : d.takeSp.2 with
    | none => simp only [hp, hbuf, Option.elim_none]
    | some b => simp only [hp, hbuf, Option.elim_some]

end

/-! ### Landing (R349) -/

/-- A page whose read has returned is checked, and the checked pages at the front of M join H (R347, R349). -/
theorem pageLand_back {d : Dev} {q slot : Nat} {headerBad ok : Bool} {p : Page}
    (hp : ((d.qst q).m.find? fun g => g.slot == slot) = some p) (hback : p.at_ = .back ok) :
    d.pageLand q slot headerBad =
      (let hdr := if headerBad then p.hdr.modify 0 (· ^^^ 1) else p.hdr
      Dev.joinPages q (d.qst q).m.length
        (d.setQ q ((d.qst q).setPage slot fun g =>
          { g with at_ := .checked (ok && pageHeaderOk q p.seq hdr && !p.gone) }))) := by
  rw [Dev.pageLand]
  simp only [hp, hback]

/-! ### The owner port (R344, R357) -/

section
variable {d : Dev} {index : Nat} (hbusy : d.on F.BUF_IND_CTL_BUSY = false) (hi : index ≤ 512)
include hbusy hi

/-- A read of the owner port that is not busy shows an owner's configuration or state (R357). -/
theorem bufAccess_read {table : Nat} (ht : table < 2) :
    d.bufAccess index table false =
      (let e := ((d.set F.BUF_IND_CTL_INDEX index).set F.BUF_IND_CTL_TABLE table).set F.BUF_IND_CTL_WRITE 0
      e.showData F.BUF_IND_DATA_DATA 4 (if table = 0 then e.ocfg index else e.ownerState index)) := by
  have hin : ¬ (2 ≤ table ∨ 512 < index) := by omega
  rw [Dev.bufAccess, if_neg (by simp [hbusy])]
  simp only [Bool.false_eq_true, if_false, hin, b2n]

/-- A write of an owner's configuration by the port that is not busy stores it where its reserves fit, and is refused
elsewhere (R344, R357). -/
theorem bufAccess_write :
    d.bufAccess index 0 true =
      (let e := ((d.set F.BUF_IND_CTL_INDEX index).set F.BUF_IND_CTL_TABLE 0).set F.BUF_IND_CTL_WRITE 1
      let r := e.readData F.BUF_IND_DATA_DATA 4
      if recBytes r 28 4 ≠ 0 ∨ e.reservesFit index r = false then e.bufRefuse else e.setOwner index r) := by
  rw [Dev.bufAccess, if_neg (by simp [hbusy])]
  simp only [if_true, ne_eq, not_true_eq_false, false_or, Nat.not_lt.mpr hi, b2n]

end

/-- Settles O47: each clause is the branch of its command whose condition the clause names. -/
theorem spillCommandsComplete : Obligations.SpillCommandsComplete :=
  ⟨fun q _ => answers_of_run (execSpillStep q) rfl (fun _ => rfl) rfl rfl,
    fun q _ _ hkeep hm ho => answers_of_run (execPrefetch q) rfl (fun _ => rfl) rfl (prefetch_open hkeep hm ho),
    fun q _ _ _ hkeep hp hb =>
      answers_of_run (execPrefetch q) rfl (fun _ => rfl) rfl (by rw [prefetch_stored hkeep hp, hb, Option.elim_some]),
    fun q _ _ hkeep hp hnone =>
      answers_of_run (execPrefetch q) rfl (fun _ => rfl) rfl (by rw [prefetch_stored hkeep hp, hnone, Option.elim_none]),
    fun q slot bad _ _ _ hp hback =>
      answers_of_run (execPageLand q slot bad) rfl (fun _ => rfl) rfl (pageLand_back hp hback),
    fun t i _ ho hbusy ht hi =>
      answers_of_hostW (execBufIndRead t i) rfl (fun _ => rfl) rfl ho (bufAccess_read hbusy hi ht),
    fun i _ ho hbusy hi =>
      answers_of_hostW (execBufIndWrite 0 i) rfl (fun _ => rfl) rfl ho (bufAccess_write hbusy hi)⟩

end Sys2Proof.Machine
/-!
PROOFS of the statements of 13_stacked_memory.md: the completion of the commands of the stacked memory (R363 to R388).
-/

namespace Sys2Proof.Machine

open Sys2Proof

/-! ### Reads and writes that end (R364 to R367, R373, R374) -/

/-- A CXL read of usable memory is made and completes in one step, and its data goes to the host. -/
theorem readDone_cxl {d : Dev} {access : Fin (2 ^ 27)} {n : Fin 4} {e : MemEnd} {blk ns m : Nat}
    (hu : d.memUsable (64 * access) = true) (hm : m = min (n.val + 1) (4 - access.val % 4)) :
    d.readDone (.cxl access n) e blk ns =
      (let k := d.readNow 3 (access / 4) ((List.range m).map fun k => access.val % 4 + k) e (64 * (access + blk % m)) ns
      match k.2 with
      | none => k.1
      | some ok => k.1.hostRead access m (if ok then none else some (blk % m))) := by
  subst hm
  exact if_pos hu

/-- The oldest write of a pseudo-channel is issued by the time its acknowledgement comes, and leaves the buffer; a failed one
is undone, and a spill page that it carried is lost (R365, R373, R374). -/
theorem writeAck_found {d f : Dev} {pc ns : Nat} {e : MemEnd} {w : WrEnt}
    (hw : (d.mem.wbuf.find? fun w => d.pcOf (256 * w.block) == pc) = some w)
    (hf : f = Dev.issueUntil pc (fun f => f.mem.wbuf.any fun w => w.issued && d.pcOf (256 * w.block) == pc)
      ((d.reach (w.at_ + cdiv (3 * ns) 2)).slotsAhead pc) (d.reach (w.at_ + cdiv (3 * ns) 2))) :
    d.writeAck pc e ns =
      (match f.mem.wbuf.find? fun w => w.issued && d.pcOf (256 * w.block) == pc with
      | none => f
      | some w =>
        let g : Dev := { f with mem := { f.mem with
          wbuf := f.mem.wbuf.eraseP fun w => w.issued && d.pcOf (256 * w.block) == pc } }
        let g := (g.memCount 1).late w.port ((g.clk.cyc - w.at_) * 2 / 3)
        let k := g.ended e (g.servingUnit (256 * w.block))
        let h := if k.2 then k.1
          else
            let h := w.old.foldl (Dev.undoAccess w.block) k.1
            if 0x200000000 ≤ 256 * w.block then h.losePages fun n => n == (256 * w.block - 0x200000000) / 16384 else h
        h.admitWrites) := by
  subst hf
  -- `rfl` joins the statement's own `match` to the model's, which are two matchers where they stand in two files.
  simp only [Dev.writeAck, hw] <;> rfl

/-! ### Temperature (R369, R371, R372) -/

/-- A stack in use that reads above 105 °C goes out of use. -/
theorem tempSample_hot {d : Dev} {s raw : Nat} (hs : (d.set F.MEM_STACK_TEMP raw s).get F.MEM_STACK_STATE s = 1)
    (ht : 105 < sgn 8 raw) : d.tempSample s raw = (d.set F.MEM_STACK_TEMP raw s).stackOut s := by
  simp only [Dev.tempSample, hs, if_pos ht]

/-- A stack in use that reads 105 °C or less takes the refresh rate of its reading. -/
theorem tempSample_rate {d : Dev} {s raw : Nat} (hs : (d.set F.MEM_STACK_TEMP raw s).get F.MEM_STACK_STATE s = 1)
    (ht : sgn 8 raw ≤ 105) : d.tempSample s raw = (d.set F.MEM_STACK_TEMP raw s).setRate s
      (rateFor ((d.set F.MEM_STACK_TEMP raw s).get F.MEM_STACK_RATE s) (sgn 8 raw)) := by
  simp only [Dev.tempSample, hs, if_neg (Int.not_lt.mpr ht)]

/-- A stack that is RETURNING is in use again 2.6 ms after its re-initialising began (R372). -/
theorem stackReturn_returning {d : Dev} {s t : Nat} (hs : d.get F.MEM_STACK_STATE s = 4)
    (ht : Tbl.find? d.mem.coolSince s = some t) :
    d.stackReturn s =
      (let e := d.reach (t + 3900000)
      let p := e.mem.poison.filter fun x => (e.place (64 * x)).stack != s
      let e : Dev := { e with mem := { e.mem with
        poison := p, coolSince := Tbl.erase e.mem.coolSince s, migAt := e.clk.cyc } }
      ((e.set F.MEM_STACK_STATE 1 s).set F.MEM_STACK_RATE (rateFor 0 (sgn 8 (e.get F.MEM_STACK_TEMP s))) s).showMig) := by
  simp only [Dev.stackReturn, hs, ht]

/-! ### Retirement and migration (R375, R376, R384) -/

/-- A unit that is neither spare, dead nor retired, of a stack in use, is retired where the queue of migrations has room. -/
theorem retireCmd_taken {d : Dev} {u : MUnit} (hspare : d.unitSpare u = false) (hdead : d.unitDead u = false)
    (hret : d.unitRetired u = false) (hup : d.stackUp u.s = true) (hroom : d.mem.migWait.length < 16) :
    d.retireCmd u =
      (((d.set F.MEM_RETIRE_STACK u.s).set F.MEM_RETIRE_CHANNEL u.ch).set F.MEM_RETIRE_PSID u.psid).retire u :=
  if_neg (by simp [hspare, hdead, hret, hup, hroom])

section
variable {d f : Dev} {e : MigEnds} {acc a : Nat} {u : MUnit} (hmig : d.mem.mig = some u) (hup : d.stackUp u.s = true)
  (hroom : d.mem.wbuf.length < 1024)
  (hf : f = d.reach (d.mem.migAt + cdiv 1500 (d.use F.MEM_CFG_MIGRATE_SHARE)))
  (ha : a = f.blockAddr (f.logicalOf u) u.s u.ch (f.get F.MEM_MIGSTAT_CURSOR))
include hmig hup hroom hf ha

/-- The engine's read waits where it finds no tag (R364). -/
theorem migStep_waits (hk : (f.readNow 5 (a / 256) [0, 1, 2, 3] e.rd a e.rdNs).2 = none) :
    d.migStep e acc = (f.readNow 5 (a / 256) [0, 1, 2, 3] e.rd a e.rdNs).1 := by
  subst hf ha
  have hruns : ¬(d.stackUp u.s = false ∨ 1024 ≤ d.mem.wbuf.length) := by simp [hup, hroom]
  simp only [Dev.migStep, hmig, if_neg hruns, hk]

/-- The engine writes what it has read, a failed read poisoned, and a failed write poisoned and discarded; the cursor moves on,
and past the last block the unit and its spare change places (R374 to R376). -/
theorem migStep_copies {k : Dev × Option Bool} {ok : Bool} (hk : k = f.readNow 5 (a / 256) [0, 1, 2, 3] e.rd a e.rdNs)
    (hok : k.2 = some ok) (hstays : (if ok then k.1 else k.1.poison (a / 64 + acc)).mem.mig = some u) :
    d.migStep e acc =
      (let h := if ok then k.1 else k.1.poison (a / 64 + acc)
      let sp : MUnit := { u with psid := h.get F.MEM_UNIT_SPARE u.s u.ch }
      let h := h.reach (h.clk.cyc + cdiv (3 * e.wrNs) 2)
      let n := h.bankNo a / 64 * 64 + sp.psid * 16 + (h.place a).bank
      let h := ((h.touchBank n (h.place a).row []).memCount 1).late 5 e.wrNs
      let w := h.ended e.wr sp
      let h := if w.2 then w.1 else foldUpTo 4 (fun i h => h.poison (a / 64 + i)) w.1
      if h.mem.mig ≠ some u then h
      else
        let h : Dev := { h with mem := { h.mem with migAt := h.clk.cyc } }
        let h := (h.set F.MEM_MIGSTAT_CURSOR (f.get F.MEM_MIGSTAT_CURSOR + 1)).memCount 13
        if f.get F.MEM_MIGSTAT_CURSOR + 1 = 1048576 then (h.swapUnit u).nextMig else h) := by
  subst hf ha hk
  have hruns : ¬(d.stackUp u.s = false ∨ 1024 ≤ d.mem.wbuf.length) := by simp [hup, hroom]
  simp only [Dev.migStep, hmig, if_neg hruns, hok]
  exact if_neg (not_not.mpr hstays)

end

/-- Settles O48: each clause is the branch of its command whose condition the clause names. -/
theorem stackCommandsComplete : Obligations.StackCommandsComplete := by
  refine ⟨
    fun access n e blk ns _ _ hu hm =>
      answers_of_run (execMemReadComplete (.cxl access n) e blk ns) rfl (fun _ => rfl) rfl (readDone_cxl hu hm),
    fun access n e blk ns _ hu => answers_of_run (execMemReadComplete (.cxl access n) e blk ns) rfl (fun _ => rfl) rfl
      (if_neg (by simp [hu])),
    fun q slot e blk ns _ => answers_of_run (execMemReadComplete (.spill q slot) e blk ns) rfl (fun _ => rfl) rfl rfl,
    fun n e blk ns a d ha => ?_,
    fun e _ _ _ hw hf => answers_of_run (execMemWriteAck e) rfl (fun _ => rfl) rfl (writeAck_found hw hf),
    fun pc issued _ hup => answers_of_run (execRefreshInterval pc issued) rfl (fun _ => rfl) rfl (if_pos hup),
    fun st raw _ hs ht => answers_of_run (execStackTempSample st raw) rfl (fun _ => rfl) rfl (tempSample_hot hs ht),
    fun st raw _ hs ht => answers_of_run (execStackTempSample st raw) rfl (fun _ => rfl) rfl (tempSample_rate hs ht),
    fun st _ _ hs ht => answers_of_run (execStackReturn st) rfl (fun _ => rfl) rfl (stackReturn_returning hs ht),
    fun bank b d hb => answers_of_run (execPageTimeout bank) rfl (fun _ => rfl) rfl ?_,
    fun stack ch psid _ _ ho hu hspare hdead hret hup hroom => ?_,
    fun e access _ _ _ _ hmig hup hroom hf ha hk =>
      answers_of_run (execMigrationStep e access) rfl (fun _ => rfl) rfl (migStep_waits hmig hup hroom hf ha hk),
    fun e access _ _ _ _ _ _ hmig hup hroom hf ha hk hok hstays =>
      answers_of_run (execMigrationStep e access) rfl (fun _ => rfl) rfl
        (migStep_copies hmig hup hroom hf ha hk hok hstays)⟩
  · subst ha
    exact answers_of_run (execMemReadComplete (.ring n) e blk ns) rfl (fun _ => rfl) rfl rfl
  · simp only [hb]
  · subst hu
    exact answers_of_hostW (execUnitRetire stack ch psid) rfl (fun _ => rfl) rfl ho
      (retireCmd_taken hspare hdead hret hup hroom)

end Sys2Proof.Machine

/-!
PROOFS of the statements of 14_uplink_mac.md: the completion of the commands of the uplink ports (R390 to R402).
-/

namespace Sys2Proof.Machine

open Sys2Proof

/-! ### Frames and pauses (R393, R395 to R402) -/

/-- A frame received on a port that is up, outside VIGIL and TEST, goes through the MAC (R32). -/
theorem macFrameRx_answers {m : MacIn} {d : Dev} (hs : m.symbols.length ≤ 8) (hb : m.bipErrs.length ≤ 8)
    (hup : (d.fecCounts (d.firstPort m.port) m).on F.UPL_STAT_LINK_UP (d.firstPort m.port) = true)
    (h4 : (d.fecCounts (d.firstPort m.port) m).mode ≠ 4) (h5 : (d.fecCounts (d.firstPort m.port) m).mode ≠ 5) :
    Answers (.macFrameRx m) d ((d.fecCounts (d.firstPort m.port) m).macRx (d.firstPort m.port) m.bytes m.codeErr) := by
  refine answers_of_run (execMacFrameRx m) rfl (fun _ => rfl) (by simp [Instr.wf, hs, hb]) ?_
  exact if_pos (by simp [hup, h4, h5])

/-- A pause timer that runs ends at its instant (R398). -/
theorem pauseExpiry_running {d : Dev} {p k t : Nat}
    (ht : (if k = 8 then Tbl.find? d.mac.portPause p else Tbl.find? d.mac.queuePause (8 * p + k)) = some t) :
    d.pauseExpiry p k =
      (let e := d.reach t
      let m := if k = 8 then { e.mac with portPause := Tbl.erase e.mac.portPause p }
        else { e.mac with queuePause := Tbl.erase e.mac.queuePause (8 * p + k) }
      ({ e with mac := m }.markSince p).showPaused p) := by
  simp only [Dev.pauseExpiry, ht]

/-- Where a storm has made a port ignore pause frames, it heeds them again at the instant set (R399). -/
theorem pauseStormEnd_answers {port : LanePort} {t : Nat} {d : Dev}
    (ht : Tbl.find? d.mac.ignore (d.firstPort port) = some t) :
    Answers (.pauseStormEnd port) d
      { d.reach t with mac := { (d.reach t).mac with ignore := Tbl.erase (d.reach t).mac.ignore (d.firstPort port) } } := by
  refine answers_of_run (execPauseStormEnd port) rfl (fun _ => rfl) rfl ?_
  simp only [ht]

/-! ### Links (R393, R394) -/

/-- A port that is down and whose lanes all run comes up without faults, when its alignment has held for LINK_HOLD_MS. -/
theorem linkUp_aligned {d : Dev} {p : Nat} (hdown : d.on F.UPL_STAT_LINK_UP p = false)
    (hlanes : ((List.range (d.portWidth p)).all fun i => d.laneUp (128 + p + i)) = true) :
    d.linkUp p =
      (let e := d.reach (Tbl.get 0 d.mac.broken p + d.use F.UPL_MACCFG_LINK_HOLD_MS p * 1500000)
      (((e.set F.UPL_STAT_ALIGNED 1 p).set F.UPL_STAT_LOCAL_FAULT 0 p).set F.UPL_STAT_REMOTE_FAULT 0 p).set
        F.UPL_STAT_LINK_UP 1 p) :=
  (if_neg (by simp [hdown])).trans (if_pos hlanes)

/-- Settles O49: each clause is the branch of its command whose condition the clause names. -/
theorem uplinkPortCommandsComplete : Obligations.UplinkPortCommandsComplete := by
  refine ⟨fun _ _ hs hb hup h4 h5 => macFrameRx_answers hs hb hup h4 h5,
    fun port e _ _ hm ho _ => answers_of_guard (execMacFrameTx port e) rfl (fun _ => rfl) rfl (by simp [hm, ho]) rfl,
    fun port k _ _ ht => answers_of_run (execPauseTimerExpiry port k) rfl (fun _ => rfl) rfl (pauseExpiry_running ht),
    fun port k _ _ _ hp _ _ _ _ => ?_,
    fun _ _ _ ht => pauseStormEnd_answers ht,
    fun port _ _ hp hdown hlanes => ?_,
    fun port k sending _ _ => answers_of_run (execLinkDown port k sending) rfl (fun _ => rfl) rfl rfl⟩
  · subst hp
    exact answers_of_run (execPauseStorm port k) rfl (fun _ => rfl) rfl rfl
  · subst hp
    exact answers_of_run (execLinkUp port) rfl (fun _ => rfl) rfl (linkUp_aligned hdown hlanes)

end Sys2Proof.Machine

/-!
PROOFS about writes of the observation region (R363, R365), which many commands share, and of the statements of 15_cipher.md:
erased key slots (R412, R414, R415), GCM (R416), and the completion of the cipher's commands (R411 to R432).
-/

namespace Sys2Proof.Tbl

variable {α : Type} [DecidableEq α]

/-- A table that lists no default reads an index as last put. -/
theorem get_put_same {t : Tbl α} (h : sorted t = true) (d v : α) (i : Nat) : get d (put d t i v) i = v := by
  unfold put
  split
  next hv => rw [get, find?_erase_same t i h, Option.getD_none, hv]
  next => exact get_set_same d t i v

theorem get_put_other (t : Tbl α) (d v : α) {i j : Nat} (h : j ≠ i) : get d (put d t i v) j = get d t j := by
  unfold put
  split
  · rw [get, get, find?_erase_other t h]
  · exact get_set_other d t v h

end Sys2Proof.Tbl

namespace Sys2Proof.Machine

open Sys2Proof Sys2Proof.Crypto

/-! ### What a write of the observation region leaves (R363, R365) -/

/-- `e` is `d` but for the observation region, the memory controller, its counts, and what noting those counts changes. -/
structure Stored (d e : Dev) : Prop where
  same : e = { d with regs := e.regs, obs := e.obs, blot := e.blot, host := { d.host with msiOwed := e.host.msiOwed },
                      mem := e.mem }
  regs : ∀ k, offMon k → k ∉ noteKeys → ¬ inBlock 0x1900000 0x1A00000 k → Tbl.find? e.regs k = Tbl.find? d.regs k

theorem Stored.refl (d : Dev) : Stored d d := ⟨rfl, fun _ _ _ _ => rfl⟩

namespace Stored

variable {d e f : Dev} (h : Stored d e)
include h

theorem trans (g : Stored e f) : Stored d f := by
  refine ⟨?_, fun k hm hn hb => (g.regs k hm hn hb).trans (h.regs k hm hn hb)⟩
  have hd := h.same
  have he := g.same
  rw [he, hd]

theorem setMem (m : MemC) : Stored d { e with mem := m } := h.trans ⟨rfl, fun _ _ _ _ => rfl⟩

theorem setObs (m : Mem) : Stored d { e with obs := m } := h.trans ⟨rfl, fun _ _ _ _ => rfl⟩

/-- The counts of the memory block stand in its own registers. -/
theorem memCount {k : Nat} (hk : k < 18) (n : Nat) : Stored d (e.memCount k n) := by
  have hn := (bumpAt_notes e (F.MEM_CNT_COUNT.addr + k * F.MEM_CNT_COUNT.s1 + 0 * F.MEM_CNT_COUNT.s2) k n).same
  refine h.trans ⟨by rw [Dev.memCount, Dev.bump, hn], fun j hm hj hb => bumpAt_find _ _ _ _ j hm hj fun hkey => hb ?_⟩
  simp only [F.MEM_CNT_COUNT] at hkey
  omega

theorem touch (a : Nat) : Stored d (e.touch a) := by
  unfold Dev.touch Dev.touchBank
  refine memCount (h.setMem _) ?_ _
  split <;> decide

/-- The reads of the accesses of `l`, some of them covered by the buffer. -/
theorem readAccesses (c l : List Nat) (a : Nat) : Stored d
    (l.foldl (fun d i => if c.contains i then d.memCount 2 else (d.touch a).memCount 0) e) := by
  induction l generalizing e with
  | nil => exact h
  | cons i r ih =>
    rw [List.foldl_cons]
    split
    · exact ih (h.memCount (by decide) _)
    · exact ih ((h.touch _).memCount (by decide) _)

/-- The reads of a write that enables accesses in part change the controller's banks and counts. -/
theorem mergeReads {w : WrReq} (hm : e.mergeReads w = some f) : Stored d f := by
  unfold Dev.mergeReads at hm
  extract_lets l c at hm
  split at hm
  · exact Option.some.inj hm ▸ h
  · split at hm
    · cases hm
    · exact Option.some.inj hm ▸ h.readAccesses ..

theorem landWrite (w : WrReq) : Stored d (e.landWrite w) := by
  simp only [Dev.landWrite]
  split
  · exact h.setMem _
  · exact h.trans ⟨rfl, fun _ _ _ _ => rfl⟩

theorem enterWrite {w : WrReq} (hw : e.enterWrite w = some f) : Stored d f := by
  simp only [Dev.enterWrite] at hw
  split at hw
  · cases hw
    exact h
  · split at hw
    · cases hw
    · split at hw
      · cases hw
      next g hg =>
        have hl := (h.mergeReads hg).landWrite w
        cases hw
        split
        · exact hl
        · exact hl.setMem _

theorem putWrite (w : WrReq) : Stored d (e.putWrite w) := by
  simp only [Dev.putWrite]
  split
  · exact h.setMem _
  · split
    next hw => exact h.enterWrite hw
    next =>
      split
      · exact (h.memCount (by decide) _).setMem _
      · exact h.setMem _

theorem writeBlocks (port a : Nat) (l : List Byte) (n : Nat) : Stored d (e.writeBlocks port a l n) := by
  induction n generalizing e a l with
  | zero => exact h
  | succ n ih =>
    rw [Dev.writeBlocks]
    split
    · exact h
    · exact ih (h.putWrite _) _ _

theorem obsWrite (a : Nat) (l : List Byte) : Stored d (e.obsWrite a l) := h.writeBlocks 2 a l _

end Stored

theorem obsWrite_cry (d : Dev) (a : Nat) (l : List Byte) : (d.obsWrite a l).cry = d.cry := by
  rw [((Stored.refl d).obsWrite a l).same]

/-! ### Key slots (R412, R414, R415) -/

theorem setSlot_cry (d : Dev) (i : Nat) (s : Slot) :
    (d.setSlot i s).cry = { d.cry with slots := Tbl.put emptySlot d.cry.slots i s } := by
  unfold Dev.setSlot
  simp only
  split
  · exact obsWrite_cry ..
  · rfl

theorem bump_cry (d : Dev) (f : Fld) (i j n : Nat) : (d.bump f i j n).cry = d.cry := by
  rw [Dev.bump, (bumpAt_notes ..).same]

/-- Devices with the same cipher state have the same slots. -/
theorem slot_of_cry {d e : Dev} (h : e.cry = d.cry) (i : Nat) : e.slot i = d.slot i := by rw [Dev.slot, h, Dev.slot]

theorem setSlot_slot_same {d : Dev} (h : Tbl.sorted d.cry.slots = true) (i : Nat) (s : Slot) :
    (d.setSlot i s).slot i = s := by
  rw [Dev.slot, setSlot_cry]
  exact Tbl.get_put_same h _ _ _

theorem setSlot_slot_other (d : Dev) (s : Slot) {i j : Nat} (h : j ≠ i) : (d.setSlot i s).slot j = d.slot j := by
  rw [Dev.slot, setSlot_cry]
  exact Tbl.get_put_other _ _ _ h

/-- An EMPTY or ERASING slot is not erased (R414). -/
theorem eraseSlot_refused {d : Dev} {i : Nat} (h : (d.slot i).state = 0 ∨ (d.slot i).state = 2) :
    d.eraseSlot i = none := if_pos h

/-- An erase that is taken makes its slot ERASING, which is counted (R414). -/
theorem eraseSlot_taken {d e : Dev} {i : Nat} (h : d.eraseSlot i = some e) :
    e = ((d.keepOld i).setSlot i { d.slot i with state := 2 }).bump F.CRY_GCNT_COUNT 11 := by
  simp only [Dev.eraseSlot] at h
  split at h
  · cases h
  · exact (Option.some.inj h).symm

theorem eraseSlot_slot {d e : Dev} {i : Nat} (hs : Tbl.sorted d.cry.slots = true) (h : d.eraseSlot i = some e) :
    (e.slot i).state = 2 ∧ ∀ j, j ≠ i → e.slot j = d.slot j := by
  rw [eraseSlot_taken h]
  refine ⟨?_, fun j hj => ?_⟩
  · rw [slot_of_cry (bump_cry ..), setSlot_slot_same (d := d.keepOld i) hs]
  · rw [slot_of_cry (bump_cry ..), setSlot_slot_other _ _ hj, Dev.keepOld_slot]

/-- A slot seen ERASING gives no value to a segment (R415). -/
theorem consume_erasing {d : Dev} {i : Nat} (h : (d.slotSeen i).state = 2) (c : Nat) : (d.consume c i).2 = none := by
  simp only [Dev.consume, h]

/-- Under a slot seen ERASING nothing authenticates (R415). -/
theorem authenticate_erasing {d : Dev} {i : Nat} (h : (d.slotSeen i).state = 2) (seq : Nat)
    (f : Nat → Nat → Option (List Byte)) : d.authenticate i seq f = (d, .noKey) := if_pos (.inr h)

/-- An ERASING slot whose key no job holds is zeroized (R414). -/
theorem keyZeroize_answers {i : Fin (2 ^ 17)} {d : Dev} (hs : (d.slot i).state = 2) (hh : d.slotHeld i = false) :
    Answers (.keyZeroize i) d (d.setSlot i emptySlot) :=
  answers_of_run (execKeyZeroize i) rfl (fun _ => rfl) rfl (if_pos ⟨hs, hh⟩)

/-- Settles O22: an erase writes its own slot, and what is seen ERASING is served nothing. -/
theorem anErasingSlotServesNoOperation : Obligations.AnErasingSlotServesNoOperation := by
  intro i d hsorted
  refine ⟨fun e he => eraseSlot_slot hsorted he, fun hlater => Dev.slotSeen_later hlater i,
    fun hseen => ⟨consume_erasing hseen, authenticate_erasing hseen⟩,
    fun hs => ⟨eraseSlot_refused (.inr hs), fun hh => ?_, fun hh => ?_⟩⟩
  · exact ⟨_, keyZeroize_answers hs hh, setSlot_slot_same hsorted _ _, fun j hj => setSlot_slot_other _ _ hj⟩
  · exact answers_of_run (execKeyZeroize i) rfl (fun _ => rfl) rfl (if_neg (by simp [hh]))

/-! ### GCM (R416) -/

theorem length_toLE (x n : Nat) : (toLE x n).length = n := by
  induction n generalizing x with
  | zero => rfl
  | succ n ih => rw [toLE, List.length_cons, ih]

theorem length_toBE (x n : Nat) : (toBE x n).length = n := by rw [toBE, List.length_reverse, length_toLE]

theorem length_keystream (key nonce i0 n : Nat) : (keystream key nonce i0 n).length = n := by
  have hblocks : ((List.range (cdiv n 16)).flatMap fun i =>
      toBE (aes key (nonce * 2 ^ 32 + (i0 + i) % 2 ^ 32)) 16).length = cdiv n 16 * 16 := by
    simp [List.length_flatMap, length_toBE]
  rw [keystream, List.length_take, hblocks, cdiv]
  omega

theorem length_xorB {a b : List Byte} (h : a.length = b.length) : (xorB a b).length = a.length := by
  rw [xorB, List.length_zipWith, h, Nat.min_self]

/-- The keystream taken twice leaves the payload. -/
theorem xorB_xorB {a b : List Byte} (h : a.length = b.length) : xorB (xorB a b) b = a := by
  induction a generalizing b with
  | nil => rfl
  | cons x a ih =>
    cases b with
    | nil => cases h
    | cons y b =>
      have htail : xorB (xorB a b) b = a := ih (Nat.succ.inj h)
      rw [xorB] at htail ⊢
      rw [xorB] at htail ⊢
      rw [List.zipWith_cons_cons, List.zipWith_cons_cons, htail, BitVec.xor_assoc, BitVec.xor_self, BitVec.xor_zero]

/-- The ciphertext of GCM is as long as the payload. -/
theorem length_gcmEnc (key nonce : Nat) (aad pt : List Byte) : (gcmEnc key nonce aad pt).1.length = pt.length :=
  length_xorB (length_keystream ..).symm

/-- Settles O23: the keystream of the ciphertext is that of the payload, and the tag is a function of the ciphertext. -/
theorem decryptionUndoesEncryption : Obligations.DecryptionUndoesEncryption := by
  intro key nonce aad pt
  refine ⟨?_, length_gcmEnc .., fun tag htag => if_neg htag.symm⟩
  refine (if_pos rfl).trans ?_
  rw [length_gcmEnc]
  exact congrArg some (xorB_xorB (length_keystream ..).symm)

/-! ### The key port and the jobs (R411 to R414, R428 to R432) -/

section

variable {d : Dev} {index : Nat} (hbusy : d.on F.CRY_KEY_CTL_BUSY = false) (hi : index ≤ 98367)
include hbusy hi

/-- An access of the key port that is not busy, with a legal index, stores its operands and shows the slot (R432). -/
theorem keyAccess_show :
    d.keyAccess index 0 = ((d.set F.CRY_KEY_CTL_INDEX index).set F.CRY_KEY_CTL_OP 0).showSlot index := by
  have hlegal : ¬(3 ≤ 0 ∨ 98367 < index) := by omega
  simp only [Dev.keyAccess, hbusy, Bool.false_eq_true, if_false, if_neg hlegal]

theorem keyAccess_import :
    d.keyAccess index 1 =
      (let e := (d.set F.CRY_KEY_CTL_INDEX index).set F.CRY_KEY_CTL_OP 1
      let r := e.importSlot index e.keyData
      if r.2 = .ok then r.1 else r.1.keyRefuse) := by
  have hlegal : ¬(3 ≤ 1 ∨ 98367 < index) := by omega
  simp only [Dev.keyAccess, hbusy, Bool.false_eq_true, if_false, if_neg hlegal]

theorem keyAccess_erase {e : Dev}
    (he : ((d.set F.CRY_KEY_CTL_INDEX index).set F.CRY_KEY_CTL_OP 2).eraseSlot index = some e) :
    d.keyAccess index 2 = e := by
  have hlegal : ¬(3 ≤ 2 ∨ 98367 < index) := by omega
  simp only [Dev.keyAccess, hbusy, Bool.false_eq_true, if_false, if_neg hlegal, he]

end

/-- The job that runs is brought to its end, or to an uncorrectable read of its source (R428, R567). -/
theorem jobComplete_running {d : Dev} {q : Nat} {j : Job} {r : List Job} (hq : d.cry.running = some q)
    (hj : d.jobs q = j :: r) :
    d.jobComplete =
      (let a := d.jobAdvance j j.length
      match a.2 with
      | none => (a.1.jobEnd q j 5).startJobs
      | some k => ((a.1.setJobs q (k :: r)).jobEnd q k 0).startJobs) := by
  simp only [Dev.jobComplete, hq, hj] <;> rfl

/-- The job that runs gives way to a more urgent one before its end (R429). -/
theorem jobPreempt_urgent {d : Dev} {blocks q u : Nat} {j : Job} {r : List Job} (hq : d.cry.running = some q)
    (hu : d.urgent = some u) (hj : d.jobs q = j :: r) (hqu : q < u)
    (hleft : j.done + blocks * jobUnit j.mode < j.length) :
    d.jobPreempt blocks =
      (let a := d.jobAdvance j blocks
      match a.2 with
      | none => (a.1.jobEnd q j 5).startJobs
      | some k =>
        let e := a.1.setJobs q (k :: r)
        let e := { e with cry := { e.cry with running := none } }.bump F.CRY_GCNT_COUNT 9
        (e.showJob q).startJobs) := by
  have hgoes : ¬(u ≤ q ∨ j.length ≤ j.done + blocks * jobUnit j.mode) := by omega
  simp only [Dev.jobPreempt, hq, hu, hj, if_neg hgoes] <;> rfl

/-- Settles O52: each clause is the branch of its command whose condition the clause names. -/
theorem cipherCommandsComplete : Obligations.CipherCommandsComplete :=
  ⟨fun index _ ho hbusy hi =>
      answers_of_hostW (execKeyStatusRead index) rfl (fun _ => rfl) rfl ho (keyAccess_show hbusy hi),
    fun index _ ho hbusy hi =>
      answers_of_hostW (execKeyPortImport index) rfl (fun _ => rfl) rfl ho (keyAccess_import hbusy hi),
    fun index _ _ ho hbusy hi he =>
      answers_of_hostW (execKeyPortErase index) rfl (fun _ => rfl) rfl ho (keyAccess_erase hbusy hi he),
    fun _ _ hs hh => keyZeroize_answers hs hh,
    fun _ _ _ _ hq hj => answers_of_run execJobComplete rfl (fun _ => rfl) rfl (jobComplete_running hq hj),
    fun blocks _ _ _ _ _ hq hu hj hqu hleft _ =>
      answers_of_run (execJobPreempt blocks) rfl (fun _ => rfl) rfl (jobPreempt_urgent hq hu hj hqu hleft)⟩

end Sys2Proof.Machine

/-!
PROOFS of the statements of 16_time.md: reads of the time (R437), the idle cycle (R38, R435), and the completion of the time
block's commands (R435 to R453).
-/

namespace Sys2Proof.Machine

open Sys2Proof

/-! ### Reading the time (R437) -/

/-- A read of TIM_NOW_NS changes registers only. -/
theorem nowRead_rest (d : Dev) : d.nowRead.clk = d.clk ∧ d.nowRead.obs = d.obs := by
  obtain ⟨-, ho₁, hc₁, -⟩ := set_rest d F.TIM_NOW_NS_NS d.clk.ns 0 0
  obtain ⟨-, ho₂, hc₂, -⟩ := set_rest (d.set F.TIM_NOW_NS_NS d.clk.ns) F.TIM_NOW_NS_FRAC (d.clk.frac / 65536) 0 0
  obtain ⟨-, ho₃, hc₃, -⟩ := set_rest ((d.set F.TIM_NOW_NS_NS d.clk.ns).set F.TIM_NOW_NS_FRAC (d.clk.frac / 65536))
    F.TIM_NOW_SEC_SEC d.clk.sec 0 0
  exact ⟨hc₃.trans (hc₂.trans hc₁), ho₃.trans (ho₂.trans ho₁)⟩

theorem nowRead_sec (d : Dev) : d.nowRead.get F.TIM_NOW_SEC_SEC = d.clk.sec % 2 ^ 48 :=
  get_set_same _ F.TIM_NOW_SEC_SEC _ 0 0 (by decide)

theorem nowRead_frac (d : Dev) : d.nowRead.get F.TIM_NOW_NS_FRAC = d.clk.frac / 2 ^ 16 % 2 ^ 16 :=
  (get_set_other _ F.TIM_NOW_SEC_SEC F.TIM_NOW_NS_FRAC _ 0 0 0 0 (by decide) (by decide)).trans
    (get_set_same _ F.TIM_NOW_NS_FRAC _ 0 0 (by decide))

theorem nowRead_ns (d : Dev) : d.nowRead.get F.TIM_NOW_NS_NS = d.clk.ns % 2 ^ 30 :=
  ((get_set_other _ F.TIM_NOW_SEC_SEC F.TIM_NOW_NS_NS _ 0 0 0 0 (by decide) (by decide)).trans
    (get_set_other _ F.TIM_NOW_NS_FRAC F.TIM_NOW_NS_NS _ 0 0 0 0 (by decide) (by decide))).trans
    (get_set_same _ F.TIM_NOW_NS_NS _ 0 0 (by decide))

/-- The value of TIM_NOW_NS: the fraction below the nanoseconds (R454). -/
theorem getReg_nowRead (d : Dev) :
    d.nowRead.getReg RegOf.TIM_NOW_NS 0 0 = d.clk.frac / 2 ^ 16 % 2 ^ 16 + d.clk.ns % 2 ^ 30 * 2 ^ 16 := by
  have hreg : d.nowRead.getReg RegOf.TIM_NOW_NS 0 0 =
      0 + d.nowRead.get F.TIM_NOW_NS_FRAC % 2 ^ 16 * 2 ^ 0 + d.nowRead.get F.TIM_NOW_NS_NS % 2 ^ 30 * 2 ^ 16 := rfl
  rw [hreg, nowRead_frac, nowRead_ns, Nat.mod_mod, Nat.mod_mod, pow_zero, Nat.mul_one, Nat.zero_add]

theorem findReg_now : findReg 0x40008 allRegs = some (RegOf.TIM_NOW_NS, 0, 0) := rfl

/-- A host read of TIM_NOW_NS latches the time and returns it. -/
theorem readAt_now (d : Dev) :
    d.readAt 0x40008 = d.nowRead.readOut (d.clk.frac / 2 ^ 16 % 2 ^ 16 + d.clk.ns % 2 ^ 30 * 2 ^ 16) := by
  have hvalue : d.nowRead.hostValue RegOf.TIM_NOW_NS 0 0 = d.nowRead.getReg RegOf.TIM_NOW_NS 0 0 := rfl
  rw [← getReg_nowRead, ← hvalue, Dev.readAt, findReg_now]
  rfl

/-- Settles O15: the fields that the read latches are those that it returns. -/
theorem readingTheTimeLatchesTheSeconds : Obligations.ReadingTheTimeLatchesTheSeconds := by
  intro fails d hfails hr hm
  obtain ⟨hclk, hobs⟩ := nowRead_rest d
  have hread := readAt_now d
  refine ⟨d.readAt 0x40008, registerRead_answers 0x40008 8 fails hr hm ?_, ?_⟩
  · rw [if_neg (by decide), if_neg (by omega)]
    rfl
  · rw [hread, Dev.readOut_get, Dev.readOut_clk, Dev.readOut_obs]
    refine ⟨?_, ?_, nowRead_sec d, hclk, hobs⟩ <;>
    · simp only [Dev.readOut, bits_eq_div_mod]
      omega

/-! ### The idle cycle (R38, R435) -/

/-- Settles O2: an idle step counts one cycle, before which the clock advances where it runs. -/
theorem anIdleStepPassesOneCycle : Obligations.AnIdleStepPassesOneCycle := by
  intro d
  have hhold := cycles_notes d 1
  have htick := cycles_notes { d with clk := d.clk.plus d.clk.addend } 1
  by_cases h : d.boot.resetHeld = true ∨ d.mode = 4
  · have hidle : d.idle = d.cycles 1 := if_pos h
    obtain ⟨-, -, hclk, -⟩ := hhold.rest
    rw [hidle]
    refine ⟨by rw [step_nil, hidle], congrArg Clk.cyc hclk, fun _ => hclk, fun hr hm => absurd h (by simp [hr, hm]), ?_,
      hhold.regs⟩
    rw [hclk]
    exact hhold.same
  · have hidle : d.idle = { d with clk := d.clk.plus d.clk.addend }.cycles 1 := if_neg h
    obtain ⟨-, -, hclk, -⟩ := htick.rest
    rw [hidle]
    refine ⟨by rw [step_nil, hidle], congrArg Clk.cyc hclk, fun hr => absurd hr h, fun _ _ => hclk, ?_, htick.regs⟩
    rw [hclk]
    exact htick.same

/-! ### The servo, steps and the PPS input (R438 to R441) -/

theorem servoSample_answers {f p : Int} {d : Dev} (hp : d.tim.sample = some p) (hs : d.hasSource = true) :
    Answers (.servoSample f) d ({ d with tim := { d.tim with sample := none, heardAt := d.clk.cyc } }.servo p f) := by
  have hs' : Dev.hasSource { d with tim := { d.tim with sample := none, heardAt := d.clk.cyc } } = true := hs
  refine answers_of_run (execServoSample f) rfl (fun _ => rfl) rfl ?_
  simp only [hp, hs', if_true]

theorem ppsInEdge_armed {d : Dev} (hgo : d.on F.TIM_SET_NS_GO = true) (hpps : d.on F.TIM_SET_NS_AT_PPS = true) :
    Answers .ppsInEdge d ((d.step (d.get F.TIM_SET_SEC_SEC * 1000000000 * 65536)).set F.TIM_SET_NS_GO 0) :=
  answers_of_run execPpsInEdge rfl (fun _ => rfl) rfl (if_pos (by simp [hgo, hpps]))

/-- An edge that no armed step waits for samples the distance from the nearest whole second (R438). -/
theorem ppsInEdge_sampled {x : Int} {d : Dev} (hgo : (d.on F.TIM_SET_NS_GO && d.on F.TIM_SET_NS_AT_PPS) = false)
    (hsrc : d.use F.TIM_CFG_SRC = 2) (hm : d.mode ≠ 3) (hx : x = d.clk.ns * 65536 + d.clk.frac / 65536) :
    Answers .ppsInEdge d { d with tim := { d.tim with
      sample := some (if x ≤ 500000000 * 65536 then x else x - 1000000000 * 65536) } } := by
  refine answers_of_run execPpsInEdge rfl (fun _ => rfl) rfl ?_
  rw [hx, if_neg (by simp [hgo]), if_pos ⟨hsrc, hm⟩]

/-! ### PTP messages (R442, R443) -/

section

variable {m : PtpIn} {d : Dev} (hok : m.ok = true) (hlink : d.on F.UPL_STAT_LINK_UP m.port = true)
  (hrx : d.useB F.UPL_MACCFG_RX_EN m.port = true) (hm4 : d.mode ≠ 4) (hm5 : d.mode ≠ 5)
  (hdom : m.domain.val = d.use F.TIM_PTPCFG_DOMAIN) (htr : m.transport.val = d.use F.TIM_PTPCFG_TRANSPORT)
  (hslave : d.ptpSlave m.port = true)
include hok hlink hrx hm4 hm5 hdom htr hslave

/-- A Sync of the domain on the slave port begins an exchange. -/
theorem ptpMessageRx_sync (hkind : m.kind.val = 0) :
    Answers (.ptpMessageRx m) d
      ({ d with tim := { d.tim with slave := { d.tim.slave with
        syncSeq := m.seq.val, t2 := d.now16, corr1 := m.corr,
        t1 := if m.twoStep then none else some m.time } } }.bump F.TIM_CNT_COUNT 6) := by
  refine answers_of_run (execPtpMessageRx m) rfl (fun _ => rfl) hok ?_
  simp [hlink, hrx, hm4, hm5, hdom, htr, hslave, hkind]

/-- An Announce of the domain on the slave port is the grandmaster's. -/
theorem ptpMessageRx_announce (hkind : m.kind.val = 11) :
    Answers (.ptpMessageRx m) d ({ d with tim := { d.tim with gm := m.body } }.bump F.TIM_CNT_COUNT 6) := by
  refine answers_of_run (execPtpMessageRx m) rfl (fun _ => rfl) hok ?_
  simp [hlink, hrx, hm4, hm5, hdom, htr, hslave, hkind]

end

/-- A Sync leaves a master port at its interval. -/
theorem ptpMessageTx_sync {port : LanePort} {kind : Fin 16} {d e : Dev} (hleaves : d.ptpLeaves port = true)
    (he : e = d.ptpDue (port.val * 16 + kind.val)) (hlater : e.ptpLeaves port = true) (hmaster : e.ptpMaster port = true)
    (hkind : kind.val = 0) :
    Answers (.ptpMessageTx port kind) d
      (let key := port.val * 16 + kind.val
      let seq := Tbl.get 0 d.tim.seqs key
      { e with tim := { e.tim with
        seqs := Tbl.set e.tim.seqs key ((seq + 1) % 65536), sentAt := Tbl.set e.tim.sentAt key e.clk.cyc } }.ptpSend
        { port := port, kind := 0, seq := seq, origin := e.now16, corr := 0, body := [] }) := by
  refine answers_of_run (execPtpMessageTx port kind) rfl (fun _ => rfl) rfl ?_
  simp only [hleaves, if_true, ← he]
  rw [if_neg (by simp [hlater]), if_pos (by simp [hmaster, hkind])]

/-! ### Triggers (R449, R450) -/

section

variable {k : Fin 16} {d : Dev} (hen : d.useB F.TIM_TRIG_CTL_ENABLE k = true) (hm : d.mode ≠ 4)
include hen hm

theorem triggerFire_once (hmode : d.use F.TIM_TRIG_CTL_MODE k = 1) (hspent : (d.trig k).spent = false)
    (hstart : d.nowNs ≤ d.trigStart k) :
    Answers (.triggerFire k) d
      ((d.runTo (d.trigStart k)).assertTrig k { d.trig k with spent := true } (d.trigStart k * 8)) := by
  refine answers_of_run (execTriggerFire k) rfl (fun _ => rfl) rfl ?_
  simp [hen, hm, hmode, hspent, Nat.not_lt.mpr hstart]

theorem triggerFire_periodic {per from_ at_ : Nat} (hmode : d.use F.TIM_TRIG_CTL_MODE k = 2)
    (hper : per = max 1 (d.use F.TIM_TRIG_TIME_PERIOD k)) (hfrom : from_ = max d.nowNs (d.trig k).after)
    (hat : at_ = if from_ ≤ d.trigStart k then d.trigStart k else d.trigStart k + cdiv (from_ - d.trigStart k) per * per) :
    Answers (.triggerFire k) d ((d.runTo at_).assertTrig k { d.trig k with after := at_ + 1 } (at_ * 8)) := by
  subst hat hfrom hper
  refine answers_of_run (execTriggerFire k) rfl (fun _ => rfl) rfl ?_
  simp [hen, hm, hmode]

theorem triggerFire_planned {a : Int} {r : List Int} (hmode : d.use F.TIM_TRIG_CTL_MODE k = 3)
    (hplan : (d.trig k).plan = a :: r) :
    Answers (.triggerFire k) d ((d.runTo (a.toNat / 8)).assertTrig k { d.trig k with plan := r } a.toNat) := by
  refine answers_of_run (execTriggerFire k) rfl (fun _ => rfl) rfl ?_
  simp [hen, hm, hmode, hplan, Dev.trigAt]

end

/-- The oldest of several pulses ends while the pin stays high. -/
theorem triggerEnd_overlapping {k : Fin 16} {e : Nat} {r : List Nat} {d : Dev} (hp : (d.trig k).pulses = e :: r)
    (hr : r ≠ []) :
    Answers (.triggerEnd k) d ((d.runTo (cdiv e 8)).setTrig k { d.trig k with pulses := r }) := by
  refine answers_of_run (execTriggerEnd k) rfl (fun _ => rfl) rfl ?_
  simp [hp, hr]

/-! ### The PPS output and captures (R451, R452) -/

theorem capEdge_stamped {k : Fin 4} {rising : Bool} {d : Dev} (hm : d.mode ≠ 4)
    (hsel : bit (d.use F.TIM_CAPCTL_EDGE k) (if rising then 0 else 1) = true)
    (hlast : Tbl.find? d.tim.capLast k = none) (hroom : (Tbl.get [] d.tim.caps k).length < 16) :
    Answers (.capEdge k rising) d
      (let f := Tbl.get [] d.tim.caps k ++ [{ sec := d.clk.sec, ns := d.clk.ns, frac := d.clk.frac / 2 ^ 29 * 8192 }]
      { d with tim := { d.tim with
        caps := Tbl.set d.tim.caps k f, capLast := Tbl.set d.tim.capLast k d.clk.cyc } }.set
          F.TIM_CAPSTAT_DEPTH f.length k) := by
  refine answers_of_run (execCapEdge k rising) rfl (fun _ => rfl) rfl ?_
  simp [hm, hsel, hlast, Nat.not_le.mpr hroom]

/-- A host read other than through REGISTER_READ, of a part out of reset and of VIGIL (R39). -/
theorem answers_of_hostR {i : Instr} (x : State → Res) {f : Dev → Dev} {d : Dev} (hx : exec i = x)
    (hr : ∀ s, x s = run i s fun d => d.hostR f) (hw : i.wf = true) (hheld : d.boot.resetHeld = false) (hm : d.mode ≠ 4) :
    Answers i d (f d) :=
  answers_of_run x hx hr hw (if_neg (by simp [hheld, hm]))

/-- Settles O53: each clause is the branch of its command whose condition the clause names. -/
theorem timeCommandsComplete : Obligations.TimeCommandsComplete :=
  ⟨fun _ _ _ hp hs => servoSample_answers hp hs,
    fun _ hstate => answers_of_run execSourceLoss rfl (fun _ => rfl) rfl (if_pos hstate),
    fun ns atPps _ ho => answers_of_hostW (execClockStep ns atPps) rfl (fun _ => rfl) rfl ho rfl,
    fun _ hgo hpps => ppsInEdge_armed hgo hpps,
    fun _ _ hgo hsrc hm hx => ppsInEdge_sampled hgo hsrc hm hx,
    fun _ _ hok hlink hrx hm4 hm5 hdom htr hslave hkind =>
      ptpMessageRx_sync hok hlink hrx hm4 hm5 hdom htr hslave hkind,
    fun _ _ hok hlink hrx hm4 hm5 hdom htr hslave hkind =>
      ptpMessageRx_announce hok hlink hrx hm4 hm5 hdom htr hslave hkind,
    fun _ _ _ _ hleaves he hlater hmaster hkind => ptpMessageTx_sync hleaves he hlater hmaster hkind,
    fun _ _ hen hm hmode hspent hstart => triggerFire_once hen hm hmode hspent hstart,
    fun _ _ _ _ _ hen hm hmode hper hfrom hat => triggerFire_periodic hen hm hmode hper hfrom hat,
    fun _ _ _ _ hen hm hmode hplan => triggerFire_planned hen hm hmode hplan,
    fun _ _ _ _ hp hr => triggerEnd_overlapping hp hr,
    fun _ hen hm => answers_of_guard execPpsOutPulse rfl (fun _ => rfl) rfl (by simp [hen, hm]) rfl,
    fun _ _ _ hm hsel hlast hroom => capEdge_stamped hm hsel hlast hroom,
    fun k _ hheld hm => answers_of_hostR (execCapturePop k) rfl (fun _ => rfl) rfl hheld hm,
    fun _ hheld hm => answers_of_hostR execNowRead rfl (fun _ => rfl) rfl hheld hm⟩

end Sys2Proof.Machine

/-!
PROOFS of the statements of 17_redundancy.md: the completion of the stitch messages (R463 to R475) and of a pair's events (R464 to
R485).
-/

namespace Sys2Proof.Machine

open Sys2Proof Sys2Proof.Crypto

/-! ### Stitch messages (R463 to R475) -/

/-- A message that a standby with the link up takes. -/
theorem answers_of_standby {i : Instr} (x : State → Res) {f : Dev → Dev} {d e : Dev} (hx : exec i = x)
    (hr : ∀ s, x s = run i s fun d => if d.standby && d.stitchUp then f d else d) (hw : i.wf = true)
    (hs : d.standby = true) (hu : d.stitchUp = true) (he : f d = e) : Answers i d e :=
  answers_of_guard x hx hr hw (Bool.and_eq_true_iff.mpr ⟨hs, hu⟩) he

/-- A message that an active device with the link up takes. -/
theorem answers_of_active {i : Instr} (x : State → Res) {f : Dev → Dev} {d e : Dev} (hx : exec i = x)
    (hr : ∀ s, x s = run i s fun d => if d.active && d.stitchUp then f d else d) (hw : i.wf = true)
    (ha : d.active = true) (hu : d.stitchUp = true) (he : f d = e) : Answers i d e :=
  answers_of_guard x hx hr hw (Bool.and_eq_true_iff.mpr ⟨ha, hu⟩) he

section

variable {d e : Dev} (hp : d.paired = true) (hb : d.booted = true) (hl : d.get F.STL_STAT_LINK ≠ 0)
include hp hb hl

/-- A HELLO on a stitch link that is there (R463). -/
theorem hello_answers {h : HelloIn}
    (he : (if d.pairs h then (d.takeHello h).handBack
      else { d with stl := { d.stl with mismatch := true } }.linkGone.stlAlarm F.STL_STAT_MISMATCH) = e) :
    Answers (.hello h) d e :=
  answers_of_guard (execHello h) rfl (fun _ => rfl) rfl (by simp [hp, hb, hl]) he

/-- A message to this device that failed twice (R466). -/
theorem msgLost_received {type : Fin 256} :
    Answers (.msgLost type false) d
      (let e := d.flag F.STL_STAT_MSGLOST
      if e.standby ∧ (type.val = 0x06 ∨ type.val = 0x07 ∨ type.val = 0x0A ∨ type.val = 0x0B) then e.unsync else e) := by
  refine answers_of_guard (execMsgLost type false) rfl (fun _ => rfl) rfl (by simp [hp, hb, hl]) ?_
  simp only [Bool.false_eq_true, if_false]

/-- A message of this device that failed twice and is not sent again (R466). -/
theorem msgLost_sent {type : Fin 256} (h1 : type.val ≠ 1) (h4 : type.val ≠ 4) (h5 : type.val ≠ 5) :
    Answers (.msgLost type true) d ((d.flag F.STL_STAT_MSGLOST).stlCount 9) := by
  refine answers_of_guard (execMsgLost type true) rfl (fun _ => rfl) rfl (by simp [hp, hb, hl]) ?_
  simp only [h1, h4, h5, or_self, if_true, if_false]

end

/-- A SYNCED standby that no "shut down" holds takes over on RELEASE (R477). -/
theorem takeLease_synced {d : Dev} {p : Nat} (hask : d.shutdownAsked = false) (hsync : d.on F.STL_STAT_SYNCED = true) :
    d.takeLease p = ((d.dropAsked.applyCopy.takeOver 2 1 (p + 2)).stlCount 10).endForwarded 0 := by
  rw [Dev.takeLease, if_neg (by simp [hask]), if_pos hsync]

/-- Settles O54: each clause is the branch of its message whose condition the clause names. -/
theorem stitchMessagesComplete : Obligations.StitchMessagesComplete :=
  ⟨fun _ _ hp hb hl hpairs => hello_answers hp hb hl (if_pos hpairs),
    fun _ _ hp hb hl hpairs => hello_answers hp hb hl (if_neg (by simp [hpairs])),
    fun f epoch fl _ hs hu ht =>
      answers_of_guard (execRenew f epoch fl) rfl (fun _ => rfl) rfl (by simp [hs, hu, ht]) rfl,
    fun f fl _ ha hu hrel hf =>
      answers_of_guard (execStitchAck f fl) rfl (fun _ => rfl) rfl (by simp [ha, hu, hrel, hf]) rfl,
    fun p _ hs hu ht hask hsync =>
      answers_of_guard (execRelease p) rfl (fun _ => rfl) rfl (by simp [hs, hu, ht]) (takeLease_synced hask hsync),
    fun cause _ ha hu hrel =>
      answers_of_guard (execResign cause) rfl (fun _ => rfl) rfl (by simp [ha, hu, hrel]) rfl,
    fun f recs _ hok hs hu => answers_of_standby (execDelta f recs) rfl (fun _ => rfl) hok hs hu rfl,
    fun recs last _ hok hs hu => answers_of_standby (execBulk recs last) rfl (fun _ => rfl) hok hs hu rfl,
    fun f count crc _ hs hu => answers_of_standby (execCommit f count crc) rfl (fun _ => rfl) rfl hs hu rfl,
    fun us _ hs hu => answers_of_standby (execStitchLearn us) rfl (fun _ => rfl) rfl hs hu rfl,
    fun slot wrapped _ hlen hs hu hslot =>
      answers_of_guard (execStitchKey slot wrapped) rfl (fun _ => rfl) (decide_eq_true hlen) (by simp [hs, hu, hslot]) rfl,
    fun a data _ hlen h8 hs hu =>
      answers_of_standby (execStitchConfig a data) rfl (fun _ => rfl)
        (Bool.and_eq_true_iff.mpr ⟨decide_eq_true hlen, decide_eq_true h8⟩) hs hu rfl,
    fun ch target entries _ hlen hs hu hen =>
      answers_of_guard (execStitchMap ch target entries) rfl (fun _ => rfl) (decide_eq_true hlen)
        (by simp [hs, hu, hen]) rfl,
    fun t1 _ ha hu => answers_of_active (execTimeReq t1) rfl (fun _ => rfl) rfl ha hu rfl,
    fun t1 t2 t3 _ hs hu => answers_of_standby (execTimeResp t1 t2 t3) rfl (fun _ => rfl) rfl hs hu rfl,
    fun _ ha hu => answers_of_active execResyncReq rfl (fun _ => rfl) rfl ha hu rfl⟩

/-! ### The events of a pair (R464 to R485) -/

section

variable {hdrs : List (Fin 8 × List (Fin 4))} {d l : Dev} (hp : d.paired = true) (hb : d.booted = true) (hm : d.mode ≠ 4)
  (hl : l = (hdrs.foldl Dev.stHeaders d).stitchLanes (hdrs.foldl Dev.stHeaders d).stMask)
include hp hb hm hl

/-- The first link begins with HELLO (R464). -/
theorem stitchLinkChange_up (hold : d.get F.STL_STAT_LINK = 0) (hnow : l.get F.STL_STAT_LINK ≠ 0) :
    Answers (.stitchLinkChange hdrs) d { l with stl := { l.stl with mismatch := false } }.sendHello := by
  refine answers_of_guard (execStitchLinkChange hdrs) rfl (fun _ => rfl) rfl (by simp [hp, hb, hm]) ?_
  simp only [← hl]
  rw [if_neg (by simp [hold]), if_pos ⟨hold, hnow⟩]

theorem stitchLinkChange_down (hold : d.get F.STL_STAT_LINK ≠ 0) (hnow : l.get F.STL_STAT_LINK = 0) :
    Answers (.stitchLinkChange hdrs) d l.linkGone := by
  refine answers_of_guard (execStitchLinkChange hdrs) rfl (fun _ => rfl) rfl (by simp [hp, hb, hm]) ?_
  simp only [← hl]
  exact if_pos ⟨hnow, hold⟩

end

/-- A standby that has lost its partner takes over (R478). -/
theorem lossTakeover_lost {d : Dev} {f : Nat} (hask : d.shutdownAsked = false) (hf : d.lossAt = some f) :
    d.lossTakeover =
      (let e := (d.dropAsked.runTo (f * 125000)).stlAlarm F.STL_STAT_LOSS
      let start := max (e.stl.promise + 2) (e.frameNow + 3)
      ((((e.runTo (start * 125000)).applyCopy.takeOver 4 2 start).stlCount 10).endForwarded 0x01).startTx) := by
  simp only [Dev.lossTakeover, hf, hask, Bool.false_eq_true, if_false]

section

variable {c : Ch} {d : Dev} (hp : d.paired = true) (hb : d.booted = true) (hen : d.enabled c = true)
  (hnot : d.on F.STL_CHSTAT_TX_SUSPECT c = false)
include hp hb hen hnot

/-- A fault of its optics module makes a channel suspect (R480). -/
theorem txSuspect_optics (hfault : d.opticsFault c = true) :
    Answers (.txSuspect c true) d (d.suspect c).handBack := by
  refine answers_of_guard (execTxSuspect c true) rfl (fun _ => rfl) rfl (by simp [hp, hb, hen, hnot]) ?_
  simp only [if_true, hfault]

/-- A channel on which no burst has been found becomes suspect when its time is up (R480). -/
theorem txSuspect_silent {f : Nat} (hf : d.silentAt c = some f) :
    Answers (.txSuspect c false) d ((d.runTo (f * 125000)).suspect c).handBack := by
  refine answers_of_guard (execTxSuspect c false) rfl (fun _ => rfl) rfl (by simp [hp, hb, hen, hnot]) ?_
  simp only [Bool.false_eq_true, if_false, hf]

end

/-- A former active device that is not SYNCED revives after its silence (R482). -/
theorem revival_standby {d : Dev} (hs : d.standby = true) (hsync : d.on F.STL_STAT_SYNCED = false)
    (hu : d.stitchUp = false) (hwas : d.stl.wasActive = true) (hen : d.useB F.STL_CFG_REVIVE_EN = true)
    (ht : d.arb.trans = none) (hask : d.shutdownAsked = false) :
    Answers .revival d
      (let e := d.dropAsked.runTo ((max d.stl.lease d.stl.promise + 2 + d.use F.STL_CFG_SILENCE_FRAMES) * 125000)
      let start := e.frameNow + 3
      (((e.runTo (start * 125000)).takeOver 4 2 start).stlCount 12).startTx) := by
  refine answers_of_run execRevival rfl (fun _ => rfl) rfl ?_
  simp only
  rw [if_pos (by simp [hs, hsync, hu, hwas, hen, ht]), if_neg (by simp [hask])]

/-- Settles O55: each clause is the branch of its command whose condition the clause names. -/
theorem redundancyEventsComplete : Obligations.RedundancyEventsComplete :=
  ⟨fun _ _ hp hb hl => msgLost_received hp hb hl,
    fun _ _ hp hb hl h1 h4 h5 => msgLost_sent hp hb hl h1 h4 h5,
    fun _ _ hp hb hm hold hnow => stitchLinkChange_up hp hb hm rfl hold hnow,
    fun _ _ hp hb hm hold hnow => stitchLinkChange_down hp hb hm rfl hold hnow,
    fun _ _ hs hsync ht hask hf =>
      answers_of_guard execLossTakeover rfl (fun _ => rfl) rfl (by simp [hs, hsync, ht]) (lossTakeover_lost hask hf),
    fun _ _ hp hb hen hnot hfault => txSuspect_optics hp hb hen hnot hfault,
    fun _ _ _ hp hb hen hnot hf => txSuspect_silent hp hb hen hnot hf,
    fun _ hs hsync hu hwas hen ht hask => revival_standby hs hsync hu hwas hen ht hask,
    fun _ ha hwait hu =>
      answers_of_guard execLinkWaitExpired rfl (fun _ => rfl) rfl (by simp [ha, hwait, hu]) rfl⟩

end Sys2Proof.Machine

/-!
PROOFS of the statements of 18_microcode.md: the completion of the commands of the Scribes (R495 to R514) and of Quill (R505 to
R533).
-/

namespace Sys2Proof.Machine

open Sys2Proof

/-! ### Scribes (R498 to R514) -/

/-- A halted Scribe restarts: what waits is dropped but what the host asked for (R504). -/
theorem scribeRestart_halted {d : Dev} {c : Nat} (h : d.get F.SCR_STAT_STATE c = 3) :
    d.scribeRestart c =
      (let s := d.scribe c
      let l := s.todo.filter fun e => match e.2 with
        | .host .. => true
        | _ => false
      let e := s.inbox.foldl (fun e _ => e.inboxPop c) d
      let e := e.setScribe c { e.scribe c with todo := l }
      ((e.set F.SCR_STAT_STATE 0 c).bump F.SCR_CNT_COUNT c 9).showHalt) := by
  rw [Dev.scribeRestart, if_pos h] <;> rfl

/-- A trace configuration with a legal target is stored and begins a new trace (R513). -/
theorem writeTrcCfg_legal {d : Dev} {v : Nat} (h : written F.SCR_TRCCFG_TARGET v ≤ 128) :
    d.writeTrcCfg v =
      (let e := d.store RegOf.SCR_TRCCFG 0 0 v
      ({ e with micro := { trace := [], running := false, ended := false } }.set F.SCR_TRCCFG_COUNT 0).set
        F.SCR_TRCCFG_WRAPPED 0) :=
  if_neg (by omega)

/-- A read of a patch word through the Scribes' port (R514). -/
theorem scrRead_patch {d : Dev} {index : Nat} (hbusy : d.on F.SCR_IND_CTL_BUSY = false) :
    d.scrRead index 0 =
      (let e := (d.set F.SCR_IND_CTL_INDEX index).set F.SCR_IND_CTL_TABLE 0
      e.showData F.SCR_IND_DATA_DATA 2 (Tbl.get 0 (e.scribe (index / 512)).patches (index % 512))) := by
  have hlegal : ¬(0 = 3 ∨ (0 = 1 ∧ 64 ≤ index) ∨ (0 = 2 ∧ 1024 ≤ index)) := by omega
  simp only [Dev.scrRead, hbusy, Bool.false_eq_true, if_false, if_neg hlegal]

/-- Settles O56: each clause is the branch of its command whose condition the clause names. -/
theorem microcodeCommandsComplete : Obligations.MicrocodeCommandsComplete :=
  ⟨fun c _ _ _ _ _ _ => answers_of_run (execRoutineRestart c) rfl (fun _ => rfl) rfl rfl,
    fun c _ hup => answers_of_guard (execWatchdog c) rfl (fun _ => rfl) rfl hup rfl,
    fun c addr _ _ => answers_of_run (execPatchReloadDone c addr) rfl (fun _ => rfl) rfl rfl,
    fun c _ ho hhalt =>
      answers_of_hostW (execScribeRestart c) rfl (fun _ => rfl) rfl ho (scribeRestart_halted hhalt),
    fun v _ ho htarget =>
      answers_of_hostW (execTraceConfig v) rfl (fun _ => rfl) rfl ho (writeTrcCfg_legal htarget),
    fun index _ ho hbusy =>
      answers_of_hostW (execScrIndRead index 0) rfl (fun _ => rfl) rfl ho (scrRead_patch hbusy)⟩

/-! ### Quill's samples and polls (R515, R516) -/

/-- A part out of reset on which Quill runs takes a sample (R515). -/
theorem quillSample_runs {x : QuillIn} {d e : Dev} (hok : x.ok = true) (hheld : d.boot.resetHeld = false)
    (he : e = (d.reach d.sampleAt).tripSample x.dies) (hruns : e.quillRuns = true) :
    Answers (.quillSample x) d (e.sampleLoop x) := by
  refine answers_of_run (execQuillSample x) rfl (fun _ => rfl) hok ?_
  simp only [hheld, Bool.false_eq_true, if_false, ← he, hruns, if_true]

/-- A sample of which no patch word takes the place (R505, R515 to R517). -/
theorem sampleLoop_unpatched {x : QuillIn} {e r z : Dev} (hk : (e.quillPatch 0x010).2 = true)
    (hr : r = ((((((e.quillPatch 0x010).1.takeSamples 0 x.dies).takeSamples 24 x.supplies).takeSamples 32 x.hbm).takeAdc
      x.adc).vigilSeconds).1)
    (hz : z = r.takeSample 52 ((((((e.quillPatch 0x010).1.takeSamples 0 x.dies).takeSamples 24 x.supplies).takeSamples 32
      x.hbm).takeAdc x.adc).vigilSeconds).2)
    (hz2 : (z.quillPatch 0x200).2 = true) : e.sampleLoop x = (z.quillPatch 0x200).1.showSeq 1 := by
  subst hr
  simp only [Dev.sampleLoop, hk, Bool.true_eq_false, if_false, ← hz, hz2, if_true]

section

variable {m : Fin 128} {d : Dev} (hruns : d.quillRuns = true) (hdue : d.pollDue m = true)
include hruns hdue

/-- A poll that is due and is answered (R516). -/
theorem opticsPoll_answered (o : OptIn) :
    Answers (.opticsPoll m (some o)) d
      (let k := 64 + 4 * m.val
      ((((d.pollStart m).takeSample k (sgn 16 o.temp.val)).takeSample (k + 1) (sgn 16 o.supply.val)).takeSample (k + 2)
        (sgn 16 o.rx.val)).takeSample (k + 3) ((o.flags.val : Nat) : Int)) := by
  refine answers_of_guard (execOpticsPoll m (some o)) rfl (fun _ => rfl) rfl (by simp [hruns, hdue]) ?_
  simp only

/-- A poll that is due and fails (R516). -/
theorem opticsPoll_failed :
    Answers (.opticsPoll m none) d
      (foldUpTo 4 (fun v e => e.failSample (64 + 4 * m.val + v)) ((d.pollStart m).bump F.QUL_CNT_COUNT 4)) := by
  refine answers_of_guard (execOpticsPoll m none) rfl (fun _ => rfl) rfl (by simp [hruns, hdue]) ?_
  simp only

end

/-! ### Quill's passes, parity and trip (R505, R507, R522) -/

section

variable {d e : Dev} (hruns : d.quillRuns = true)
include hruns

/-- A pass that no patch word ends runs every rule. -/
theorem quillPass_whole (hk : (d.bump F.QUL_CNT_COUNT 0).quillPatch 0x400 = (e, true)) :
    Answers .quillPass d (((List.range 64).foldl Pass.rule { d := e, off := [], on := [] }).finish.showSeq 2) := by
  refine answers_of_guard execQuillPass rfl (fun _ => rfl) rfl hruns ?_
  simp only [hk, if_true]

/-- A pass that patch words end before its rules. -/
theorem quillPass_patched (hk : (d.bump F.QUL_CNT_COUNT 0).quillPatch 0x400 = (e, false)) : Answers .quillPass d e := by
  refine answers_of_guard execQuillPass rfl (fun _ => rfl) rfl hruns ?_
  simp only [hk, Bool.false_eq_true, if_false]

end

/-- The trip of an armed part, once an excursion (R522). -/
theorem thermalTrip_armed {d : Dev} (hhot : d.quill.hotTwice = true) (harmed : d.quill.armed = true)
    (hheld : d.boot.resetHeld = false) :
    Answers .thermalTrip d
      (((({ d with quill := { d.quill with armed := false, cool := 0 } }.flag F.QUL_STAT_TRIP).alert 3).alertActive 3
        true).askTrig .trip) :=
  answers_of_run execThermalTrip rfl (fun _ => rfl) rfl (if_pos ⟨hhot, harmed, by simp [hheld]⟩)

/-! ### Quill's port (R533) -/

section

variable {d : Dev} {index table : Nat} (hbusy : d.on F.QUL_IND_CTL_BUSY = false)
include hbusy

theorem qulAccess_read (hi : qulBeyond table index = false) :
    d.qulAccess index table false =
      (let e := ((d.set F.QUL_IND_CTL_INDEX index).set F.QUL_IND_CTL_TABLE table).set F.QUL_IND_CTL_WRITE 0
      let r := e.qulRec table index
      r.1.showData F.QUL_IND_DATA_DATA 4 r.2) := by
  simp only [Dev.qulAccess, hbusy, hi, Bool.false_eq_true, if_false, b2n]

/-- The tables with an even number are the host's to write. -/
theorem qulAccess_write (ht : table % 2 = 0) :
    d.qulAccess index table true =
      (let e := ((d.set F.QUL_IND_CTL_INDEX index).set F.QUL_IND_CTL_TABLE table).set F.QUL_IND_CTL_WRITE 1
      let r := e.readData F.QUL_IND_DATA_DATA 2
      if qulBeyond table index ∨ (table = 2 ∧ ruleOk r = false) then e.qulRefuse
      else if table = 0 then e.putFilter index r
      else e.putRule index r) := by
  have hodd : ¬table % 2 = 1 := by omega
  simp only [Dev.qulAccess, hbusy, hodd, Bool.false_eq_true, if_false, if_true, false_or, b2n]

end

/-- Settles O57: each clause is the branch of its command whose condition the clause names. -/
theorem quillCommandsComplete : Obligations.QuillCommandsComplete :=
  ⟨fun _ _ hok hheld hruns => quillSample_runs hok hheld rfl hruns,
    fun _ _ _ _ _ hok hheld he hruns hk hr hz hz2 =>
      sampleLoop_unpatched hk hr hz hz2 ▸ quillSample_runs hok hheld he hruns,
    fun _ o _ hruns hdue => opticsPoll_answered hruns hdue o,
    fun _ _ hruns hdue => opticsPoll_failed hruns hdue,
    fun _ _ hruns hk => quillPass_whole hruns hk,
    fun _ _ hruns hk => quillPass_patched hruns hk,
    fun _ hruns => answers_of_guard execQuillParityRestart rfl (fun _ => rfl) rfl hruns rfl,
    fun _ hhot harmed hheld => thermalTrip_armed hhot harmed hheld,
    fun index table _ ho hbusy hi =>
      answers_of_hostW (execQulIndRead index table) rfl (fun _ => rfl) rfl ho (qulAccess_read hbusy hi),
    fun index table _ ho hbusy ht =>
      answers_of_hostW (execQulIndWrite index table) rfl (fun _ => rfl) rfl ho (qulAccess_write hbusy ht)⟩

end Sys2Proof.Machine

/-!
PROOFS of the statements of 20_boot_image.md: the flash port (R549), the completion of the boot's commands (R536 to R549), and the
memory form at reset.
-/

namespace Sys2Proof.Machine

open Sys2Proof

/-! ### The flash port (R549) -/

theorem set_boot (d : Dev) (f : Fld) (v i j : Nat) : (d.set f v i j).boot = d.boot := by rw [(set_notes d f v i j).same]

/-- What folds over registers keeps, the fold keeps. -/
theorem foldUpTo_keeps {α : Type} (p : α → Prop) {n : Nat} {f : Nat → α → α} {x : α} (h : p x)
    (hf : ∀ i y, p y → p (f i y)) : p (foldUpTo n f x) := by
  unfold foldUpTo
  induction List.range n generalizing x with
  | nil => exact h
  | cons i r ih => exact ih (hf i x h)

theorem showPage_boot (d : Dev) (l : List Byte) : (d.showPage l).boot = d.boot :=
  foldUpTo_keeps (fun e : Dev => e.boot = d.boot) rfl fun _ _ he => (set_boot ..).trans he

/-- One byte of the flash, which reads 0xFF where it is erased. -/
theorem flashBytes_one (d : Dev) (a : Nat) : d.flashBytes a 1 = [Mem.read d.boot.flash a ^^^ 0xFF] := rfl

/-- Devices with one boot domain have one flash. -/
theorem flashBytes_of_boot {d e : Dev} (h : e.boot.flash = d.boot.flash) (a n : Nat) :
    e.flashBytes a n = d.flashBytes a n := by rw [Dev.flashBytes, h, Dev.flashBytes]

theorem getD_readN (m : Mem) {a k n : Nat} (h : k < n) : (Mem.readN m a n).getD k 0 = Mem.read m (a + k) := by
  induction n generalizing a k with
  | zero => omega
  | succ n ih =>
    cases k with
    | zero => rfl
    | succ k =>
      rw [Mem.readN, List.getD_cons_succ, ih (by omega), Nat.add_right_comm, Nat.add_assoc]

theorem length_readN (m : Mem) (a n : Nat) : (Mem.readN m a n).length = n := by
  induction n generalizing a with
  | zero => rfl
  | succ n ih => rw [Mem.readN, List.length_cons, ih]

/-- A byte among those that the flash reads. -/
theorem getD_flashBytes {d : Dev} {a k n : Nat} (h : k < n) : [(d.flashBytes a n).getD k 0] = d.flashBytes (a + k) 1 := by
  rw [flashBytes_one, ← getD_readN d.boot.flash h, Dev.flashBytes, List.getD_eq_getElem _ _ (by simpa [length_readN] using h),
    List.getD_eq_getElem _ _ (by simpa [length_readN] using h), List.getElem_map]

theorem flashPut_wf {d : Dev} (h : Mem.wf d.boot.flash = true) (a : Nat) (l : List Byte) :
    Mem.wf (d.flashPut a l).boot.flash = true := Mem.wf_writeN _ _ _ h

/-- A write of the flash stores its bytes. -/
theorem flashBytes_flashPut_same {d : Dev} (h : Mem.wf d.boot.flash = true) (a : Nat) {l : List Byte} {k : Nat}
    (hk : k < l.length) : (d.flashPut a l).flashBytes (a + k) 1 = [l.getD k 0] := by
  have hread := Mem.read_writeN_same d.boot.flash (a := a) (l.map fun b => b ^^^ 0xFF) h (by simpa using hk)
  rw [flashBytes_one, Dev.flashPut, hread, List.getD_eq_getElem _ _ (by simpa using hk), List.getElem_map,
    List.getD_eq_getElem _ _ hk, BitVec.xor_assoc, BitVec.xor_self, BitVec.xor_zero]

/-- A write of the flash leaves every other byte alone. -/
theorem flashBytes_flashPut_other (d : Dev) (a : Nat) (l : List Byte) {b : Nat} (hb : b < a ∨ a + l.length ≤ b) :
    (d.flashPut a l).flashBytes b 1 = d.flashBytes b 1 := by
  rw [flashBytes_one, flashBytes_one, Dev.flashPut, Mem.read_writeN_other _ _ (by simpa using hb)]

/-- The bytes that a program of page `a` puts there. -/
def Dev.programmed (d : Dev) (a : Nat) : List Byte :=
  (List.range 256).map fun k =>
    if (d.flashBytes a 256).getD k 0 = 0xFF ∨ (d.flashBytes a 256).getD k 0 = d.pageData.getD k 0 then d.pageData.getD k 0
    else (d.drawBytes 256).2.getD k 0

theorem programPage_eq (d : Dev) (a : Nat) : d.programPage a = (d.drawBytes 256).1.flashPut a (d.programmed a) := rfl

theorem length_programmed (d : Dev) (a : Nat) : (d.programmed a).length = 256 := by simp [Dev.programmed]

/-- An erased byte takes its value from the page. -/
theorem getD_programmed {d : Dev} {a k : Nat} (hk : k < 256) (h : d.flashBytes (a + k) 1 = [0xFF]) :
    (d.programmed a).getD k 0 = d.pageData.getD k 0 := by
  have herased : (d.flashBytes a 256).getD k 0 = 0xFF := List.head_eq_of_cons_eq ((getD_flashBytes hk).trans h)
  rw [Dev.programmed, List.getD_eq_getElem _ _ (by simpa using hk), List.getElem_map, List.getElem_range,
    if_pos (.inl herased)]

/-- The device as the end of a flash operation finds it: the operation has left the port. -/
def Dev.flashIdle (d : Dev) : Dev :=
  ({ d with boot := { d.boot with flashOp := none } }.set F.BOOT_FLCTL_GO 0).set F.BOOT_FLCTL_BUSY 0

theorem flashOpDone_answers {o : FlashOp} {d : Dev} (err : Bool) (h : d.boot.flashOp = some o) :
    Answers (.flashOpDone err) d (d.flashIdle.flashDone o.op o.addr err) := by
  refine answers_of_run (execFlashOpDone err) rfl (fun _ => rfl) rfl ?_
  simp only [h] <;> rfl

theorem flashIdle_boot (d : Dev) : d.flashIdle.boot = { d.boot with flashOp := none } := by
  rw [Dev.flashIdle, set_boot, set_boot]

theorem flashIdle_flash (d : Dev) : d.flashIdle.boot.flash = d.boot.flash := by rw [flashIdle_boot]

/-- The page that waits in BOOT_FLDATA is not touched by the port's end. -/
theorem flashIdle_pageData (d : Dev) : d.flashIdle.pageData = d.pageData := by
  refine List.flatMap_congr fun i hi => ?_
  have hi : i < 32 := List.mem_range.mp hi
  have hcalm : calm (F.BOOT_FLDATA_DATA.key i 0) = true := by
    simp [calm, Fld.key, F.BOOT_FLDATA_DATA]
    omega
  have hgo : F.BOOT_FLDATA_DATA.key i 0 ≠ F.BOOT_FLCTL_GO.key 0 0 := by
    simp only [Fld.key, F.BOOT_FLDATA_DATA, F.BOOT_FLCTL_GO]
    omega
  have hbusy : F.BOOT_FLDATA_DATA.key i 0 ≠ F.BOOT_FLCTL_BUSY.key 0 0 := by
    simp only [Fld.key, F.BOOT_FLDATA_DATA, F.BOOT_FLCTL_BUSY]
    omega
  have hword : d.flashIdle.get F.BOOT_FLDATA_DATA i = d.get F.BOOT_FLDATA_DATA i :=
    (get_set_other _ _ _ _ _ _ _ _ hcalm hbusy).trans (get_set_other _ _ _ _ _ _ _ _ hcalm hgo)
  rw [hword]

/-- A write of the flash, as the end of an operation does it: its bytes stand in their place, and the port is free. -/
theorem flashOpDone_put {a op n : Nat} {d : Dev} (e : Dev) {l : List Byte} (hwf : Mem.wf d.boot.flash = true)
    (hop : d.boot.flashOp = some { op := op, addr := a }) (hboot : e.boot = d.flashIdle.boot)
    (he : d.flashIdle.flashDone op a false = e.flashPut a l) (hlen : l.length = n) :
    ∃ e, Answers (.flashOpDone false) d e ∧ Mem.wf e.boot.flash = true ∧ e.boot.flashOp = none ∧
      (∀ k, k < n → e.flashBytes (a + k) 1 = [l.getD k 0]) ∧
      (∀ b, b < a ∨ a + n ≤ b → e.flashBytes b 1 = d.flashBytes b 1) := by
  subst hlen
  have hans : Answers (.flashOpDone false) d (d.flashIdle.flashDone op a false) :=
    flashOpDone_answers (o := { op := op, addr := a }) false hop
  have hflash : e.boot.flash = d.boot.flash := by rw [hboot, flashIdle_boot]
  have hnone : e.boot.flashOp = none := by rw [hboot, flashIdle_boot]
  have hwfe : Mem.wf e.boot.flash = true := by rwa [hflash]
  exact ⟨e.flashPut a l, he ▸ hans, flashPut_wf hwfe a l, hnone,
    fun k hk => flashBytes_flashPut_same hwfe a hk,
    fun b hb => (flashBytes_flashPut_other e a l hb).trans (flashBytes_of_boot hflash b 1)⟩

theorem flashDone_erase (d : Dev) (a : Nat) : d.flashDone 2 a false = d.flashPut a (List.replicate 65536 0xFF) := by
  simp only [Dev.flashDone, Bool.false_eq_true, if_false]

theorem flashDone_program (d : Dev) (a : Nat) :
    d.flashDone 1 a false = (d.drawBytes 256).1.flashPut a (d.programmed a) := by
  simp only [Dev.flashDone, Bool.false_eq_true, if_false, programPage_eq]

theorem flashDone_read (d : Dev) (a : Nat) : d.flashDone 0 a false = d.showPage (d.flashBytes a 256) := by
  simp only [Dev.flashDone, Bool.false_eq_true, if_false]

/-- Settles O21: an operation that ends well is one write of the flash, or a read of it. -/
theorem flashOperationsStayInTheirBlock : Obligations.FlashOperationsStayInTheirBlock := by
  intro a d hwf
  refine ⟨fun hop => ?_, fun hop => ?_, fun hop => ?_⟩
  · obtain ⟨e, hans, hwfe, hnone, hin, hout⟩ :=
      flashOpDone_put d.flashIdle hwf hop rfl (flashDone_erase ..) List.length_replicate
    exact ⟨e, hans, hwfe, hnone, fun k hk => (hin k hk).trans (by rw [List.getD_replicate _ hk]), hout⟩
  · obtain ⟨e, hans, hwfe, hnone, hin, hout⟩ :=
      flashOpDone_put (d.flashIdle.drawBytes 256).1 hwf hop rfl (flashDone_program ..) (length_programmed ..)
    refine ⟨e, hans, hwfe, hnone, fun k hk herased => (hin k hk).trans ?_, hout⟩
    rw [getD_programmed hk ((flashBytes_of_boot (flashIdle_flash d) ..).trans herased), flashIdle_pageData]
  · have hpage := (showPage_boot d.flashIdle (d.flashIdle.flashBytes a 256)).trans (flashIdle_boot d)
    exact ⟨_, flashOpDone_answers false hop, by rw [flashDone_read, hpage], by rw [flashDone_read, hpage]⟩

/-! ### Resets and boot steps (R536 to R549, R610) -/

/-- A host reset of a part that answers accesses (R536). -/
theorem writeReset_cold {d : Dev} (hheld : d.boot.resetHeld = false) (hm : d.mode ≠ 4) :
    d.writeReset 0xC5 = d.coldReset := if_pos ⟨rfl, by simp [hheld], hm⟩

theorem coldReset_answers {d : Dev} (h : d.boot.powerGood = true) : Answers .coldReset d d.coldReset :=
  answers_of_run execColdReset rfl (fun _ => rfl) rfl (if_pos h)

theorem supplyAndClockGood_answers {d : Dev} (h : d.boot.powerGood = false) :
    Answers .supplyAndClockGood d d.coldReset :=
  answers_of_run execSupplyAndClockGood rfl (fun _ => rfl) rfl (if_neg (by simp [h]))

/-- A boot step that acts in one PHASE. -/
theorem answers_of_phase {i : Instr} (x : State → Res) {p : Dev → Prop} [DecidablePred p] {f : Dev → Dev} {d e : Dev}
    (hx : exec i = x) (hr : ∀ s, x s = run i s fun d => if p d then f d else d) (hw : i.wf = true) (hp : p d)
    (he : f d = e) : Answers i d e :=
  answers_of_run x hx hr hw ((if_pos hp).trans he)

/-- The slot in turn has been read, and is checked (R538 to R540). -/
theorem slotReadDone_checks {x : SlotIn} {d e : Dev} {i : Nat} {r : List Nat}
    (hp : d.get F.BOOT_STAT_PHASE = 2 ∨ d.get F.BOOT_STAT_PHASE = 3)
    (he : e = { d with host := { d.host with linkUp := true } }.stacksReady x.failed) (hs : e.boot.slots = i :: r) :
    Answers (.slotReadDone x) d
      (match e.checkSlot i x.readErr with
      | .bad code => e.failSlot i code 0 0
      | .good rs b =>
        let h := e.header i
        let boot : Boot := { e.boot with records := rs, bundle := b, keyId := le h 9 1, version := le h 24 4 }
        let f := ({ e with boot := boot }.set F.BOOT_STAT_SLOT i).set F.BOOT_STAT_IMAGE_SEQ (le h 20 4)
        (f.set F.BOOT_BUILD_BUILD_ID (le h 32 8)).set F.BOOT_STAT_PHASE 4) := by
  refine answers_of_phase (execSlotReadDone x) rfl (fun _ => rfl) rfl hp ?_
  simp only [← he, hs] <;> rfl

section

variable {d e f : Dev} (hp : d.get F.BOOT_STAT_PHASE = 4) (hf : f = { d.dropImage with imgApplied := true }.clearMirrors)
include hp hf

/-- Records that are all applied leave the checks of the whole (R541). -/
theorem recordsApplied_checks (he : Dev.applyRecords 0 0 f.boot.records f.applyBundle = (e, none)) :
    Answers .recordsApplied d (e.checkConfig (d.get F.BOOT_STAT_SLOT) f.modeRecords) := by
  refine answers_of_phase execRecordsApplied rfl (fun _ => rfl) rfl hp ?_
  simp only [← hf, he]

/-- A record that fails fails its slot (R538). -/
theorem recordsApplied_fails {code n off : Nat}
    (he : Dev.applyRecords 0 0 f.boot.records f.applyBundle = (e, some (code, n, off))) :
    Answers .recordsApplied d (e.clearConfig.failSlot (d.get F.BOOT_STAT_SLOT) code n off) := by
  refine answers_of_phase execRecordsApplied rfl (fun _ => rfl) rfl hp ?_
  simp only [← hf, he]

end

/-- A GO of the flash port that is free, with a legal operation, takes it (R549). -/
theorem flashGo_taken {d : Dev} {op a : Nat} (hbusy : d.on F.BOOT_FLCTL_BUSY = false) (hop : op < 3) (ha : a + 256 ≤ 2 ^ 27)
    (hown : op ≠ 0 → ¬(d.bootDone = true ∧ a / 0x04000000 = d.get F.BOOT_STAT_SLOT))
    (hskew : (op = 1 → a % 256 = 0) ∧ (op = 2 → a % 65536 = 0)) :
    d.flashGo op a =
      (let e := (((d.set F.BOOT_FLCTL_ADDR a).set F.BOOT_FLCTL_OP op).bump F.BOOT_CNT_COUNT 4).set F.BOOT_FLCTL_GO 1
      let e := e.set F.BOOT_FLCTL_BUSY 1
      { e with boot := { e.boot with flashOp := some { op := op, addr := a } } }) := by
  obtain ⟨hpage, hblock⟩ := hskew
  have hslot : (d.bootDone && decide (op ≠ 0) && a / 0x04000000 == d.get F.BOOT_STAT_SLOT) = false := by
    by_contra h
    simp only [Bool.not_eq_false, Bool.and_eq_true, decide_eq_true_eq, beq_iff_eq] at h
    obtain ⟨⟨hdone, hne⟩, hsame⟩ := h
    exact hown hne ⟨hdone, hsame⟩
  have hlegal : (op == 3 || (op == 1 && a % 256 != 0 || op == 2 && a % 65536 != 0 || decide (2 ^ 27 < a + 256))) = false := by
    by_contra h
    simp only [Bool.not_eq_false, Bool.and_eq_true, Bool.or_eq_true, decide_eq_true_eq, beq_iff_eq, bne_iff_ne] at h
    omega
  rw [Dev.flashGo, if_neg (by simp [hbusy])]
  simp only [hslot, hlegal, Bool.or_false, Bool.false_eq_true, if_false]

/-- The BOOT block of a part out of reset and of VIGIL takes a write (R543). -/
theorem answers_of_bootW {i : Instr} (x : State → Res) {f : Dev → Dev} {d e : Dev} (hx : exec i = x)
    (hr : ∀ s, x s = run i s fun d => d.bootW f) (hw : i.wf = true) (hheld : d.boot.resetHeld = false) (hm : d.mode ≠ 4)
    (he : f d = e) : Answers i d e :=
  answers_of_run x hx hr hw ((if_neg (by simp [hheld, hm])).trans he)

/-- Settles O34: each clause is the branch of its command whose condition the clause names. -/
theorem bootStepsComplete : Obligations.BootStepsComplete :=
  ⟨fun _ hgood => coldReset_answers hgood,
    fun _ hheld hm => answers_of_run (execBootReset 0xC5) rfl (fun _ => rfl) rfl (writeReset_cold hheld hm),
    fun _ => answers_of_run execPowerFail rfl (fun _ => rfl) rfl rfl,
    fun _ hgood => supplyAndClockGood_answers hgood,
    fun f _ hp => answers_of_phase (execFusesSensed f) rfl (fun _ => rfl) rfl hp rfl,
    fun _ _ _ _ _ hp he hs => slotReadDone_checks hp he hs,
    fun _ _ _ hp hf he => recordsApplied_checks hp hf he,
    fun _ _ _ _ _ _ hp hf he => recordsApplied_fails hp hf he,
    fun bad _ hp => answers_of_phase (execBootLock bad) rfl (fun _ => rfl) rfl hp rfl,
    fun _ hp => answers_of_phase execTodWaitEnd rfl (fun _ => rfl) rfl hp rfl,
    fun a _ hheld hm hbusy ha =>
      answers_of_bootW (execFlashReadPage a) rfl (fun _ => rfl) rfl hheld hm
        (flashGo_taken hbusy (by decide) ha (by simp) (by simp)),
    fun a _ hheld hm hbusy ha hpage hown =>
      answers_of_bootW (execFlashProgramPage a) rfl (fun _ => rfl) rfl hheld hm
        (flashGo_taken hbusy (by decide) ha (fun _ => hown) (by simp [hpage])),
    fun a _ hheld hm hbusy ha hblock hown =>
      answers_of_bootW (execFlashErase a) rfl (fun _ => rfl) rfl hheld hm
        (flashGo_taken hbusy (by decide) ha (fun _ => hown) (by simp [hblock])),
    fun err _ _ ho => flashOpDone_answers err ho⟩

/-! ### The memory form at reset -/

/-- Settles O31: nothing has been written at reset. -/
theorem resetMeetsTheMemoryForm : Obligations.ResetMeetsTheMemoryForm := ⟨rfl, rfl, rfl, rfl⟩

end Sys2Proof.Machine

/-!
PROOFS of the statements of 21_host_interface.md and 22_telemetry.md: the alert pin (R569), statistics counters (R581, R582), the
Blotter's table (R573), and PMU_GCTL.CLEAR (R593).
-/

namespace Sys2Proof.Machine

open Sys2Proof

/-! ### The alert pin (R569) -/

/-- Some bit of `l` stands that the mask leaves out. -/
theorem and_unmasked_ne_zero {l m : Nat} (hm : m < 2 ^ 16) :
    (l &&& (0xFFFF - m) != 0) = true ↔ ∃ b, b < 16 ∧ l.testBit b = true ∧ m.testBit b = false := by
  have hbit (b : Nat) : (l &&& (0xFFFF - m)).testBit b = (l.testBit b && (decide (b < 16) && !m.testBit b)) := by
    have hmask : 0xFFFF - m = 2 ^ 16 - (m + 1) := by omega
    rw [Nat.testBit_and, hmask, Nat.testBit_two_pow_sub_succ hm]
  rw [bne_iff_ne]
  constructor
  · intro h
    obtain ⟨b, hb⟩ := Nat.exists_testBit_of_ne_zero h
    rw [hbit] at hb
    simp only [Bool.and_eq_true, Bool.not_eq_true', decide_eq_true_eq] at hb
    obtain ⟨hlb, hb16, hmb⟩ := hb
    exact ⟨b, hb16, hlb, hmb⟩
  · rintro ⟨b, hb16, hlb, hmb⟩ h
    have hz := hbit b
    simp [h, hlb, hb16, hmb] at hz

theorem bit_zero_eq_testBit (l : Nat) : bit l 0 = l.testBit 0 := by
  rw [Nat.testBit_zero, bit, bits_eq_div_mod]
  simp [Bool.beq_eq_decide_eq]

/-- Settles O29: the three disjuncts of the pin's definition. -/
theorem theAlertPinFollowsTheUnmaskedConditions : Obligations.TheAlertPinFollowsTheUnmaskedConditions := by
  intro d _ hm
  simp only [Dev.alertLow, Bool.or_eq_true, and_unmasked_ne_zero hm, bit_zero_eq_testBit, beq_iff_eq]
  rw [or_comm]
  exact or_congr_right or_comm

/-! ### Statistics counters (R581, R582) -/

/-- A count that crosses half range posts its HALF_RANGE event, which finds an entry where the Blotter has room (R582). -/
theorem bumpAt_holds_halfRange {d : Dev} {a inst n : Nat} (hlow : Tbl.get 0 d.regs (a * 64) < 2 ^ 39)
    (hhigh : 2 ^ 39 ≤ Tbl.get 0 d.regs (a * 64) + n) (hkey : a * 64 ≠ F.EVT_CFG_ENABLE.key 0 0)
    (he : d.get F.EVT_CFG_ENABLE = 1) (hu : d.blot.used < 1024) :
    (d.bumpAt a inst n).holdsEvent (halfRangeEv a (((findReg a allRegs).map fun x => x.2.1).getD inst)) := by
  have hn : n ≠ 0 := by omega
  have hq : (d.addRaw (a * 64) n).2 = true := by
    simp only [Dev.addRaw, Bool.and_eq_true, decide_eq_true_eq]
    exact ⟨hlow, hhigh⟩
  have hon : ((d.addRaw (a * 64) n).1.pmuCount a n).get F.EVT_CFG_ENABLE = d.get F.EVT_CFG_ENABLE :=
    get_enable_of_find (by rw [(notes_pmuCount ..).same]; rfl)
      ((pmuCount_find _ _ _ _ offMon_enable).trans (Tbl.find?_set_other _ _ hkey.symm))
  have hroom : ((d.addRaw (a * 64) n).1.pmuCount a n).blot.used < 1024 := by rwa [pmuCount_blot]
  simp only [Dev.bumpAt, hn, if_false, hq, if_true]
  exact post_new _ _ (hon.trans he) hroom

/-- A count that does not cross half range leaves the Blotter's table alone (R582). -/
theorem bumpAt_blot_above {d : Dev} {a inst n : Nat} (h : 2 ^ 39 ≤ Tbl.get 0 d.regs (a * 64)) :
    (d.bumpAt a inst n).blot = d.blot := by
  have hq : (d.addRaw (a * 64) n).2 = false := by
    simp only [Dev.addRaw, Bool.and_eq_false_iff, decide_eq_false_iff_not]
    exact .inl (by omega)
  unfold Dev.bumpAt
  split
  · rfl
  · simp only [hq, Bool.false_eq_true, if_false]
    exact pmuCount_blot _ _ _

/-- Settles O12: the count, what noting it changes, and its event. -/
theorem countersAddTheirIncrements : Obligations.CountersAddTheirIncrements := by
  intro a inst n d hcalm hv
  refine ⟨?_, (bumpAt_notes d a inst n).onlyRegs_of_find fun k _ hk => ?_, fun hlow hhigh he hu => ?_, fun h => ?_⟩
  · by_cases hn : n = 0
    · subst hn
      exact (Nat.mod_eq_of_lt hv).symm
    · exact count_bumpAt hcalm hn
  · split
    · rfl
    · exact Tbl.find?_set_other _ _ (by simpa using hk)
  · exact bumpAt_holds_halfRange hlow hhigh (ne_of_calm hcalm (by decide)) he hu
  · rcases h with h | h
    · exact bumpAt_blot_above h
    · exact bumpAt_blot_below h

/-! ### The Blotter's table (R573) -/

/-- An event that brings about no other is taken once. -/
theorem postN_of_absorb {d : Dev} {x : Ev} {n : Nat} (h : (d.absorb x false).2 = []) :
    Dev.postN (n + 1) x false d = (d.absorb x false).1 := by
  rw [Dev.postN, h, List.foldl_nil]

theorem blotterEvent_answers {ev : EvIn} {d : Dev} (hlate : ev.late = false) :
    Answers (.blotterEvent ev) d
      (Dev.postN 2 { source := ev.source, event := ev.event, inst := ev.inst, data := ev.data } false d) :=
  answers_of_run (execBlotterEvent ev) rfl (fun _ => rfl) rfl (by rw [hlate])

/-- Settles O13: the three cases of taking an event into the table. -/
theorem eventsCoalesce : Obligations.EventsCoalesce := by
  intro ev d hlate he h0 h2 h5 x new fresh
  have htake (hu : d.blot.closed.any (fun y => y.ev.sameKey x) = true ∨
      d.blot.opened.any (fun y => y.ev.sameKey x) = true ∨ d.blot.used < 1024) :
      Answers (.blotterEvent ev) d (d.absorb x false).1 := by
    obtain ⟨hnone, -⟩ := absorb_cases d x he h0 h2 h5 hu
    exact postN_of_absorb hnone ▸ blotterEvent_answers hlate
  have hfresh (hf : fresh = true) : d.blot.closed.any (fun y => y.ev.sameKey x) = false ∧
      d.blot.opened.any (fun y => y.ev.sameKey x) = false := by
    simpa only [fresh, Bool.and_eq_true, Bool.not_eq_true'] using hf
  refine ⟨fun hc => ⟨_, htake (.inl hc), ?_⟩, fun hc ho => ⟨_, htake (.inr (.inl ho)), ?_⟩,
    fun hf hu hco => ⟨_, htake (.inr (.inr hu)), ?_⟩, fun hf hu hco => ⟨_, htake (.inr (.inr hu)), ?_⟩⟩
  · rw [(absorb_cases d x he h0 h2 h5 (.inl hc)).2, if_pos hc]
  · rw [(absorb_cases d x he h0 h2 h5 (.inr (.inl ho))).2, if_neg (by simp [hc]), if_pos ho]
  · obtain ⟨hc, ho⟩ := hfresh hf
    rw [(absorb_cases d x he h0 h2 h5 (.inr (.inr hu))).2, if_neg (by simp [hc]), if_neg (by simp [ho])]
    exact if_neg hco
  · obtain ⟨hc, ho⟩ := hfresh hf
    rw [(absorb_cases d x he h0 h2 h5 (.inr (.inr hu))).2, if_neg (by simp [hc]), if_neg (by simp [ho])]
    exact if_pos hco

/-! ### PMU_GCTL.CLEAR (R593) -/

/-- What a step establishes and every step keeps holds after the steps. -/
theorem foldUpTo_reaches {α : Type} (p : α → Prop) {n i : Nat} {f : Nat → α → α} {x : α} (hi : i < n)
    (hset : ∀ y, p (f i y)) (hkeep : ∀ j y, p y → p (f j y)) : p (foldUpTo n f x) := by
  induction n with
  | zero => omega
  | succ n ih =>
    rw [foldUpTo, List.range_succ, List.foldl_append, List.foldl_cons, List.foldl_nil]
    by_cases h : i = n
    · exact h ▸ hset _
    · exact hkeep _ _ (ih (by omega))

/-- The monitor counts bits that rise: none where a field becomes zero (R587). -/
theorem pmuEdge_zero (d : Dev) (a lo w old : Nat) : d.pmuEdge a lo w old 0 = d := by
  unfold Dev.pmuEdge
  split
  · rfl
  · refine List.foldl_fixed' (fun c => if_neg ?_) _
    simp [bits]

theorem set_zero (d : Dev) (f : Fld) (i j : Nat) : d.set f 0 i j = { d with regs := Tbl.set d.regs (f.key i j) 0 } := by
  unfold Dev.set
  simp only [Nat.zero_mod]
  exact pmuEdge_zero ..

/-- A field reads zero and was written. -/
def Dev.zeroed (k : Nat) (d : Dev) : Prop := Tbl.find? d.regs k = some 0

theorem zeroed_set_zero {d : Dev} {k : Nat} (f : Fld) (i j : Nat) (h : d.zeroed k ∨ k = f.key i j) :
    (d.set f 0 i j).zeroed k := by
  rw [set_zero]
  by_cases hk : k = f.key i j
  · exact hk ▸ Tbl.find?_set_same ..
  · exact (Tbl.find?_set_other _ _ hk).trans (h.resolve_right hk)

theorem get_of_zeroed {d : Dev} {f : Fld} {i j : Nat} (h : d.zeroed (f.key i j)) : d.get f i j = 0 := by
  rw [Dev.get, Tbl.get, h, Option.getD_some]

/-- CLEAR zeroes COUNT and WRAPS of every counter. -/
theorem pmuClear_zeroed (d : Dev) {b i k : Nat} (hb : b < 22) (hi : i < 8)
    (hk : k = F.PMU_PCNT_COUNT.key b i ∨ k = F.PMU_PCNT_WRAPS.key b i) : d.pmuClear.zeroed k := by
  have hkeep (b i : Nat) (e : Dev) (h : e.zeroed k) :
      ((e.set F.PMU_PCNT_COUNT 0 b i).set F.PMU_PCNT_WRAPS 0 b i).zeroed k :=
    zeroed_set_zero _ _ _ (.inl (zeroed_set_zero _ _ _ (.inl h)))
  refine foldUpTo_reaches (Dev.zeroed k) hb (fun e => foldUpTo_reaches (Dev.zeroed k) hi (fun y => ?_) (hkeep b))
    fun j e h => foldUpTo_keeps (Dev.zeroed k) h (hkeep j)
  rcases hk with hk | hk
  · exact zeroed_set_zero _ _ _ (.inl (zeroed_set_zero _ _ _ (.inr hk)))
  · exact zeroed_set_zero _ _ _ (.inr hk)

/-- `e` is `d` but for registers, where a write of a monitor register posts no event. -/
def Dev.regsOnly (d e : Dev) : Prop := e = { d with regs := e.regs }

theorem Dev.regsOnly.trans {d e f : Dev} (h : Dev.regsOnly d e) (g : Dev.regsOnly e f) : Dev.regsOnly d f := by
  unfold Dev.regsOnly at h g ⊢
  rw [g, h]

theorem regsOnly_set (d : Dev) (f : Fld) (v i j : Nat) : Dev.regsOnly d (d.set f v i j) := pmuEdge_same ..

theorem regsOnly_storeFields (d : Dev) (l : List Fld) (i j v : Nat) : Dev.regsOnly d (d.storeFields l i j v) := by
  induction l generalizing d with
  | nil => rfl
  | cons f r ih =>
    refine Dev.regsOnly.trans (e := d.storeField f i j v) ?_ (ih _)
    rcases storeField_cases d f i j v with h | ⟨-, x, h⟩
    · rw [h]
      rfl
    · rw [h]
      exact regsOnly_set ..

theorem regsOnly_pmuClear (d : Dev) : Dev.regsOnly d d.pmuClear :=
  foldUpTo_keeps (Dev.regsOnly d) rfl fun _ _ h => foldUpTo_keeps (Dev.regsOnly d) h fun _ _ h =>
    (h.trans (regsOnly_set ..)).trans (regsOnly_set ..)

/-- A write of PMU_GCTL with CLEAR stores its other fields and clears. -/
theorem writeGctl_clear {d : Dev} {v : Nat} (hv : bit v 1 = true) :
    d.writeGctl v = (d.storeFields RegOf.PMU_GCTL.fields 0 0 (setBits v F.PMU_GCTL_CLEAR.lo 1 0)).pmuClear :=
  if_pos (beq_iff_eq.mp hv)

/-- The write port of PMU_GCTL (R598). -/
theorem regWrite_gctl (d : Dev) (v : Nat) : d.regWrite RegOf.PMU_GCTL 0 0 v = d.writeGctl v := rfl

theorem findReg_gctl : findReg 0x70000 allRegs = some (RegOf.PMU_GCTL, 0, 0) := rfl

theorem portHole_gctl (d : Dev) : d.portHole RegOf.PMU_GCTL 0 = false := rfl

/-- A host write of PMU_GCTL; the monitor's registers do not travel to the standby (R472). -/
theorem hostWrite_gctl {d : Dev} {v : Nat} (ho : d.hostOpen = true) :
    (d.hostWrite 0x70000 v).sendConfig 0x70000 v = d.writeGctl v := by
  have hcarried : carried 0x70000 = false := rfl
  have hboot : inBoot 0x70000 = false := rfl
  rw [Dev.sendConfig, if_neg (by simp [hcarried]), Dev.hostWrite, if_neg (by simp [hboot])]
  refine (if_pos ho).trans ?_
  simp only [Dev.writeAt, findReg_gctl, portHole_gctl, Bool.false_eq_true, if_false, regWrite_gctl]

/-- Settles O16: the write stores registers alone, and the last of what it does is the clear. -/
theorem clearingTheMonitorZeroesItsCounters : Obligations.ClearingTheMonitorZeroesItsCounters := by
  intro v d ho hheld hv
  obtain ⟨-, hm⟩ := Bool.and_eq_true_iff.mp ho
  have hwrite := (hostWrite_gctl (v := v) ho).trans (writeGctl_clear hv)
  have hrest : Dev.regsOnly d (d.writeGctl v) :=
    writeGctl_clear hv ▸ (regsOnly_storeFields ..).trans (regsOnly_pmuClear _)
  have hans : Answers (.registerWrite 0x70000 8 v 0) d (d.writeGctl v) :=
    registerWrite_answers 0x70000 8 v 0 hheld (by simpa using hm)
      ((if_neg (by decide)).trans ((if_neg (by decide)).trans (hostWrite_gctl ho)))
  refine ⟨_, hans, fun b i hb hi => ?_, ?_⟩
  · rw [writeGctl_clear hv]
    exact ⟨get_of_zeroed (pmuClear_zeroed _ hb hi (.inl rfl)), get_of_zeroed (pmuClear_zeroed _ hb hi (.inr rfl))⟩
  · rw [hrest]
    exact ⟨rfl, rfl, rfl⟩

end Sys2Proof.Machine

/-!
PROOFS of the statements about what the part stores in host memory (21_host_interface.md): host writes (R365, R555), the Blotter's
records (R570, R575) and completions (R562).
-/

namespace Sys2Proof.Machine

open Sys2Proof

/-! ### A write within one block (R363, R365) -/

/-- A write within one 256-byte block below the spill space stores its bytes, waits, or is discarded; no other byte changes. -/
structure OneWrite (d e : Dev) (port a : Nat) (l : List Byte) : Prop where
  wf : Mem.wf e.obs = true
  outside : ∀ b, b < a ∨ a + l.length ≤ b → Mem.read e.obs b = Mem.read d.obs b
  inside : d.memUsable (256 * (a / 256)) = true → d.mem.wbuf.length < 1024 → (port ≠ 4 ∨ 0 < d.tagsFree 4) →
    (d.mem.waiting.any fun w => w.port == port) = false → ∀ k, k < l.length → Mem.read e.obs (a + k) = l.getD k 0
  discarded : d.memUsable (256 * (a / 256)) = false → e.obs = d.obs

section

variable {d : Dev} {port a : Nat} {l : List Byte} (hwf : Mem.wf d.obs = true) (h0 : 0 < l.length)
  (hblock : a % 256 + l.length ≤ 256)
include hwf h0 hblock

theorem oneWrite_memWrite (hspill : a < 0x200000000) : OneWrite d (d.memWrite port a l) port a l := by
  have hone := memWrite_one d port a l h0 hblock
  have hplace := oneReq_place d port a l
  have hs : (oneReq d port a l).spills = false := by
    refine decide_eq_false ?_
    simp only [oneReq]
    omega
  have hcases : (d.memWrite port a l).obs = d.obs ∨
      d.memUsable (256 * (a / 256)) = true ∧ (d.memWrite port a l).obs = Mem.writeN d.obs a l := by
    rw [hone]
    rcases putWrite_obs d (oneReq d port a l) with h | ⟨hu, -, h⟩
    · exact .inl h
    · exact .inr ⟨hu, h.trans (by rw [hplace]; rfl)⟩
  refine ⟨?_, fun b hb => ?_, fun hu hroom htag hport k hk => ?_, fun hu => ?_⟩
  · rcases hcases with h | ⟨-, h⟩ <;> rw [h]
    · exact hwf
    · exact Mem.wf_writeN _ _ _ hwf
  · rcases hcases with h | ⟨-, h⟩ <;> rw [h]
    exact Mem.read_writeN_other _ _ hb
  · have hput := putWrite_room (w := oneReq d port a l) hport hroom htag hu hs
    rw [hplace] at hput
    rw [hone, hput]
    exact Mem.read_writeN_same _ _ hwf hk
  · exact hcases.resolve_right fun h => by simp [hu] at h

end

/-- What follows the write leaves the memory alone. -/
theorem OneWrite.of_obs {d e f : Dev} {port a : Nat} {l : List Byte} (h : OneWrite d e port a l) (ho : f.obs = e.obs) :
    OneWrite d f port a l :=
  ⟨ho ▸ h.wf, ho ▸ h.outside, ho ▸ h.inside, fun hu => ho.trans (h.discarded hu)⟩

/-! ### Host writes (R365, R555) -/

/-- The areas that the host may write lie below the spill space. -/
theorem lt_spill_of_hostMayWrite {a n : Nat} (h : hostMayWrite a n = true) (hn : 0 < n) : a < 0x200000000 := by
  simp only [hostMayWrite, Bool.or_eq_true, Bool.and_eq_true, decide_eq_true_eq] at h
  omega

/-- Settles O18: inside its areas a host write is one write of port CXL_HOST; elsewhere it only counts. -/
theorem hostWritesReachOnlyTheirArea : Obligations.HostWritesReachOnlyTheirArea := by
  intro off bytes d hlink h0 h64 hwf
  have hans {e : Dev} := hostMemoryWrite_answers (e := e) h0 h64 hlink
  refine ⟨fun hmay => ?_, fun hmay => ⟨_, hans (if_neg (by simp [hmay])), bump_obs .., rfl⟩⟩
  have hblock : off.val % 256 + bytes.length ≤ 256 := by omega
  obtain ⟨hwfe, hout, hin, hdead⟩ :=
    oneWrite_memWrite (port := 4) hwf h0 hblock (lt_spill_of_hostMayWrite hmay h0)
  refine ⟨_, hans (if_pos hmay), hwfe, hout, fun hu hroom htag hport => hin hu hroom (.inr htag) hport, fun hport => ?_, hdead⟩
  rw [memWrite_one d 4 off bytes h0 hblock]
  exact putWrite_waits hport

/-! ### Completions (R562) -/

/-- Both ways leave the memory alone. -/
theorem ite_obs {p : Prop} [Decidable p] {a b : Dev} {m : Mem} (ha : a.obs = m) (hb : b.obs = m) :
    (if p then a else b).obs = m := by
  split
  · exact ha
  · exact hb

theorem set_obs (d : Dev) (f : Fld) (v i j : Nat) : (d.set f v i j).obs = d.obs := by rw [(set_notes d f v i j).same]

theorem bumpAt_obs (d : Dev) (a inst n : Nat) : (d.bumpAt a inst n).obs = d.obs := by rw [(bumpAt_notes d a inst n).same]

theorem post_obs (d : Dev) (e : Ev) : (d.post e).obs = d.obs := by rw [(notes_post d e).same]

theorem flagBit_obs (d : Dev) (f : Fld) (b a inst : Nat) (cnt : Bool) : (d.flagBit f b a inst cnt).obs = d.obs := by
  have hedge (e : Dev) : (e.pmuEdge f.addr (f.lo + b) 1 0 1).obs = e.obs := by rw [(notes_pmuEdge ..).same]
  exact (post_obs ..).trans (ite_obs ((bumpAt_obs ..).trans (hedge _)) (hedge _))

theorem msi_obs (d : Dev) (v : Nat) : (d.msi v).obs = d.obs := ite_obs rfl rfl

theorem setRing_obs (d : Dev) (n : Nat) (r : Ring) : (d.setRing n r).obs = d.obs := set_obs ..

theorem endCmd_obs (d : Dev) (n tag opcode status result detail : Nat) :
    (d.endCmd n tag opcode status result detail).obs = d.obs := by
  have hring (e : Ring) : ((d.setRing n e).bump F.HST_CNT_COUNT 0).obs = d.obs := (bump_obs ..).trans (setRing_obs ..)
  exact ite_obs (hring _) (ite_obs ((bump_obs ..).trans (hring _)) ((bump_obs ..).trans (hring _)))

theorem stepHead_obs (d : Dev) (n : Nat) : (d.stepHead n).obs = d.obs := set_obs ..

theorem dropUnknown_obs (n fuel : Nat) (d : Dev) : (Dev.dropUnknown n fuel d).obs = d.obs := by
  induction fuel generalizing d with
  | zero => rfl
  | succ fuel ih =>
    rw [Dev.dropUnknown]
    split
    · rw [ih, endCmd_obs, stepHead_obs]
    · rfl

/-- The 32 bytes of a completion. -/
theorem length_completionBytes (c : Completion) (phase : Bool) : (completionBytes c phase).length = 32 := by
  simp [completionBytes, length_toLE]

/-- A completion's only write is its entry at CQ_TAIL. -/
theorem complete_obs {d : Dev} {n : Nat} {c : Completion} {r : List Completion} (h : (d.ring n).done = c :: r) :
    (d.complete n).obs =
      (d.obsWrite (cqAddr n (d.get F.HST_RINGSTAT_CQ_TAIL n)) (completionBytes c (d.ring n).phase)).obs := by
  simp only [Dev.complete, h]
  rw [dropUnknown_obs]
  refine ite_obs ?_ ?_
  · rw [msi_obs, bumpAt_obs, flagBit_obs, set_obs, setRing_obs]
  · rw [set_obs, setRing_obs]

/-- Settles O20: the entry lies within one block of the ring's area. -/
theorem aCompletionIsStoredAtItsTail : Obligations.ACompletionIsStoredAtItsTail := by
  intro n c r d hdone htail hwf
  have hlen := length_completionBytes c (d.ring n).phase
  have hplace : cqAddr n (d.get F.HST_RINGSTAT_CQ_TAIL n) % 256 + 32 ≤ 256 ∧
      cqAddr n (d.get F.HST_RINGSTAT_CQ_TAIL n) < 0x200000000 := by
    have hn := n.isLt
    simp only [cqAddr]
    omega
  have hone : OneWrite d (d.obsWrite _ _) 2 (cqAddr n (d.get F.HST_RINGSTAT_CQ_TAIL n)) (completionBytes c (d.ring n).phase) :=
    oneWrite_memWrite hwf (by omega) (by omega) hplace.2
  obtain ⟨hwfe, hout, hin, -⟩ := hone.of_obs (complete_obs hdone)
  rw [hlen] at hout hin
  exact ⟨_, answers_of_run (execCommandComplete n) rfl (fun _ => rfl) rfl rfl, hwfe, hout,
    fun hu hroom hport => hin hu hroom (.inl (by decide)) hport⟩

/-! ### What a register reads after operations that leave it alone -/

/-- `e` reads the field of key `k` as `d` does. -/
def Dev.readsAt (k : Nat) (d e : Dev) : Prop :=
  e.imgApplied = d.imgApplied ∧ Tbl.find? e.regs k = Tbl.find? d.regs k

theorem cycles_find (d : Dev) (n : Nat) {k : Nat} (hk : offMon k) : Tbl.find? (d.cycles n).regs k = Tbl.find? d.regs k := by
  unfold Dev.cycles
  simp only
  split
  · rfl
  · refine (foldl_find _ _ _ k fun e c hc => ?_).trans (foldl_find _ _ _ k fun e b hb => ?_)
    · have hadd (m : Nat) : Tbl.find? (pmuAdd c.1 c.2 m e).regs k = Tbl.find? e.regs k :=
        pmuAdd_find _ _ _ _ _ hk (pmuArmed_range hc).1 (pmuArmed_range hc).2
      split
      · split
        · rfl
        · split
          · split
            · rfl
            · split
              · exact hadd _
              · rfl
          · split
            · exact hadd _
            · rfl
      · rfl
    · have hb := List.mem_range.mp hb
      simp only
      split
      · rfl
      · refine Tbl.find?_set_other _ _ fun hkey => ?_
        simp only [offMon, hkey, Fld.key, F.PMU_CYC_CYCLES] at hk
        omega

namespace Dev.readsAt

variable {k : Nat} {d e f : Dev}

theorem get (h : Dev.readsAt k d e) {f : Fld} {i j : Nat} (hk : k = f.key i j) : e.get f i j = d.get f i j :=
  get_eq_of_find d e f i j h.1 (hk ▸ h.2)

theorem trans (h : Dev.readsAt k d e) (g : Dev.readsAt k e f) : Dev.readsAt k d f := ⟨g.1.trans h.1, g.2.trans h.2⟩

theorem ite {p : Prop} [Decidable p] (h : Dev.readsAt k d e) (g : Dev.readsAt k d f) :
    Dev.readsAt k d (if p then e else f) := by
  split
  · exact h
  · exact g

theorem msi (d : Dev) (v : Nat) : Dev.readsAt k d (d.msi v) := ite ⟨rfl, rfl⟩ ⟨rfl, rfl⟩

variable (hk : offMon k)
include hk

theorem set (d : Dev) (f : Fld) (v i j : Nat) (h : k ≠ f.key i j) : Dev.readsAt k d (d.set f v i j) :=
  ⟨by rw [(set_notes d f v i j).same], set_find d f v i j k hk h⟩

theorem reach (d : Dev) (c : Nat) : Dev.readsAt k d (d.reach c) := by
  refine ⟨by rw [(reach_notes d c).same], ?_⟩
  unfold Dev.reach Dev.runCycles
  split
  · rfl
  · exact cycles_find _ _ hk

variable (hn : k ∉ noteKeys)
include hn

theorem bump (d : Dev) (f : Fld) (i j n : Nat) (h : k ≠ (f.addr + i * f.s1 + j * f.s2) * 64) :
    Dev.readsAt k d (d.bump f i j n) :=
  ⟨bumpAt_imgApplied .., bumpAt_find _ _ _ _ k hk hn h⟩

theorem flag (d : Dev) (f : Fld) (i j : Nat) (h : k ≠ f.key i j) (hc : k ≠ (f.cntAddr + i * f.cntStride) * 64) :
    Dev.readsAt k d (d.flag f i j) :=
  ⟨by rw [(flag_notes d f i j true).same], flag_find d f i j true k hk hn h hc⟩

theorem obsWrite (d : Dev) (a : Nat) (l : List Byte) (hb : ¬ inBlock 0x1900000 0x1A00000 k) :
    Dev.readsAt k d (d.obsWrite a l) := by
  have h := (Stored.refl d).obsWrite a l
  exact ⟨by rw [h.same], h.regs k hk hn hb⟩

end Dev.readsAt

/-! ### The Blotter's records (R570, R575) -/

/-- What is usable is told by the memory's own registers, which noting leaves alone. -/
theorem memUsable_of_notes {d e : Dev} (h : Notes d e) (a : Nat) : e.memUsable a = d.memUsable a := by
  have hmask (n : Nat) : e.use F.MEM_MAP_MASK n = d.use F.MEM_MAP_MASK n :=
    h.use _ _ _ (by simp [calm, Fld.key, F.MEM_MAP_MASK]; omega)
  have hmap (s c : Nat) : e.get F.MEM_UNIT_MAP s c = d.get F.MEM_UNIT_MAP s c :=
    h.get _ _ _ (by simp [calm, Fld.key, F.MEM_UNIT_MAP]; omega)
  have hdead (s c : Nat) : e.get F.MEM_UNIT_DEAD s c = d.get F.MEM_UNIT_DEAD s c :=
    h.get _ _ _ (by simp [calm, Fld.key, F.MEM_UNIT_DEAD]; omega)
  have hstate (s : Nat) : e.get F.MEM_STACK_STATE s = d.get F.MEM_STACK_STATE s :=
    h.get _ _ _ (by simp [calm, Fld.key, F.MEM_STACK_STATE]; omega)
  have hbit (n off : Nat) : e.bankBit n off = d.bankBit n off := by rw [Dev.bankBit, hmask, Dev.bankBit]
  have hbits (n off w : Nat) : e.bankBits n off w = d.bankBits n off w := by
    induction w generalizing n with
    | zero => rfl
    | succ w ih => rw [Dev.bankBits, hbit, ih, Dev.bankBits]
  have hplace : e.place a = d.place a := by simp only [Dev.place, hbits]
  have hunit : e.unitOf a = d.unitOf a := by simp only [Dev.unitOf, hplace, Dev.psidOf, hmap]
  simp only [Dev.memUsable, hunit, Dev.stackUp, hstate, Dev.unitDead, hdead]

/-- The device as the writer begins a record: its time has come, and the entry has left the table. -/
def Dev.recordTaken (d : Dev) (r : List BlotEntry) : Dev :=
  let e := d.reach (d.blot.lastAt + 64)
  { e with blot := { e.blot with closed := r } }.showOpen

/-- The bytes `l` of a record stand at EVT_PROD. -/
def Dev.recordPut (d : Dev) (l : List Byte) : Dev := d.obsWrite (0x100000000 + 64 * d.get F.EVT_PROD_PROD) l

/-- EVT_PROD and UNREAD move on past the record at `p`. -/
def Dev.recordMoved (d : Dev) (p : Nat) : Dev :=
  ((d.set F.EVT_PROD_PROD ((p + 1) % 131072)).set F.EVT_PROD_SEQ (d.get F.EVT_PROD_SEQ + 1)).set F.EVT_STAT_UNREAD
    (d.get F.EVT_STAT_UNREAD + 1)

/-- The record is counted, and raises the interrupt where it fills the level. -/
def Dev.recordNoted (d : Dev) (u : Nat) : Dev :=
  let e := { d with blot := { d.blot with ages := d.blot.ages ++ [d.clk.cyc], lastAt := d.clk.cyc } }.evtCount 1
  if u = e.use F.EVT_CFG_IRQ_LEVEL then e.irqBlotter else e

/-- The fields that a record moves. -/
def recordKeys : List Nat := [F.EVT_PROD_PROD.key 0 0, F.EVT_PROD_SEQ.key 0 0, F.EVT_STAT_UNREAD.key 0 0]

theorem recordKeys_apart : ∀ k ∈ recordKeys, k < 0x70000 * 64 ∧ k ∉ noteKeys ∧ k ≠ F.EVT_STAT_OPEN.key 0 0 ∧
    k ≠ (F.EVT_CNT_COUNT.addr + 1 * F.EVT_CNT_COUNT.s1 + 0 * F.EVT_CNT_COUNT.s2) * 64 ∧
    k ≠ F.HST_IRQSTAT_BLOTTER.key 0 0 ∧ k ≠ (F.HST_IRQSTAT_BLOTTER.cntAddr + 0 * F.HST_IRQSTAT_BLOTTER.cntStride) * 64 := by
  decide

section

variable {d : Dev} {k : Nat} (hk : k ∈ recordKeys)
include hk

theorem readsAt_recordTaken (r : List BlotEntry) : Dev.readsAt k d (d.recordTaken r) := by
  obtain ⟨hmon, -, hopen, -⟩ := recordKeys_apart k hk
  exact (Dev.readsAt.reach (.inl hmon) d _).trans (Dev.readsAt.set (.inl hmon) _ _ _ _ _ hopen)

theorem readsAt_irqBlotter : Dev.readsAt k d d.irqBlotter := by
  obtain ⟨hmon, hnote, -, -, hirq, hcount⟩ := recordKeys_apart k hk
  exact (Dev.readsAt.flag (.inl hmon) hnote d F.HST_IRQSTAT_BLOTTER 0 0 hirq hcount).trans (.msi _ 1)

theorem readsAt_evtCount_written : Dev.readsAt k d (d.evtCount 1) := by
  obtain ⟨hmon, hnote, -, hcount, -⟩ := recordKeys_apart k hk
  exact Dev.readsAt.bump (.inl hmon) hnote d F.EVT_CNT_COUNT 1 0 1 hcount

theorem readsAt_recordNoted (u : Nat) : Dev.readsAt k d (d.recordNoted u) := by
  have hblot (b : Blot) : Dev.readsAt k d { d with blot := b } := ⟨rfl, rfl⟩
  have hcount := (hblot { d.blot with ages := d.blot.ages ++ [d.clk.cyc], lastAt := d.clk.cyc }).trans
    (readsAt_evtCount_written hk)
  exact .ite (hcount.trans (readsAt_irqBlotter hk)) hcount

theorem readsAt_obsWrite (a : Nat) (l : List Byte) : Dev.readsAt k d (d.obsWrite a l) := by
  obtain ⟨hmon, hnote, -⟩ := recordKeys_apart k hk
  exact Dev.readsAt.obsWrite (.inl hmon) hnote d a l (by simp only [inBlock]; omega)

end

theorem notes_showOpen (d : Dev) : Notes d d.showOpen :=
  (notes_set d _ (by decide)).trans (notes_pmuEdge ..)

theorem recordTaken_notes (d : Dev) (r : List BlotEntry) :
    Notes { d with clk := (d.reach (d.blot.lastAt + 64)).clk } (d.recordTaken r) :=
  (reach_notes d _).trans ((notes_blot _ _).trans (notes_showOpen _))

theorem putRecord_eq (d : Dev) (l : Nat → List Byte) :
    d.putRecord l =
      (let e := d.recordPut (l (d.get F.EVT_PROD_SEQ))
      (e.recordMoved (d.get F.EVT_PROD_PROD)).recordNoted (e.get F.EVT_STAT_UNREAD + 1)) := by
  unfold Dev.recordNoted
  rfl

/-- A record is written where the ring has room (R575). -/
theorem writeRecord_closed {d : Dev} {x : BlotEntry} {r : List BlotEntry} (hc : d.blot.closed = x :: r)
    (hu : d.get F.EVT_STAT_UNREAD ≠ 131072) : d.writeRecord = (d.recordTaken r).putRecord (entryRecord x) := by
  rw [Dev.writeRecord, if_neg hu]
  simp only [hc, Dev.recordTaken]

theorem recordMoved_obs (d : Dev) (p : Nat) : (d.recordMoved p).obs = d.obs :=
  (set_obs ..).trans ((set_obs ..).trans (set_obs ..))

theorem irqBlotter_obs (d : Dev) : d.irqBlotter.obs = d.obs :=
  (msi_obs ..).trans (by rw [(flag_notes d F.HST_IRQSTAT_BLOTTER 0 0 true).same])

theorem recordNoted_obs (d : Dev) (u : Nat) : (d.recordNoted u).obs = d.obs :=
  ite_obs ((irqBlotter_obs ..).trans (bump_obs ..)) (bump_obs ..)

theorem putRecord_obs (d : Dev) (l : Nat → List Byte) :
    (d.putRecord l).obs = (d.recordPut (l (d.get F.EVT_PROD_SEQ))).obs := by
  rw [putRecord_eq]
  exact (recordNoted_obs ..).trans (recordMoved_obs ..)

/-- A field of the Blotter's registers just written, and left alone since. -/
theorem get_of_readsAt_set {d e : Dev} {f : Fld} {v : Nat} (hk : f.key 0 0 ∈ recordKeys)
    (h : Dev.readsAt (f.key 0 0) (d.set f v) e) : e.get f = v % 2 ^ f.w := by
  have hfind : Tbl.find? e.regs (f.key 0 0) = some (v % 2 ^ f.w) :=
    h.2.trans (set_find_same d f v 0 0 (.inl (recordKeys_apart _ hk).1))
  rw [Dev.get, Tbl.get, hfind, Option.getD_some]

/-- EVT_PROD and UNREAD after a record at `p`. -/
theorem putRecord_fields (d : Dev) (l : Nat → List Byte) :
    (d.putRecord l).get F.EVT_PROD_PROD = (d.get F.EVT_PROD_PROD + 1) % 131072 ∧
      (d.putRecord l).get F.EVT_PROD_SEQ = (d.get F.EVT_PROD_SEQ + 1) % 2 ^ 32 ∧
      (d.putRecord l).get F.EVT_STAT_UNREAD = (d.get F.EVT_STAT_UNREAD + 1) % 2 ^ 18 := by
  have hprod : F.EVT_PROD_PROD.key 0 0 ∈ recordKeys := by decide
  have hseq : F.EVT_PROD_SEQ.key 0 0 ∈ recordKeys := by decide
  have hunread : F.EVT_STAT_UNREAD.key 0 0 ∈ recordKeys := by decide
  have hset {k : Nat} (hk : k ∈ recordKeys) (e : Dev) (f : Fld) (v : Nat) (h : k ≠ f.key 0 0) :
      Dev.readsAt k e (e.set f v) := .set (.inl (recordKeys_apart k hk).1) e f v 0 0 h
  have hput {k : Nat} (hk : k ∈ recordKeys) : Dev.readsAt k d (d.recordPut (l (d.get F.EVT_PROD_SEQ))) :=
    readsAt_obsWrite hk _ _
  rw [putRecord_eq]
  refine ⟨?_, ?_, ?_⟩
  · refine (get_of_readsAt_set hprod (((hset hprod _ _ _ (by decide)).trans (hset hprod _ _ _ (by decide))).trans
      (readsAt_recordNoted hprod _))).trans ?_
    exact Nat.mod_mod ..
  · refine (get_of_readsAt_set hseq ((hset hseq _ _ _ (by decide)).trans (readsAt_recordNoted hseq _))).trans ?_
    rw [(hput hseq).get rfl]
    rfl
  · refine (get_of_readsAt_set hunread (readsAt_recordNoted hunread _)).trans ?_
    rw [(hput hunread).get rfl]
    rfl

/-- The 64 bytes of a record. -/
theorem length_entryRecord (x : BlotEntry) (seq : Nat) : (entryRecord x seq).length = 64 := by
  simp [entryRecord, length_toLE]

/-- Settles O19: the record is one write of port MIRROR_WR, within one block of the ring. -/
theorem theBlotterWritesItsOldestRecord : Obligations.TheBlotterWritesItsOldestRecord := by
  intro x r d hrun hc hu hp hwf p a
  have hans : Answers .blotterWrite d ((d.recordTaken r).putRecord (entryRecord x)) :=
    answers_of_run execBlotterWrite rfl (fun _ => rfl) rfl ((if_neg (by simp [hrun])).trans (writeRecord_closed hc hu))
  have hkept {f : Fld} (hk : f.key 0 0 ∈ recordKeys) : (d.recordTaken r).get f = d.get f :=
    (readsAt_recordTaken hk r).get rfl
  have hprod := hkept (f := F.EVT_PROD_PROD) (by decide)
  have hseq := hkept (f := F.EVT_PROD_SEQ) (by decide)
  have hunread := hkept (f := F.EVT_STAT_UNREAD) (by decide)
  have hnotes := recordTaken_notes d r
  have hobs : (d.recordTaken r).obs = d.obs := by rw [hnotes.same]
  have hmem : (d.recordTaken r).mem = d.mem := by rw [hnotes.same]
  have huse : (d.recordTaken r).memUsable (256 * (a / 256)) = d.memUsable (256 * (a / 256)) :=
    memUsable_of_notes hnotes _
  have hlen := length_entryRecord x (d.get F.EVT_PROD_SEQ)
  have hplace : a % 256 + 64 ≤ 256 ∧ a < 0x200000000 := by omega
  have hput : (d.recordTaken r).recordPut (entryRecord x (d.get F.EVT_PROD_SEQ)) =
      (d.recordTaken r).memWrite 2 a (entryRecord x (d.get F.EVT_PROD_SEQ)) := by
    rw [Dev.recordPut, hprod]
    rfl
  have hone : OneWrite (d.recordTaken r) ((d.recordTaken r).putRecord (entryRecord x)) 2 a
      (entryRecord x (d.get F.EVT_PROD_SEQ)) := by
    refine (oneWrite_memWrite (hobs ▸ hwf) (by omega) (by omega) hplace.2).of_obs ?_
    rw [putRecord_obs, hseq, hput]
  obtain ⟨hwfe, hout, hin, -⟩ := hone
  obtain ⟨hprod', hseq', hunread'⟩ := putRecord_fields (d.recordTaken r) (entryRecord x)
  rw [hlen, hobs] at hout
  rw [hlen, hmem, huse] at hin
  exact ⟨_, hans, hwfe, hout, fun husable hroom hport => hin husable hroom (.inl (by decide)) hport,
    by rw [hprod', hprod], by rw [hseq', hseq], by rw [hunread', hunread]⟩

end Sys2Proof.Machine

/-!
PROOFS of the statements of 21_host_interface.md and 22_telemetry.md: the completion of the ring commands (R559 to R578), of the
Blotter's commands (R568 to R580) and of the monitor's (R557, R581 to R593).
-/

namespace Sys2Proof.Machine

open Sys2Proof

/-! ### Ring commands (R559 to R567) -/

/-- A command that a ring offers is taken with its effect. -/
theorem answers_of_command {i : Instr} (x : State → Res) {n opcode args : Nat} {target : Bool} {act : Taken → Dev → Dev}
    {d : Dev} (hx : exec i = x) (hr : ∀ s, x s = run i s fun d => d.command n opcode act) (hw : i.wf = true)
    (ho : (opcodes.find? fun o => o.1 == opcode) = some (opcode, target, args)) (h : d.offers n opcode target args = true) :
    Answers i d (d.taken n opcode act) :=
  answers_of_run x hx hr hw (command_offers act h ho)

/-- RECALL_CLEAR finds its serial or does not (R142). -/
theorem recallClear_answers {ring : RingNo} {d : Dev} (h : d.offers ring 0x0017 false 8 = true) :
    Answers (.recallClear ring) d (d.taken ring 0x0017 fun t e =>
      match e.findWhite (le t.args 0 8) with
      | none => e.endCmd ring t.tag 0x0017 0x01
      | some w =>
        let f := e.setWhite w { e.white w with flagged := false }
        let f := match f.findSerial (le t.args 0 8) with
          | some g => f.setTerm g (f.term g)
          | none => f
        f.endCmd ring t.tag 0x0017 0) :=
  answers_of_command (execRecallClear ring) rfl (fun _ => rfl) rfl rfl h

/-- A doorbell within the ring is stored (R561, R578). -/
theorem writeSqTail_stored {d : Dev} {n tail : Nat} (ht : tail < d.ringEntries n)
    (hroom : modSub (d.get F.HST_SQTAIL_TAIL n) (d.get F.HST_RINGSTAT_SQ_HEAD n) (d.ringEntries n) +
      modSub tail (d.get F.HST_SQTAIL_TAIL n) (d.ringEntries n) ≤ d.ringEntries n - 1) :
    d.writeSqTail n tail = Dev.dropUnknown n 2048 (d.set F.HST_SQTAIL_TAIL tail n) :=
  if_neg (not_or.mpr ⟨Nat.not_le.mpr ht, Nat.not_lt.mpr hroom⟩)

theorem writeCqHead_stored {d : Dev} {n head : Nat} (hh : head < d.ringEntries n)
    (hroom : modSub head (d.get F.HST_CQHEAD_HEAD n) (d.ringEntries n) ≤
      modSub (d.get F.HST_RINGSTAT_CQ_TAIL n) (d.get F.HST_CQHEAD_HEAD n) (d.ringEntries n)) :
    d.writeCqHead n head = Dev.dropUnknown n 2048 (d.set F.HST_CQHEAD_HEAD head n) :=
  if_neg (not_or.mpr ⟨Nat.not_le.mpr hh, Nat.not_lt.mpr hroom⟩)

/-- Settles O58: a command that is offered is taken, and the other clauses are branches of their commands. -/
theorem ringCommandsComplete : Obligations.RingCommandsComplete :=
  ⟨fun n _ h => answers_of_command (execNop n) rfl (fun _ => rfl) rfl rfl h,
    fun n _ h => answers_of_command (execAdmitEntry n) rfl (fun _ => rfl) rfl rfl h,
    fun n _ h => answers_of_command (execDisable n) rfl (fun _ => rfl) rfl rfl h,
    fun n _ h => answers_of_command (execEnable n) rfl (fun _ => rfl) rfl rfl h,
    fun n _ h => answers_of_command (execDeactivate n) rfl (fun _ => rfl) rfl rfl h,
    fun n _ h => answers_of_command (execMoveSide n) rfl (fun _ => rfl) rfl rfl h,
    fun n _ h => answers_of_command (execRerange n) rfl (fun _ => rfl) rfl rfl h,
    fun n _ h => answers_of_command (execDozeAllow n) rfl (fun _ => rfl) rfl rfl h,
    fun _ _ h => recallClear_answers h,
    fun n _ h => answers_of_command (execTableWrite n) rfl (fun _ => rfl) rfl rfl h,
    fun n _ h => answers_of_command (execKeyImport n) rfl (fun _ => rfl) rfl rfl h,
    fun n _ h => answers_of_command (execKeyErase n) rfl (fun _ => rfl) rfl rfl h,
    fun n _ h => answers_of_command (execSetMode n) rfl (fun _ => rfl) rfl rfl h,
    fun n _ h => answers_of_command (execSwitchOver n) rfl (fun _ => rfl) rfl rfl h,
    fun n _ h => answers_of_command (execJob n) rfl (fun _ => rfl) rfl rfl h,
    fun n _ _ _ _ => answers_of_run (execCommandComplete n) rfl (fun _ => rfl) rfl rfl,
    fun n tail _ ho ht hroom =>
      answers_of_hostW (execSqDoorbell n tail) rfl (fun _ => rfl) rfl ho (writeSqTail_stored ht hroom),
    fun n head _ ho hh hroom =>
      answers_of_hostW (execCqHeadWrite n head) rfl (fun _ => rfl) rfl ho (writeCqHead_stored hh hroom),
    fun n _ ho => answers_of_hostW (execRingStop n) rfl (fun _ => rfl) rfl ho rfl⟩

/-! ### The Blotter (R568 to R580) -/

/-- The Blotter's entry and record commands act while it is not stopped. -/
theorem answers_of_blotter {i : Instr} (x : State → Res) {f : Dev → Dev} {d e : Dev} (hx : exec i = x)
    (hr : ∀ s, x s = run i s fun d => if d.blot.stopped then d else f d) (hw : i.wf = true)
    (hs : d.blot.stopped = false) (he : f d = e) : Answers i d e :=
  answers_of_run x hx hr hw ((if_neg (by simp [hs])).trans he)

/-- The oldest open entry closes when its time ends (R573). -/
theorem closeEntry_oldest {d : Dev} {x : BlotEntry} {r : List BlotEntry} (h : d.blot.opened = x :: r) :
    d.closeEntry =
      (let e := d.reach (x.openedAt + d.use F.EVT_CFG_COALESCE_US * 1500)
      let b := { e.blot with opened := r, closed := e.blot.closed ++ [{ x with waiting := true }] }
      let e : Dev := { e with blot := b }.showOpen
      if e.get F.EVT_STAT_UNREAD = 131072 then e.evtCount 5 else e) := by
  simp only [Dev.closeEntry, h]

/-- A closed entry is written while the ring has room (R575). -/
theorem writeRecord_first {d : Dev} {x : BlotEntry} {r : List BlotEntry} (hu : d.get F.EVT_STAT_UNREAD ≠ 131072)
    (hc : d.blot.closed = x :: r) :
    d.writeRecord =
      (let e := d.reach (d.blot.lastAt + 64)
      ({ e with blot := { e.blot with closed := r } }.showOpen).putRecord (entryRecord x)) :=
  writeRecord_closed hc hu

/-- The host frees records up to EVT_PROD (R575). -/
theorem writeCons_frees {d : Dev} {cons : Nat}
    (h : modSub cons (d.get F.EVT_CONS_CONS) 131072 ≤ d.get F.EVT_STAT_UNREAD) :
    d.writeCons cons =
      (let n := modSub cons (d.get F.EVT_CONS_CONS) 131072
      let e := (d.set F.EVT_CONS_CONS cons).set F.EVT_STAT_UNREAD (d.get F.EVT_STAT_UNREAD - n)
      { e with blot := { e.blot with ages := e.blot.ages.drop n } }) :=
  if_neg (Nat.not_lt.mpr h)

/-- The oldest record that the host has not consumed raises the interrupt when it grows old (R575). -/
theorem blotterIrqAge_answers {d : Dev} {a : Nat} {r : List Nat} (ha : d.blot.ages = a :: r)
    (hs : d.blot.stopped = false) (hirq : d.on F.HST_IRQSTAT_BLOTTER = false) :
    Answers .blotterIrqAge d (d.reach (a + d.use F.EVT_CFG_IRQ_AGE_US * 1500 + 1)).irqBlotter := by
  refine answers_of_run execBlotterIrqAge rfl (fun _ => rfl) rfl ?_
  simp only [ha, hs, hirq, Bool.or_self, Bool.false_eq_true, if_false]

/-- Settles O59: each clause is the branch of its command whose condition the clause names. -/
theorem eventCommandsComplete : Obligations.EventCommandsComplete :=
  ⟨fun e _ => answers_of_run (execBlotterEvent e) rfl (fun _ => rfl) rfl rfl,
    fun _ _ _ hs ho => answers_of_blotter execBlotterEntryClose rfl (fun _ => rfl) rfl hs (closeEntry_oldest ho),
    fun _ _ _ hs hu hc => answers_of_blotter execBlotterWrite rfl (fun _ => rfl) rfl hs (writeRecord_first hu hc),
    fun cons _ ho h => answers_of_hostW (execEvtConsWrite cons) rfl (fun _ => rfl) rfl ho (writeCons_frees h),
    fun _ _ _ ha hs hirq => blotterIrqAge_answers ha hs hirq,
    fun v _ hl howed hmask =>
      answers_of_guard (execMsiSend v) rfl (fun _ => rfl) rfl (by simp only [hl, howed, hmask]; rfl) rfl⟩

/-! ### The monitor (R557, R581 to R593) -/

/-- A statistics counter one below half its range counts once more (R582). -/
theorem halfRange_answers {a : Fin (2 ^ 26)} {r : Reg} {i j : Nat} {d : Dev}
    (hr : findReg a allRegs = some (r, i, j)) (hone : r.fields.length = 1)
    (hcount : (r.fields.all fun f => f.w == 40 && f.acc == .ro && f.lo == 0) = true)
    (hv : d.getReg r i j = 2 ^ 39 - 1) : Answers (.halfRange a) d (d.bumpAt a i 1) := by
  refine answers_of_run (execHalfRange a) rfl (fun _ => rfl) rfl ?_
  simp only [hr]
  exact if_pos ⟨hone, hcount, hv⟩

/-- Settles O60: each clause is the branch of its command whose condition the clause names. -/
theorem monitorCommandsComplete : Obligations.MonitorCommandsComplete :=
  ⟨fun _ hb hm hen => answers_of_guard execCounterSheet rfl (fun _ => rfl) rfl (by simp [hb, hm, hen]) rfl,
    fun _ _ _ _ _ hr hone hcount hv => halfRange_answers hr hone hcount hv,
    fun _ hl hm => answers_of_guard execBwWindow rfl (fun _ => rfl) rfl (by simp [hl, hm]) rfl,
    fun _ ho => answers_of_hostW execPmuClear rfl (fun _ => rfl) rfl ho rfl,
    fun _ hb hm => answers_of_guard execMirrorStateRewrite rfl (fun _ => rfl) rfl (by simp [hb, hm]) rfl⟩

end Sys2Proof.Machine

/-!
PROOFS of the statements of 95_what_each_step_holds.md: totality of `exec` and `step`, refusals, and runs of a fed queue.
-/

namespace Sys2Proof.Machine

open Sys2Proof

/-- Every command runs as a change of the device alone: each arm of `exec` is `run` of its command (log entries 1, 2). -/
theorem exec_eq_run (c : Instr) : ∃ f : Dev → Dev, ∀ s, exec c s = run c s f := by
  cases c <;> (delta exec; dsimp only; exact ⟨_, fun _ => rfl⟩)

/-- Settles O4: a command that is well formed runs. -/
theorem wellFormedCommandsComplete : Obligations.WellFormedCommandsComplete := by
  intro c s hw
  obtain ⟨f, hf⟩ := exec_eq_run c
  exact ⟨f s.dev, (hf s).trans (run_wf hw s f)⟩

/-- Settles O3: `run` refuses a command that is not well formed. -/
theorem illFormedCommandsAreRefused : Obligations.IllFormedCommandsAreRefused := by
  intro c s hw
  obtain ⟨f, hf⟩ := exec_eq_run c
  exact (hf s).trans (run_illFormed hw s f)

/-- Settles O1. -/
theorem stepRunsTheFrontCommand : Obligations.StepRunsTheFrontCommand := fun _ _ => rfl

/-- Settles O5: an empty queue idles, a well-formed command at the front completes, an ill-formed one is refused. -/
theorem stepsStopOnlyOnIllFormedCommands : Obligations.StepsStopOnlyOnIllFormedCommands := by
  rintro ⟨pending, d⟩
  cases pending with
  | nil => exact .inl ⟨_, step_nil d⟩
  | cons c q =>
    cases hw : c.wf with
    | true =>
      obtain ⟨e, he⟩ := wellFormedCommandsComplete c { pending := q, dev := d } hw
      exact .inl ⟨_, he⟩
    | false => exact .inr ⟨c, q, rfl, hw, illFormedCommandsAreRefused c _ hw⟩

/-- A step of a queue that begins with a well-formed command takes it from the queue. -/
theorem step_cons_wf {c : Instr} {q : List Instr} {d : Dev} (hw : c.wf = true) :
    ∃ e, step { pending := c :: q, dev := d } = .next { pending := q, dev := e } :=
  wellFormedCommandsComplete c { pending := q, dev := d } hw

/-- A run goes on from the state that a step answers. -/
theorem core_run_succ (M : Host.Core) {s t : M.State} (n : Nat) (h : M.step s = .next t) : M.run (n + 1) s = M.run n t := by
  rw [Host.Core.run, h]

/-- Settles O6, by induction on the queue: a step of a fed queue leaves the rest of it, fed. -/
theorem aFedQueueRunsToItsEnd : Obligations.AFedQueueRunsToItsEnd := by
  rintro ⟨pending, d⟩ hfed
  induction pending generalizing d with
  | nil => exact ⟨d, rfl⟩
  | cons c q ih =>
    obtain ⟨hw, hq⟩ := Bool.and_eq_true_iff.mp hfed
    obtain ⟨e, he⟩ := step_cons_wf (q := q) (d := d) hw
    obtain ⟨z, hz⟩ := ih e hq
    have hrun := core_run_succ Sys2Proof.core (s := ({ pending := c :: q, dev := d } : State))
      (t := ({ pending := q, dev := e } : State)) q.length he
    exact ⟨z, hrun.trans hz⟩

end Sys2Proof.Machine

/-!
PROOFS of the memory invariant: both memories stay canonical (addresses rising, no zero entry) under every command.
One lemma per operation of the model, in the order of the model; each proof has the shape of the operation's body. An
operation that answers a pair, a routine's run or a pass says it of the device in its answer.
-/

namespace Sys2Proof.Machine

open Sys2Proof

/-- Both memories of the device are canonical (`State.canonical` says it of a state). -/
def Canon (d : Dev) : Prop := Mem.wf d.obs = true ∧ Mem.wf d.boot.flash = true

theorem canonical_iff {s : State} : s.canonical = true ↔ Canon s.dev := Bool.and_eq_true_iff

section

variable {d e : Dev}

/-! ### The shapes of a body -/

/-- An update of other fields. -/
theorem Canon.upd
    {regs eff imgApplied free clk blot host arb fab tim tm par fwd buf mac lanes mem pmu cas cirIn cirs cry reg
    lines gnt emus micro stl quill}
    (h : Canon d) : Canon ⟨
      regs, eff, imgApplied, d.obs, free, clk, blot, host, d.boot, arb, fab, tim, tm, par, fwd, buf, mac, lanes,
      mem, pmu, cas, cirIn, cirs, cry, reg, lines, gnt, emus, micro, stl, quill⟩ := h

/-- An update of the boot domain that leaves the flash. -/
theorem Canon.updBoot
    {regs eff imgApplied free clk blot host arb fab tim tm par fwd buf mac lanes mem pmu cas cirIn cirs cry reg
    lines gnt emus micro stl quill fuses slots records bundle keyId version flashOp fuseTodo powerGood resetHeld}
    (h : Canon d) : Canon ⟨
      regs, eff, imgApplied, d.obs, free, clk, blot, host,
      ⟨fuses, d.boot.flash, slots, records, bundle, keyId, version, flashOp, fuseTodo, powerGood, resetHeld⟩, arb,
      fab, tim, tm, par, fwd, buf, mac, lanes, mem, pmu, cas, cirIn, cirs, cry, reg, lines, gnt, emus, micro, stl,
      quill⟩ := h

theorem Canon.writeObs {a l} (h : Canon d) (ho : e.obs = Mem.writeN d.obs a l) (hf : e.boot.flash = d.boot.flash) :
    Canon e := ⟨ho ▸ Mem.wf_writeN _ _ _ h.1, hf ▸ h.2⟩

theorem Canon.filterObs {p : Nat × Byte → Bool} (h : Canon d) (ho : e.obs = List.filter p d.obs)
    (hf : e.boot.flash = d.boot.flash) : Canon e := ⟨ho ▸ Mem.wf_filter p _ h.1, hf ▸ h.2⟩

theorem Canon.ite {c : Prop} {_ : Decidable c} (hd : Canon d) (he : Canon e) : Canon (if c then d else e) := by
  split <;> assumption

/-- A fold keeps what its steps keep. -/
theorem foldl_keeps {α β : Type} (p : β → Prop) {f : β → α → β} (hf : ∀ {y x}, p y → p (f y x)) (l : List α)
    {y : β} (h : p y) : p (l.foldl f y) := List.foldlRecOn l f h fun _ hy _ _ => hf hy

theorem Canon.foldl {α : Type} {f : Dev → α → Dev} {l : List α} (h : Canon d)
    (hf : ∀ {e x}, Canon e → Canon (f e x)) : Canon (l.foldl f d) := foldl_keeps Canon hf l h

theorem Canon.foldUpTo {n : Nat} {f : Nat → Dev → Dev} (h : Canon d) (hf : ∀ {i e}, Canon e → Canon (f i e)) :
    Canon (Sys2Proof.foldUpTo n f d) := foldUpTo_keeps Canon h fun _ _ => hf

/-! ### Answers that carry a device -/

/-- The device of a pair is canonical. -/
def Canon.Fst {α : Type} (x : Dev × α) : Prop := Canon x.1

theorem Canon.fst {α : Type} {x : Dev × α} (h : Canon.Fst x) : Canon x.1 := h

theorem Canon.Fst.mk {α : Type} {a : α} (h : Canon d) : Canon.Fst (d, a) := h

theorem Canon.Fst.ite {c : Prop} {_ : Decidable c} {α : Type} {x y : Dev × α} (hx : Canon.Fst x) (hy : Canon.Fst y) :
    Canon.Fst (if c then x else y) := by split <;> assumption

theorem Canon.Fst.foldl {α β : Type} {f : Dev × β → α → Dev × β} {l : List α} {x : Dev × β} (h : Canon.Fst x)
    (hf : ∀ {y a}, Canon.Fst y → Canon.Fst (f y a)) : Canon.Fst (l.foldl f x) := foldl_keeps Canon.Fst hf l h

theorem Canon.Fst.foldUpTo {n : Nat} {α : Type} {f : Nat → Dev × α → Dev × α} {x : Dev × α} (h : Canon.Fst x)
    (hf : ∀ {i y}, Canon.Fst y → Canon.Fst (f i y)) : Canon.Fst (Sys2Proof.foldUpTo n f x) :=
  foldUpTo_keeps Canon.Fst h fun _ _ => hf

/-- The device of a routine's run is canonical. -/
def Canon.InRun (r : MRun) : Prop := Canon r.d

theorem Canon.ofRun {r : MRun} (h : Canon.InRun r) : Canon r.d := h

theorem Canon.InRun.mk {e : Eng} {pc : CodeAt} {idle words : Nat} (h : Canon d) :
    Canon.InRun ⟨d, e, pc, idle, words⟩ := h

theorem Canon.InRun.ite {c : Prop} {_ : Decidable c} {x y : MRun} (hx : Canon.InRun x) (hy : Canon.InRun y) :
    Canon.InRun (if c then x else y) := by split <;> assumption

/-- The same of a run in a pair. -/
def Canon.RunFst {α : Type} (x : MRun × α) : Prop := Canon.InRun x.1

theorem Canon.InRun.fst {α : Type} {x : MRun × α} (h : Canon.RunFst x) : Canon.InRun x.1 := h

theorem Canon.RunFst.mk {α : Type} {a : α} {r : MRun} (h : Canon.InRun r) : Canon.RunFst (r, a) := h

theorem Canon.RunFst.ite {c : Prop} {_ : Decidable c} {α : Type} {x y : MRun × α} (hx : Canon.RunFst x)
    (hy : Canon.RunFst y) : Canon.RunFst (if c then x else y) := by split <;> assumption

/-- The device of a pass of Quill is canonical. -/
def Canon.InPass (r : Pass) : Prop := Canon r.d

theorem Canon.ofPass {r : Pass} (h : Canon.InPass r) : Canon r.d := h

theorem Canon.InPass.mk {l k : List Nat} (h : Canon d) : Canon.InPass ⟨d, l, k⟩ := h

theorem Canon.InPass.ite {c : Prop} {_ : Decidable c} {x y : Pass} (hx : Canon.InPass x) (hy : Canon.InPass y) :
    Canon.InPass (if c then x else y) := by split <;> assumption

theorem Canon.InPass.foldl {α : Type} {f : Pass → α → Pass} {l : List α} {x : Pass} (h : Canon.InPass x)
    (hf : ∀ {y a}, Canon.InPass y → Canon.InPass (f y a)) : Canon.InPass (l.foldl f x) :=
  foldl_keeps Canon.InPass hf l h

/-- What an operation that may refuse answers is canonical. -/
def Canon.Opt (o : Option Dev) : Prop := ∀ e, o = some e → Canon e

/-- The same of a device in a pair. -/
def Canon.OptFst {α : Type} (o : Option (Dev × α)) : Prop := ∀ x, o = some x → Canon.Fst x

theorem Canon.Opt.none : Canon.Opt none := fun _ h => nomatch h

theorem Canon.Opt.some (h : Canon d) : Canon.Opt (some d) := fun _ he => Option.some.inj he ▸ h

theorem Canon.Opt.ite {c : Prop} {_ : Decidable c} {o p : Option Dev} (ho : Canon.Opt o) (hp : Canon.Opt p) :
    Canon.Opt (if c then o else p) := by split <;> assumption

theorem Canon.Opt.map {o : Option Dev} {f : Dev → Dev} (ho : Canon.Opt o) (hf : ∀ {e}, Canon e → Canon (f e)) :
    Canon.Opt (o.map f) := by
  cases o with
  | none => exact .none
  | some e => exact .some (hf (ho e rfl))

theorem Canon.getD {o : Option Dev} (ho : Canon.Opt o) (h : Canon d) : Canon (o.getD d) := by
  cases o with
  | none => exact h
  | some e => exact ho e rfl

theorem Canon.OptFst.none {α : Type} : Canon.OptFst (none : Option (Dev × α)) := fun _ h => nomatch h

theorem Canon.OptFst.some {α : Type} {x : Dev × α} (h : Canon.Fst x) : Canon.OptFst (some x) :=
  fun _ he => Option.some.inj he ▸ h

theorem Canon.OptFst.map {α β : Type} {o : Option α} {f : α → Dev × β} (hf : ∀ {x}, Canon.Fst (f x)) :
    Canon.OptFst (o.map f) := by
  cases o with
  | none => exact .none
  | some x => exact .some hf

theorem Canon.OptFst.ite {α : Type} {c : Prop} {_ : Decidable c} {o p : Option (Dev × α)} (ho : Canon.OptFst o)
    (hp : Canon.OptFst p) : Canon.OptFst (if c then o else p) := by split <;> assumption

/-- The device that a pattern names. -/
theorem Canon.of_some {o : Option Dev} (he : o = some e) (h : Canon.Opt o) : Canon e := h e he

theorem Canon.of_some_pair {α : Type} {o : Option (Dev × α)} {a : α} (he : o = some (e, a)) (h : Canon.OptFst o) :
    Canon e := h _ he

/-- A command keeps both memories canonical. -/
def KeepsForm (f : State → Res) : Prop := ∀ s t, f s = .next t → Canon s.dev → Canon t.dev

theorem KeepsForm.run {c : Instr} {f : Dev → Dev} (hf : ∀ {d}, Canon d → Canon (f d)) :
    KeepsForm fun s => run c s f := by
  intro s t h hs
  replace h : Machine.run c s f = .next t := h
  cases hw : c.wf with
  | true =>
    rw [run_wf hw] at h
    cases h
    exact hf hs
  | false =>
    rw [run_illFormed hw] at h
    cases h


/-! ### Operations of Machine/State -/

theorem Canon.reset {fuses flash good} (hf : Mem.wf flash = true) : Canon (Dev.reset fuses flash good) := ⟨rfl, hf⟩

/-! ### Operations of Machine/Ops -/

theorem Canon.dropImage (h : Canon d) : Canon d.dropImage := by unfold Dev.dropImage; exact .upd h

theorem Canon.pmuAdd {b i n} (h : Canon d) : Canon (Machine.pmuAdd b i n d) := by unfold Machine.pmuAdd; exact .upd h

theorem Canon.pmuCount {a n} (h : Canon d) : Canon (d.pmuCount a n) := by
  unfold Dev.pmuCount; exact .ite h (.foldl h (fun he => .ite (.pmuAdd he) he))

theorem Canon.pmuEdge {a lo w old new} (h : Canon d) : Canon (d.pmuEdge a lo w old new) := by
  unfold Dev.pmuEdge; exact .ite h (.foldl h (fun he => .ite (.pmuAdd he) he))

theorem Canon.set {f v i j} (h : Canon d) : Canon (d.set f v i j) := by unfold Dev.set; exact .pmuEdge (.upd h)

theorem Canon.Fst.addRaw {key n} (h : Canon d) : Canon.Fst (d.addRaw key n) := by
  unfold Dev.addRaw; exact .mk (.upd h)

theorem Canon.Fst.evCount {r k n} (hr : Canon.Fst r) : Canon.Fst (Dev.evCount r k n) := by
  unfold Dev.evCount; exact .mk (.pmuCount (.fst (.addRaw (.fst hr))))

theorem Canon.noteLost {src} (h : Canon d) : Canon (d.noteLost src) := by unfold Dev.noteLost; exact .upd h

theorem Canon.Fst.openEntry {x l} (h : Canon d) : Canon.Fst (d.openEntry x l) := by
  unfold Dev.openEntry; exact .mk (.upd (.fst (.ite (.evCount (.mk (.upd h))) (.mk (.upd h)))))

theorem Canon.Fst.absorb {e late} (h : Canon d) : Canon.Fst (d.absorb e late) := by
  unfold Dev.absorb
  extract_lets r d _ _ _ _ _ _ _ _ _ a2
  have hr : Canon.Fst r := .evCount (.mk h)
  have hd : Canon d := .fst hr
  have ha2 : Canon.Fst a2 := .addRaw (.fst (.addRaw (.upd (.upd (.upd (.upd (.fst (.evCount (.mk
      (.noteLost hd))))))))))
  exact .ite hr (.ite (.evCount (.mk (.upd hd))) (.ite (.evCount (.mk (.upd hd))) (.ite (.mk (.ite (.fst ha2) (.upd
      (.fst ha2)))) (.openEntry hd))))

theorem Canon.postN {n x b} (h : Canon d) : Canon (Dev.postN n x b d) := by
  induction n generalizing x b d with
  | zero =>
    rw [Dev.postN]
    exact .fst (.absorb h)
  | succ f ih =>
    rw [Dev.postN]
    exact .foldl (.fst (.absorb h)) (fun he => ih he)

theorem Canon.post {e} (h : Canon d) : Canon (d.post e) := by unfold Dev.post; exact .postN h

theorem Canon.event {addr code inst data} (h : Canon d) : Canon (d.event addr code inst data) := by
  unfold Dev.event; exact .post h

theorem Canon.bumpAt {a inst n} (h : Canon d) : Canon (d.bumpAt a inst n) := by
  unfold Dev.bumpAt
  refine .ite h ?_
  extract_lets _ e
  have he : Canon e := .pmuCount (.fst (.addRaw h))
  exact .ite (.post he) he

theorem Canon.bump {f i j n} (h : Canon d) : Canon (d.bump f i j n) := by unfold Dev.bump; exact .bumpAt h

theorem Canon.bumpIn {f i j n} (h : Canon d) : Canon (d.bumpIn f i j n) := by unfold Dev.bumpIn; exact .set h

theorem Canon.flag {f i j cnt} (h : Canon d) : Canon (d.flag f i j cnt) := by
  unfold Dev.flag
  extract_lets _ _ d1
  have hd1 : Canon d1 := .pmuEdge (.upd h)
  exact .post (.ite (.bumpAt hd1) hd1)

theorem Canon.flagBit {f b cntAddr inst cnt} (h : Canon d) : Canon (d.flagBit f b cntAddr inst cnt) := by
  unfold Dev.flagBit
  extract_lets _ d1
  have hd1 : Canon d1 := .pmuEdge (.upd h)
  exact .post (.ite (.bumpAt hd1) hd1)

theorem Canon.msi {v} (h : Canon d) : Canon (d.msi v) := by unfold Dev.msi; exact .ite h (.upd h)

theorem Canon.irqAlert (h : Canon d) : Canon d.irqAlert := by unfold Dev.irqAlert; exact .msi (.flag h)

theorem Canon.irqBlotter (h : Canon d) : Canon d.irqBlotter := by unfold Dev.irqBlotter; exact .msi (.flag h)

theorem Canon.alert {b} (h : Canon d) : Canon (d.alert b) := by unfold Dev.alert; exact .irqAlert (.flagBit h)

theorem Canon.alertActive {b v} (h : Canon d) : Canon (d.alertActive b v) := by unfold Dev.alertActive; exact .set h

theorem Canon.cycles {n} (h : Canon d) : Canon (d.cycles n) := by
  unfold Dev.cycles
  extract_lets _ _ d
  have hd : Canon d := .upd h
  refine .ite hd ?_
  refine .foldl (.foldUpTo hd (fun he1 => .ite he1 (.upd he1))) (fun he3 => ?_)
  extract_lets
  refine .ite ?_ he3
  split
  · exact he3
  · split
    · exact .ite he3 (.ite (.pmuAdd he3) he3)
    · exact .ite (.pmuAdd he3) he3

theorem Canon.tick (h : Canon d) : Canon d.tick := by unfold Dev.tick; exact .cycles (.upd h)

theorem Canon.runTo {ns} (h : Canon d) : Canon (d.runTo ns) := by unfold Dev.runTo; exact .ite h (.cycles (.upd h))

theorem Canon.runCycles {n} (h : Canon d) : Canon (d.runCycles n) := by
  unfold Dev.runCycles; exact .ite h (.cycles (.upd h))

theorem Canon.reach {cyc} (h : Canon d) : Canon (d.reach cyc) := by unfold Dev.reach; exact .runCycles h

theorem Canon.Fst.draw {n} (h : Canon d) : Canon.Fst (d.draw n) := by unfold Dev.draw; exact .mk (.upd h)

theorem Canon.Fst.pick {l} (h : Canon d) : Canon.Fst (d.pick l) := by
  unfold Dev.pick
  split
  · exact .mk h
  · exact .mk h
  · exact .mk (.fst (.draw h))

/-! ### Operations of Machine/Ports -/

theorem Canon.hostW {f} (h : Canon d) (hf : ∀ {x0}, Canon x0 → Canon (f x0)) : Canon (d.hostW f) := by
  unfold Dev.hostW; exact .ite (hf h) h

theorem Canon.hostR {f} (h : Canon d) (hf : ∀ {x0}, Canon x0 → Canon (f x0)) : Canon (d.hostR f) := by
  unfold Dev.hostR; exact .ite h (hf h)

theorem Canon.octets {k n} (h : Canon d) : Canon (d.octets k n) := by unfold Dev.octets; exact .upd h

theorem Canon.uplCount {p k n} (h : Canon d) : Canon (d.uplCount p k n) := by unfold Dev.uplCount; exact .bump h

theorem Canon.binCount {p base n} (h : Canon d) : Canon (d.binCount p base n) := by
  unfold Dev.binCount
  split
  · exact .uplCount h
  · exact h

/-! ### Operations of Machine/RegFile -/

theorem Canon.storeField {f i j v} (h : Canon d) : Canon (d.storeField f i j v) := by
  unfold Dev.storeField
  extract_lets
  split
  · exact .set h
  · exact .ite h (.set h)
  · exact .set h
  · exact .set h
  · exact h
  · exact .set h

theorem Canon.rwlWrite {r i j} (h : Canon d) : Canon (d.rwlWrite r i j) := by
  unfold Dev.rwlWrite; exact .ite (.event h) h

theorem Canon.store {r i j v} (h : Canon d) : Canon (d.store r i j v) := by
  unfold Dev.store; exact .rwlWrite (.foldl h .storeField)

theorem Canon.hold {r i j} (h : Canon d) : Canon (d.hold r i j) := by
  unfold Dev.hold
  refine .foldl h (fun he => ?_)
  refine .ite ?_ he
  split
  · exact he
  · exact .upd he

theorem Canon.releaseFld {f i j} (h : Canon d) : Canon (d.releaseFld f i j) := by unfold Dev.releaseFld; exact .upd h

theorem Canon.release {r i j} (h : Canon d) : Canon (d.release r i j) := by
  unfold Dev.release; exact .foldl h .upd

theorem Canon.storeHeld {r i j v} (h : Canon d) : Canon (d.storeHeld r i j v) := by
  unfold Dev.storeHeld; exact .store (.hold h)

/-! ### Operations of Machine/Memory -/

theorem Canon.memCount {k n} (h : Canon d) : Canon (d.memCount k n) := by unfold Dev.memCount; exact .bump h

theorem Canon.poison {access} (h : Canon d) : Canon (d.poison access) := by
  unfold Dev.poison; exact .ite h (.ite (.flag h) (.upd h))

theorem Canon.showOwed {s} (h : Canon d) : Canon (d.showOwed s) := by unfold Dev.showOwed; exact .set h

theorem Canon.refreshOne {pc} (h : Canon d) : Canon (Dev.refreshOne pc d) := by
  unfold Dev.refreshOne
  refine .ite h ?_
  extract_lets _ _ _ d1
  have hd1 : Canon d1 := .upd (.memCount (.ite (.flag h) h))
  exact .ite (.upd hd1) hd1

theorem Canon.touchBank {n row others} (h : Canon d) : Canon (d.touchBank n row others) := by
  unfold Dev.touchBank; exact .memCount (.upd h)

theorem Canon.touch {a} (h : Canon d) : Canon (d.touch a) := by unfold Dev.touch; exact .touchBank h

theorem Canon.issue {x} (h : Canon d) : Canon (d.issue x) := by
  unfold Dev.issue; exact .touch (.ite (.upd h) (.upd h))

theorem Canon.issueUntil {pc done n} (h : Canon d) : Canon (Dev.issueUntil pc done n d) := by
  induction n generalizing d with
  | zero =>
    rw [Dev.issueUntil]
    exact h
  | succ f ih =>
    rw [Dev.issueUntil]
    refine .ite h ?_
    refine .ite (ih (.refreshOne h)) ?_
    split
    · exact h
    · exact ih (.issue h)

theorem Canon.setTags {p n} (h : Canon d) : Canon (d.setTags p n) := by unfold Dev.setTags; exact .upd h

theorem Canon.startRead {r accs} (h : Canon d) : Canon (d.startRead r accs) := by
  unfold Dev.startRead; exact .upd (.memCount (.setTags h))

theorem Canon.askRead {r} (h : Canon d) : Canon (d.askRead r) := by
  unfold Dev.askRead; exact .ite (.startRead h) (.memCount (.upd h))

theorem Canon.serveReads (h : Canon d) : Canon d.serveReads := by
  unfold Dev.serveReads; exact .foldl h (fun he => .ite (.startRead (.upd he)) he)

theorem Canon.landWrite {w} (h : Canon d) : Canon (d.landWrite w) := by
  unfold Dev.landWrite; exact .ite (.upd h) (.writeObs h rfl rfl)

theorem Canon.Opt.mergeReads {w} (h : Canon d) : Canon.Opt (d.mergeReads w) := by
  unfold Dev.mergeReads
  exact .ite (.some h) (.ite .none (.some (.foldl h (fun he => .ite (.memCount he) (.memCount (.touch he))))))

theorem Canon.Opt.enterWrite {w} (h : Canon d) : Canon.Opt (d.enterWrite w) := by
  unfold Dev.enterWrite
  refine .ite (.some h) ?_
  extract_lets
  refine .ite .none ?_
  split
  · exact .none
  · rename_i e heq2
    have he := Canon.of_some heq2 (.mergeReads h)
    extract_lets _ _ d
    have hd : Canon d := .landWrite he
    exact .some (.ite hd (.upd hd))

theorem Canon.putWrite {w} (h : Canon d) : Canon (d.putWrite w) := by
  unfold Dev.putWrite
  extract_lets wait
  have hwait : ∀ {x0}, Canon x0 → Canon (wait x0) := fun he => .upd he
  refine .ite (hwait h) ?_
  split
  · rename_i e heq3
    have he2 := Canon.of_some heq3 (.enterWrite h)
    exact he2
  · exact hwait (.ite (.memCount h) h)

theorem Canon.enterWaiting {n} (h : Canon d) : Canon (Dev.enterWaiting n d) := by
  induction n generalizing d with
  | zero =>
    rw [Dev.enterWaiting]
    exact h
  | succ f ih =>
    rw [Dev.enterWaiting]
    split
    · exact h
    · split
      · exact h
      · rename_i e heq1
        have he := Canon.of_some heq1 (.enterWrite h)
        exact ih (.upd he)

theorem Canon.admitWrites (h : Canon d) : Canon d.admitWrites := by unfold Dev.admitWrites; exact .enterWaiting h

theorem Canon.flushWrites {n} (h : Canon d) : Canon (Dev.flushWrites n d) := by
  induction n generalizing d with
  | zero =>
    rw [Dev.flushWrites]
    exact h
  | succ f ih =>
    rw [Dev.flushWrites]
    split
    · exact h
    · extract_lets _ e
      have he : Canon e := .upd h
      exact ih (.admitWrites (.memCount (.ite he (.touch he))))

theorem Canon.settleWrites (h : Canon d) : Canon d.settleWrites := by unfold Dev.settleWrites; exact .flushWrites h

theorem Canon.writeBlocks {port a l n} (h : Canon d) : Canon (d.writeBlocks port a l n) := by
  induction n generalizing d a l with
  | zero =>
    rw [Dev.writeBlocks]
    exact h
  | succ f ih =>
    rw [Dev.writeBlocks]
    exact .ite h (ih (.putWrite h))

theorem Canon.memWrite {port a l} (h : Canon d) : Canon (d.memWrite port a l) := by
  unfold Dev.memWrite; exact .writeBlocks h

theorem Canon.obsWrite {a l} (h : Canon d) : Canon (d.obsWrite a l) := by unfold Dev.obsWrite; exact .memWrite h

theorem Canon.mirror {off stride i at_ len r} (h : Canon d) : Canon (d.mirror off stride i at_ len r) := by
  unfold Dev.mirror; exact .obsWrite h

theorem Canon.Fst.recCount {old n base inst off} (h : Canon d) : Canon.Fst (d.recCount old n base inst off) := by
  unfold Dev.recCount; exact .mk (.ite (.post h) h)

theorem Canon.showData {f n r} (h : Canon d) : Canon (d.showData f n r) := by
  unfold Dev.showData; exact .foldUpTo h .set

/-! ### Operations of Machine/Queues -/

theorem Canon.showPool {j} (h : Canon d) : Canon (d.showPool j) := by unfold Dev.showPool; exact .set (.set h)

theorem Canon.Fst.grant {o j} (h : Canon d) : Canon.Fst (d.grant o j) := by
  unfold Dev.grant; exact .mk (.showPool (.upd h))

theorem Canon.nextCycle (h : Canon d) : Canon d.nextCycle := by unfold Dev.nextCycle; exact .reach h

theorem Canon.askTurn {port j} (h : Canon d) : Canon (d.askTurn port j) := by
  unfold Dev.askTurn; exact .upd (.ite (.nextCycle h) h)

theorem Canon.fellTo {j0 j} (h : Canon d) : Canon (d.fellTo j0 j) := by unfold Dev.fellTo; exact .upd h

theorem Canon.Fst.alloc {port o len} (h : Canon d) : Canon.Fst (d.alloc port o len) := by
  unfold Dev.alloc
  extract_lets _ d
  have hd : Canon d := .askTurn h
  split
  · exact .mk (.fst (.grant (.ite (.flag (.fellTo hd)) hd)))
  · exact .mk (.upd (.fst (.recCount (.flag (.fellTo hd)))))

theorem Canon.addRef {b n} (h : Canon d) : Canon (d.addRef b n) := by
  unfold Dev.addRef
  split
  · exact .upd h
  · exact h

theorem Canon.release1 {b} (h : Canon d) : Canon (d.release1 b) := by
  unfold Dev.release1
  split
  · exact .ite (.upd h) (.showPool (.upd h))
  · exact h

theorem Canon.setQ {q x} (h : Canon d) : Canon (d.setQ q x) := by unfold Dev.setQ; exact .upd h

theorem Canon.Fst.popQ {q} (h : Canon d) : Canon.Fst (d.popQ q) := by
  unfold Dev.popQ
  extract_lets
  split
  · exact .mk h
  · exact .mk (.setQ h)

theorem Canon.OptFst.freeSlot (h : Canon d) : Canon.OptFst d.freeSlot := by
  unfold Dev.freeSlot
  extract_lets
  split
  · exact .some (.mk (.upd (.fst (.draw h))))
  · exact .none

theorem Canon.addPages {o n} (h : Canon d) : Canon (d.addPages o n) := by unfold Dev.addPages; exact .set (.upd h)

theorem Canon.freePage {o slot} (h : Canon d) : Canon (d.freePage o slot) := by
  unfold Dev.freePage; exact .addPages (.upd h)

theorem Canon.trace {g stage where_ service len tc colour de mem} (h : Canon d) :
    Canon (d.trace g stage where_ service len tc colour de mem) := by
  unfold Dev.trace
  split
  · exact h
  · exact .ite (.flag (.upd h)) (.bump (.set (.set (.obsWrite (.upd h)))))

theorem Canon.tracePkt {p stage where_} (h : Canon d) : Canon (d.tracePkt p stage where_) := by
  unfold Dev.tracePkt; exact .trace h

theorem Canon.traceDropped {l w} (h : Canon d) : Canon (d.traceDropped l w) := by
  unfold Dev.traceDropped; exact .foldl h .tracePkt

theorem Canon.releaseAll {l} (h : Canon d) : Canon (d.releaseAll l) := by
  unfold Dev.releaseAll; exact .foldl h .release1

theorem Canon.dropReads {q slot} (h : Canon d) : Canon (d.dropReads q slot) := by unfold Dev.dropReads; exact .upd h

theorem Canon.flushPage {q p} (h : Canon d) : Canon (Dev.flushPage q d p) := by
  unfold Dev.flushPage
  extract_lets
  split
  · exact .bump (.freePage h)
  · exact .dropReads (.release1 (.freePage h))
  · exact .release1 (.freePage h)
  · exact .release1 (.freePage h)

theorem Canon.Fst.emptyQueue {q w} (h : Canon d) : Canon.Fst (d.emptyQueue q w) := by
  unfold Dev.emptyQueue
  extract_lets _ _ _ d1
  have hd1 : Canon d1 := .foldl (.releaseAll (.releaseAll (.traceDropped h))) .flushPage
  exact .mk (.setQ (.ite (.release1 hd1) hd1))

theorem Canon.countFlushed {c n} (h : Canon d) : Canon (d.countFlushed c n) := by
  unfold Dev.countFlushed; exact .ite h (.flag (.bump h))

theorem Canon.flushQ {q} (h : Canon d) : Canon (d.flushQ q) := by
  unfold Dev.flushQ; exact .countFlushed (.fst (.emptyQueue h))

theorem Canon.flushPkts {c l} (h : Canon d) : Canon (d.flushPkts c l) := by
  unfold Dev.flushPkts; exact .countFlushed (.releaseAll (.traceDropped h))

theorem Canon.flushNode {n} (h : Canon d) : Canon (d.flushNode n) := by
  unfold Dev.flushNode; exact .foldl h .flushQ

theorem Canon.Fst.dice {pipe} (h : Canon d) : Canon.Fst (d.dice pipe) := by unfold Dev.dice; exact .mk (.upd h)

theorem Canon.Fst.admission {q c pipe de ecn} (h : Canon d) : Canon.Fst (d.admission q c pipe de ecn) := by
  unfold Dev.admission
  extract_lets _ _ _ _ _ d _ _ _ _ _ t y
  have hd : Canon d := .setQ h
  have ht : Canon.Fst t := .dice hd
  have hy : Canon.Fst y := .ite (.mk (.fst ht)) (.mk hd)
  exact .ite (.mk hd) (.ite (.mk hd) (.ite (.mk (.fst hy)) (.ite (.mk (.fst hy)) (.ite (.mk hd) (.ite (.ite (.mk
      (.fst ht)) (.mk (.fst ht))) (.mk hd))))))

theorem Canon.Fst.admCount {q a} (h : Canon d) : Canon.Fst (d.admCount q a) := by
  unfold Dev.admCount
  refine .ite ?_ ?_
  · extract_lets
    split
    · exact .mk h
    · exact .mk (.flag h)
    · exact .mk (.flag h)
    · exact .mk (.flag h)
    · exact .mk (.flag h)
  · extract_lets
    split
    · exact .mk h
    · exact .mk h
    · exact .mk (.bump h)

theorem Canon.Fst.meter {m c pre} (h : Canon d) : Canon.Fst (d.meter m c pre) := by
  unfold Dev.meter; exact .mk (.upd (.fst (.recCount h)))

/-! ### Operations of Machine/Rings -/

theorem Canon.setRing {n r} (h : Canon d) : Canon (d.setRing n r) := by unfold Dev.setRing; exact .set (.upd h)

theorem Canon.endCmd {n tag opcode status result detail} (h : Canon d) :
    Canon (d.endCmd n tag opcode status result detail) := by
  unfold Dev.endCmd
  extract_lets _ _ _ _ d1
  have hd1 : Canon d1 := .bump (.setRing h)
  exact .ite hd1 (.ite (.bump hd1) (.bump hd1))

theorem Canon.stepHead {n} (h : Canon d) : Canon (d.stepHead n) := by unfold Dev.stepHead; exact .set (.upd h)

theorem Canon.dropUnknown {n n1} (h : Canon d) : Canon (Dev.dropUnknown n n1 d) := by
  induction n1 generalizing d with
  | zero =>
    rw [Dev.dropUnknown]
    exact h
  | succ f ih =>
    rw [Dev.dropUnknown]
    exact .ite (ih (.endCmd (.stepHead h))) h

theorem Canon.command {n opcode act} (h : Canon d) (hact : ∀ {x0 x1}, Canon x1 → Canon (act x0 x1)) :
    Canon (d.command n opcode act) := by
  unfold Dev.command
  extract_lets _ _ _ d
  have hd : Canon d := .stepHead h
  exact .ite h (.dropUnknown (.ite (.endCmd hd) (.ite (.endCmd hd) (hact hd))))

theorem Canon.keepRunning {n t} (h : Canon d) : Canon (d.keepRunning n t) := by
  unfold Dev.keepRunning; exact .setRing h

/-! ### Operations of Machine/Forward -/

theorem Canon.fwdCount {k n} (h : Canon d) : Canon (d.fwdCount k n) := by unfold Dev.fwdCount; exact .bump h

theorem Canon.showUse (h : Canon d) : Canon d.showUse := by unfold Dev.showUse; exact .set (.set (.set h))

theorem Canon.setLearn {g r} (h : Canon d) : Canon (d.setLearn g r) := by
  unfold Dev.setLearn; exact .obsWrite (.upd h)

theorem Canon.learnAdd {t up} (h : Canon d) : Canon (d.learnAdd t up) := by
  unfold Dev.learnAdd
  split
  · exact h
  · exact .setLearn h

theorem Canon.setBridge {i r} (h : Canon d) : Canon (d.setBridge i r) := by
  unfold Dev.setBridge
  extract_lets _ _ _ _ d
  have hd : Canon d := .upd h
  exact .showUse (.mirror (.ite hd (.learnAdd (.learnAdd hd))))

theorem Canon.request {pipe pair service} (h : Canon d) : Canon (d.request pipe pair service) := by
  unfold Dev.request; exact .ite h (.ite (.flag h) (.ite (.upd h) (.set (.upd h))))

theorem Canon.Fst.learn {pipe svcIx smac} (h : Canon d) : Canon.Fst (d.learn pipe svcIx smac) := by
  unfold Dev.learn
  extract_lets
  refine .ite (.mk h) ?_
  split
  · extract_lets _ _ e
    have he : Canon e := .upd h
    exact .ite (.mk (.ite h (.ite he (.setBridge he)))) (.ite (.mk (.flag h)) (.mk (.request h)))
  · exact .mk (.request h)

theorem Canon.Fst.oneCopy {pipe f colour de r t} (hr : Canon.Fst r) :
    Canon.Fst (Dev.oneCopy pipe f colour de r t) := by
  unfold Dev.oneCopy
  extract_lets d
  have hd : Canon d := .fst hr
  split
  · exact .mk (.trace (.bump hd))
  · refine .ite (.mk (.trace (.bump hd))) ?_
    refine .ite (.mk (.trace hd)) ?_
    extract_lets _ k
    have hk : Canon.Fst k := .admCount (.fst (.admission hd))
    split
    · exact .mk (.fst hk)
    · exact .mk (.fst hk)
    · exact .mk (.trace (.fst hk))

theorem Canon.pushTo {q p} (h : Canon d) : Canon (d.pushTo q p) := by
  unfold Dev.pushTo
  extract_lets _ _ _ d
  have hd : Canon d := .setQ h
  exact .ite (.upd hd) hd

theorem Canon.enqueue {buf c} (h : Canon d) : Canon (Dev.enqueue buf d c) := by
  unfold Dev.enqueue
  extract_lets _ _ _ d
  have hd : Canon d := by
    unfold d
    split
    · exact .ite (.upd h) (.pushTo h)
    · exact .pushTo h
  exact .tracePkt hd

theorem Canon.storeCopies {pipe l len} (h : Canon d) : Canon (d.storeCopies pipe l len) := by
  unfold Dev.storeCopies
  split
  · exact h
  · extract_lets r
    have hr : Canon.Fst r := .alloc h
    split
    · exact .tracePkt (.fst hr)
    · exact .foldl (.addRef (.fst hr)) .enqueue

theorem Canon.Fst.classify {u key rv} (h : Canon d) : Canon.Fst (d.classify u key rv) := by
  unfold Dev.classify
  split
  · exact .mk (.bump (.upd (.fst (.recCount h))))
  · exact .mk (.bump h)

theorem Canon.parFlag {f u k} (h : Canon d) : Canon (d.parFlag f u k) := by unfold Dev.parFlag; exact .flag (.bump h)

theorem Canon.showFrags (h : Canon d) : Canon d.showFrags := by unfold Dev.showFrags; exact .set h

theorem Canon.fragHit {i l r} (h : Canon d) : Canon (d.fragHit i l r) := by
  unfold Dev.fragHit
  split
  · exact h
  · exact .showFrags (.upd h)

theorem Canon.Fst.classifyPkt {c u p r key rv} (h : Canon d) : Canon.Fst (d.classifyPkt c u p r key rv) := by
  unfold Dev.classifyPkt
  extract_lets _ _ plain k _ _ _ _ _ _ d1
  have hplain : ∀ {x0}, Canon x0 → Canon.Fst (plain x0) := fun he => .mk (.fst (.classify he))
  have hk : Canon.Fst k := .classify h
  have hd1 : Canon d1 := .parFlag h
  refine .ite (hplain h) ?_
  split
  · exact .mk (.fragHit (.bump h))
  · refine .ite ?_ (.ite (.mk hd1) (hplain hd1))
    split
    · exact .mk (.bump (.showFrags (.upd (.fst (.pick (.fst hk))))))
    · exact .mk (.parFlag (.fst hk))

theorem Canon.Fst.randomTag {pipe} (h : Canon d) : Canon.Fst (d.randomTag pipe) := by
  unfold Dev.randomTag; exact .mk (.upd h)

theorem Canon.Fst.giveTag {pipe u port hash key rnd rule} (h : Canon d) :
    Canon.Fst (d.giveTag pipe u port hash key rnd rule) := by
  unfold Dev.giveTag; exact .ite (.mk (.bump (.upd h))) (.mk h)

theorem Canon.Fst.police {meter cls q len} (h : Canon d) : Canon.Fst (d.police meter cls q len) := by
  unfold Dev.police
  extract_lets _ r
  have hr : Canon.Fst r := .meter h
  refine .ite (.mk h) ?_
  split <;> exact .mk (.ite (.bump (.fst hr)) (.fst hr))

theorem Canon.Fst.findDest {pipe s c l r known fails} (h : Canon d) :
    Canon.Fst (d.findDest pipe s c l r known fails) := by
  unfold Dev.findDest
  extract_lets _ _ _ _ k1 d
  have hk1 : Canon.Fst k1 := .ite (.mk h) (.learn h)
  have hd : Canon d := .fwdCount (.fst hk1)
  split
  · refine .ite (.mk (.flag h)) ?_
    split
    · exact .mk (.fst hk1)
    · exact .mk (.fst hk1)
    · split
      · exact .mk hd
      · exact .mk (.fwdCount hd)
  · refine .ite (.mk (.fwdCount h)) ?_
    refine .ite (.mk (.fwdCount h)) ?_
    split <;> exact .mk (.fwdCount h)
  · exact .mk (.fwdCount h)

theorem Canon.dropPkt {g where_ service len tc} (h : Canon d) : Canon (d.dropPkt g where_ service len tc) := by
  unfold Dev.dropPkt; exact .trace h

theorem Canon.forward {pipe u p c r a g hash tc} (h : Canon d) : Canon (d.forward pipe u p c r a g hash tc) := by
  unfold Dev.forward
  extract_lets _ _ _ si
  clear_value si
  split
  · exact .dropPkt (.flag h)
  · extract_lets _ f
    have hf : Canon.Fst f := .findDest h
    split
    · exact .dropPkt (.fst hf)
    · extract_lets d _ d1 d2
      have hd : Canon d := .trace (.fst hf)
      have hd1 : Canon d1 := .ite (.flag hd) hd
      have hd2 : Canon d2 := .ite (.bump hd1) hd1
      split
      · exact .dropPkt (.fwdCount hd2)
      · extract_lets _ pol
        have hpol : Canon.Fst pol := .ite (.police hd2) (.mk hd2)
        split
        · exact .dropPkt (.fst hpol)
        · exact .storeCopies (.fst (.foldl (.mk (.fst hpol)) .oneCopy))

theorem Canon.pipeline {pipe p} (h : Canon d) : Canon (d.pipeline pipe p) := by
  unfold Dev.pipeline
  extract_lets _ _ _ _ d d1 d2 _ d3 _ _ _ d4 _ _ _ _ _ t1
  have hd : Canon d := .bump h
  have hd1 : Canon d1 := .ite (.parFlag hd) hd
  have hd2 : Canon d2 := .ite (.bump hd1) hd1
  have hd3 : Canon d3 := .fst (.randomTag hd2)
  have hd4 : Canon d4 := .ite (.parFlag hd3) hd3
  have ht1 : Canon.Fst t1 := .giveTag (.fst (.classifyPkt hd4))
  exact .ite (.bump (.upd hd2)) (.ite (.dropPkt (.fst (.giveTag hd4))) (.ite (.dropPkt (.fst ht1)) (.ite (.dropPkt
      (.bump (.fst ht1))) (.forward (.fst ht1)))))

/-! ### Operations of Machine/Spill -/

theorem Canon.Fst.takeSp (h : Canon d) : Canon.Fst d.takeSp := by
  unfold Dev.takeSp
  extract_lets d
  have hd : Canon d := .askTurn h
  exact .ite (.mk (.fst (.grant hd))) (.mk hd)

theorem Canon.spillBlocked (h : Canon d) : Canon d.spillBlocked := by
  unfold Dev.spillBlocked; exact .flag (.ite h (.flag h))

theorem Canon.Opt.writePage {q} (h : Canon d) : Canon.Opt (d.writePage q) := by
  unfold Dev.writePage
  extract_lets
  split
  · rename_i _ e _ heq5
    have he := Canon.of_some_pair heq5 (.freeSlot h)
    exact .some (.bump (.addPages (.upd (.writeBlocks (.release1 (.setQ he))))))
  · exact .none

theorem Canon.Fst.openPage {q} (h : Canon d) : Canon.Fst (d.openPage q) := by
  unfold Dev.openPage
  refine .ite (.mk h) ?_
  extract_lets r
  have hr : Canon.Fst r := .takeSp h
  split
  · exact .mk (.setQ (.fst hr))
  · exact .mk (.fst hr)

theorem Canon.moveToPage {q} (h : Canon d) : Canon (d.moveToPage q) := by
  unfold Dev.moveToPage
  extract_lets
  split
  · exact .release1 (.setQ h)
  · exact h

theorem Canon.spillLoop {q n} (h : Canon d) : Canon (Dev.spillLoop q n d) := by
  induction n generalizing d with
  | zero =>
    rw [Dev.spillLoop]
    exact h
  | succ f ih =>
    rw [Dev.spillLoop]
    refine .ite h ?_
    extract_lets
    split
    · exact h
    · refine .ite h ?_
      refine .ite (.spillBlocked h) ?_
      extract_lets
      split
      · exact .spillBlocked h
      · rename_i e heq2
        have he := Canon.of_some heq2 (.ite (.writePage h) (.some (.setQ h)))
        extract_lets r
        have hr : Canon.Fst r := .openPage he
        exact .ite (ih (.moveToPage (.fst hr))) (.spillBlocked (.fst hr))

theorem Canon.spillStep {q} (h : Canon d) : Canon (d.spillStep q) := by
  unfold Dev.spillStep; exact .setQ (.spillLoop h)

theorem execSpillStep_keepsForm {q} : KeepsForm (Machine.execSpillStep q) := by
  unfold Machine.execSpillStep; exact .run .spillStep

theorem Canon.headWait {q} (h : Canon d) : Canon (d.headWait q) := by
  unfold Dev.headWait
  extract_lets
  split
  · exact .ite h (.flag h)
  · exact h

theorem Canon.readPage {q p b} (h : Canon d) : Canon (d.readPage q p b) := by
  unfold Dev.readPage; exact .ite (.setQ h) (.foldUpTo (.setQ h) .askRead)

theorem Canon.prefetch {q} (h : Canon d) : Canon (d.prefetch q) := by
  unfold Dev.prefetch
  extract_lets _ _ r
  have hr : Canon.Fst r := .takeSp h
  refine .ite h ?_
  split
  · exact .bump (.setQ (.ite (.release1 h) (.addRef h)))
  · split
    · exact h
    · split
      · exact .flag (.fst hr)
      · extract_lets d
        have hd : Canon d := .bump (.readPage (.fst hr))
        exact .ite (.headWait hd) hd

theorem execPrefetch_keepsForm {q} : KeepsForm (Machine.execPrefetch q) := by
  unfold Machine.execPrefetch; exact .run .prefetch

theorem Canon.joinPages {q n} (h : Canon d) : Canon (Dev.joinPages q n d) := by
  induction n generalizing d with
  | zero =>
    rw [Dev.joinPages]
    exact h
  | succ f ih =>
    rw [Dev.joinPages]
    split
    · exact h
    · split
      · exact ih (.freePage (.setQ (.ite (.release1 h) (.addRef h))))
      · extract_lets _ d1
        have hd1 : Canon d1 := .freePage (.setQ (.release1 h))
        exact ih (.foldl (.ite hd1 (.flag (.bump hd1))) .tracePkt)
      · exact h

theorem Canon.pageLand {q slot headerBad} (h : Canon d) : Canon (d.pageLand q slot headerBad) := by
  unfold Dev.pageLand
  extract_lets
  split
  · exact h
  · split
    · exact .joinPages (.setQ h)
    · exact h

theorem execPageLand_keepsForm {q slot headerBad} : KeepsForm (Machine.execPageLand q slot headerBad) := by
  unfold Machine.execPageLand; exact .run .pageLand

theorem Canon.bufRefuse (h : Canon d) : Canon d.bufRefuse := by unfold Dev.bufRefuse; exact .flag (.flag h)

theorem Canon.setOwner {o r} (h : Canon d) : Canon (d.setOwner o r) := by unfold Dev.setOwner; exact .mirror (.upd h)

theorem Canon.bufAccess {index table write} (h : Canon d) : Canon (d.bufAccess index table write) := by
  unfold Dev.bufAccess
  refine .ite h ?_
  extract_lets d
  have hd : Canon d := .set (.set (.set h))
  exact .ite (.ite (.bufRefuse hd) (.setOwner hd)) (.ite (.bufRefuse hd) (.showData hd))

theorem execBufIndRead_keepsForm {table index} : KeepsForm (Machine.execBufIndRead table index) := by
  unfold Machine.execBufIndRead; exact .run (fun he => .hostW he .bufAccess)

theorem execBufIndWrite_keepsForm {table index} : KeepsForm (Machine.execBufIndWrite table index) := by
  unfold Machine.execBufIndWrite; exact .run (fun he => .hostW he .bufAccess)

/-! ### Operations of Machine/MemCtl -/

theorem Canon.showPages (h : Canon d) : Canon d.showPages := by unfold Dev.showPages; exact .set h

theorem Canon.losePages {p} (h : Canon d) : Canon (d.losePages p) := by unfold Dev.losePages; exact .upd h

theorem Canon.dropWrites (h : Canon d) : Canon d.dropWrites := by unfold Dev.dropWrites; exact .admitWrites (.upd h)

theorem Canon.killUnit {u} (h : Canon d) : Canon (d.killUnit u) := by
  unfold Dev.killUnit; exact .ite h (.dropWrites (.showPages (.flag (.losePages (.set h)))))

theorem Canon.showMig (h : Canon d) : Canon d.showMig := by
  unfold Dev.showMig
  extract_lets _ d1
  have hd1 : Canon d1 := .foldUpTo (.set h) (fun he1 => .ite he1 (.set he1))
  split
  · exact .set (.set (.set (.set hd1)))
  · exact .set hd1

theorem Canon.nextMig (h : Canon d) : Canon d.nextMig := by
  unfold Dev.nextMig
  split
  · exact .showMig (.upd h)
  · exact .showMig (.set (.upd h))

theorem Canon.retire {u} (h : Canon d) : Canon (d.retire u) := by
  unfold Dev.retire
  refine .ite h ?_
  refine .ite ?_ ?_
  · split
    · exact .ite (.nextMig (.killUnit (.killUnit (.flag h)))) h
    · exact h
  · extract_lets _ src
    have hsrc : Canon src := .flag h
    refine .ite (.killUnit (.flag h)) ?_
    split
    · exact .nextMig (.upd hsrc)
    · exact .ite h (.showMig (.upd hsrc))

theorem Canon.unitUncorr {u} (h : Canon d) : Canon (d.unitUncorr u) := by
  unfold Dev.unitUncorr
  extract_lets _ _ _ d1
  have hd1 : Canon d1 := .set (.flag h)
  exact .ite (.retire hd1) hd1

theorem Canon.Fst.ended {e u} (h : Canon d) : Canon.Fst (d.ended e u) := by
  unfold Dev.ended
  split
  · exact .mk h
  · exact .mk (.flag h)
  · exact .mk (.unitUncorr (.flag h))
  · exact .mk (.unitUncorr h)

theorem Canon.late {port ns} (h : Canon d) : Canon (d.late port ns) := by unfold Dev.late; exact .ite (.bump h) h

theorem Canon.replays {n} (h : Canon d) : Canon (d.replays n) := by
  unfold Dev.replays; exact .foldUpTo h .flag

theorem Canon.hostRead {access n badAt} (h : Canon d) : Canon (d.hostRead access n badAt) := by
  unfold Dev.hostRead; exact .memCount (.upd h)

theorem Canon.Fst.finishRead {r e a ns} (h : Canon d) : Canon.Fst (d.finishRead r e a ns) := by
  unfold Dev.finishRead
  extract_lets d _ _ _ _ _ d3
  have hd : Canon d := .reach h
  have hd3 : Canon d3 := .late (.memCount (.setTags (.upd (.ite (.issueUntil hd) hd))))
  exact .mk (.serveReads (.fst (.ite (.mk hd3) (.ite (.ended hd3) (.mk hd3)))))

theorem Canon.pageBack {q slot} (h : Canon d) : Canon (d.pageBack q slot) := by
  unfold Dev.pageBack; exact .ite h (.setQ h)

theorem Canon.pageRead {q slot k e ns} (h : Canon d) : Canon (d.pageRead q slot k e ns) := by
  unfold Dev.pageRead
  split
  · exact h
  · extract_lets f
    have hf : Canon.Fst f := .finishRead h
    exact .ite (.fst hf) (.pageBack (.ite (.fst hf) (.setQ (.fst hf))))

theorem Canon.Fst.readNow {port block accs e a ns} (h : Canon d) : Canon.Fst (d.readNow port block accs e a ns) := by
  unfold Dev.readNow; exact .ite (.mk (.ite h (.memCount (.upd h)))) (.mk (.fst (.finishRead (.startRead (.upd h)))))

theorem Canon.readDone {r e blk ns} (h : Canon d) : Canon (d.readDone r e blk ns) := by
  unfold Dev.readDone
  split
  · exact .pageRead h
  · extract_lets _ _ k
    have hk : Canon.Fst k := .readNow h
    refine .ite ?_ (.hostRead h)
    split
    · exact .fst hk
    · exact .hostRead (.fst hk)
  · extract_lets _ k
    have hk : Canon.Fst k := .readNow h
    split
    · exact .upd (.fst hk)
    · exact .fst hk

theorem execMemReadComplete_keepsForm {r e blk ns} : KeepsForm (Machine.execMemReadComplete r e blk ns) := by
  unfold Machine.execMemReadComplete; exact .run .readDone

theorem Canon.undoAccess {block o} (h : Canon d) : Canon (Dev.undoAccess block d o) := by
  unfold Dev.undoAccess
  extract_lets _ _ _ e
  have he : Canon e := by
    unfold e
    split
    · exact .upd h
    · exact .writeObs h rfl rfl
  exact .poison he

theorem Canon.writeAck {pc e ns} (h : Canon d) : Canon (d.writeAck pc e ns) := by
  unfold Dev.writeAck
  extract_lets
  split
  · exact h
  · extract_lets _ d1
    have hd1 : Canon d1 := .issueUntil (.reach h)
    split
    · exact hd1
    · extract_lets _ _ k d4
      have hk : Canon.Fst k := .ended (.late (.memCount (.upd hd1)))
      have hd4 : Canon d4 := .foldl (.fst hk) .undoAccess
      exact .admitWrites (.ite (.fst hk) (.ite (.losePages hd4) hd4))

theorem execMemWriteAck_keepsForm {e} : KeepsForm (Machine.execMemWriteAck e) := by
  unfold Machine.execMemWriteAck; exact .run .writeAck

theorem execPageTimeout_keepsForm {bank} : KeepsForm (Machine.execPageTimeout bank) := by
  unfold Machine.execPageTimeout
  refine .run (fun he => ?_)
  split
  · exact he
  · exact .upd he

theorem Canon.refreshIdle {pc replayed} (h : Canon d) : Canon (Dev.refreshIdle pc d replayed) := by
  unfold Dev.refreshIdle; exact .ite h (.replays (.refreshOne h))

theorem Canon.refreshInterval {pc issued} (h : Canon d) : Canon (d.refreshInterval pc issued) := by
  unfold Dev.refreshInterval; exact .ite (.showOwed (.upd (.foldl h .refreshIdle))) h

theorem execRefreshInterval_keepsForm {pc issued} : KeepsForm (Machine.execRefreshInterval pc issued) := by
  unfold Machine.execRefreshInterval; exact .run .refreshInterval

theorem Canon.endReads {s} (h : Canon d) : Canon (d.endReads s) := by
  unfold Dev.endReads
  extract_lets _ _ _ _ _ _ d2
  have hd2 : Canon d2 := by
    unfold d2
    refine .foldl (.memCount (.setTags (.upd h))) (fun he2 => ?_)
    split
    · exact .ite he2 (.pageBack he2)
    · exact he2
  exact .serveReads hd2

theorem Canon.stackOut {s} (h : Canon d) : Canon (d.stackOut s) := by
  unfold Dev.stackOut
  extract_lets _ _ _ _ d1 _ d2 d3
  have hd1 : Canon d1 := .endReads (.losePages h)
  have hd2 : Canon d2 := ⟨Mem.wf_filter _ _ h.1, hd1.2⟩
  have hd3 : Canon d3 := by
    unfold d3
    split
    · exact .ite (.set hd2) hd2
    · exact hd2
  exact .alertActive (.alert (.flag (.showMig (.dropWrites (.showOwed (.set hd3))))))

theorem Canon.setRate {s r} (h : Canon d) : Canon (d.setRate s r) := by
  unfold Dev.setRate
  extract_lets _ d
  have hd : Canon d := by
    unfold d
    refine .foldUpTo h (fun he => ?_)
    extract_lets _ _ _ e
    have he : Canon e := .upd he
    exact .ite (.upd he) (.upd he)
  exact .ite h (.showOwed (.memCount (.set hd)))

theorem Canon.stackBegin {s} (h : Canon d) : Canon (d.stackBegin s) := by unfold Dev.stackBegin; exact .set (.upd h)

theorem Canon.tempSample {s raw} (h : Canon d) : Canon (d.tempSample s raw) := by
  unfold Dev.tempSample
  extract_lets _ d
  have hd : Canon d := .set h
  split
  · exact .ite (.stackOut hd) (.setRate hd)
  · exact .ite (.upd hd) hd
  · refine .ite ?_ (.upd hd)
    split
    · exact .ite (.stackBegin hd) hd
    · exact .upd hd
  · exact .ite (.stackOut hd) hd
  · exact hd

theorem execStackTempSample_keepsForm {st raw} : KeepsForm (Machine.execStackTempSample st raw) := by
  unfold Machine.execStackTempSample; exact .run .tempSample

theorem Canon.stackReturn {s} (h : Canon d) : Canon (d.stackReturn s) := by
  unfold Dev.stackReturn
  extract_lets d
  have hd : Canon d := by
    unfold d
    split
    · exact .stackBegin (.reach h)
    · exact h
  split
  · exact .showMig (.set (.set (.upd (.reach hd))))
  · exact hd

theorem execStackReturn_keepsForm {st} : KeepsForm (Machine.execStackReturn st) := by
  unfold Machine.execStackReturn; exact .run .stackReturn

theorem Canon.retireCmd {u} (h : Canon d) : Canon (d.retireCmd u) := by
  unfold Dev.retireCmd; exact .ite (.flag (.flag h)) (.retire (.set (.set (.set h))))

theorem execUnitRetire_keepsForm {stack ch psid} : KeepsForm (Machine.execUnitRetire stack ch psid) := by
  unfold Machine.execUnitRetire; exact .run (fun he => .hostW he .retireCmd)

theorem Canon.swapUnit {u} (h : Canon d) : Canon (d.swapUnit u) := by unfold Dev.swapUnit; exact .set (.set (.set h))

theorem Canon.migStep {e acc} (h : Canon d) : Canon (d.migStep e acc) := by
  unfold Dev.migStep
  split
  · exact h
  · refine .ite h ?_
    extract_lets _ _ _ r
    have hr : Canon.Fst r := .readNow (.reach h)
    split
    · exact .fst hr
    · extract_lets d1 _ _ _ _ _ w d4 _ _ d6
      have hd1 : Canon d1 := .ite (.fst hr) (.poison (.fst hr))
      have hw : Canon.Fst w := .ended (.late (.memCount (.touchBank (.reach hd1))))
      have hd4 : Canon d4 := .ite (.fst hw) (.foldUpTo (.fst hw) .poison)
      have hd6 : Canon d6 := .memCount (.set (.upd hd4))
      exact .ite hd1 (.ite hd4 (.ite (.nextMig (.swapUnit hd6)) hd6))

theorem execMigrationStep_keepsForm {e access} : KeepsForm (Machine.execMigrationStep e access) := by
  unfold Machine.execMigrationStep; exact .run .migStep

/-! ### Operations of Machine/Time -/

theorem Canon.setClock {t} (h : Canon d) : Canon (d.setClock t) := by unfold Dev.setClock; exact .upd (.upd h)

theorem Canon.step {t} (h : Canon d) : Canon (d.step t) := by
  unfold Dev.step; exact .ite (.upd (.bump (.setClock h))) (.flag h)

theorem Canon.holdover (h : Canon d) : Canon d.holdover := by unfold Dev.holdover; exact .flag (.set (.upd h))

theorem Canon.servo {p freq} (h : Canon d) : Canon (d.servo p freq) := by
  unfold Dev.servo
  extract_lets _ _ _ _ d _ _ d2 _ _ _ _ _ _ _ d5
  have hd : Canon d := .ite h (.ite h (.set (.upd h)))
  have hd2 : Canon d2 := .ite (.step (.upd hd)) hd
  have hd5 : Canon d5 := .set (.set (.upd (.ite (.flag hd2) hd2)))
  exact .ite (.flag hd2) (.ite (.set hd5) hd5)

theorem execServoSample_keepsForm {freqPpb} : KeepsForm (Machine.execServoSample freqPpb) := by
  unfold Machine.execServoSample
  refine .run (fun he => ?_)
  split
  · exact he
  · extract_lets _ d
    have hd : Canon d := .upd he
    exact .ite (.servo hd) hd

theorem execSourceLoss_keepsForm : KeepsForm Machine.execSourceLoss := by
  unfold Machine.execSourceLoss; exact .run (fun he => .ite (.holdover (.reach he)) he)

theorem Canon.acquire (h : Canon d) : Canon d.acquire := by
  unfold Dev.acquire
  extract_lets _ d
  have hd : Canon d := .set (.upd h)
  exact .ite (.holdover hd) hd

theorem Canon.goStep (h : Canon d) : Canon d.goStep := by unfold Dev.goStep; exact .ite (.set h) (.set (.step h))

theorem execClockStep_keepsForm {ns atPps} : KeepsForm (Machine.execClockStep ns atPps) := by
  unfold Machine.execClockStep; exact .run (fun he => .hostW he (fun he1 => .goStep (.set (.set he1))))

theorem execPpsInEdge_keepsForm : KeepsForm Machine.execPpsInEdge := by
  unfold Machine.execPpsInEdge; exact .run (fun he => .ite (.set (.step he)) (.ite (.upd he) he))

theorem Canon.setTrig {k t} (h : Canon d) : Canon (d.setTrig k t) := by unfold Dev.setTrig; exact .upd h

theorem Canon.assertTrig {k t at8} (h : Canon d) : Canon (d.assertTrig k t at8) := by
  unfold Dev.assertTrig
  extract_lets _ d1
  have hd1 : Canon d1 := .bump (.setTrig h)
  exact .ite (.event hd1) hd1

theorem Canon.armTrig {k} (h : Canon d) : Canon (d.armTrig k) := by
  unfold Dev.armTrig
  extract_lets _ _ d
  have hd : Canon d := .setTrig h
  exact .ite (.flag hd) hd

theorem Canon.releaseTrig {k} (h : Canon d) : Canon (d.releaseTrig k) := by
  unfold Dev.releaseTrig
  extract_lets _ d
  have hd : Canon d := .foldl h .release
  exact .ite (.armTrig hd) hd

theorem execTriggerEnd_keepsForm {k} : KeepsForm (Machine.execTriggerEnd k) := by
  unfold Machine.execTriggerEnd
  refine .run (fun he => ?_)
  extract_lets
  split
  · exact he
  · extract_lets d
    have hd : Canon d := .setTrig (.runTo he)
    exact .ite (.releaseTrig hd) hd

theorem Canon.trigOccur {at_ want} (h : Canon d) : Canon (d.trigOccur at_ want) := by
  unfold Dev.trigOccur; exact .foldUpTo h (fun he => .ite (.ite (.setTrig he) (.setTrig he)) he)

theorem Canon.trigFrame (h : Canon d) : Canon d.trigFrame := by unfold Dev.trigFrame; exact .trigOccur h

theorem Canon.trigBurst {c l at16} (h : Canon d) : Canon (d.trigBurst c l at16) := by
  unfold Dev.trigBurst; exact .trigOccur h

theorem execPpsOutPulse_keepsForm : KeepsForm Machine.execPpsOutPulse := by
  unfold Machine.execPpsOutPulse; exact .run (fun he => .ite (.upd (.runTo he)) he)

theorem execCapEdge_keepsForm {k rising} : KeepsForm (Machine.execCapEdge k rising) := by
  unfold Machine.execCapEdge
  exact .run (fun he => .ite he (.ite he (.ite (.bump he) (.ite (.flag he) (.set (.upd he))))))

theorem Canon.capPop {k} (h : Canon d) : Canon (d.capPop k) := by
  unfold Dev.capPop
  split
  · exact .set h
  · exact .set (.set (.set (.set (.set (.upd h)))))

theorem Canon.readOut {v poison} (h : Canon d) : Canon (d.readOut v poison) := by unfold Dev.readOut; exact .upd h

theorem execCapturePop_keepsForm {k} : KeepsForm (Machine.execCapturePop k) := by
  unfold Machine.execCapturePop; exact .run (fun he => .hostR he (fun he1 => .readOut (.capPop he1)))

theorem Canon.nowRead (h : Canon d) : Canon d.nowRead := by unfold Dev.nowRead; exact .set (.set (.set h))

theorem execNowRead_keepsForm : KeepsForm Machine.execNowRead := by
  unfold Machine.execNowRead; exact .run (fun he => .hostR he (fun he1 => .readOut (.nowRead he1)))

theorem Canon.timRefuse (h : Canon d) : Canon d.timRefuse := by unfold Dev.timRefuse; exact .flag h

theorem Canon.writeTimCfg {v} (h : Canon d) : Canon (d.writeTimCfg v) := by
  unfold Dev.writeTimCfg
  extract_lets _ _ d
  have hd : Canon d := .store h
  exact .ite (.timRefuse (.rwlWrite h)) (.ite hd (.ite (.set (.upd hd)) (.acquire hd)))

theorem Canon.writePtpCfg {v} (h : Canon d) : Canon (d.writePtpCfg v) := by
  unfold Dev.writePtpCfg; exact .ite (.timRefuse h) (.store h)

theorem Canon.writeTrig {r k v} (h : Canon d) : Canon (d.writeTrig r k v) := by
  unfold Dev.writeTrig
  extract_lets _ _ e
  have he : Canon e := .storeHeld h
  exact .ite (.timRefuse h) (.ite (.releaseTrig he) he)

/-! ### Operations of Machine/Mac -/

theorem Canon.setLink {src dir x} (h : Canon d) : Canon (d.setLink src dir x) := by unfold Dev.setLink; exact .upd h

theorem Canon.inPipe {p} (h : Canon d) : Canon (d.inPipe p) := by unfold Dev.inPipe; exact .upd h

theorem Canon.carry {n n1 x} (h : Canon d) : Canon (Dev.carry n n1 x d) := by
  induction n generalizing n1 x d with
  | zero =>
    rw [Dev.carry]
    exact .inPipe h
  | succ f ih =>
    rw [Dev.carry]
    refine .foldl (.setLink h) (fun he => ?_)
    split
    · exact .inPipe he
    · exact ih he

theorem Canon.goOn {src l} (h : Canon d) : Canon (d.goOn src l) := by
  unfold Dev.goOn
  refine .foldl h (fun he => ?_)
  split
  · exact .inPipe he
  · exact .carry he

theorem Canon.leaveEdge {p} (h : Canon d) : Canon (d.leaveEdge p) := by unfold Dev.leaveEdge; exact .carry h

theorem Canon.toPipe {p} (h : Canon d) : Canon (d.toPipe p) := by
  unfold Dev.toPipe; exact .ite (.flag (.foldl h .release1)) (.ite (.upd h) (.leaveEdge h))

theorem Canon.sendOut {l n} (h : Canon d) : Canon (d.sendOut l n) := by
  unfold Dev.sendOut; exact .foldl h .setLink

theorem Canon.pipeNext {pipe} (h : Canon d) : Canon (d.pipeNext pipe) := by
  unfold Dev.pipeNext
  split
  · exact h
  · extract_lets _ _ _ d
    have hd : Canon d := .upd h
    exact .foldl (.ite hd (.pipeline hd)) .release1

theorem execPipelinePacket_keepsForm {pipe} : KeepsForm (Machine.execPipelinePacket pipe) := by
  unfold Machine.execPipelinePacket; exact .run .pipeNext

theorem Canon.showPaused {p} (h : Canon d) : Canon (d.showPaused p) := by unfold Dev.showPaused; exact .set h

theorem Canon.markSince {p} (h : Canon d) : Canon (d.markSince p) := by
  unfold Dev.markSince
  refine .foldUpTo h (fun he => ?_)
  extract_lets
  refine .ite ?_ (.upd he)
  split
  · exact he
  · exact .upd he

theorem Canon.pauseFrame {p l} (h : Canon d) : Canon (d.pauseFrame p l) := by
  unfold Dev.pauseFrame; exact .ite (.showPaused (.markSince (.upd h))) h

theorem Canon.pfcFrame {p l} (h : Canon d) : Canon (d.pfcFrame p l) := by
  unfold Dev.pfcFrame; exact .ite (.showPaused (.markSince (.foldUpTo h (fun he => .ite (.upd he) he)))) h

theorem Canon.pauseExpiry {p k} (h : Canon d) : Canon (d.pauseExpiry p k) := by
  unfold Dev.pauseExpiry
  split
  · exact h
  · exact .showPaused (.markSince (.upd (.reach h)))

theorem execPauseTimerExpiry_keepsForm {port k} : KeepsForm (Machine.execPauseTimerExpiry port k) := by
  unfold Machine.execPauseTimerExpiry; exact .run .pauseExpiry

theorem Canon.pauseStorm {p k} (h : Canon d) : Canon (d.pauseStorm p k) := by
  unfold Dev.pauseStorm
  extract_lets
  split
  · exact h
  · exact .ite h (.flag (.showPaused (.upd (.reach h))))

theorem execPauseStorm_keepsForm {port k} : KeepsForm (Machine.execPauseStorm port k) := by
  unfold Machine.execPauseStorm; exact .run .pauseStorm

theorem execPauseStormEnd_keepsForm {port} : KeepsForm (Machine.execPauseStormEnd port) := by
  unfold Machine.execPauseStormEnd
  refine .run (fun he => ?_)
  extract_lets
  split
  · exact he
  · exact .upd (.reach he)

theorem Canon.fecCounts {p m} (h : Canon d) : Canon (d.fecCounts p m) := by
  unfold Dev.fecCounts
  extract_lets d
  have hd : Canon d := .uplCount h
  exact .foldUpTo (.foldUpTo (.uplCount (.ite hd (.flag (.uplCount hd)))) .bump) .bump

theorem Canon.macRx {p f codeErr} (h : Canon d) : Canon (d.macRx p f codeErr) := by
  unfold Dev.macRx
  extract_lets _ _ _ _ _ _ d d1 d2
  have hd : Canon d := .binCount h
  have hd1 : Canon d1 := .uplCount hd
  have hd2 : Canon d2 := .octets (.uplCount (.uplCount (.uplCount hd)))
  exact .ite (.ite (.pauseFrame hd1) (.ite (.pfcFrame hd1) hd1)) (.ite (.uplCount hd) (.ite (.uplCount hd) (.ite
      (.uplCount hd) (.ite (.uplCount hd) (.ite (.flag hd) (.ite (.pauseFrame (.uplCount hd)) (.ite (.pfcFrame
          (.uplCount hd)) (.ite (.uplCount hd) (.toPipe (.ite (.uplCount hd2) hd2))))))))))

theorem execMacFrameRx_keepsForm {m} : KeepsForm (Machine.execMacFrameRx m) := by
  unfold Machine.execMacFrameRx
  refine .run (fun he => ?_)
  extract_lets _ d
  have hd : Canon d := .fecCounts he
  exact .ite (.macRx hd) hd

theorem Canon.chargeQueue {q c} (h : Canon d) : Canon (d.chargeQueue q c) := by
  unfold Dev.chargeQueue; exact .ite h (.setQ h)

theorem Canon.baseStep {p} (h : Canon d) : Canon (d.baseStep p) := by unfold Dev.baseStep; exact .ite (.set h) h

theorem Canon.cleanFrame {p} (h : Canon d) : Canon (d.cleanFrame p) := by
  unfold Dev.cleanFrame; exact .ite (.uplCount (.set (.set h))) (.set h)

theorem Canon.ptpSend {m} (h : Canon d) : Canon (d.ptpSend m) := by
  unfold Dev.ptpSend
  exact .ite (.cleanFrame (.octets (.binCount (.uplCount (.uplCount (.uplCount (.uplCount (.baseStep (.bump
      (.upd h)))))))))) h

theorem Canon.ptpSample {t4 corr2} (h : Canon d) : Canon (d.ptpSample t4 corr2) := by
  unfold Dev.ptpSample
  split
  · exact .upd h
  · exact h

theorem execPtpMessageRx_keepsForm {m} : KeepsForm (Machine.execPtpMessageRx m) := by
  unfold Machine.execPtpMessageRx
  refine .run (fun he => ?_)
  extract_lets _ _ _ _ _ _ d
  have hd : Canon d := .bump he
  exact .ite he (.ite (.bump (.upd he)) (.ite (.ite (.upd hd) hd) (.ite (.ite (.ptpSample hd) hd) (.ite (.bump
      (.upd he)) (.ite (.ptpSend (.bump he)) (.bump he))))))

theorem Canon.ptpDue {key} (h : Canon d) : Canon (d.ptpDue key) := by
  unfold Dev.ptpDue
  extract_lets log?
  clear_value log?
  split
  · exact .reach h
  · exact h

theorem execPtpMessageTx_keepsForm {port kind} : KeepsForm (Machine.execPtpMessageTx port kind) := by
  unfold Machine.execPtpMessageTx
  refine .run (fun he => ?_)
  extract_lets _ _ _ d _ _ next
  have hd : Canon d := .ite (.ptpDue he) he
  have hnext : Canon next := .upd hd
  exact .ite hd (.ite (.ptpSend hnext) (.ite (.ptpSend hnext) (.ite (.ptpSend (.upd hnext)) hd)))

theorem Canon.underrun {p} (h : Canon d) : Canon (d.underrun p) := by
  unfold Dev.underrun; exact .uplCount (.flag (.set (.set h)))

theorem Canon.Fst.cutFrame {l least} (h : Canon d) : Canon.Fst (d.cutFrame l least) := by
  unfold Dev.cutFrame; exact .mk (.fst (.draw h))

theorem Canon.OptFst.takeEgress {p k} (h : Canon d) : Canon.OptFst (d.takeEgress p k) := by
  unfold Dev.takeEgress
  extract_lets
  split
  · exact .none
  · exact .some (.mk (.release1 (.tracePkt (.headWait (.chargeQueue (.fst (.popQ h)))))))

theorem Canon.dropLate {q} (h : Canon d) : Canon (d.dropLate q) := by
  unfold Dev.dropLate; exact .ite h (.setQ (.foldl h (fun he => .tracePkt (.release1 he))))

theorem Canon.macTx {p e} (h : Canon d) : Canon (d.macTx p e) := by
  unfold Dev.macTx
  extract_lets d d1 out
  have hd : Canon d := .foldUpTo h .dropLate
  have hd1 : Canon d1 := .baseStep hd
  have hout : ∀ {x0 x1}, Canon x0 → Canon (out x0 x1) := fun he3 => .upd he3
  split
  · exact hd
  · split
    · exact hd1
    · rename_i e _ heq13
      have he5 := Canon.of_some_pair heq13 (.takeEgress hd1)
      extract_lets _ d2 _ cut _ _ _ d5
      have hd2 : Canon d2 := .sendOut he5
      have hcut : ∀ {x0 x1}, Canon x0 → Canon (cut x0 x1) := fun he7 => hout (.fst (.cutFrame he7))
      have hd5 : Canon d5 := hout (.cleanFrame (.octets (.uplCount (.binCount (.uplCount (.uplCount
          (.uplCount hd2)))))))
      split
      · exact hcut (.flag (.bump (.flag hd2)))
      · exact hcut (.flag hd2)
      · exact .ite (hcut (.underrun hd2)) (.ite (.macRx hd5) hd5)

theorem execMacFrameTx_keepsForm {port e} : KeepsForm (Machine.execMacFrameTx port e) := by
  unfold Machine.execMacFrameTx; exact .run (fun he => .ite (.macTx he) he)

theorem Canon.showLanesDown {p} (h : Canon d) : Canon (d.showLanesDown p) := by unfold Dev.showLanesDown; exact .set h

theorem Canon.breakHold {p} (h : Canon d) : Canon (d.breakHold p) := by unfold Dev.breakHold; exact .upd h

theorem Canon.linkUp {p} (h : Canon d) : Canon (d.linkUp p) := by
  unfold Dev.linkUp; exact .ite h (.ite (.set (.set (.set (.set (.reach h))))) h)

theorem execLinkUp_keepsForm {port} : KeepsForm (Machine.execLinkUp port) := by
  unfold Machine.execLinkUp; exact .run .linkUp

theorem Canon.flushPort {p} (h : Canon d) : Canon (d.flushPort p) := by
  unfold Dev.flushPort; exact .foldUpTo h (fun he => .uplCount (.fst (.emptyQueue he)))

theorem Canon.downBits {p c} (h : Canon d) : Canon (d.downBits p c) := by
  unfold Dev.downBits
  split
  · exact .bump (.set h)
  · exact .ite h (.uplCount (.set h))
  · exact .ite h (.uplCount (.set h))

theorem Canon.linkDown {p c sending} (h : Canon d) : Canon (d.linkDown p c sending) := by
  unfold Dev.linkDown
  extract_lets _ d d1 d2
  have hd : Canon d := by
    unfold d
    refine .ite ?_ h
    split
    · exact h
    · split
      · exact h
      · rename_i e _ heq2
        have he := Canon.of_some_pair heq2 (.takeEgress h)
        exact .tracePkt (.flag he)
  have hd1 : Canon d1 := .breakHold (.downBits hd)
  have hd2 : Canon d2 := .flag (.set hd1)
  exact .ite (.ite (.flushPort hd2) hd2) hd1

theorem execLinkDown_keepsForm {port c sending} : KeepsForm (Machine.execLinkDown port c sending) := by
  unfold Machine.execLinkDown; exact .run .linkDown

/-! ### Operations of Machine/EmuBase -/

theorem Canon.setRx {c x} (h : Canon d) : Canon (d.setRx c x) := by unfold Dev.setRx; exact .upd h

theorem Canon.setEmu {g e} (h : Canon d) : Canon (d.setEmu g e) := by unfold Dev.setEmu; exact .upd h

theorem Canon.trmCount {c k n} (h : Canon d) : Canon (d.trmCount c k n) := by unfold Dev.trmCount; exact .bump h

theorem Canon.showOperating {c} (h : Canon d) : Canon (d.showOperating c) := by unfold Dev.showOperating; exact .set h

theorem Canon.moveDue {b m} (h : Canon d) : Canon (d.moveDue b m) := by unfold Dev.moveDue; exact .upd h

theorem Canon.setBind {g j b} (h : Canon d) : Canon (d.setBind g j b) := by unfold Dev.setBind; exact .setEmu h

theorem Canon.flushPart {g j} (h : Canon d) : Canon (d.flushPart g j) := by
  unfold Dev.flushPart
  split
  · exact h
  · exact .flushPkts (.setBind h)

theorem Canon.flushBound {g} (h : Canon d) : Canon (d.flushBound g) := by
  unfold Dev.flushBound; exact .foldUpTo h (fun he => .flushQ (.flushPart he))

theorem Canon.memberLost {c} (h : Canon d) : Canon (d.memberLost c) := by
  unfold Dev.memberLost; exact .flushBound (.ite h (.foldl h .moveDue))

theorem Canon.memberBack {c} (h : Canon d) : Canon (d.memberBack c) := by
  unfold Dev.memberBack; exact .foldl h (fun he => .ite (.moveDue he) he)

theorem Canon.timeMember (h : Canon d) : Canon d.timeMember := by
  unfold Dev.timeMember
  extract_lets _ _ d
  have hd : Canon d := .set (.set h)
  exact .ite (.holdover hd) hd

theorem Canon.emuChanged {c t old st} (h : Canon d) : Canon (d.emuChanged c t old st) := by
  unfold Dev.emuChanged
  exact .ite h (.ite (.timeMember (.ite (.memberLost h) (.ite (.memberBack h) h))) (.ite (.holdover h) h))

theorem Canon.emuTo {c t st} (h : Canon d) : Canon (d.emuTo c t st) := by
  unfold Dev.emuTo
  extract_lets _ _ _ _ _ d d1
  have hd : Canon d := .set h
  have hd1 : Canon d1 := .set (.set hd)
  exact .emuChanged (.showOperating (.ite (.ite (.setEmu hd1) (.setEmu hd1)) hd))

theorem Canon.emuHold {c t} (h : Canon d) : Canon (Dev.emuHold c d t) := by
  unfold Dev.emuHold; exact .ite (.emuTo (.flag (.set (.setEmu h)))) h

theorem Canon.leaveFrame {c next} (h : Canon d) : Canon (d.leaveFrame c next) := by
  unfold Dev.leaveFrame
  refine .ite ?_ (.set h)
  extract_lets _ _ d1
  have hd1 : Canon d1 := .flag (.set (.setRx h))
  exact .ite (.foldl hd1 .emuHold) hd1

theorem Canon.rxStop {c} (h : Canon d) : Canon (d.rxStop c) := by
  unfold Dev.rxStop; exact .set (.setRx (.foldl (.leaveFrame h) .release1))

/-! ### Operations of Machine/Lanes -/

theorem Canon.noteDown {n} (h : Canon d) : Canon (d.noteDown n) := by unfold Dev.noteDown; exact .upd h

theorem Canon.laneTo {n st} (h : Canon d) : Canon (d.laneTo n st) := by
  unfold Dev.laneTo; exact .set (.upd (.ite (.noteDown h) h))

theorem Canon.stitchLanes {mask} (h : Canon d) : Canon (d.stitchLanes mask) := by
  unfold Dev.stitchLanes
  extract_lets _ _ _ d
  have hd : Canon d := .set (.set h)
  exact .ite (.bump hd) hd

theorem Canon.laneLost {n} (h : Canon d) : Canon (d.laneLost n) := by
  unfold Dev.laneLost; exact .ite h (.ite (.showLanesDown (.ite (.linkDown h) h)) (.stitchLanes (.upd h)))

theorem Canon.skipBlocks {c n} (h : Canon d) : Canon (d.skipBlocks c n) := by
  unfold Dev.skipBlocks; exact .ite (.setRx h) (.setRx h)

theorem Canon.laneRuns {n} (h : Canon d) : Canon (d.laneRuns n) := by
  unfold Dev.laneRuns
  refine .ite ?_ (.ite (.breakHold (.showLanesDown h)) (.upd h))
  split
  · exact .skipBlocks (.upd h)
  · exact h

theorem Canon.laneOn {n} (h : Canon d) : Canon (d.laneOn n) := by
  unfold Dev.laneOn; exact .ite (.bump (.laneTo (.upd (.upd (.ite (.set h) h))))) h

theorem Canon.patSettle {n} (h : Canon d) : Canon (d.patSettle n) := by
  unfold Dev.patSettle; exact .ite h (.upd (.set (.set (.fst (.draw h)))))

theorem Canon.patStop {n} (h : Canon d) : Canon (d.patStop n) := by unfold Dev.patStop; exact .set (.patSettle h)

theorem Canon.laneOff {n} (h : Canon d) : Canon (d.laneOff n) := by
  unfold Dev.laneOff
  refine .ite h ?_
  extract_lets d
  have hd : Canon d := .set (.patStop h)
  exact .laneLost (.upd (.ite (.noteDown hd) hd))

theorem Canon.laneDark {n} (h : Canon d) : Canon (d.laneDark n) := by
  unfold Dev.laneDark; exact .set (.set (.set (.laneTo (.patStop (.upd h)))))

theorem Canon.laneOffReached {n} (h : Canon d) : Canon (d.laneOffReached n) := by
  unfold Dev.laneOffReached
  refine .ite ?_ h
  extract_lets d
  have hd : Canon d := .laneDark h
  exact .ite (.laneOn hd) hd

theorem Canon.showFom {n fom} (h : Canon d) : Canon (d.showFom n fom) := by
  unfold Dev.showFom; exact .set (.set (.upd h))

theorem Canon.showEq {n eq} (h : Canon d) : Canon (d.showEq n eq) := by unfold Dev.showEq; exact .set (.set h)

theorem Canon.rxRestart {c} (h : Canon d) : Canon (d.rxRestart c) := by
  unfold Dev.rxRestart
  extract_lets _ d
  have hd : Canon d := .rxStop h
  exact .ite (.flag hd) hd

theorem Canon.startValues {n} (h : Canon d) : Canon (d.startValues n) := by
  unfold Dev.startValues
  split
  · exact .set (.showEq h)
  · exact h

theorem Canon.retrain {n} (h : Canon d) : Canon (d.retrain n) := by
  unfold Dev.retrain
  refine .ite ?_ h
  extract_lets d
  have hd : Canon d := .startValues (.flag (.laneTo h))
  exact .ite (.rxRestart hd) (.laneLost hd)

theorem Canon.writeSlnCtl {n v} (h : Canon d) : Canon (d.writeSlnCtl n v) := by
  unfold Dev.writeSlnCtl
  extract_lets _ d d1
  have hd : Canon d := .set (.set (.set (.set (.set (.set h)))))
  have hd1 : Canon d1 := .ite (.laneOff hd) (.ite (.laneOn hd) hd)
  exact .ite (.retrain (.set hd1)) hd1

theorem execLaneEnable_keepsForm {n} : KeepsForm (Machine.execLaneEnable n) := by
  unfold Machine.execLaneEnable; exact .run (fun he => .hostW he .writeSlnCtl)

theorem execLaneDisable_keepsForm {n} : KeepsForm (Machine.execLaneDisable n) := by
  unfold Machine.execLaneDisable; exact .run (fun he => .hostW he .writeSlnCtl)

theorem execLaneOffReached_keepsForm {n} : KeepsForm (Machine.execLaneOffReached n) := by
  unfold Machine.execLaneOffReached; exact .run .laneOffReached

theorem execLanePowerupDone_keepsForm {n} : KeepsForm (Machine.execLanePowerupDone n) := by
  unfold Machine.execLanePowerupDone; exact .run (fun he => .ite (.laneTo he) he)

theorem Canon.showPeak {n} (h : Canon d) : Canon (d.showPeak n) := by unfold Dev.showPeak; exact .ite (.set h) h

theorem execLaneCalDone_keepsForm {n} : KeepsForm (Machine.execLaneCalDone n) := by
  unfold Machine.execLaneCalDone
  refine .run (fun he => ?_)
  refine .ite ?_ he
  extract_lets e
  have he : Canon e := .set he
  exact .ite (.laneRuns (.laneTo he)) (.laneTo he)

theorem Canon.evalSpan {n a} (h : Canon d) : Canon (d.evalSpan n a) := by unfold Dev.evalSpan; exact .upd h

theorem Canon.Fst.adaptBurst {n cdr x l} (hx : Canon.Fst x) : Canon.Fst (Dev.adaptBurst n cdr x l) := by
  induction l generalizing x with
  | nil => rw [Dev.adaptBurst]; exact hx
  | cons a r ih =>
    obtain ⟨d, v, w⟩ := x
    rw [Dev.adaptBurst]
    exact ih (.mk (.evalSpan hx))

theorem Canon.adaptSpan {n a} (h : Canon d) : Canon (Dev.adaptSpan n d a) := by
  unfold Dev.adaptSpan
  refine .ite h ?_
  extract_lets _ _ d
  have hd : Canon d := .showEq h
  exact .evalSpan (.ite (.set hd) hd)

theorem Canon.rxWindow {n v} (h : Canon d) : Canon (Dev.rxWindow n d v) := by
  unfold Dev.rxWindow; exact .showFom (.foldl h .adaptSpan)

theorem Canon.laneLock {n v} (h : Canon d) : Canon (d.laneLock n v) := by
  unfold Dev.laneLock
  refine .ite ?_ h
  extract_lets d _ d1
  have hd : Canon d := .rxWindow (.set h)
  have hd1 : Canon d1 := by
    unfold d1
    split
    · exact hd
    · exact .upd hd
  exact .ite (.laneRuns (.set (.laneTo hd1))) hd

theorem execLaneLock_keepsForm {n v} : KeepsForm (Machine.execLaneLock n v) := by
  unfold Machine.execLaneLock; exact .run .laneLock

theorem execLaneFault_keepsForm {n} : KeepsForm (Machine.execLaneFault n) := by
  unfold Machine.execLaneFault; exact .run (fun he => .ite (.flag (.set (.laneTo (.reach he)))) he)

theorem execFaultRetry_keepsForm {n} : KeepsForm (Machine.execFaultRetry n) := by
  unfold Machine.execFaultRetry; exact .run (fun he => .ite (.startValues (.laneTo (.reach he))) he)

theorem execLos_keepsForm {n} : KeepsForm (Machine.execLos n) := by
  unfold Machine.execLos
  refine .run (fun he => ?_)
  refine .ite ?_ he
  extract_lets d
  have hd : Canon d := .flag (.set he)
  exact .ite (.laneLost (.startValues (.laneTo hd))) hd

theorem execSignalReturns_keepsForm {n} : KeepsForm (Machine.execSignalReturns n) := by
  unfold Machine.execSignalReturns
  refine .run (fun he => ?_)
  refine .ite ?_ he
  extract_lets d
  have hd : Canon d := .set he
  exact .ite (.laneTo hd) hd

theorem execCdrLockLost_keepsForm {n} : KeepsForm (Machine.execCdrLockLost n) := by
  unfold Machine.execCdrLockLost; exact .run (fun he => .ite (.flag (.set he)) he)

theorem Canon.retrainBy {n host ws} (h : Canon d) : Canon (d.retrainBy n host ws) := by
  unfold Dev.retrainBy
  refine .ite (.hostW h .writeSlnCtl) ?_
  refine .ite ?_ h
  extract_lets d
  have hd : Canon d := .foldl h .rxWindow
  exact .ite (.retrain hd) hd

theorem execRetrain_keepsForm {n host ws} : KeepsForm (Machine.execRetrain n host ws) := by
  unfold Machine.execRetrain; exact .run .retrainBy

theorem Canon.inject {n} (h : Canon d) : Canon (d.inject n) := by unfold Dev.inject; exact .bump (.set (.upd h))

theorem Canon.injectPending {n} (h : Canon d) : Canon (d.injectPending n) := by
  unfold Dev.injectPending; exact .ite (.inject h) h

theorem Canon.genStart {n} (h : Canon d) : Canon (d.genStart n) := by unfold Dev.genStart; exact .upd h

theorem Canon.testStart {n} (h : Canon d) : Canon (d.testStart n) := by
  unfold Dev.testStart; exact .injectPending (.genStart h)

theorem Canon.writePatCfg {n v} (h : Canon d) : Canon (d.writePatCfg n v) := by
  unfold Dev.writePatCfg
  extract_lets e e1 e2
  have he : Canon e := .store h
  have he1 : Canon e1 := .ite (.set (.set he)) (.ite (.patStop he) he)
  have he2 : Canon e2 := .ite (.genStart he1) he1
  exact .ite (.ite (.injectPending (.set he2)) he2) (.flag h)

theorem Canon.writeTxCfg {n v} (h : Canon d) : Canon (d.writeTxCfg n v) := by
  unfold Dev.writeTxCfg; exact .ite (.ite (.storeHeld h) (.store h)) (.flag h)

theorem execInjOne_keepsForm {n} : KeepsForm (Machine.execInjOne n) := by
  unfold Machine.execInjOne; exact .run (fun he => .hostW he (fun he1 => .injectPending (.set he1)))

theorem execRateInjection_keepsForm {n} : KeepsForm (Machine.execRateInjection n) := by
  unfold Machine.execRateInjection; exact .run (fun he => .ite (.inject (.reach he)) he)

theorem execPatSyncSet_keepsForm {n} : KeepsForm (Machine.execPatSyncSet n) := by
  unfold Machine.execPatSyncSet; exact .run (fun he => .ite (.set (.upd he)) he)

theorem execPatSyncCleared_keepsForm {n nbits errs} : KeepsForm (Machine.execPatSyncCleared n nbits errs) := by
  unfold Machine.execPatSyncCleared; exact .run (fun he => .ite (.set (.set (.set he))) he)

theorem Canon.setPreset {i p} (h : Canon d) : Canon (d.setPreset i p) := by unfold Dev.setPreset; exact .upd h

theorem Canon.overBurst {i} (h : Canon d) : Canon (d.overBurst i) := by unfold Dev.overBurst; exact .upd h

theorem Canon.presetAccess {index dflt op} (h : Canon d) : Canon (d.presetAccess index dflt op) := by
  unfold Dev.presetAccess
  refine .ite h ?_
  extract_lets d
  have hd : Canon d := .set (.set (.set h))
  refine .ite (.flag (.flag hd)) ?_
  split
  · exact .set (.set (.showData hd))
  · exact .overBurst (.setPreset hd)
  · exact .overBurst (.setPreset hd)

theorem execPresetRead_keepsForm {index dflt} : KeepsForm (Machine.execPresetRead index dflt) := by
  unfold Machine.execPresetRead; exact .run (fun he => .hostW he .presetAccess)

theorem execPresetWrite_keepsForm {index dflt} : KeepsForm (Machine.execPresetWrite index dflt) := by
  unfold Machine.execPresetWrite; exact .run (fun he => .hostW he .presetAccess)

theorem execPresetErase_keepsForm {index dflt} : KeepsForm (Machine.execPresetErase index dflt) := by
  unfold Machine.execPresetErase; exact .run (fun he => .hostW he .presetAccess)

/-! ### Operations of Machine/Tables -/

theorem Canon.tellPartner {u} (h : Canon d) : Canon (d.tellPartner u) := by
  unfold Dev.tellPartner; exact .ite (.upd h) h

theorem Canon.clearFilters {pair} (h : Canon d) : Canon (d.clearFilters pair) := by
  unfold Dev.clearFilters; exact .upd h

theorem Canon.markExcess {pair on} (h : Canon d) : Canon (d.markExcess pair on) := by
  unfold Dev.markExcess; exact .foldUpTo h (fun he => .ite (.ite he (.upd he)) (.ite he (.upd he)))

theorem Canon.Opt.addBridge {pair dest} (h : Canon d) : Canon.Opt (d.addBridge pair dest) := by
  unfold Dev.addBridge
  extract_lets
  split
  · exact .none
  · exact .some (.setBridge (.fst (.pick h)))

theorem Canon.stationWrote {old} (h : Canon d) : Canon (d.stationWrote old) := by
  unfold Dev.stationWrote; exact .upd h

theorem Canon.Fst.learnPair {pair service} (h : Canon d) : Canon.Fst (d.learnPair pair service) := by
  unfold Dev.learnPair
  extract_lets d
  have hd : Canon d := .clearFilters h
  split
  · exact .ite (.mk (.setBridge hd)) (.ite (.mk hd) (.ite (.mk (.markExcess (.flag hd))) (.mk (.markExcess
        (.fwdCount (.setBridge hd))))))
  · refine .ite (.mk (.markExcess (.flag hd))) ?_
    split
    · exact .mk (.flag hd)
    · rename_i e heq2
      have he1 := Canon.of_some heq2 (.addBridge hd)
      exact .mk (.markExcess (.fwdCount he1))

theorem Canon.learnStep (h : Canon d) : Canon d.learnStep := by
  unfold Dev.learnStep
  split
  · exact h
  · extract_lets _ d r
    have hd : Canon d := .set (.upd h)
    have hr : Canon.Fst r := .learnPair hd
    exact .ite (.clearFilters hd) (.ite (.tellPartner (.fst hr)) (.fst hr))

theorem Canon.learnApply (h : Canon d) : Canon d.learnApply := by
  unfold Dev.learnApply; exact .stationWrote (.learnStep h)

theorem Canon.dropBridge {i} (h : Canon d) : Canon (d.dropBridge i) := by
  unfold Dev.dropBridge; exact .tellPartner (.setBridge h)

theorem Canon.dropBridges {p} (h : Canon d) : Canon (d.dropBridges p) := by
  unfold Dev.dropBridges; exact .foldl h (fun he => .ite (.dropBridge he) he)

theorem Canon.dropTerm {g} (h : Canon d) : Canon (d.dropTerm g) := by unfold Dev.dropTerm; exact .dropBridges h

theorem Canon.dropSvc {s} (h : Canon d) : Canon (d.dropSvc s) := by unfold Dev.dropSvc; exact .dropBridges h

theorem Canon.dropBd {b} (h : Canon d) : Canon (d.dropBd b) := by unfold Dev.dropBd; exact .dropBridges h

theorem Canon.sweepEntry {i r} (h : Canon d) : Canon (d.sweepEntry i r) := by
  unfold Dev.sweepEntry; exact .ite h (.ite (.fwdCount (.dropBridge h)) (.setBridge h))

theorem Canon.agingSweep (h : Canon d) : Canon d.agingSweep := by
  unfold Dev.agingSweep; exact .nextCycle (.upd (.foldl (.reach h) .sweepEntry))

theorem Canon.applyUpdate {u} (h : Canon d) : Canon (d.applyUpdate u) := by
  unfold Dev.applyUpdate
  split
  · exact .ite h (.ite (.setBridge h) (.fst (.learnPair h)))
  · exact .ite h (.fst (.learnPair h))

theorem execLearnApply_keepsForm : KeepsForm Machine.execLearnApply := by
  unfold Machine.execLearnApply; exact .run .learnApply

theorem execPendingFilterTimeout_keepsForm {pipe} : KeepsForm (Machine.execPendingFilterTimeout pipe) := by
  unfold Machine.execPendingFilterTimeout
  refine .run (fun he => ?_)
  split
  · exact he
  · exact .upd (.reach he)

theorem execAgingSweep_keepsForm : KeepsForm Machine.execAgingSweep := by
  unfold Machine.execAgingSweep; exact .run .agingSweep

theorem Canon.fwdFlush {id scope} (h : Canon d) : Canon (d.fwdFlush id scope) := by
  unfold Dev.fwdFlush
  refine .ite (.flag h) ?_
  extract_lets d
  have hd : Canon d := .set (.set h)
  split
  · exact .dropBd hd
  · exact .dropSvc hd
  · exact .dropTerm hd
  · exact .dropBridges hd

theorem execFwdFlush_keepsForm {id scope} : KeepsForm (Machine.execFwdFlush id scope) := by
  unfold Machine.execFwdFlush; exact .run (fun he => .hostW he .fwdFlush)

theorem Canon.setPrefix {i r} (h : Canon d) : Canon (d.setPrefix i r) := by
  unfold Dev.setPrefix
  split <;> exact .showUse (.mirror (.upd h))

theorem Canon.moveRegion {len} (h : Canon d) : Canon (d.moveRegion len) := by
  unfold Dev.moveRegion
  extract_lets
  refine .ite h ?_
  split
  · exact h
  · exact .fwdCount (.setPrefix (.setPrefix h))

theorem Canon.Opt.insertPrefix {r} (h : Canon d) : Canon.Opt (d.insertPrefix r) := by
  unfold Dev.insertPrefix
  extract_lets _ _ _ _ _ _ e1
  have he1 : Canon e1 := .upd (.foldl h .moveRegion)
  split
  · exact .some (.setPrefix (.fst (.pick h)))
  · exact .ite .none (.ite (.some (.set (.set (.upd he1)))) (.some (.setPrefix he1)))

theorem Canon.prefixDone (h : Canon d) : Canon d.prefixDone := by
  unfold Dev.prefixDone
  split
  · exact h
  · exact .set (.set (.setPrefix (.upd h)))

theorem execPrefixRelocationDone_keepsForm : KeepsForm Machine.execPrefixRelocationDone := by
  unfold Machine.execPrefixRelocationDone; exact .run .prefixDone

theorem Canon.fwdRefuse (h : Canon d) : Canon d.fwdRefuse := by unfold Dev.fwdRefuse; exact .flag (.flag h)

theorem Canon.hostWrote {pair} (h : Canon d) : Canon (d.hostWrote pair) := by
  unfold Dev.hostWrote; exact .set (.upd h)

theorem Canon.moveLearned {i a b} (h : Canon d) : Canon (d.moveLearned i a b) := by
  unfold Dev.moveLearned; exact .ite h (.foldl h (fun he => .ite (.learnAdd (.learnAdd he)) he))

theorem Canon.fwdPut {t i r} (h : Canon d) : Canon (d.fwdPut t i r) := by
  unfold Dev.fwdPut
  split
  · exact .mirror (.upd (.ite (.dropSvc h) (.moveLearned h)))
  · exact .hostWrote (.setBridge h)
  · exact .showUse (.mirror (.upd h))
  · exact .mirror (.upd h)
  · exact .setLearn h
  · extract_lets _ _ d
    have hd : Canon d := .mirror (.upd h)
    exact .ite (.dropBd hd) hd
  · exact h

theorem Canon.fwdCtl {index table write remove} (h : Canon d) : Canon (d.fwdCtl index table write remove) := by
  unfold Dev.fwdCtl; exact .set (.set (.set (.set h)))

theorem Canon.fwdRead {table index} (h : Canon d) : Canon (d.fwdRead table index) := by
  unfold Dev.fwdRead; exact .ite (.fwdRefuse h) (.showData h)

theorem Canon.fwdWrite {table index} (h : Canon d) : Canon (d.fwdWrite table index) := by
  unfold Dev.fwdWrite
  extract_lets
  refine .ite (.fwdRefuse h) ?_
  refine .ite ?_ (.fwdPut h)
  split
  · exact .setPrefix h
  · split
    · rename_i e heq1
      have he := Canon.of_some heq1 (.insertPrefix h)
      exact he
    · exact .fwdRefuse h

theorem Canon.fwdInvalid {table index} (h : Canon d) : Canon (d.fwdInvalid table index) := by
  unfold Dev.fwdInvalid
  extract_lets
  split
  · exact .fwdPut h
  · exact .fwdPut h
  · exact .fwdPut h
  · exact .setPrefix h
  · exact .fwdPut h
  · exact h

theorem Canon.fwdRemove {table index} (h : Canon d) : Canon (d.fwdRemove table index) := by
  unfold Dev.fwdRemove
  refine .ite (.fwdRefuse h) ?_
  refine .ite ?_ (.fwdInvalid h)
  split
  · exact .setPrefix h
  · exact h

theorem Canon.fwdAccess {index table write remove} (h : Canon d) : Canon (d.fwdAccess index table write remove) := by
  unfold Dev.fwdAccess
  refine .ite h ?_
  extract_lets d
  have hd : Canon d := .fwdCtl h
  exact .ite (.fwdRemove hd) (.ite (.fwdWrite hd) (.fwdRead hd))

theorem execFwdIndRead_keepsForm {table index} : KeepsForm (Machine.execFwdIndRead table index) := by
  unfold Machine.execFwdIndRead; exact .run (fun he => .hostW he .fwdAccess)

theorem execFwdIndWrite_keepsForm {table index} : KeepsForm (Machine.execFwdIndWrite table index) := by
  unfold Machine.execFwdIndWrite; exact .run (fun he => .hostW he .fwdAccess)

theorem execFwdIndRemove_keepsForm {table index} : KeepsForm (Machine.execFwdIndRemove table index) := by
  unfold Machine.execFwdIndRemove; exact .run (fun he => .hostW he .fwdAccess)

theorem Canon.parRefuse (h : Canon d) : Canon d.parRefuse := by unfold Dev.parRefuse; exact .flag (.flag (.bump h))

theorem Canon.mirrorRule {i} (h : Canon d) : Canon (d.mirrorRule i) := by
  unfold Dev.mirrorRule; exact .obsWrite (.obsWrite (.obsWrite h))

theorem Canon.putParRule {index r} (h : Canon d) : Canon (d.putParRule index r) := by
  unfold Dev.putParRule; exact .mirrorRule (.upd h)

theorem Canon.parAccess {index table write} (h : Canon d) : Canon (d.parAccess index table write) := by
  unfold Dev.parAccess
  refine .ite h ?_
  extract_lets d
  have hd : Canon d := .set (.set (.set h))
  exact .ite (.ite (.parRefuse hd) (.putParRule hd)) (.ite (.parRefuse hd) (.showData hd))

theorem Canon.writeRange {i v} (h : Canon d) : Canon (d.writeRange i v) := by
  unfold Dev.writeRange; exact .ite (.flag (.bump h)) (.store (.upd h))

theorem execParIndRead_keepsForm {table index} : KeepsForm (Machine.execParIndRead table index) := by
  unfold Machine.execParIndRead; exact .run (fun he => .hostW he .parAccess)

theorem execParIndWrite_keepsForm {table index} : KeepsForm (Machine.execParIndWrite table index) := by
  unfold Machine.execParIndWrite; exact .run (fun he => .hostW he .parAccess)

theorem Canon.fragTimeout {i} (h : Canon d) : Canon (d.fragTimeout i) := by
  unfold Dev.fragTimeout
  split
  · exact h
  · exact .parFlag (.showFrags (.upd h))

theorem execFragTimeout_keepsForm {i} : KeepsForm (Machine.execFragTimeout i) := by
  unfold Machine.execFragTimeout
  refine .run (fun he => ?_)
  split
  · exact he
  · exact .fragTimeout (.runTo he)

/-! ### Operations of Machine/StSend -/

theorem Canon.stSend {type body} (h : Canon d) : Canon (d.stSend type body) := by
  unfold Dev.stSend; exact .ite (.upd h) h

/-! ### Operations of Machine/Cipher -/

theorem Canon.setSlot {i s} (h : Canon d) : Canon (d.setSlot i s) := by
  unfold Dev.setSlot
  extract_lets _ d
  have hd : Canon d := .upd h
  exact .ite (.obsWrite hd) hd

theorem Canon.setSeen {i s} (h : Canon d) : Canon (d.setSeen i s) := by
  unfold Dev.setSeen; exact .ite (.upd h) (.setSlot h)

theorem Canon.keepOld {i} (h : Canon d) : Canon (d.keepOld i) := by unfold Dev.keepOld; exact .upd h

theorem Canon.cryFlag {f c k} (h : Canon d) : Canon (d.cryFlag f c k) := by unfold Dev.cryFlag; exact .bump (.flag h)

theorem Canon.noKey {c} (h : Canon d) : Canon (d.noKey c) := by unfold Dev.noKey; exact .cryFlag h

theorem Canon.checkLimit {i} (h : Canon d) : Canon (d.checkLimit i) := by
  unfold Dev.checkLimit
  extract_lets _ d
  have hd : Canon d := .ite (.flag (.setSeen h)) h
  exact .ite (.flag (.setSeen hd)) hd

theorem Canon.Fst.consume {c i} (h : Canon d) : Canon.Fst (d.consume c i) := by
  unfold Dev.consume
  extract_lets
  split
  · exact .ite (.mk (.checkLimit (.setSeen h))) (.mk (.bump h))
  · exact .mk (.bump h)
  · exact .mk (.noKey h)

theorem Canon.Fst.authenticate {i seq open_} (h : Canon d) : Canon.Fst (d.authenticate i seq open_) := by
  unfold Dev.authenticate
  extract_lets _ cs
  refine .ite (.mk h) ?_
  clear_value cs
  split
  · exact .mk h
  · split
    · exact .mk (.setSeen h)
    · exact .mk h

theorem Canon.loadSlot {i key} (h : Canon d) : Canon (d.loadSlot i key) := by
  unfold Dev.loadSlot; exact .bump (.setSlot (.keepOld h))

theorem Canon.sendKey {i key} (h : Canon d) : Canon (d.sendKey i key) := by
  unfold Dev.sendKey
  split
  · exact .ite (.stSend h) h
  · exact h

theorem Canon.Fst.importSlot {i w} (h : Canon d) : Canon.Fst (d.importSlot i w) := by
  unfold Dev.importSlot
  split
  · exact .mk h
  · refine .ite (.mk h) ?_
    split
    · exact .mk (.flag h)
    · exact .mk (.sendKey (.loadSlot h))

theorem Canon.Opt.eraseSlot {i} (h : Canon d) : Canon.Opt (d.eraseSlot i) := by
  unfold Dev.eraseSlot; exact .ite .none (.some (.bump (.setSlot (.keepOld h))))

theorem Canon.keyRefuse (h : Canon d) : Canon d.keyRefuse := by unfold Dev.keyRefuse; exact .flag (.flag h)

theorem Canon.showSlot {i} (h : Canon d) : Canon (d.showSlot i) := by
  unfold Dev.showSlot; exact .set (.set (.set (.set (.set h))))

theorem Canon.keyAccess {index op} (h : Canon d) : Canon (d.keyAccess index op) := by
  unfold Dev.keyAccess
  refine .ite h ?_
  extract_lets d r
  have hd : Canon d := .set (.set h)
  have hr : Canon.Fst r := .importSlot hd
  refine .ite (.keyRefuse hd) ?_
  split
  · exact .showSlot hd
  · exact .ite (.fst hr) (.keyRefuse (.fst hr))
  · split
    · rename_i e heq3
      have he2 := Canon.of_some heq3 (.eraseSlot hd)
      exact he2
    · exact .keyRefuse hd

theorem execKeyStatusRead_keepsForm {index} : KeepsForm (Machine.execKeyStatusRead index) := by
  unfold Machine.execKeyStatusRead; exact .run (fun he => .hostW he .keyAccess)

theorem execKeyPortImport_keepsForm {index} : KeepsForm (Machine.execKeyPortImport index) := by
  unfold Machine.execKeyPortImport; exact .run (fun he => .hostW he .keyAccess)

theorem execKeyPortErase_keepsForm {index} : KeepsForm (Machine.execKeyPortErase index) := by
  unfold Machine.execKeyPortErase; exact .run (fun he => .hostW he .keyAccess)

theorem Canon.zeroize {i} (h : Canon d) : Canon (d.zeroize i) := by unfold Dev.zeroize; exact .ite (.setSlot h) h

theorem execKeyZeroize_keepsForm {index} : KeepsForm (Machine.execKeyZeroize index) := by
  unfold Machine.execKeyZeroize; exact .run .zeroize

theorem execKeyImport_keepsForm {ring} : KeepsForm (Machine.execKeyImport ring) := by
  unfold Machine.execKeyImport
  exact .run (fun he => .command he (fun he1 => .ite (.endCmd he1) (.endCmd (.fst (.importSlot he1)))))

theorem execKeyErase_keepsForm {ring} : KeepsForm (Machine.execKeyErase ring) := by
  unfold Machine.execKeyErase
  refine .run (fun he => ?_)
  refine .command he (fun he1 => ?_)
  refine .ite (.endCmd he1) ?_
  split
  · rename_i e heq3
    have he2 := Canon.of_some heq3 (.eraseSlot he1)
    exact .endCmd he2
  · exact .endCmd he1

theorem Canon.setJobs {q l} (h : Canon d) : Canon (d.setJobs q l) := by unfold Dev.setJobs; exact .upd h

theorem Canon.showJob {q} (h : Canon d) : Canon (d.showJob q) := by
  unfold Dev.showJob
  split <;> exact .set (.set h)

theorem Canon.Fst.jobAdvance {j n} (h : Canon d) : Canon.Fst (d.jobAdvance j n) := by
  unfold Dev.jobAdvance
  extract_lets
  split
  · exact .mk h
  · exact .mk (.obsWrite h)

theorem Canon.jobEnd {q j status} (h : Canon d) : Canon (d.jobEnd q j status) := by
  unfold Dev.jobEnd
  extract_lets _ _ d1
  have hd1 : Canon d1 := .endCmd (.upd (.setJobs h))
  exact .showJob (.ite (.bump hd1) (.flag hd1))

theorem Canon.nextJob {n} (h : Canon d) : Canon (Dev.nextJob n d) := by
  induction n generalizing d with
  | zero =>
    rw [Dev.nextJob]
    exact h
  | succ f ih =>
    rw [Dev.nextJob]
    split
    · split
      · exact h
      · exact .ite (.showJob (.upd h)) (.ite (.showJob (.upd (.setJobs h))) (ih (.jobEnd (.flag h))))
    · exact h

theorem Canon.startJobs (h : Canon d) : Canon d.startJobs := by unfold Dev.startJobs; exact .nextJob h

theorem Canon.writeCryCfg {v} (h : Canon d) : Canon (d.writeCryCfg v) := by
  unfold Dev.writeCryCfg; exact .startJobs (.store h)

theorem execJob_keepsForm {ring} : KeepsForm (Machine.execJob ring) := by
  unfold Machine.execJob
  exact .run (fun he => .command he (fun he1 => .ite (.endCmd he1) (.ite (.endCmd he1) (.startJobs (.showJob
      (.setJobs (.keepRunning he1)))))))

theorem Canon.jobComplete (h : Canon d) : Canon d.jobComplete := by
  unfold Dev.jobComplete
  split
  · exact h
  · split
    · exact h
    · extract_lets a
      have ha : Canon.Fst a := .jobAdvance h
      split
      · exact .startJobs (.jobEnd (.fst ha))
      · exact .startJobs (.jobEnd (.setJobs (.fst ha)))

theorem execJobComplete_keepsForm : KeepsForm Machine.execJobComplete := by
  unfold Machine.execJobComplete; exact .run .jobComplete

theorem Canon.jobPreempt {blocks} (h : Canon d) : Canon (d.jobPreempt blocks) := by
  unfold Dev.jobPreempt
  split
  · split
    · exact h
    · refine .ite h ?_
      extract_lets a
      have ha : Canon.Fst a := .jobAdvance h
      split
      · exact .startJobs (.jobEnd (.fst ha))
      · exact .startJobs (.showJob (.bump (.upd (.setJobs (.fst ha)))))
  · exact h

theorem execJobPreempt_keepsForm {blocks} : KeepsForm (Machine.execJobPreempt blocks) := by
  unfold Machine.execJobPreempt; exact .run .jobPreempt

theorem Canon.resumeSlots (h : Canon d) : Canon d.resumeSlots := by
  unfold Dev.resumeSlots; exact .foldl h (fun he => .ite (.checkLimit (.setSlot he)) he)

theorem Canon.moveSlots {g g2} (h : Canon d) : Canon (d.moveSlots g g2) := by
  unfold Dev.moveSlots; exact .foldUpTo h (fun he => .setSlot (.keepOld he))

theorem Canon.eraseTerm {g} (h : Canon d) : Canon (d.eraseTerm g) := by
  unfold Dev.eraseTerm; exact .foldUpTo h (fun he => .getD (.eraseSlot he) he)

/-! ### Operations of Machine/Words -/

theorem Canon.setScribe {c s} (h : Canon d) : Canon (d.setScribe c s) := by unfold Dev.setScribe; exact .set (.upd h)

theorem Canon.inboxPop {c} (h : Canon d) : Canon (d.inboxPop c) := by
  unfold Dev.inboxPop
  split
  · exact h
  · exact .release1 (.setScribe h)

theorem Canon.traceMicro {engine addr kind class_ loc data staged} (h : Canon d) :
    Canon (d.traceMicro engine addr kind class_ loc data staged) := by
  unfold Dev.traceMicro
  refine .ite ?_ h
  extract_lets _ _ _ _ _ _ _ d
  have hd : Canon d := .upd h
  exact .ite h (.ite h (.set (.ite (.set hd) hd)))

theorem Canon.Fst.spaceByte {c e space a} (h : Canon d) : Canon.Fst (d.spaceByte c e space a) := by
  unfold Dev.spaceByte
  extract_lets held
  clear_value held
  split
  · exact .mk h
  · exact .draw h

theorem Canon.Fst.loadSpace {c e space a n} (h : Canon d) : Canon.Fst (d.loadSpace c e space a n) := by
  unfold Dev.loadSpace
  refine .foldl (.mk h) (fun he => ?_)
  extract_lets _ y
  have hy : Canon.Fst y := by
    unfold y
    split
    · exact .mk (.fst he)
    · exact .spaceByte (.fst he)
  exact .mk (.fst hy)

theorem Canon.Fst.storeByte {c space x a v} (hx : Canon.Fst x) : Canon.Fst (Machine.storeByte c space x a v) := by
  unfold Machine.storeByte
  refine .ite ?_ (.mk (.fst hx))
  split
  · exact .mk (.foldl (.fst hx) (fun he => .ite (.set he) he))
  · exact hx

theorem Canon.Fst.storeSpace {c x s} (hx : Canon.Fst x) : Canon.Fst (Machine.storeSpace c x s) := by
  unfold Machine.storeSpace; exact .foldUpTo hx .storeByte

theorem Canon.RunFst.cond {r c m} (hr : Canon.InRun r) : Canon.RunFst (MRun.cond r c m) := by
  unfold MRun.cond
  extract_lets
  split
  · exact .mk hr
  · exact .mk hr
  · exact .mk hr
  · exact .mk hr
  · exact .mk hr
  · exact .mk hr
  · exact .mk hr
  · exact .mk hr
  · exact .mk hr
  · exact .ite (.mk hr) (.mk (.mk (.fst (.draw (.ofRun hr)))))

theorem Canon.InRun.commit {r c next} (hr : Canon.InRun r) : Canon.InRun (MRun.commit r c next) := by
  unfold MRun.commit; exact .mk (.fst (.foldl (.mk (.bump (.ofRun hr))) .storeSpace))

theorem Canon.RunFst.memory {r c compat m} (hr : Canon.InRun r) : Canon.RunFst (MRun.memory r c compat m) := by
  unfold MRun.memory
  exact .ite (.mk hr) (.ite (.mk hr) (.ite (.mk (.mk (.fst (.loadSpace (.ofRun hr))))) (.ite (.mk (.mk (.fst
      (.storeSpace (.mk (.ofRun hr)))))) (.ite (.mk hr) (.mk (.mk (.ofRun hr)))))))

theorem Canon.InRun.result {r m loaded} (hr : Canon.InRun r) : Canon.InRun (MRun.result r m loaded) := by
  unfold MRun.result; exact .mk (.ofRun hr)

theorem Canon.RunFst.goto {r p} (hr : Canon.InRun r) : Canon.RunFst (MRun.goto r p) := by
  unfold MRun.goto
  split
  · exact .mk (.mk (.ofRun hr))
  · exact .mk hr

theorem Canon.InRun.traceRun {r c kind class_ loc data} (hr : Canon.InRun r) :
    Canon.InRun (MRun.trace r c kind class_ loc data) := by
  unfold MRun.trace; exact .mk (.traceMicro (.ofRun hr))

theorem Canon.RunFst.sequence {r c class_ loc compat m ok sa} (hr : Canon.InRun r) :
    Canon.RunFst (MRun.sequence r c class_ loc compat m ok sa) := by
  unfold MRun.sequence
  extract_lets _ jump _ _ _ _ r1
  have hjump : ∀ {x0}, Canon.InRun x0 → Canon.RunFst (jump x0) := fun he => .ite (.goto (.traceRun he)) (.goto he)
  have hr1 : Canon.InRun r1 := .traceRun hr
  split
  · exact hjump hr
  · refine .ite (.goto hr) ?_
    refine .ite (.mk hr) ?_
    split
    · exact .mk hr
    · exact hjump (.mk (.ofRun hr))
  · refine .ite (.goto hr) ?_
    split
    · exact .mk hr
    · exact .goto (.traceRun (.mk (.ofRun hr)))
  · exact .goto (.traceRun hr)
  · exact hjump (.ite hr (.commit (.traceRun hr)))
  · exact hjump (.mk (.ofRun (.traceRun hr)))
  · exact .mk (.ite hr1 (.commit hr1))
  · exact .mk hr

theorem Canon.RunFst.word {r c class_ loc compat p} (hr : Canon.InRun r) :
    Canon.RunFst (MRun.word r c class_ loc compat p) := by
  unfold MRun.word
  extract_lets _ _ r1 _ _ _ x
  have hr1 : Canon.InRun r1 := .mk (.set (.bump (.ofRun hr)))
  have hx : Canon.RunFst x := .memory (.fst (.cond hr1))
  refine .ite (.mk hr1) ?_
  split
  · exact .mk (.fst hx)
  · exact .sequence (.result (.fst hx))

theorem Canon.RunFst.run {c class_ loc compat n x} (hx : Canon.InRun x) :
    Canon.RunFst (MRun.run c class_ loc compat n x) := by
  induction n generalizing x with
  | zero =>
    rw [MRun.run]
    exact .mk hx
  | succ f ih =>
    rw [MRun.run]
    refine .ite (.mk hx) ?_
    split
    · exact .mk hx
    · extract_lets x1
      have hx1 : Canon.RunFst x1 := .word hx
      split
      · exact .mk (.fst hx1)
      · exact ih (.fst hx1)

theorem Canon.Fst.descriptor (h : Canon d) : Canon.Fst d.descriptor := by
  unfold Dev.descriptor; exact .foldl (.mk h) (fun he => .mk (.fst (.draw (.fst he))))

theorem Canon.dropEvent {c entry loc} (h : Canon d) : Canon (d.dropEvent c entry loc) := by
  unfold Dev.dropEvent
  extract_lets
  refine .ite (.setScribe h) ?_
  refine .ite (.inboxPop h) ?_
  refine .ite (.setScribe h) ?_
  split
  · exact .setScribe h
  · exact h

theorem Canon.InRun.fault {r c class_ loc f cause} (hr : Canon.InRun r) :
    Canon.InRun (MRun.fault r c class_ loc f cause) := by
  unfold MRun.fault; exact .mk (.traceMicro (.event (.flag (.ofRun hr))))

theorem Canon.runPatch {c entry class_ loc m f} (h : Canon d) (hf : ∀ {x0}, Canon x0 → Canon (f x0)) :
    Canon (d.runPatch c entry class_ loc m f) := by
  unfold Dev.runPatch
  extract_lets _ _ _ _ _ _ r close _ r1
  have hr : Canon.InRun r := .mk (.runCycles (.ofRun (.fst (.run (.mk (.fst (.descriptor h)))))))
  have hclose : ∀ {x0}, Canon.InRun x0 → Canon (close x0) := fun he4 => .setScribe (.ofRun he4)
  have hr1 : Canon.InRun r1 := .mk (.fst (.foldl (.mk (hf (.ofRun hr))) .storeSpace))
  split
  · exact .traceMicro (hclose (.mk (.ite (.ofRun hr1) (.bump (.ofRun hr1)))))
  · exact .dropEvent (hclose hr)
  · exact .dropEvent (hclose (.fault hr))
  · exact .dropEvent (hclose (.fault hr))
  · exact .dropEvent (hclose (.mk (.flag (.ofRun hr))))

theorem Canon.runEnded {c} (h : Canon d) : Canon (d.runEnded c) := by
  unfold Dev.runEnded
  extract_lets _ d
  have hd : Canon d := .set (.setScribe h)
  exact .ite hd (.set hd)

theorem Canon.routine {c entry class_ loc f} (h : Canon d) (hf : ∀ {x0}, Canon x0 → Canon (f x0)) :
    Canon (d.routine c entry class_ loc f) := by
  unfold Dev.routine
  have hd : Canon (((d.bump F.SCR_CNT_COUNT c 0).set F.SCR_STAT_ENTRY entry c).set F.SCR_STAT_PC entry c) :=
    .set (.set (.bump h))
  refine .ite (.runEnded ?_) ?_ <;>
  · split
    · exact .runPatch (.traceMicro hd) hf
    · exact .traceMicro (.bump (hf (.traceMicro hd)))

theorem Canon.setQreg {k v} (h : Canon d) : Canon (d.setQreg k v) := by unfold Dev.setQreg; exact .ite h (.upd h)

theorem Canon.Fst.quillWord {p} (h : Canon d) : Canon.Fst (d.quillWord p) := by
  unfold Dev.quillWord
  extract_lets _ _ _ _ _ d1 trace
  have hd1 : Canon d1 := .setQreg (.fst (.draw (.set (.set h))))
  have htrace : ∀ {n}, Canon (trace n) := .traceMicro hd1
  split
  · exact .ite (.mk htrace) (.mk hd1)
  · refine .ite (.mk hd1) (.ite (.mk hd1) ?_)
    split
    · exact .mk hd1
    · exact .mk (.upd htrace)
  · refine .ite (.mk hd1) ?_
    split
    · exact .mk hd1
    · exact .mk (.upd htrace)
  · exact .mk htrace
  · exact .mk htrace
  · exact .mk htrace
  · exact .mk hd1

theorem Canon.Fst.quillWords {n x} (h : Canon d) : Canon.Fst (Dev.quillWords n d x) := by
  induction n generalizing d x with
  | zero =>
    rw [Dev.quillWords]
    exact .mk h
  | succ f ih =>
    rw [Dev.quillWords]
    split
    · exact .mk (.set h)
    · extract_lets x
      have hx : Canon.Fst x := .quillWord h
      split
      · exact ih (.fst hx)
      · exact .mk (.fst hx)
      · exact .mk (.set (.set (.set (.upd (.traceMicro (.fst hx))))))

theorem Canon.Fst.quillPatch {entry} (h : Canon d) : Canon.Fst (d.quillPatch entry) := by
  unfold Dev.quillPatch
  extract_lets d
  have hd : Canon d := .traceMicro h
  exact .ite (.mk hd) (.quillWords hd)

/-! ### Operations of Machine/Registry -/

theorem Canon.lcCount {c k} (h : Canon d) : Canon (d.lcCount c k) := by unfold Dev.lcCount; exact .bump h

theorem Canon.lcFlag {f c} (h : Canon d) : Canon (d.lcFlag f c) := by unfold Dev.lcFlag; exact .flag h

theorem Canon.msgDiscard {c} (h : Canon d) : Canon (d.msgDiscard c) := by unfold Dev.msgDiscard; exact .lcCount h

theorem Canon.addTodo {c loc t} (h : Canon d) : Canon (d.addTodo c loc t) := by
  unfold Dev.addTodo; exact .ite h (.setScribe h)

theorem Canon.setWhite {i w} (h : Canon d) : Canon (d.setWhite i w) := by
  unfold Dev.setWhite; exact .obsWrite (.upd h)

theorem Canon.showTerms {c} (h : Canon d) : Canon (d.showTerms c) := by
  unfold Dev.showTerms; exact .set (.set (.set h))

theorem Canon.setTerm {g t} (h : Canon d) : Canon (d.setTerm g t) := by
  unfold Dev.setTerm; exact .showTerms (.obsWrite (.upd h))

theorem Canon.toState {g st cause} (h : Canon d) : Canon (d.toState g st cause) := by
  unfold Dev.toState; exact .setTerm h

theorem Canon.freeSlotOf {c loc} (h : Canon d) : Canon (d.freeSlotOf c loc) := by
  unfold Dev.freeSlotOf; exact .setScribe h

theorem Canon.flagRecall {g v} (h : Canon d) : Canon (d.flagRecall g v) := by
  unfold Dev.flagRecall
  split
  · exact h
  · exact .setTerm (.setWhite h)

theorem Canon.endTerm {g cause} (h : Canon d) : Canon (d.endTerm g cause) := by
  unfold Dev.endTerm
  extract_lets _ _ d
  have hd : Canon d := by
    unfold d
    split
    · exact .ite (.setWhite h) h
    · exact h
  exact .setTerm (.upd (.setPreset (.dropTerm (.flushNode (.freeSlotOf hd)))))

theorem Canon.enterHold {g cause} (h : Canon d) : Canon (d.enterHold g cause) := by
  unfold Dev.enterHold
  extract_lets _ _ _ _ _ _ _ _ d3
  have hd3 : Canon d3 := .setScribe (.flagRecall (.lcCount (.setTerm (.freeSlotOf h))))
  exact .ite (.set (.setScribe hd3)) hd3

theorem Canon.pushMgmt {c m} (h : Canon d) : Canon (d.pushMgmt c m) := by
  unfold Dev.pushMgmt
  extract_lets a
  have ha : Canon.Fst a := .alloc h
  split
  · exact .fst ha
  · exact .set (.upd (.fst ha))

theorem Canon.sendMsg {c m} (h : Canon d) : Canon (d.sendMsg c m) := by
  unfold Dev.sendMsg; exact .ite (.setScribe h) (.pushMgmt h)

theorem Canon.broadcast {c type body} (h : Canon d) : Canon (d.broadcast c type body) := by
  unfold Dev.broadcast; exact .pushMgmt h

theorem Canon.unicast {c loc type xid body} (h : Canon d) : Canon (d.unicast c loc type xid body) := by
  unfold Dev.unicast; exact .sendMsg h

theorem Canon.askX {c loc type xid body} (h : Canon d) : Canon (d.askX c loc type xid body) := by
  unfold Dev.askX; exact .unicast (.setTerm h)

theorem Canon.ask {c loc type body} (h : Canon d) : Canon (d.ask c loc type body) := by
  unfold Dev.ask; exact .askX (.setTerm h)

theorem Canon.sendRange {c loc} (h : Canon d) : Canon (d.sendRange c loc) := by
  unfold Dev.sendRange
  extract_lets
  split
  · exact h
  · extract_lets _ d1
    have hd1 : Canon d1 := .setTerm (.setScribe h)
    refine .ite (.unicast hd1) ?_
    split
    · exact .lcCount (.broadcast hd1)
    · exact .lcCount (.broadcast hd1)
    · exact .unicast hd1

theorem Canon.tryRange {c loc a} (h : Canon d) : Canon (d.tryRange c loc a) := by
  unfold Dev.tryRange; exact .ite (.sendRange h) h

theorem Canon.askRange {c loc a eqd} (h : Canon d) : Canon (d.askRange c loc a eqd) := by
  unfold Dev.askRange; exact .tryRange (.setTerm h)

theorem Canon.rerange {c loc eqd cause} (h : Canon d) : Canon (d.rerange c loc eqd cause) := by
  unfold Dev.rerange
  extract_lets _ _ d
  have hd : Canon d := .setTerm h
  exact .askRange (.lcCount (.ite (.addTodo hd) hd))

theorem Canon.tooFar {c loc} (h : Canon d) : Canon (d.tooFar c loc) := by
  unfold Dev.tooFar; exact .lcFlag (.endTerm h)

theorem Canon.rerangeBy {c loc o} (h : Canon d) : Canon (d.rerangeBy c loc o) := by
  unfold Dev.rerangeBy; exact .ite (.rerange h) (.tooFar (.lcCount (.toState h)))

theorem Canon.whiteKeys {g w} (h : Canon d) : Canon (d.whiteKeys g w) := by
  unfold Dev.whiteKeys
  refine .foldUpTo h (fun he => ?_)
  split
  · exact he
  · exact .ite (.fst (.importSlot he)) he

theorem Canon.register {c loc w tunable doze cause} (h : Canon d) :
    Canon (d.register c loc w tunable doze cause) := by
  unfold Dev.register; exact .setTerm (.setPreset h)

theorem Canon.Fst.takeTodo {c loc p} (h : Canon d) : Canon.Fst (d.takeTodo c loc p) := by
  unfold Dev.takeTodo
  split
  · exact .mk h
  · exact .mk (.setScribe h)

/-! ### Operations of Machine/Traffic -/

theorem Canon.setN {n x} (h : Canon d) : Canon (d.setN n x) := by unfold Dev.setN; exact .upd h

theorem Canon.joinC {v n} (h : Canon d) : Canon (Dev.joinC v d n) := by unfold Dev.joinC; exact .ite h (.setN h)

theorem Canon.joinE {v n} (h : Canon d) : Canon (Dev.joinE v d n) := by unfold Dev.joinE; exact .ite h (.setN h)

theorem Canon.joinQ {v q} (h : Canon d) : Canon (Dev.joinQ v d q) := by unfold Dev.joinQ; exact .ite h (.setQ h)

theorem Canon.Fst.pickNode {c} (h : Canon d) : Canon.Fst (d.pickNode c) := by
  unfold Dev.pickNode
  extract_lets _ d
  have hd : Canon d := .foldl h .joinC
  split
  · exact .mk hd
  · split <;> exact .mk (.foldl hd .joinE)

theorem Canon.Fst.pickQueue {n n1} (h : Canon d) : Canon.Fst (d.pickQueue n n1) := by
  induction n1 generalizing d with
  | zero =>
    rw [Dev.pickQueue]
    exact .mk h
  | succ f ih =>
    rw [Dev.pickQueue]
    split
    · exact .mk (.foldl h .joinQ)
    · exact ih (.foldl h .joinQ)

theorem Canon.charge {ch n q com c} (h : Canon d) : Canon (d.charge ch n q com c) := by
  unfold Dev.charge
  extract_lets _ _ _ _ _ _ _ _ _ _ _ d3
  have hd3 : Canon d3 := .setQ (.upd (.setN (.set h)))
  exact .ite hd3 (.upd hd3)

theorem Canon.keepSel {c x} (h : Canon d) : Canon (d.keepSel c x) := by unfold Dev.keepSel; exact .upd h

theorem Canon.select {c} (h : Canon d) : Canon (d.select c) := by
  unfold Dev.select
  refine .ite h ?_
  refine .ite h ?_
  split
  · exact .bump (.keepSel (.set (.upd h)))
  · refine .ite h ?_
    extract_lets k
    have hk : Canon.Fst k := .pickNode h
    split
    · exact .fst hk
    · extract_lets z
      have hz : Canon.Fst z := .pickQueue (.fst hk)
      split
      · exact .fst hz
      · extract_lets
        split
        · exact .fst hz
        · extract_lets _ _ d1
          have hd1 : Canon d1 := .bump (.bump (.tracePkt (.headWait (.charge (.fst (.popQ (.fst hz)))))))
          exact .keepSel (.ite (.bump hd1) hd1)

theorem execSchedulerSelect_keepsForm {c} : KeepsForm (Machine.execSchedulerSelect c) := by
  unfold Machine.execSchedulerSelect; exact .run .select

theorem Canon.leaveShare {q} (h : Canon d) : Canon (d.leaveShare q) := by unfold Dev.leaveShare; exact .setQ h

theorem Canon.applyQ {q} (h : Canon d) : Canon (d.applyQ q) := by
  unfold Dev.applyQ
  extract_lets _ _ _ _ d
  have hd : Canon d := .upd h
  exact .ite hd (.leaveShare hd)

theorem Canon.refillQ {ns q} (h : Canon d) : Canon (Dev.refillQ ns d q) := by
  unfold Dev.refillQ; exact .ite h (.setQ h)

theorem Canon.refillN {ns n} (h : Canon d) : Canon (Dev.refillN ns d n) := by unfold Dev.refillN; exact .setN h

theorem Canon.refillC {ns c} (h : Canon d) : Canon (Dev.refillC ns c d) := by
  unfold Dev.refillC
  extract_lets d
  have hd : Canon d := .release h
  exact .ite hd (.upd hd)

theorem Canon.refillAll (h : Canon d) : Canon d.refillAll := by
  unfold Dev.refillAll
  exact .foldUpTo (.foldl (.foldl (.upd (.foldl (.runTo h) .applyQ)) .refillQ)
      .refillN) .refillC

theorem execRefill_keepsForm : KeepsForm Machine.execRefill := by
  unfold Machine.execRefill; exact .run .refillAll

theorem Canon.sweepMeter {m} (h : Canon d) : Canon (d.sweepMeter m) := by unfold Dev.sweepMeter; exact .upd h

theorem Canon.meterSweep (h : Canon d) : Canon d.meterSweep := by
  unfold Dev.meterSweep; exact .upd (.foldl h .sweepMeter)

theorem execMeterSweep_keepsForm : KeepsForm Machine.execMeterSweep := by
  unfold Machine.execMeterSweep; exact .run .meterSweep

theorem Canon.toMultiple {n} (h : Canon d) : Canon (d.toMultiple n) := by
  unfold Dev.toMultiple; exact .ite h (.runTo h)

theorem Canon.toFrame (h : Canon d) : Canon d.toFrame := by unfold Dev.toFrame; exact .toMultiple h

theorem Canon.reparent {q} (h : Canon d) : Canon (d.reparent q) := by
  unfold Dev.reparent
  split
  · exact h
  · extract_lets _ _ _ _ _ d1
    have hd1 : Canon d1 := .upd (.toFrame h)
    exact .ite (.leaveShare hd1) hd1

theorem execQueueReparent_keepsForm {q} : KeepsForm (Machine.execQueueReparent q) := by
  unfold Machine.execQueueReparent; exact .run .reparent

theorem Canon.tmgRefuse {table index} (h : Canon d) : Canon (d.tmgRefuse table index) := by
  unfold Dev.tmgRefuse; exact .flag (.flag h)

theorem Canon.writeQueue {q r} (h : Canon d) : Canon (d.writeQueue q r) := by
  unfold Dev.writeQueue; exact .upd (.ite (.leaveShare (.ite (.flushQ h) (.fst (.emptyQueue h)))) h)

theorem Canon.tmgWrite {table i r} (h : Canon d) : Canon (d.tmgWrite table i r) := by
  unfold Dev.tmgWrite
  split
  · exact .mirror (.writeQueue h)
  · exact .mirror (.upd h)
  · exact .mirror (.upd h)
  · exact .mirror (.upd h)

theorem Canon.tmgAccess {table index write} (h : Canon d) : Canon (d.tmgAccess table index write) := by
  unfold Dev.tmgAccess
  refine .ite h ?_
  extract_lets d
  have hd : Canon d := .set (.set (.set h))
  exact .ite (.ite (.tmgWrite hd) (.tmgRefuse hd)) (.ite (.tmgRefuse hd) (.showData hd))

theorem execTmgIndRead_keepsForm {table index} : KeepsForm (Machine.execTmgIndRead table index) := by
  unfold Machine.execTmgIndRead; exact .run (fun he => .hostW he .tmgAccess)

theorem execTmgIndWrite_keepsForm {table index} : KeepsForm (Machine.execTmgIndWrite table index) := by
  unfold Machine.execTmgIndWrite; exact .run (fun he => .hostW he .tmgAccess)

/-! ### Operations of Machine/Circuits -/

theorem Canon.setCir {i x} (h : Canon d) : Canon (d.setCir i x) := by
  unfold Dev.setCir; exact .set (.set (.set (.upd h)))

theorem Canon.cirLost {i n} (h : Canon d) : Canon (d.cirLost i n) := by
  unfold Dev.cirLost; exact .ite h (.bump (.flag h))

theorem Canon.Fst.mapRegion {i s0} (h : Canon d) : Canon.Fst (d.mapRegion i s0) := by
  unfold Dev.mapRegion
  extract_lets _ _ _ _ _ _ _ _ d
  have hd : Canon d := .cirLost h
  refine .ite (.mk (.setCir (.cirLost (.ite (.flag hd) hd)))) ?_
  split
  · extract_lets _ _ _ _ d2
    have hd2 : Canon d2 := .cirLost h
    exact .mk (.setCir (.ite (.flag hd2) hd2))
  · exact .mk (.setCir h)

theorem Canon.Fst.squelchedRegion {i s0} (h : Canon d) : Canon.Fst (d.squelchedRegion i s0) := by
  unfold Dev.squelchedRegion; exact .mk (.setCir h)

theorem Canon.Fst.regionBytes {dir i sub keyIdx owner r} (h : Canon d) :
    Canon.Fst (d.regionBytes dir i sub keyIdx owner r) := by
  unfold Dev.regionBytes
  extract_lets _ _ _ _ _ _ _ _ _ _ _ _ _ _ d
  have hd : Canon d := .setCir h
  exact .mk (.ite (.ite (.bump hd) (.noKey hd)) hd)

theorem Canon.Fst.downRegion {i sub s0} (h : Canon d) : Canon.Fst (d.downRegion i sub s0) := by
  unfold Dev.downRegion; exact .regionBytes (.fst (.ite (.squelchedRegion h) (.mapRegion h)))

theorem Canon.circuitFrame {b} (h : Canon d) : Canon (d.circuitFrame b) := by
  unfold Dev.circuitFrame
  extract_lets _ _ d _ d2
  have hd : Canon d := .bump h
  have hd2 : Canon d2 := .bump (.ite (.flag hd) hd)
  exact .ite (.bump h) (.ite (.flag hd2) (.ite (.flag (.setCir hd2)) (.ite hd2 (.setCir hd2))))

theorem Canon.takeCircuitFrame (h : Canon d) : Canon d.takeCircuitFrame := by
  unfold Dev.takeCircuitFrame
  split
  · exact h
  · exact .circuitFrame (.upd h)

theorem execCircuitFrameRx_keepsForm : KeepsForm Machine.execCircuitFrameRx := by
  unfold Machine.execCircuitFrameRx; exact .run .takeCircuitFrame

theorem Canon.sendCircuitFrame {i} (h : Canon d) : Canon (d.sendCircuitFrame i) := by
  unfold Dev.sendCircuitFrame
  extract_lets _ _ _ _ _ _ _ _ _ d _ _ r
  have hd : Canon d := .setCir h
  have hr : Canon.Fst r := .alloc hd
  refine .ite ?_ hd
  split
  · exact .fst hr
  · exact .bump (.pushTo (.fst hr))

theorem Canon.feed {i n s0 starts ais n1 l} (h : Canon d) : Canon (d.feed i n s0 starts ais n1 l) := by
  induction l generalizing n1 d with
  | nil =>
    rw [Dev.feed]
    exact h
  | cons b r ih =>
    rw [Dev.feed]
    split
    · exact ih h
    · exact ih (.foldUpTo (.upd h) .sendCircuitFrame)

theorem Canon.rxRegion {dir i sub s0 owner l} (h : Canon d) : Canon (d.rxRegion dir i sub s0 owner l) := by
  unfold Dev.rxRegion
  extract_lets _ _ _ _ _ _ _ k _ d d1 d2 _ d3 d4 _ _ d5
  have hd : Canon d := .bump h
  have hd1 : Canon d1 := .ite hd (.flag hd)
  have hd2 : Canon d2 := .ite hd1 (.bump hd1)
  have hd3 : Canon d3 := .ite (.flag hd2) hd2
  have hd4 : Canon d4 := by
    unfold d4
    clear_value k
    split
    · exact .bump hd3
    · exact .bump hd3
    · exact .bump hd3
    · exact .bump hd3
    · exact hd3
  have hd5 : Canon d5 := .ite (.flag hd4) hd4
  exact .setCir (.feed (.setCir (.ite (.ite (.bump hd5) (.noKey hd5)) hd5)))

theorem Canon.fileRegion {i sub l} (h : Canon d) : Canon (d.fileRegion i sub l) := by
  unfold Dev.fileRegion; exact .ite h (.ite h (.setCir h))

theorem Canon.headRegion {i} (h : Canon d) : Canon (d.headRegion i) := by
  unfold Dev.headRegion
  extract_lets
  split
  · exact h
  · split
    · exact h
    · exact .rxRegion (.setCir h)

theorem Canon.termRegion {i} (h : Canon d) : Canon (d.termRegion i) := by
  unfold Dev.termRegion
  extract_lets _ r?
  clear_value r?
  split
  · exact h
  · extract_lets _ _ _ _ d
    have hd : Canon d := .upd h
    exact .ite h (.ite hd (.rxRegion hd))

theorem execCircuitRegionRx_keepsForm {i} : KeepsForm (Machine.execCircuitRegionRx i) := by
  unfold Machine.execCircuitRegionRx; exact .run (fun he => .ite (.termRegion he) (.ite (.headRegion he) he))

theorem Canon.regionMiss {i} (h : Canon d) : Canon (d.regionMiss i) := by
  unfold Dev.regionMiss
  extract_lets
  split
  · exact h
  · exact .ite h (.setCir (.feed (.setCir (.flag (.runTo h)))))

theorem execRegionMiss_keepsForm {i} : KeepsForm (Machine.execRegionMiss i) := by
  unfold Machine.execRegionMiss; exact .run (fun he => .ite (.regionMiss he) he)

theorem Canon.formRegion {i sub} (h : Canon d) : Canon (d.formRegion i sub) := by
  unfold Dev.formRegion; exact .setCir (.fst (.regionBytes (.fst (.mapRegion h))))

theorem Canon.formTo {i sub} (h : Canon d) : Canon (d.formTo i sub) := by
  unfold Dev.formTo; exact .foldUpTo h .formRegion

theorem Canon.formRegions {c} (h : Canon d) : Canon (d.formRegions c) := by
  unfold Dev.formRegions; exact .foldl h .formTo

theorem Canon.showCirBuf (h : Canon d) : Canon d.showCirBuf := by unfold Dev.showCirBuf; exact .set h

theorem Canon.applyCircuit {i} (h : Canon d) : Canon (Dev.applyCircuit i d) := by
  unfold Dev.applyCircuit
  extract_lets _ d
  have hd : Canon d := .release (.release h)
  exact .ite hd (.setCir hd)

theorem Canon.applyCircuits (h : Canon d) : Canon d.applyCircuits := by
  unfold Dev.applyCircuits; exact .showCirBuf (.foldUpTo h .applyCircuit)

theorem Canon.cirTakeover (h : Canon d) : Canon d.cirTakeover := by unfold Dev.cirTakeover; exact .upd h

theorem Canon.writeCirCfg {i v contOk} (h : Canon d) : Canon (d.writeCirCfg i v contOk) := by
  unfold Dev.writeCirCfg; exact .ite (.flag h) (.storeHeld h)

theorem Canon.writeCirTiming {i v} (h : Canon d) : Canon (d.writeCirTiming i v) := by
  unfold Dev.writeCirTiming; exact .ite (.storeHeld h) (.flag h)

theorem Canon.writeCirCf {i v} (h : Canon d) : Canon (d.writeCirCf i v) := by
  unfold Dev.writeCirCf; exact .ite (.flag h) (.store h)

/-! ### Operations of Machine/Grants -/

theorem Canon.setCont {k x} (h : Canon d) : Canon (d.setCont k x) := by unfold Dev.setCont; exact .upd h

theorem Canon.showLoad {c} (h : Canon d) : Canon (d.showLoad c) := by unfold Dev.showLoad; exact .set h

theorem Canon.Fst.placeIn {x k n cl} (h : Canon d) : Canon.Fst (d.placeIn x k n cl) := by
  unfold Dev.placeIn; exact .ite (.mk h) (.ite (.ite (.mk h) (.mk (.flag h))) (.mk h))

theorem Canon.Fst.giveTo {x k n cl} (h : Canon d) : Canon.Fst (d.giveTo x k n cl) := by
  unfold Dev.giveTo
  extract_lets r
  have hr : Canon.Fst r := .placeIn h
  exact .ite hr (.mk (.setCont (.fst hr)))

theorem Canon.addArrears {c k n} (h : Canon d) : Canon (d.addArrears c k n) := by
  unfold Dev.addArrears
  extract_lets _ _ _ d
  have hd : Canon d := .setCont h
  exact .ite (.bump (.flag hd)) hd

theorem Canon.Fst.pass {cl r k} (hr : Canon.Fst r) : Canon.Fst (Dev.pass cl r k) := by
  unfold Dev.pass
  extract_lets _ _ _ _ g d1
  have hg : Canon.Fst g := .giveTo (.fst hr)
  have hd1 : Canon d1 := .flag (.fst hg)
  exact .ite hr (.ite (.mk (.fst hg)) (.mk (.ite (.addArrears hd1) hd1)))

theorem Canon.setTag {cl k v} (h : Canon d) : Canon (d.setTag cl k v) := by unfold Dev.setTag; exact .setCont h

theorem Canon.Fst.shareLoop {cl grain n x l} (hx : Canon.Fst x) : Canon.Fst (Dev.shareLoop cl grain n x l) := by
  induction n generalizing x l with
  | zero =>
    rw [Dev.shareLoop]
    exact hx
  | succ f ih =>
    rw [Dev.shareLoop]
    split
    · exact hx
    · extract_lets g
      have hg : Canon.Fst g := .giveTo (.fst hx)
      exact .ite (ih (.mk (.fst hg))) (ih (.mk (.setTag (.fst hg))))

theorem Canon.Fst.share {x cl} (h : Canon d) : Canon.Fst (d.share x cl) := by
  unfold Dev.share
  extract_lets _ _ _ _ r
  have hr : Canon.Fst r := .shareLoop (.mk (.foldl h (fun he => .setCont (.ite (.setTag he) he))))
  split
  · exact .mk (.set (.fst hr))
  · exact .mk (.fst hr)

theorem Canon.moveOn {c loc target w} (h : Canon d) : Canon (d.moveOn c loc target w) := by
  unfold Dev.moveOn; exact .upd h

theorem Canon.startPoll {c loc target} (h : Canon d) : Canon (d.startPoll c loc target) := by
  unfold Dev.startPoll; exact .ite (.upd h) h

theorem Canon.Fst.openOwed {r loc} (hr : Canon.Fst r) : Canon.Fst (Dev.openOwed r loc) := by
  unfold Dev.openOwed
  extract_lets _ d
  have hd : Canon d := .startPoll (.fst hr)
  split
  · exact .mk hd
  · extract_lets _ _ _ _ _ d2
    have hd2 : Canon d2 := .upd (.upd hd)
    exact .ite (.mk (.moveOn hd)) (.mk (.ite (.bump hd2) hd2))

theorem Canon.Fst.takeBack {c n x n1} (h : Canon d) : Canon.Fst (Dev.takeBack c n d x n1) := by
  induction n generalizing d x n1 with
  | zero =>
    rw [Dev.takeBack]
    exact .mk h
  | succ f ih =>
    rw [Dev.takeBack]
    refine .ite (.mk h) ?_
    split
    · exact .mk h
    · extract_lets _ _ _ _ _ _ d
      have hd : Canon d := by
        unfold d
        split
        · exact .addArrears (.setCont h)
        · exact .addArrears (.setCont h)
        · exact .setCont h
      exact ih hd

theorem Canon.Fst.finishDraft {r b} (hr : Canon.Fst r) : Canon.Fst (Dev.finishDraft r b) := by
  unfold Dev.finishDraft
  extract_lets d
  have hd : Canon d := .fst hr
  exact .ite hr (.ite (.mk hd) (.mk (.fst (.takeBack hd))))

theorem Canon.countMap {x entries windows} (h : Canon d) : Canon (d.countMap x entries windows) := by
  unfold Dev.countMap
  extract_lets _ k
  have hk : ∀ {x0 x1 x2}, Canon x2 → Canon (k x0 x1 x2) := fun he => .bump he
  exact hk (hk (hk (hk (hk (hk (hk (hk (hk (hk (hk (hk (hk (hk (hk h))))))))))))))

theorem Canon.applyCont {c k} (h : Canon d) : Canon (Dev.applyCont c d k) := by
  unfold Dev.applyCont
  split
  · exact h
  · extract_lets _ _ d
    have hd : Canon d := .upd h
    exact .ite (.setCont (.upd hd)) hd

theorem Canon.ageCont {k} (h : Canon d) : Canon (d.ageCont k) := by unfold Dev.ageCont; exact .setCont h

theorem Canon.refillCont {c k} (h : Canon d) : Canon (Dev.refillCont c d k) := by
  unfold Dev.refillCont; exact .setCont h

theorem Canon.noteBurst {c b} (h : Canon d) : Canon (Dev.noteBurst c d b) := by
  unfold Dev.noteBurst; exact .bump (.upd h)

theorem Canon.setBrx {c x} (h : Canon d) : Canon (d.setBrx c x) := by unfold Dev.setBrx; exact .upd h

theorem Canon.schedule {c bs ws} (h : Canon d) : Canon (d.schedule c bs ws) := by
  unfold Dev.schedule; exact .foldl (.setBrx h) .noteBurst

theorem Canon.sendMap {c target es} (h : Canon d) : Canon (d.sendMap c target es) := by
  unfold Dev.sendMap; exact .ite (.stSend h) h

theorem Canon.buildMap {c target} (h : Canon d) : Canon (d.buildMap c target) := by
  unfold Dev.buildMap
  exact .sendMap (.set (.set (.set (.foldl (.set (.set (.fst (.draw (.countMap (.schedule (.upd (.fst (.foldl
      (.share (.fst (.share (.fst (.foldl (.foldl (.foldl (.foldl (.mk h) .openOwed) .pass) .pass) .pass))))) .finishDraft)))))))))
              .upd))))

theorem Canon.applyGnt {c} (h : Canon d) : Canon (d.applyGnt c) := by
  unfold Dev.applyGnt; exact .showLoad (.foldl (.release h) .applyCont)

theorem Canon.toSnapshot {c} (h : Canon d) : Canon (d.toSnapshot c) := by
  unfold Dev.toSnapshot
  extract_lets d
  have hd : Canon d := .toMultiple h
  exact .ite (.runTo hd) hd

theorem Canon.snapshot {d0 c} (hd0 : Canon d0) : Canon (Dev.snapshot d0 c) := by
  unfold Dev.snapshot
  extract_lets _ _ _ d3 d4
  have hd3 : Canon d3 := .applyGnt (.foldl (.upd (.toSnapshot hd0)) .ageCont)
  have hd4 : Canon d4 := .foldl hd3 .refillCont
  exact .ite (.ite (.buildMap hd4) hd4) hd3

theorem execSnapshot_keepsForm {c} : KeepsForm (Machine.execSnapshot c) := by
  unfold Machine.execSnapshot; exact .run (fun he => .ite (.snapshot he) he)

theorem Canon.reportSlot {c p j} (h : Canon d) : Canon (Dev.reportSlot c p d j) := by
  unfold Dev.reportSlot
  extract_lets
  split
  · exact .flag h
  · exact .setCont h

theorem Canon.landGrants {c loc sub} (h : Canon d) : Canon (d.landGrants c loc sub) := by
  unfold Dev.landGrants; exact .upd (.foldl h .setCont)

theorem Canon.reportProcess {c} (h : Canon d) : Canon (d.reportProcess c) := by
  unfold Dev.reportProcess
  split
  · exact h
  · exact .foldl (.landGrants (.bump (.upd h))) .reportSlot

theorem execReportProcess_keepsForm {c} : KeepsForm (Machine.execReportProcess c) := by
  unfold Machine.execReportProcess; exact .run .reportProcess

theorem Canon.gntRefuse {k} (h : Canon d) : Canon (d.gntRefuse k) := by unfold Dev.gntRefuse; exact .flag (.flag h)

theorem Canon.writeCont {k r} (h : Canon d) : Canon (d.writeCont k r) := by
  unfold Dev.writeCont; exact .mirror (.showLoad (.upd h))

theorem Canon.gntAccess {table index write} (h : Canon d) : Canon (d.gntAccess table index write) := by
  unfold Dev.gntAccess
  refine .ite h ?_
  extract_lets d
  have hd : Canon d := .set (.set (.set h))
  exact .ite (.ite (.writeCont hd) (.gntRefuse hd)) (.ite (.gntRefuse hd) (.showData hd))

theorem execGntIndRead_keepsForm {table index} : KeepsForm (Machine.execGntIndRead table index) := by
  unfold Machine.execGntIndRead; exact .run (fun he => .hostW he .gntAccess)

theorem execGntIndWrite_keepsForm {table index} : KeepsForm (Machine.execGntIndWrite table index) := by
  unfold Machine.execGntIndWrite; exact .run (fun he => .hostW he .gntAccess)

theorem Canon.writeGntCfg {c v} (h : Canon d) : Canon (d.writeGntCfg c v) := by
  unfold Dev.writeGntCfg; exact .ite (.flag h) (.showLoad (.storeHeld h))

/-! ### Operations of Machine/Line -/

theorem Canon.setTx {c x} (h : Canon d) : Canon (d.setTx c x) := by unfold Dev.setTx; exact .upd h

theorem Canon.emit {c plain l} (h : Canon d) : Canon (d.emit c plain l) := by
  unfold Dev.emit
  extract_lets
  split
  · exact .ite (.setTx h) (.setTx (.upd h))
  · exact .setTx h

theorem Canon.txCount {c k n} (h : Canon d) : Canon (d.txCount c k n) := by unfold Dev.txCount; exact .bump h

theorem Canon.idleTo {c upto} (h : Canon d) : Canon (d.idleTo c upto) := by
  unfold Dev.idleTo; exact .txCount (.emit h)

theorem Canon.send {c l} (h : Canon d) : Canon (d.send c l) := by unfold Dev.send; exact .setTx (.emit h)

theorem Canon.clearErrs {c g} (h : Canon d) : Canon (d.clearErrs c g) := by unfold Dev.clearErrs; exact .upd h

theorem Canon.beginFrame {c} (h : Canon d) : Canon (Dev.beginFrame c d) := by
  unfold Dev.beginFrame
  refine .ite h ?_
  extract_lets _ _ _ _ _ _ _ d1
  have hd1 : Canon d1 := .set (.setTx (.ite (.idleTo h) h))
  exact .ite (.clearErrs (.txCount (.send hd1))) (.txCount (.send hd1))

theorem Canon.toNewFrame (h : Canon d) : Canon d.toNewFrame := by
  unfold Dev.toNewFrame
  extract_lets d
  have hd : Canon d := .toFrame h
  exact .upd (.ite (.runTo hd) hd)

theorem Canon.sendRegions {c sub s0 l} (h : Canon d) : Canon (d.sendRegions c sub s0 l) := by
  induction l generalizing d with
  | nil =>
    rw [Dev.sendRegions]
    exact h
  | cons x_1 r ih =>
    rw [Dev.sendRegions]
    exact ih (.sendOut (.txCount (.send (.fst (.downRegion h)))))

theorem Canon.beginSubframe {c sf} (h : Canon d) : Canon (d.beginSubframe c sf) := by
  unfold Dev.beginSubframe
  extract_lets _ d
  have hd : Canon d := .runTo h
  exact .ite h (.setTx (.sendRegions (.txCount (.send (.upd (.ite hd (.idleTo hd)))))))

theorem execSubframeStart_keepsForm {c sf} : KeepsForm (Machine.execSubframeStart c sf) := by
  unfold Machine.execSubframeStart; exact .run .beginSubframe

theorem Canon.dropPart {c p} (h : Canon d) : Canon (d.dropPart c p) := by
  unfold Dev.dropPart; exact .release1 (.setTx h)

theorem Canon.sendPart {c p} (h : Canon d) : Canon (d.sendPart c p) := by
  unfold Dev.sendPart
  extract_lets _ _ _ _ _ _ _ _ k
  have hk : Canon.Fst k := .consume h
  refine .ite (.idleTo (.setTx h)) ?_
  split
  · exact .dropPart (.fst hk)
  · extract_lets _ _ _ d1
    have hd1 : Canon d1 := .sendOut (.octets (.bump (.txCount (.txCount (.send (.fst hk))))))
    exact .ite (.dropPart hd1) (.setTx hd1)

theorem Canon.markSent {c m sub} (h : Canon d) : Canon (d.markSent c m sub) := by
  unfold Dev.markSent; exact .ite h (.upd h)

theorem Canon.sendMgmt {c m} (h : Canon d) : Canon (d.sendMgmt c m) := by
  unfold Dev.sendMgmt
  extract_lets _ _ _ _ r
  have hr : Canon.Fst r := .ite (.consume h) (.mk (.setScribe h))
  split
  · exact .fst hr
  · exact .markSent (.sendOut (.octets (.txCount (.txCount (.send (.fst hr))))))

theorem Canon.segmentOut {c} (h : Canon d) : Canon (d.segmentOut c) := by
  unfold Dev.segmentOut
  extract_lets
  refine .ite h ?_
  split
  · exact .sendPart h
  · split
    · exact h
    · extract_lets e
      have he : Canon e := .upd h
      split
      · exact .ite (.idleTo h) (.release1 (.sendMgmt he))
      · exact .ite (.release1 (.txCount he)) (.ite (.release1 he) (.sendPart he))

theorem Canon.segmentTx {c} (h : Canon d) : Canon (d.segmentTx c) := by
  unfold Dev.segmentTx; exact .ite (.segmentOut h) h

theorem execSegmentTx_keepsForm {c} : KeepsForm (Machine.execSegmentTx c) := by
  unfold Machine.execSegmentTx; exact .run .segmentTx

theorem Canon.rxCount {c k n} (h : Canon d) : Canon (d.rxCount c k n) := by unfold Dev.rxCount; exact .bump h

theorem Canon.applyRxCfg {c} (h : Canon d) : Canon (d.applyRxCfg c) := by
  unfold Dev.applyRxCfg
  extract_lets _ _ _ d1
  have hd1 : Canon d1 := .setRx (.foldl h .releaseFld)
  exact .ite hd1 (.rxStop hd1)

theorem Canon.applyFrmCfg {c} (h : Canon d) : Canon (d.applyFrmCfg c) := by
  unfold Dev.applyFrmCfg
  extract_lets _ d1
  have hd1 : Canon d1 := .releaseFld (.releaseFld (.toFrame h))
  exact .ite (.applyRxCfg hd1) hd1

theorem execFramerConfigApply_keepsForm {c} : KeepsForm (Machine.execFramerConfigApply c) := by
  unfold Machine.execFramerConfigApply; exact .run .applyFrmCfg

theorem Canon.inFrame {c p f fresh} (h : Canon d) : Canon (d.inFrame c p f fresh) := by
  unfold Dev.inFrame; exact .set (.setRx h)

theorem Canon.alignStep {c p m f} (h : Canon d) : Canon (d.alignStep c p m f) := by
  unfold Dev.alignStep
  extract_lets _ _ _ hit _ d _ d1
  have hd : Canon d := .setRx h
  have hd1 : Canon d1 := by
    unfold d1
    clear_value hit
    split
    · exact .ite (.inFrame hd) (.setRx hd)
    · exact .ite hd (.setRx hd)
    · exact hd
  split
  · exact .ite (.setRx h) h
  · exact .ite (.set (.inFrame h)) (.ite (.setRx h) h)
  · exact .ite hd1 (.set hd1)

theorem Canon.loseLock {c} (h : Canon d) : Canon (d.loseLock c) := by
  unfold Dev.loseLock; exact .flag (.set (.setRx (.leaveFrame h)))

theorem Canon.rxBoundary {c} (h : Canon d) : Canon (d.rxBoundary c) := by
  unfold Dev.rxBoundary; exact .ite (.applyRxCfg h) h

theorem Canon.takeBlock {c hdr pay} (h : Canon d) : Canon (d.takeBlock c hdr pay) := by
  unfold Dev.takeBlock
  extract_lets _ _ _ _ _ d
  have hd : Canon d := .setRx h
  refine .ite (.ite (.setRx h) (.ite (.setRx h) (.set (.setRx h)))) ?_
  refine .ite (.loseLock (.setRx h)) ?_
  split
  · exact hd
  · exact .alignStep hd

theorem execBlockReceived_keepsForm {c hdr pay} : KeepsForm (Machine.execBlockReceived c hdr pay) := by
  unfold Machine.execBlockReceived
  refine .run (fun he => ?_)
  refine .ite ?_ he
  extract_lets d
  have hd : Canon d := .rxBoundary he
  exact .ite (.takeBlock hd) hd

theorem Canon.oof {c} (h : Canon d) : Canon (d.oof c) := by
  unfold Dev.oof; exact .ite (.leaveFrame h) (.ite (.leaveFrame (.reach h)) h)

theorem execOof_keepsForm {c} : KeepsForm (Machine.execOof c) := by
  unfold Machine.execOof; exact .run (fun he => .ite (.oof he) he)

theorem Canon.retainExpired {c} (h : Canon d) : Canon (d.retainExpired c) := by
  unfold Dev.retainExpired; exact .ite (.set (.setRx (.reach h))) h

theorem execRetainExpired_keepsForm {c} : KeepsForm (Machine.execRetainExpired c) := by
  unfold Machine.execRetainExpired; exact .run (fun he => .ite (.retainExpired he) he)

theorem Canon.lof {c} (h : Canon d) : Canon (d.lof c) := by unfold Dev.lof; exact .ite h (.flag (.setRx (.reach h)))

theorem execLof_keepsForm {c} : KeepsForm (Machine.execLof c) := by
  unfold Machine.execLof; exact .run (fun he => .ite (.lof he) he)

theorem Canon.adoptCounter {c blk bad} (h : Canon d) : Canon (d.adoptCounter c blk bad) := by
  unfold Dev.adoptCounter
  extract_lets _ _ _ _ _ d1
  have hd1 : Canon d1 := .set (.setRx h)
  exact .ite (.flag hd1) hd1

theorem Canon.decodeCw {c w} (h : Canon d) : Canon (d.decodeCw c w) := by
  unfold Dev.decodeCw
  refine .ite h ?_
  extract_lets _ d d1
  have hd : Canon d := .rxCount h
  have hd1 : Canon d1 := .ite (.flag hd) hd
  exact .setRx (.ite (.adoptCounter (.setRx hd1)) (.setRx hd1))

theorem execCodewordDecode_keepsForm {c w} : KeepsForm (Machine.execCodewordDecode c w) := by
  unfold Machine.execCodewordDecode; exact .run (fun he => .ite (.decodeCw he) he)

/-! ### Operations of Machine/Bursts -/

theorem Canon.brxCount {c k n} (h : Canon d) : Canon (d.brxCount c k n) := by unfold Dev.brxCount; exact .bump h

theorem Canon.settleBrx {c} (h : Canon d) : Canon (d.settleBrx c) := by
  unfold Dev.settleBrx
  extract_lets
  split
  · exact h
  · exact .ite h (.showPeak (.release (.release (.setBrx h))))

theorem Canon.toBurst {c} (h : Canon d) : Canon (d.toBurst c) := by
  unfold Dev.toBurst
  split
  · exact .settleBrx h
  · exact .settleBrx (.runTo h)

theorem Canon.storeUp {c r v} (h : Canon d) : Canon (d.storeUp c r v) := by
  unfold Dev.storeUp; exact .setBrx (.storeHeld (.settleBrx h))

theorem Canon.presetState {g st} (h : Canon d) : Canon (d.presetState g st) := by
  unfold Dev.presetState; exact .setPreset h

theorem Canon.staleIfValid {g} (h : Canon d) : Canon (d.staleIfValid g) := by
  unfold Dev.staleIfValid; exact .ite (.presetState h) h

theorem Canon.presetLoad {c parityBad} (h : Canon d) : Canon (d.presetLoad c parityBad) := by
  unfold Dev.presetLoad
  split
  · exact h
  · extract_lets _ _ _ _ _ _ _ d2 _ d3
    have hd2 : Canon d2 := .brxCount (.setBrx (.runTo h))
    have hd3 : Canon d3 := .ite (.flag hd2) hd2
    exact .upd (.ite (.flag (.presetState hd3)) hd3)

theorem Canon.loadFirst {c} (h : Canon d) : Canon (d.loadFirst c) := by
  unfold Dev.loadFirst; exact .ite h (.presetLoad h)

theorem execPresetLoad_keepsForm {c parityBad} : KeepsForm (Machine.execPresetLoad c parityBad) := by
  unfold Machine.execPresetLoad; exact .run (fun he => .ite (.presetLoad (.toBurst he)) he)

theorem execPresetStale_keepsForm {g} : KeepsForm (Machine.execPresetStale g) := by
  unfold Machine.execPresetStale; exact .run (fun he => .ite (.presetState (.runTo he)) he)

theorem Canon.setShadow {c x} (h : Canon d) : Canon (d.setShadow c x) := by unfold Dev.setShadow; exact .upd h

theorem Canon.setDelta {c v} (h : Canon d) : Canon (d.setDelta c v) := by
  unfold Dev.setDelta
  extract_lets d
  have hd : Canon d := .set h
  exact .ite (.set hd) hd

theorem Canon.acquireDelta {c} (h : Canon d) : Canon (d.acquireDelta c) := by
  unfold Dev.acquireDelta
  extract_lets _ _ d1
  have hd1 : Canon d1 := .setShadow (.set h)
  exact .ite (.setDelta hd1) hd1

theorem Canon.shadowIdle {c f} (h : Canon d) : Canon (d.shadowIdle c f) := by
  unfold Dev.shadowIdle; exact .ite (.acquireDelta h) h

theorem Canon.shadowFound {c f o} (h : Canon d) : Canon (d.shadowFound c f o) := by
  unfold Dev.shadowFound
  refine .ite h ?_
  extract_lets _ _ _ d
  have hd : Canon d := .ite (.setDelta (.fst (.draw h))) h
  split
  · exact .setShadow (.ite (.set hd) hd)
  · exact .ite (.setShadow h) (.setShadow (.setDelta h))
  · exact h

theorem Canon.shadowMissed {c f} (h : Canon d) : Canon (d.shadowMissed c f) := by
  unfold Dev.shadowMissed; exact .ite h (.shadowIdle (.setShadow h))

theorem Canon.judge {c loc f found} (h : Canon d) : Canon (d.judge c loc f found) := by
  unfold Dev.judge
  extract_lets _ _ _ d
  have hd : Canon d := .setTerm h
  exact .ite h (.ite (.setTerm h) (.ite h (.ite (.addTodo hd) hd)))

theorem Canon.txnsDue {c loc sub} (h : Canon d) : Canon (d.txnsDue c loc sub) := by
  unfold Dev.txnsDue; exact .ite (.setTerm h) h

theorem Canon.evidenceAll {c} (h : Canon d) : Canon (d.evidenceAll c) := by
  unfold Dev.evidenceAll; exact .foldl h (fun he => .ite (.addTodo he) he)

theorem Canon.strayBurst {c y} (h : Canon d) : Canon (d.strayBurst c y) := by
  unfold Dev.strayBurst
  refine .ite h ?_
  extract_lets d
  have hd : Canon d := .addTodo h
  exact .ite (.addTodo hd) hd

theorem Canon.segCount {c k} (h : Canon d) : Canon (d.segCount c k) := by unfold Dev.segCount; exact .bump h

theorem Canon.dropReasm {k} (h : Canon d) : Canon (d.dropReasm k) := by
  unfold Dev.dropReasm
  split
  · exact h
  · exact .foldl (.upd h) .release1

theorem Canon.dropReasmOf {g} (h : Canon d) : Canon (d.dropReasmOf g) := by
  unfold Dev.dropReasmOf; exact .foldl h .dropReasm

theorem Canon.Fst.openSeg {c slot s l nonce} (h : Canon d) : Canon.Fst (d.openSeg c slot s l nonce) := by
  unfold Dev.openSeg
  extract_lets _ r
  have hr : Canon.Fst r := .authenticate h
  refine .ite (.mk (.segCount h)) ?_
  split
  · exact .mk (.bump (.fst hr))
  · exact .mk (.segCount (.cryFlag (.fst hr)))
  · exact .mk (.segCount (.bump (.fst hr)))
  · exact .mk (.segCount (.noKey (.fst hr)))

theorem Canon.upPacket {c k r fails} (h : Canon d) : Canon (d.upPacket c k r fails) := by
  unfold Dev.upPacket
  extract_lets _ _ q _ m
  have hq : Canon.Fst q := .meter h
  have hm : Canon.Fst m := by
    unfold m
    refine .ite (.mk h) ?_
    split <;> exact .mk (.ite (.fst hq) (.bump (.fst hq)))
  split
  · exact .foldl (.fst hm) .release1
  · exact .toPipe (.fst hm)

theorem Canon.joinSeg {c k s b fails} (h : Canon d) : Canon (d.joinSeg c k s b fails) := by
  unfold Dev.joinSeg
  extract_lets _ d _ _ a1 d1 _ d2
  have hd : Canon d := .ite (.segCount (.dropReasm h)) h
  have ha1 : Canon.Fst a1 := .ite (.mk hd) (.mk (.fst (.alloc hd)))
  have hd1 : Canon d1 := .ite (.fst ha1) (.octets (.segCount (.fst ha1)))
  have hd2 : Canon d2 := .upd hd1
  refine .ite (.segCount (.dropReasm hd)) ?_
  refine .ite (.dropReasm hd) ?_
  split
  · exact .dropReasm (.fst ha1)
  · exact .ite (.ite hd2 (.upPacket hd2)) (.upd hd1)

theorem Canon.inboxPut {c m} (h : Canon d) : Canon (d.inboxPut c m) := by
  unfold Dev.inboxPut
  refine .ite (.msgDiscard h) ?_
  extract_lets a
  have ha : Canon.Fst a := .alloc h
  split
  · exact .fst ha
  · exact .setScribe (.fst ha)

theorem Canon.upSegment {c g sub k s l} (h : Canon d) : Canon (d.upSegment c g sub k s l) := by
  unfold Dev.upSegment
  extract_lets drop d _ r
  have hdrop : ∀ {e}, Canon e → Canon (drop e) := by
    intro e he
    unfold drop
    split
    · exact .dropReasm he
    · exact he
  have hd : Canon d := .octets (.segCount h)
  have hr : Canon.Fst r := .openSeg h
  refine .ite (hdrop (.segCount h)) ?_
  refine .ite (.ite (.ite hd (.inboxPut hd)) (.segCount h)) ?_
  refine .ite (.segCount h) ?_
  split
  · exact .segCount h
  · split
    · exact .joinSeg (.fst hr)
    · refine .ite (.dropReasm (.fst hr)) ?_
      split
      · exact .joinSeg (.fst hr)
      · exact .dropReasm (.fst hr)

theorem Canon.upBlocks {c g sub k n l} (h : Canon d) : Canon (Dev.upBlocks c g sub k n d l) := by
  induction n generalizing d l with
  | zero => rw [Dev.upBlocks]; exact h
  | succ n ih =>
    cases l with
    | nil => exact h
    | cons b r =>
      rw [Dev.upBlocks]
      refine .ite (ih (.segCount h)) (.ite (ih h) (.ite (ih ?_) (ih (.upSegment h))))
      split
      · exact .dropReasm (.segCount h)
      · exact .segCount h

theorem Canon.upRegions {i sub n f l} (h : Canon d) : Canon (Dev.upRegions i sub n f d l) := by
  induction f generalizing d l with
  | zero => rw [Dev.upRegions]; exact h
  | succ f ih =>
    cases l with
    | nil => exact h
    | cons b r => rw [Dev.upRegions]; exact .ite h (ih (.fileRegion h))

theorem Canon.upShares {c g sub owed l l1} (h : Canon d) : Canon (Dev.upShares c g sub owed d l l1) := by
  induction l generalizing d l1 with
  | nil =>
    rw [Dev.upShares]
    exact h
  | cons s r ih =>
    rw [Dev.upShares]
    refine ih ?_
    split
    · exact .upRegions h
    · exact .upBlocks h

theorem Canon.recordBurst {c b o} (h : Canon d) : Canon (d.recordBurst c b o) := by
  unfold Dev.recordBurst; exact .upd h

theorem Canon.recordRei {g rei} (h : Canon d) : Canon (d.recordRei g rei) := by unfold Dev.recordRei; exact .upd h

theorem Canon.notFound {c b} (h : Canon d) : Canon (d.notFound c b) := by
  unfold Dev.notFound
  extract_lets _ _ _ d1
  have hd1 : Canon d1 := .dropReasmOf (.ite (.staleIfValid h) h)
  exact .shadowMissed (.ite hd1 (.judge (.txnsDue (.landGrants hd1))))

theorem Canon.passBurst {c last} (h : Canon d) : Canon (d.passBurst c last) := by
  unfold Dev.passBurst
  extract_lets d
  have hd : Canon d := by
    unfold d
    split
    · exact .trigBurst h
    · exact h
  exact .upd (.setBrx hd)

theorem Canon.burstMissing {c} (h : Canon d) : Canon (d.burstMissing c) := by
  unfold Dev.burstMissing
  split
  · exact h
  · extract_lets _ _ _ d1
    have hd1 : Canon d1 := .runTo (.loadFirst h)
    exact .passBurst (.recordBurst (.notFound (.flag (.ite (.brxCount hd1) hd1))))

theorem execBurstMissing_keepsForm {c} : KeepsForm (Machine.execBurstMissing c) := by
  unfold Machine.execBurstMissing; exact .run (fun he => .ite (.burstMissing (.toBurst he)) he)

theorem Canon.guardIntrusion {c} (h : Canon d) : Canon (d.guardIntrusion c) := by
  unfold Dev.guardIntrusion
  split
  · exact h
  · extract_lets _ _ _ _ d2
    have hd2 : Canon d2 := .flag (.setBrx (.runTo (.loadFirst h)))
    split
    · exact .ite (.addTodo hd2) hd2
    · exact hd2

theorem execGuardIntrusion_keepsForm {c} : KeepsForm (Machine.execGuardIntrusion c) := by
  unfold Machine.execGuardIntrusion; exact .run (fun he => .ite (.guardIntrusion (.toBurst he)) he)

theorem Canon.Fst.writeBack {c g fom eq ok} (h : Canon d) : Canon.Fst (d.writeBack c g fom eq ok) := by
  unfold Dev.writeBack
  exact .ite (.mk (.staleIfValid h)) (.ite (.ite (.mk h) (.mk (.brxCount (.setPreset h)))) (.mk h))

theorem Canon.powerCheck {c loc fom} (h : Canon d) : Canon (d.powerCheck c loc fom) := by
  unfold Dev.powerCheck
  extract_lets _ _ _ _ d
  have hd : Canon d := .setTerm h
  exact .ite (.ite h (.setTerm h)) (.ite (.ask hd) hd)

theorem Canon.headerFlags {c loc h1} (h : Canon d) : Canon (d.headerFlags c loc h1) := by
  unfold Dev.headerFlags
  extract_lets _ _ d
  have hd : Canon d := .ite h (.setTerm h)
  exact .ite (.ite (.msgDiscard hd) (.addTodo hd)) (.ite (.setTerm hd) hd)

theorem Canon.foundInHold {c loc f o} (h : Canon d) : Canon (d.foundInHold c loc f o) := by
  unfold Dev.foundInHold
  extract_lets _ _ d
  have hd : Canon d := .setTerm h
  exact .ite (.flagRecall (.toState hd)) (.ite (.rerangeBy hd) (.addTodo (.flagRecall (.toState hd))))

theorem Canon.tellScribe {c b fom o h1 hdrOk report} (h : Canon d) :
    Canon (d.tellScribe c b fom o h1 hdrOk report) := by
  unfold Dev.tellScribe
  extract_lets _ _ _ _ d d1 _ _ d2 d3
  have hd : Canon d := by
    unfold d
    split
    · exact .upd h
    · exact .landGrants h
  have hd1 : Canon d1 := .txnsDue (.judge hd)
  have hd2 : Canon d2 := .ite (.headerFlags hd1) hd1
  have hd3 : Canon d3 := .ite (.foundInHold hd2) (.ite (.addTodo hd2) (.ite (.addTodo hd2) hd2))
  exact .powerCheck (.ite (.headerFlags hd3) hd3)

theorem Canon.countBurst {c x hdrBad repBad} (h : Canon d) : Canon (d.countBurst c x hdrBad repBad) := by
  unfold Dev.countBurst
  extract_lets d d1 _ d3 d4
  have hd : Canon d := .ite (.flag h) h
  have hd1 : Canon d1 := .ite (.flag hd) hd
  have hd3 : Canon d3 := .brxCount (.ite (.flag hd1) hd1)
  have hd4 : Canon d4 := .ite hd3 (.brxCount (.flag hd3))
  exact .ite (.flag hd4) hd4

theorem Canon.addErrs {g n} (h : Canon d) : Canon (d.addErrs g n) := by unfold Dev.addErrs; exact .ite h (.upd h)

theorem Canon.mismatched {c b x fom h1 at_ repBad} (h : Canon d) : Canon (d.mismatched c b x fom h1 at_ repBad) := by
  unfold Dev.mismatched
  extract_lets _ d
  have hd : Canon d := .flag (.countBurst h)
  exact .passBurst (.recordBurst (.notFound (.ite hd (.strayBurst hd))))

theorem Canon.noteFound {c} (h : Canon d) : Canon (d.noteFound c) := by unfold Dev.noteFound; exact .ite (.upd h) h

theorem Canon.burstPayload {c b l} (h : Canon d) : Canon (d.burstPayload c b l) := by
  unfold Dev.burstPayload; exact .upShares (.upBlocks h)

theorem Canon.matched {c b x fom eq h1 at_ l} (h : Canon d) : Canon (d.matched c b x fom eq h1 at_ l) := by
  unfold Dev.matched
  extract_lets _ _ _ _ _ d d1 d2 _ d3 d4 d5
  have hd : Canon d := .countBurst h
  have hd1 : Canon d1 := .ite (.brxCount hd) hd
  have hd2 : Canon d2 := .ite hd1 (.addErrs hd1)
  have hd3 : Canon d3 := .fst (.ite (.mk hd2) (.writeBack hd2))
  have hd4 : Canon d4 := .ite (.shadowFound hd3) (.tellScribe (.noteFound hd3))
  have hd5 : Canon d5 := .ite (.dropReasmOf hd4) (.burstPayload hd4)
  exact .passBurst (.recordBurst (.ite (.evidenceAll hd5) hd5))

theorem Canon.Fst.preambleTo {c value cold l} (h : Canon d) : Canon.Fst (d.preambleTo c value cold l) := by
  unfold Dev.preambleTo
  extract_lets _ a
  have ha : Canon.Fst a := .adaptBurst (.mk h)
  exact .ite ha (.mk (.fst ha))

theorem Canon.takeBurst {c b i eq o delim} (h : Canon d) : Canon (d.takeBurst c b i eq o delim) := by
  unfold Dev.takeBurst
  extract_lets _ d _ _ _ _ _ d2
  have hd : Canon d := .runTo h
  have hd2 : Canon d2 := .showEq (.showFom (.ite (.brxCount hd) hd))
  exact .ite (.mismatched hd2) (.matched hd2)

theorem Canon.burstReceived {c i} (h : Canon d) : Canon (d.burstReceived c i) := by
  unfold Dev.burstReceived
  split
  · exact h
  · extract_lets d
    have hd : Canon d := .loadFirst h
    split
    · exact .takeBurst (.fst (.adaptBurst (.mk (.fst (.preambleTo hd)))))
    · exact .burstMissing hd

theorem execBurstReceived_keepsForm {c b} : KeepsForm (Machine.execBurstReceived c b) := by
  unfold Machine.execBurstReceived; exact .run (fun he => .ite (.burstReceived (.toBurst he)) he)

/-! ### Operations of Machine/Scribe -/

theorem Canon.tchEvent {c code data} (h : Canon d) : Canon (d.tchEvent c code data) := by
  unfold Dev.tchEvent; exact .event h

theorem Canon.adjust {c loc delta} (h : Canon d) : Canon (d.adjust c loc delta) := by
  unfold Dev.adjust; exact .lcCount (.ask (.setTerm h))

theorem Canon.countSegs {c label n l} (h : Canon d) : Canon (Dev.countSegs c label n d l) := by
  induction n generalizing d l with
  | zero => rw [Dev.countSegs]; exact h
  | succ n ih =>
    cases l with
    | nil => exact h
    | cons b r =>
      rw [Dev.countSegs]
      exact .ite (ih (.segCount h)) (.ite (ih h) (.ite (ih (.segCount h)) (ih (.ite (.segCount h) (.octets
          (.segCount h))))))

theorem Canon.Fst.hear {c r} (h : Canon d) : Canon.Fst (d.hear c r) := by
  unfold Dev.hear; exact .mk (.fst (.adaptBurst (.mk (.fst (.preambleTo h)))))

theorem Canon.showHeard {c r} (h : Canon d) : Canon (d.showHeard c r) := by
  unfold Dev.showHeard; exact .showEq (.showFom h)

theorem Canon.Fst.checkMsg {c slot seq l} (h : Canon d) : Canon.Fst (d.checkMsg c slot seq l) := by
  unfold Dev.checkMsg
  extract_lets _ _ r
  have hr : Canon.Fst r := .authenticate h
  refine .ite (.mk (.lcFlag h)) ?_
  split
  · exact .mk (.fst hr)
  · exact .mk (.noKey (.fst hr))
  · exact .mk (.bump (.fst hr))
  · exact .mk (.ite (.lcCount (.fst hr)) (.lcFlag (.fst hr)))

theorem Canon.block {g cause reason more} (h : Canon d) : Canon (d.block g cause reason more) := by
  unfold Dev.block; exact .lcCount (.broadcast (.setTerm (.freeSlotOf h)))

theorem Canon.grantSlot {c loc} (h : Canon d) : Canon (Dev.grantSlot c d loc) := by
  unfold Dev.grantSlot
  split
  · exact .tryRange h
  · exact h

theorem Canon.openDisc {c f} (h : Canon d) : Canon (Dev.openDisc c d f) := by
  unfold Dev.openDisc; exact .ite h (.ite (.ite (.tchEvent h) h) (.broadcast (.lcCount (.setScribe h))))

theorem Canon.resendDisable {c e} (h : Canon d) : Canon (Dev.resendDisable c d e) := by
  unfold Dev.resendDisable; exact .ite h (.broadcast (.setTerm h))

theorem Canon.dozeLimit {c e} (h : Canon d) : Canon (Dev.dozeLimit c d e) := by
  unfold Dev.dozeLimit; exact .ite (.addTodo h) h

theorem Canon.sendHeld {c} (h : Canon d) : Canon (d.sendHeld c) := by
  unfold Dev.sendHeld; exact .foldl (.setScribe h) .pushMgmt

theorem Canon.subframeTick {c} (h : Canon d) : Canon (d.subframeTick c) := by
  unfold Dev.subframeTick
  extract_lets _ _ _ _ _ d4
  have hd4 : Canon d4 := .foldl (.foldl (.foldl (.foldl (.sendHeld h) .resendDisable) .dozeLimit) .grantSlot) .openDisc
  exact .ite (.setScribe hd4) hd4

theorem execSubframeTick_keepsForm {c} : KeepsForm (Machine.execSubframeTick c) := by
  unfold Machine.execSubframeTick; exact .run (fun he => .ite (.routine he .subframeTick) he)

theorem Canon.countDisc {c w r} (h : Canon d) : Canon (d.countDisc c w r) := by
  unfold Dev.countDisc
  split
  · exact .countSegs h
  · exact h

theorem Canon.assign {c loc w r attempts old} (h : Canon d) : Canon (d.assign c loc w r attempts old) := by
  unfold Dev.assign; exact .askRange (.setTerm (.register (.whiteKeys h)))

theorem Canon.rediscovered {c g w r} (h : Canon d) : Canon (d.rediscovered c g w r) := by
  unfold Dev.rediscovered; exact .ite (.msgDiscard h) (.ite (.ite (.assign h) h) (.ite (.assign h) h))

theorem Canon.discovered {c all r} (h : Canon d) : Canon (d.discovered c all r) := by
  unfold Dev.discovered
  extract_lets held
  refine .ite (.msgDiscard h) ?_
  refine .ite (.lcFlag h) ?_
  refine .ite (.lcFlag h) ?_
  split
  · exact .lcFlag (.ite (.tchEvent h) h)
  · refine .ite (.lcFlag h) ?_
    refine .ite (.lcFlag h) ?_
    clear_value held
    split
    · exact .rediscovered h
    · split
      · exact .lcFlag h
      · exact .ite (.assign h) h

theorem Canon.Fst.hearAll {c w l} (h : Canon d) : Canon.Fst (Dev.hearAll c w d l) := by
  induction l generalizing d with
  | nil =>
    rw [Dev.hearAll]
    exact .mk h
  | cons r l ih =>
    rw [Dev.hearAll]
    exact .ite (.mk (.fst (ih (.fst (.hear h))))) (ih h)

theorem Canon.discRx {c rs} (h : Canon d) : Canon (d.discRx c rs) := by
  unfold Dev.discRx
  extract_lets
  split
  · exact h
  · extract_lets
    refine .foldl (.setBrx (.foldl (.setScribe (.settleBrx (.runTo (.fst (.hearAll h))))) (fun he3 => .countDisc
        (.showHeard he3)))) (fun he6 => ?_)
    split
    · exact .discovered (.lcCount he6)
    · extract_lets _ d4
      have hd4 : Canon d4 := by
        unfold d4
        split
        · exact .ite (.addTodo he6) he6
        · exact he6
      exact .lcFlag hd4

theorem execDiscRx_keepsForm {c rs} : KeepsForm (Machine.execDiscRx c rs) := by
  unfold Machine.execDiscRx; exact .run (fun he => .ite (.routine he .discRx) he)

theorem Canon.Fst.readRange {c loc w eqd r} (h : Canon d) : Canon.Fst (d.readRange c loc w eqd r) := by
  unfold Dev.readRange
  extract_lets _ _ _ d
  have hd : Canon d := .countSegs (.recordRei (.addErrs h))
  refine .ite ?_ ?_
  · split
    · exact .mk (.strayBurst h)
    · exact .mk (.addErrs h)
  · split
    · exact .mk hd
    · extract_lets k
      have hk : Canon.Fst k := .checkMsg hd
      exact .ite (.mk (.fst hk)) (.ite (.mk (.fst hk)) (.ite (.mk (.fst hk)) (.mk (.fst hk))))

theorem Canon.rangeGivenUp {c loc} (h : Canon d) : Canon (d.rangeGivenUp c loc) := by
  unfold Dev.rangeGivenUp
  extract_lets _ d
  have hd : Canon d := .freeSlotOf h
  split
  · exact .toState (.setTerm hd)
  · exact .enterHold hd
  · exact .enterHold hd
  · exact .endTerm hd

theorem Canon.failMove {g} (h : Canon d) : Canon (d.failMove g) := by
  unfold Dev.failMove; exact .ite (.enterHold h) (.setTerm h)

theorem Canon.beyond {c loc} (h : Canon d) : Canon (d.beyond c loc) := by
  unfold Dev.beyond
  split
  · exact .failMove (.tooFar h)
  · exact .tooFar h

theorem Canon.rangeFailed {c loc} (h : Canon d) : Canon (d.rangeFailed c loc) := by
  unfold Dev.rangeFailed
  extract_lets _ d
  have hd : Canon d := .lcCount (.freeSlotOf h)
  split
  · exact hd
  · refine .ite (.addTodo hd) ?_
    refine .ite (.setTerm hd) ?_
    refine .ite (.rangeGivenUp hd) ?_
    extract_lets d1
    have hd1 : Canon d1 := .setTerm hd
    exact .ite (.sendRange hd1) hd1

theorem Canon.rangeDisplaced {c loc eqd} (h : Canon d) : Canon (d.rangeDisplaced c loc eqd) := by
  unfold Dev.rangeDisplaced
  extract_lets
  split
  · exact h
  · exact .ite (.beyond h) (.ite (.addTodo (.setTerm (.freeSlotOf h))) (.ite (.rangeGivenUp (.lcCount h))
        (.sendRange (.setTerm h))))

theorem Canon.rangeBack {c g r loadAt} (h : Canon d) : Canon (d.rangeBack c g r loadAt) := by
  unfold Dev.rangeBack; exact .ite (.staleIfValid h) (.ite h (.brxCount (.setPreset h)))

theorem Canon.rangeAccepted {c loc eqd o r loadAt} (h : Canon d) : Canon (d.rangeAccepted c loc eqd o r loadAt) := by
  unfold Dev.rangeAccepted
  extract_lets _ _ _ _ _ d2 d3 _ _ d5
  have hd2 : Canon d2 := .setTerm (.rangeBack (.lcCount (.freeSlotOf h)))
  have hd3 : Canon d3 := by
    unfold d3
    split
    · exact .setWhite hd2
    · exact hd2
  have hd5 : Canon d5 := .ite hd3 (.adjust (.setTerm hd3))
  refine .ite (.beyond h) ?_
  refine .ite (.addTodo hd5) ?_
  split
  · exact .toState hd5
  · exact .toState hd5
  · exact .addTodo (.toState hd5)

theorem Canon.rangeRx {c loc r} (h : Canon d) : Canon (d.rangeRx c loc r) := by
  unfold Dev.rangeRx
  extract_lets
  split
  · exact h
  · split
    · exact h
    · extract_lets
      split
      · exact h
      · extract_lets d1 _ _ o _ d2 r _ _ d3
        have hd1 : Canon d1 := .settleBrx (.runTo h)
        have ho : Canon.OptFst o := .ite (.map (.hear hd1)) .none
        have hd2 : Canon d2 := by
          unfold d2
          clear_value o
          split
          · exact .ite (.showHeard (.fst (ho _ rfl))) hd1
          · exact hd1
        have hd3 : Canon d3 := .setBrx (.runTo hd2)
        clear_value r
        split
        · exact .rangeFailed hd3
        · extract_lets k
          have hk : Canon.Fst k := .readRange hd3
          split
          · exact .rangeAccepted (.fst hk)
          · exact .rangeDisplaced (.fst hk)
          · exact .rangeFailed (.fst hk)

theorem execRangeRx_keepsForm {c loc r} : KeepsForm (Machine.execRangeRx c loc r) := by
  unfold Machine.execRangeRx; exact .run (fun he => .ite (.routine he .rangeRx) he)

theorem Canon.activateStep {c loc} (h : Canon d) : Canon (d.activateStep c loc) := by
  unfold Dev.activateStep
  extract_lets _ _ d
  have hd : Canon d := .fst (.takeTodo h)
  refine .ite (.msgDiscard hd) ?_
  split
  · exact .ask (.setTerm (.fst (.draw hd)))
  · exact .lcCount (.flagRecall (.toState (.setTerm hd)))

theorem execActivate_keepsForm {c loc} : KeepsForm (Machine.execActivate c loc) := by
  unfold Machine.execActivate; exact .run (fun he => .ite (.routine he .activateStep) he)

theorem Canon.cancelMove {g} (h : Canon d) : Canon (d.cancelMove g) := by
  unfold Dev.cancelMove
  split
  · extract_lets _ d
    have hd : Canon d := .setTerm h
    exact .ite (.endTerm hd) hd
  · exact h

theorem Canon.acked {c loc type} (h : Canon d) : Canon (d.acked c loc type) := by
  unfold Dev.acked
  extract_lets _ _ d
  have hd : Canon d := .setTerm h
  split
  · exact .ite (.endTerm h) (.msgDiscard h)
  · exact .addTodo h
  · exact .setTerm h
  · exact .ite (.toState h) (.msgDiscard h)
  · exact .ite (.lcCount (.toState (.setTerm h))) (.msgDiscard h)
  · exact .ite (.toState (.setTerm hd)) hd
  · exact h

theorem Canon.stateRefused {c loc type xid} (h : Canon d) : Canon (d.stateRefused c loc type xid) := by
  unfold Dev.stateRefused
  extract_lets _ _ d
  have hd : Canon d := .lcFlag (.setTerm h)
  refine .ite (.lcFlag (.setTerm h)) ?_
  refine .ite ?_ (.msgDiscard h)
  split
  · exact .setTerm hd
  · exact .setTerm hd
  · exact hd

theorem Canon.dispatchMsg {c loc l} (h : Canon d) : Canon (d.dispatchMsg c loc l) := by
  unfold Dev.dispatchMsg
  extract_lets
  split
  · exact .ite (.addTodo (.setTerm h)) (.msgDiscard h)
  · exact .ite (.acked (.setTerm h)) (.msgDiscard h)
  · exact .ite (.addTodo h) (.msgDiscard h)
  · exact .ite (.addTodo h) (.msgDiscard h)
  · exact .stateRefused h
  · exact .msgDiscard h

theorem Canon.msgRx {c} (h : Canon d) : Canon (d.msgRx c) := by
  unfold Dev.msgRx
  extract_lets _ d
  have hd : Canon d := .inboxPop h
  split
  · exact h
  · extract_lets _ k
    have hk : Canon.Fst k := .checkMsg hd
    exact .ite (.msgDiscard hd) (.ite (.dispatchMsg (.fst hk)) (.fst hk))

theorem execMsgRx_keepsForm {c} : KeepsForm (Machine.execMsgRx c) := by
  unfold Machine.execMsgRx; exact .run (fun he => .ite (.routine he .msgRx) he)

theorem Canon.exhausted {c loc type} (h : Canon d) : Canon (d.exhausted c loc type) := by
  unfold Dev.exhausted
  extract_lets _ _ d ev _ d1 d2
  have hd : Canon d := .setTerm h
  have hev : ∀ {x0}, Canon x0 → Canon (ev x0) := fun he1 => .tchEvent he1
  have hd1 : Canon d1 := .setTerm hd
  have hd2 : Canon d2 := .setTerm hd
  split
  · exact .ite (.rerange hd1) hd1
  · exact .ite (hev (.endTerm hd)) hd
  · exact .ite (.endTerm hd) hd
  · exact hev (.ite (.enterHold hd2) hd2)
  · exact hev (.ite (.enterHold hd2) hd2)
  · exact hev (.cancelMove hd)
  · exact hev (.setTerm hd)
  · exact hev hd

theorem Canon.msgRetry {c loc type} (h : Canon d) : Canon (d.msgRetry c loc type) := by
  unfold Dev.msgRetry
  extract_lets
  split
  · exact h
  · exact .ite (.exhausted h) (.unicast (.setTerm h))

theorem execMsgRetry_keepsForm {c loc type} : KeepsForm (Machine.execMsgRetry c loc type) := by
  unfold Machine.execMsgRetry; exact .run (fun he => .ite (.routine he .msgRetry) he)

theorem Canon.trackOffset {c loc o} (h : Canon d) : Canon (d.trackOffset c loc o) := by
  unfold Dev.trackOffset
  exact .ite (.ite h (.setTerm h)) (.ite (.ite (.adjust h) (.setTerm h)) (.ite (.adjust h) (.rerangeBy h)))

theorem Canon.track {c loc} (h : Canon d) : Canon (d.track c loc) := by
  unfold Dev.track
  extract_lets _ k d
  have hk : Canon.Fst k := .takeTodo h
  have hd : Canon d := .fst hk
  split
  · refine .ite (.msgDiscard hd) ?_
    split
    · exact .trackOffset hd
    · exact .ite hd (.ite (.trackOffset (.setTerm hd)) (.ite (.rerange (.setTerm hd)) (.ite (.setTerm hd) (.ask
          (.setTerm hd)))))
  · exact .fst hk

theorem execTrack_keepsForm {c loc} : KeepsForm (Machine.execTrack c loc) := by
  unfold Machine.execTrack; exact .run (fun he => .ite (.routine he .track) he)

theorem Canon.lossOf {c loc} (h : Canon d) : Canon (d.lossOf c loc) := by
  unfold Dev.lossOf
  extract_lets _ d
  have hd : Canon d := .fst (.takeTodo h)
  exact .ite (.msgDiscard hd) (.ite (.enterHold hd) hd)

theorem execLoss_keepsForm {c loc} : KeepsForm (Machine.execLoss c loc) := by
  unfold Machine.execLoss; exact .run (fun he => .ite (.routine he .lossOf) he)

theorem Canon.gaspOf {c loc} (h : Canon d) : Canon (d.gaspOf c loc) := by
  unfold Dev.gaspOf
  extract_lets _ d
  have hd : Canon d := .fst (.takeTodo h)
  exact .ite (.msgDiscard hd) (.lcCount (.enterHold (.setTerm hd)))

theorem execGasp_keepsForm {c loc} : KeepsForm (Machine.execGasp c loc) := by
  unfold Machine.execGasp; exact .run (fun he => .ite (.routine he .gaspOf) he)

theorem execRecoveryEnd_keepsForm {c} : KeepsForm (Machine.execRecoveryEnd c) := by
  unfold Machine.execRecoveryEnd
  refine .run (fun he => ?_)
  split
  · exact .ite (.set (.setScribe (.runTo he))) he
  · exact he

theorem execHoldExpired_keepsForm {c loc} : KeepsForm (Machine.execHoldExpired c loc) := by
  unfold Machine.execHoldExpired; exact .run (fun he => .ite (.endTerm (.lcCount (.runTo he))) he)

theorem Canon.rogueStep {c loc} (h : Canon d) : Canon (d.rogueStep c loc) := by
  unfold Dev.rogueStep
  extract_lets _ _ d _ _ d1
  have hd : Canon d := .fst (.takeTodo h)
  have hd1 : Canon d1 := .lcFlag (.setTerm hd)
  split
  · exact .ite (.block hd1) hd1
  · exact .ite (.msgDiscard hd) (.ite (.tchEvent (.setTerm hd)) hd)

theorem execRogue_keepsForm {c loc} : KeepsForm (Machine.execRogue c loc) := by
  unfold Machine.execRogue; exact .run (fun he => .ite (.routine he .rogueStep) he)

theorem Canon.recallStep {c} (h : Canon d) : Canon (d.recallStep c) := by
  unfold Dev.recallStep
  split
  · exact h
  · extract_lets _ d
    have hd : Canon d := .setScribe h
    split
    · exact .askRange (.toState (.setTerm hd))
    · split
      · exact hd
      · exact .askRange (.register (.whiteKeys hd))

theorem execRecallStep_keepsForm {c} : KeepsForm (Machine.execRecallStep c) := by
  unfold Machine.execRecallStep; exact .run (fun he => .ite (.routine he .recallStep) he)

theorem Canon.moveSource {c loc ring tag} (h : Canon d) : Canon (d.moveSource c loc ring tag) := by
  unfold Dev.moveSource
  extract_lets
  split
  · exact .endCmd h
  · extract_lets _ d
    have hd : Canon d := .register h
    exact .ite (.endCmd (.tooFar hd)) (.endCmd (.ask (.setTerm (.setScribe (.setTerm hd)))))

theorem execMoveSource_keepsForm {c loc} : KeepsForm (Machine.execMoveSource c loc) := by
  unfold Machine.execMoveSource
  refine .run (fun he => ?_)
  extract_lets
  refine .ite ?_ he
  refine .routine he (fun he1 => ?_)
  extract_lets k
  have hk : Canon.Fst k := .takeTodo he1
  split
  · exact .moveSource (.fst hk)
  · exact .fst hk

theorem Canon.moveEffective {c loc} (h : Canon d) : Canon (d.moveEffective c loc) := by
  unfold Dev.moveEffective
  extract_lets
  split
  · exact h
  · exact .foldl (.moveSlots (.setTerm (.runTo h))) (fun he3 => .setQ (.mirror (.upd he3)))

theorem execSideMoveEffective_keepsForm {c loc} : KeepsForm (Machine.execSideMoveEffective c loc) := by
  unfold Machine.execSideMoveEffective; exact .run (fun he => .ite (.moveEffective he) he)

theorem Canon.moveTarget {c loc ok} (h : Canon d) : Canon (d.moveTarget c loc ok) := by
  unfold Dev.moveTarget
  extract_lets _ _ _ d1 d2
  have hd1 : Canon d1 := .flagRecall (.toState (.setTerm h))
  have hd2 : Canon d2 := by
    unfold d2
    split
    · exact .setWhite hd1
    · exact hd1
  split
  · exact h
  · extract_lets
    refine .ite (.lcCount (.ite (.eraseTerm (.endTerm hd2)) hd2)) ?_
    split
    · refine .ite ?_ (.failMove (.endTerm h))
      extract_lets _ d4
      have hd4 : Canon d4 := .setTerm h
      exact .ite (.sendRange hd4) hd4
    · exact h

theorem execMoveTarget_keepsForm {c loc} : KeepsForm (Machine.execMoveTarget c loc) := by
  unfold Machine.execMoveTarget
  refine .run (fun he => ?_)
  extract_lets
  refine .ite ?_ he
  refine .routine he (fun he1 => ?_)
  extract_lets k
  have hk : Canon.Fst k := .takeTodo he1
  split
  · exact .moveTarget (.fst hk)
  · exact .fst hk

theorem Canon.sendDozeEnd {c loc xid} (h : Canon d) : Canon (d.sendDozeEnd c loc xid) := by
  unfold Dev.sendDozeEnd
  extract_lets _ _ _ d
  have hd : Canon d := .setTerm h
  split
  · exact .askX hd
  · exact .ask hd

theorem Canon.dozeStep {c loc} (h : Canon d) : Canon (d.dozeStep c loc) := by
  unfold Dev.dozeStep
  extract_lets _ _ d
  have hd : Canon d := .fst (.takeTodo h)
  split
  · exact .ite (.ite (.sendDozeEnd hd) (.msgDiscard hd)) (.ite (.msgDiscard hd) (.ite (.sendDozeEnd hd) (.askX
        (.setTerm (.fst (.draw hd))))))
  · exact .ite (.sendDozeEnd hd) (.msgDiscard hd)
  · exact hd

theorem execDoze_keepsForm {c loc} : KeepsForm (Machine.execDoze c loc) := by
  unfold Machine.execDoze; exact .run (fun he => .ite (.routine he .dozeStep) he)

theorem Canon.keyDeliver {c loc r} (h : Canon d) : Canon (d.keyDeliver c loc r) := by
  unfold Dev.keyDeliver; exact .ite (.ask (.setTerm h)) (.msgDiscard h)

theorem Canon.keySwitch {c loc} (h : Canon d) : Canon (d.keySwitch c loc) := by
  unfold Dev.keySwitch
  extract_lets _ d
  have hd : Canon d := .fst (.takeTodo h)
  split
  · exact hd
  · exact .ask (.setTerm hd)

theorem execKeys_keepsForm {c loc req} : KeepsForm (Machine.execKeys c loc req) := by
  unfold Machine.execKeys
  refine .run (fun he => ?_)
  refine .ite ?_ he
  split
  · exact .routine he .keyDeliver
  · exact .ite (.routine he .keySwitch) he

theorem execAlarm_keepsForm {c loc} : KeepsForm (Machine.execAlarm c loc) := by
  unfold Machine.execAlarm
  refine .run (fun he => ?_)
  extract_lets
  refine .ite ?_ he
  refine .routine he (fun he1 => ?_)
  extract_lets k
  have hk : Canon.Fst k := .takeTodo he1
  split
  · exact .ite (.msgDiscard (.fst hk)) (.tchEvent (.unicast (.fst hk)))
  · exact .fst hk

theorem Canon.hostAct {c loc op args} (h : Canon d) : Canon (d.hostAct c loc op args) := by
  unfold Dev.hostAct
  extract_lets _ _ _ d
  have hd : Canon d := .setTerm h
  split
  · exact .block (.cancelMove h)
  · exact .endTerm (.broadcast h)
  · exact .ask h
  · exact .rerange h
  · exact .ite (.addTodo hd) hd
  · exact h

theorem execHostCmd_keepsForm {c loc} : KeepsForm (Machine.execHostCmd c loc) := by
  unfold Machine.execHostCmd
  refine .run (fun he => ?_)
  extract_lets
  refine .ite ?_ he
  refine .routine he (fun he1 => ?_)
  extract_lets k
  have hk : Canon.Fst k := .takeTodo he1
  split
  · exact .ite (.endCmd (.hostAct (.fst hk))) (.endCmd (.fst hk))
  · exact .fst hk

theorem Canon.resumeTerm {c inRange e} (h : Canon d) : Canon (Dev.resumeTerm c inRange d e) := by
  unfold Dev.resumeTerm
  extract_lets _ _ _ d
  have hd : Canon d := .setTerm h
  refine .ite (.enterHold h) ?_
  split
  · exact .tryRange hd
  · exact hd

theorem execTakeover_keepsForm {c} : KeepsForm (Machine.execTakeover c) := by
  unfold Machine.execTakeover
  exact .run (fun he => .ite (.routine he (fun he1 => .foldl (.fst (.takeTodo he1)) .resumeTerm)) he)

/-! ### Operations of Machine/Emu -/

theorem Canon.Fst.emuDraw {g n} (h : Canon d) : Canon.Fst (d.emuDraw g n) := by
  unfold Dev.emuDraw; exact .mk (.setEmu h)

theorem Canon.startBinds {c t which} (h : Canon d) : Canon (d.startBinds c t which) := by
  unfold Dev.startBinds; exact .foldUpTo h (fun he => .ite (.setBind he) he)

theorem Canon.trmRefuse {c} (h : Canon d) : Canon (d.trmRefuse c) := by unfold Dev.trmRefuse; exact .flag h

theorem Canon.emuOff {c t} (h : Canon d) : Canon (d.emuOff c t) := by
  unfold Dev.emuOff; exact .emuTo (.setEmu (.set (.set (.set (.set h)))))

theorem Canon.emuSend {c t type body} (h : Canon d) : Canon (d.emuSend c t type body) := by
  unfold Dev.emuSend; exact .setEmu h

theorem Canon.emuActions {c t gasp alarm doze} (h : Canon d) : Canon (d.emuActions c t gasp alarm doze) := by
  unfold Dev.emuActions
  extract_lets _ _ _ d _ _ d2
  have hd : Canon d := .ite (.setEmu (.set h)) h
  have hd2 : Canon d2 := .ite (.emuSend (.setEmu (.set hd))) hd
  exact .ite h (.ite (.trmRefuse h) (.ite (.emuSend (.set hd2)) hd2))

theorem Canon.writeEmuCtl {c t v} (h : Canon d) : Canon (d.writeEmuCtl c t v) := by
  unfold Dev.writeEmuCtl
  extract_lets _ _ _ d1 _ _ d3
  have hd1 : Canon d1 := .set (.set (.set (.set h)))
  have hd3 : Canon d3 := .emuActions (.ite (.startBinds (.emuTo (.set hd1))) hd1)
  exact .ite (.trmRefuse h) (.ite (.emuOff hd3) hd3)

theorem Canon.writeEmuSer {c t v} (h : Canon d) : Canon (d.writeEmuSer c t v) := by
  unfold Dev.writeEmuSer; exact .ite (.trmRefuse h) (.set h)

theorem Canon.settleDly {c now t} (h : Canon d) : Canon (Dev.settleDly c now d t) := by
  unfold Dev.settleDly; exact .ite (.release (.setEmu h)) h

theorem Canon.writeEmuDly {c t v} (h : Canon d) : Canon (d.writeEmuDly c t v) := by
  unfold Dev.writeEmuDly
  refine .ite (.trmRefuse h) ?_
  extract_lets _ _ d
  have hd : Canon d := .storeHeld (.settleDly h)
  split
  · exact .ite (.release (.setEmu hd)) (.setEmu hd)
  · exact .release (.setEmu hd)

theorem Canon.writeEmuCont {c t v} (h : Canon d) : Canon (d.writeEmuCont c t v) := by
  unfold Dev.writeEmuCont; exact .ite (.trmRefuse h) (.startBinds (.store h))

theorem Canon.emuCtl {c t en action} (h : Canon d) : Canon (d.emuCtl c t en action) := by
  unfold Dev.emuCtl; exact .routine h .writeEmuCtl

theorem execEmuEnable_keepsForm {c t} : KeepsForm (Machine.execEmuEnable c t) := by
  unfold Machine.execEmuEnable; exact .run (fun he => .hostW he .emuCtl)

theorem execEmuDisable_keepsForm {c t} : KeepsForm (Machine.execEmuDisable c t) := by
  unfold Machine.execEmuDisable; exact .run (fun he => .hostW he .emuCtl)

theorem execEmuGasp_keepsForm {c t} : KeepsForm (Machine.execEmuGasp c t) := by
  unfold Machine.execEmuGasp; exact .run (fun he => .hostW he .emuCtl)

theorem execEmuAlarm_keepsForm {c t} : KeepsForm (Machine.execEmuAlarm c t) := by
  unfold Machine.execEmuAlarm; exact .run (fun he => .hostW he .emuCtl)

theorem execEmuDoze_keepsForm {c t} : KeepsForm (Machine.execEmuDoze c t) := by
  unfold Machine.execEmuDoze; exact .run (fun he => .hostW he .emuCtl)

theorem execEmuGaspTimeout_keepsForm {c t} : KeepsForm (Machine.execEmuGaspTimeout c t) := by
  unfold Machine.execEmuGaspTimeout
  refine .run (fun he => ?_)
  extract_lets
  split
  · exact .ite (.emuOff (.ite he (.runTo he))) he
  · exact he

theorem execEmuAlarmResend_keepsForm {c t} : KeepsForm (Machine.execEmuAlarmResend c t) := by
  unfold Machine.execEmuAlarmResend
  refine .run (fun he => ?_)
  extract_lets
  split
  · exact .ite (.emuSend (.setEmu (.runTo he))) he
  · exact he

theorem Canon.applyTrmCfg {c} (h : Canon d) : Canon (Dev.applyTrmCfg c d) := by
  unfold Dev.applyTrmCfg
  extract_lets
  refine .foldl (.release h) (fun he1 => ?_)
  extract_lets _ _ d1
  have hd1 : Canon d1 := .setEmu (.set he1)
  exact .flushBound (.ite hd1 (.emuTo hd1))

theorem execEmuCountApply_keepsForm {c} : KeepsForm (Machine.execEmuCountApply c) := by
  unfold Machine.execEmuCountApply; exact .run (fun he => .ite (.applyTrmCfg (.toFrame he)) he)

theorem Canon.writeCasBkt {b v} (h : Canon d) : Canon (d.writeCasBkt b v) := by
  unfold Dev.writeCasBkt
  extract_lets _ d
  have hd : Canon d := .set h
  exact .ite (.flag h) (.ite (.moveDue hd) hd)

theorem Canon.bucketMove {b} (h : Canon d) : Canon (d.bucketMove b) := by
  unfold Dev.bucketMove
  split
  · exact h
  · extract_lets _ d
    have hd : Canon d := .toFrame h
    exact .set (.set (.upd (.ite hd (.flushBound hd))))

theorem execBucketMove_keepsForm {b} : KeepsForm (Machine.execBucketMove b) := by
  unfold Machine.execBucketMove; exact .run (fun he => .ite (.bucketMove he) he)

theorem execBucketHoldEnd_keepsForm {b} : KeepsForm (Machine.execBucketHoldEnd b) := by
  unfold Machine.execBucketHoldEnd
  refine .run (fun he => ?_)
  split
  · exact he
  · exact .ite (.foldl (.bumpIn (.set (.upd he))) .pushTo) he

/-! ### Operations of Machine/Host -/

theorem Canon.ringRefuse {n} (h : Canon d) : Canon (d.ringRefuse n) := by unfold Dev.ringRefuse; exact .flag h

theorem Canon.writeSqTail {n tail} (h : Canon d) : Canon (d.writeSqTail n tail) := by
  unfold Dev.writeSqTail; exact .ite (.ringRefuse h) (.dropUnknown (.set h))

theorem Canon.writeCqHead {n head} (h : Canon d) : Canon (d.writeCqHead n head) := by
  unfold Dev.writeCqHead; exact .ite (.ringRefuse h) (.dropUnknown (.set h))

theorem Canon.writeRingCfg {n v} (h : Canon d) : Canon (d.writeRingCfg n v) := by
  unfold Dev.writeRingCfg; exact .ite (.ringRefuse h) (.dropUnknown (.store h))

theorem execSqDoorbell_keepsForm {n tail} : KeepsForm (Machine.execSqDoorbell n tail) := by
  unfold Machine.execSqDoorbell; exact .run (fun he => .hostW he .writeSqTail)

theorem execCqHeadWrite_keepsForm {n head} : KeepsForm (Machine.execCqHeadWrite n head) := by
  unfold Machine.execCqHeadWrite; exact .run (fun he => .hostW he .writeCqHead)

theorem execRingStop_keepsForm {n} : KeepsForm (Machine.execRingStop n) := by
  unfold Machine.execRingStop; exact .run (fun he => .hostW he .writeRingCfg)

theorem execNop_keepsForm {ring} : KeepsForm (Machine.execNop ring) := by
  unfold Machine.execNop; exact .run (fun he => .command he .endCmd)

theorem Canon.pinnedKeys {w} (h : Canon d) : Canon (d.pinnedKeys w) := by
  unfold Dev.pinnedKeys
  split
  · exact .whiteKeys (.whiteKeys h)
  · exact h

theorem Canon.admitEntry {ring tag src} (h : Canon d) : Canon (d.admitEntry ring tag src) := by
  unfold Dev.admitEntry
  extract_lets fin
  have hfin : ∀ {x0 x1 x2}, Canon x0 → Canon (fin x0 x1 x2) := fun he => .endCmd he
  refine .ite (hfin h) ?_
  split
  · exact hfin h
  · extract_lets
    refine .ite (hfin h) ?_
    refine .ite (hfin h) ?_
    split
    · exact hfin h
    · exact .ite (hfin h) (.ite (hfin (.flag h)) (hfin (.pinnedKeys (.setWhite h))))

theorem execAdmitEntry_keepsForm {ring} : KeepsForm (Machine.execAdmitEntry ring) := by
  unfold Machine.execAdmitEntry; exact .run (fun he => .command he .admitEntry)

theorem Canon.termCmd {ring opcode} (h : Canon d) : Canon (d.termCmd ring opcode) := by
  unfold Dev.termCmd; exact .command h (fun he => .ite (.endCmd he) (.ite (.endCmd he) (.addTodo (.keepRunning he))))

theorem execDisable_keepsForm {ring} : KeepsForm (Machine.execDisable ring) := by
  unfold Machine.execDisable; exact .run .termCmd

theorem execEnable_keepsForm {ring} : KeepsForm (Machine.execEnable ring) := by
  unfold Machine.execEnable; exact .run .termCmd

theorem execDeactivate_keepsForm {ring} : KeepsForm (Machine.execDeactivate ring) := by
  unfold Machine.execDeactivate; exact .run .termCmd

theorem execMoveSide_keepsForm {ring} : KeepsForm (Machine.execMoveSide ring) := by
  unfold Machine.execMoveSide; exact .run .termCmd

theorem execRerange_keepsForm {ring} : KeepsForm (Machine.execRerange ring) := by
  unfold Machine.execRerange; exact .run .termCmd

theorem execDozeAllow_keepsForm {ring} : KeepsForm (Machine.execDozeAllow ring) := by
  unfold Machine.execDozeAllow; exact .run .termCmd

theorem execRecallClear_keepsForm {ring} : KeepsForm (Machine.execRecallClear ring) := by
  unfold Machine.execRecallClear
  refine .run (fun he => ?_)
  refine .command he (fun he1 => ?_)
  split
  · exact .endCmd he1
  · extract_lets _ d d1
    have hd : Canon d := .setWhite he1
    have hd1 : Canon d1 := by
      unfold d1
      split
      · exact .setTerm hd
      · exact hd
    exact .endCmd hd1

theorem Canon.complete {n} (h : Canon d) : Canon (d.complete n) := by
  unfold Dev.complete
  extract_lets
  split
  · exact h
  · extract_lets _ _ _ d2
    have hd2 : Canon d2 := .set (.setRing (.obsWrite h))
    exact .dropUnknown (.ite (.msi (.bumpAt (.flagBit hd2))) hd2)

theorem execCommandComplete_keepsForm {ring} : KeepsForm (Machine.execCommandComplete ring) := by
  unfold Machine.execCommandComplete; exact .run .complete

theorem execBlotterEvent_keepsForm {e} : KeepsForm (Machine.execBlotterEvent e) := by
  unfold Machine.execBlotterEvent; exact .run .postN

theorem Canon.evtCount {k} (h : Canon d) : Canon (d.evtCount k) := by unfold Dev.evtCount; exact .bump h

theorem Canon.showOpen (h : Canon d) : Canon d.showOpen := by unfold Dev.showOpen; exact .set h

theorem Canon.closeEntry (h : Canon d) : Canon d.closeEntry := by
  unfold Dev.closeEntry
  split
  · exact h
  · extract_lets _ _ d1
    have hd1 : Canon d1 := .showOpen (.upd (.reach h))
    exact .ite (.evtCount hd1) hd1

theorem execBlotterEntryClose_keepsForm : KeepsForm Machine.execBlotterEntryClose := by
  unfold Machine.execBlotterEntryClose; exact .run (fun he => .ite he (.closeEntry he))

theorem Canon.putRecord {l} (h : Canon d) : Canon (d.putRecord l) := by
  unfold Dev.putRecord
  extract_lets _ _ _ _ _ d2
  have hd2 : Canon d2 := .evtCount (.upd (.set (.set (.set (.obsWrite h)))))
  exact .ite (.irqBlotter hd2) hd2

theorem Canon.writeRecord (h : Canon d) : Canon d.writeRecord := by
  unfold Dev.writeRecord
  refine .ite h ?_
  split
  · exact .putRecord (.showOpen (.upd (.reach h)))
  · exact .evtCount (.putRecord (.upd (.reach h)))
  · exact h

theorem execBlotterWrite_keepsForm : KeepsForm Machine.execBlotterWrite := by
  unfold Machine.execBlotterWrite; exact .run (fun he => .ite he (.writeRecord he))

theorem Canon.writeCons {cons} (h : Canon d) : Canon (d.writeCons cons) := by
  unfold Dev.writeCons; exact .ite (.flag h) (.upd (.set (.set h)))

theorem execEvtConsWrite_keepsForm {cons} : KeepsForm (Machine.execEvtConsWrite cons) := by
  unfold Machine.execEvtConsWrite; exact .run (fun he => .hostW he .writeCons)

theorem execBlotterIrqAge_keepsForm : KeepsForm Machine.execBlotterIrqAge := by
  unfold Machine.execBlotterIrqAge
  refine .run (fun he => ?_)
  split
  · exact he
  · exact .ite he (.irqBlotter (.reach he))

theorem execMsiSend_keepsForm {v} : KeepsForm (Machine.execMsiSend v) := by
  unfold Machine.execMsiSend
  refine .run (fun he => ?_)
  refine .ite ?_ he
  extract_lets d
  have hd : Canon d := by
    unfold d
    split
    · exact .reach he
    · exact he
  exact .bump (.upd hd)

theorem execMailboxCommand_keepsForm {op} : KeepsForm (Machine.execMailboxCommand op) := by
  unfold Machine.execMailboxCommand; exact .run (fun he => .ite (.upd he) he)

theorem execHostMemoryWrite_keepsForm {off bytes} : KeepsForm (Machine.execHostMemoryWrite off bytes) := by
  unfold Machine.execHostMemoryWrite; exact .run (fun he => .ite he (.ite (.memWrite he) (.bump he)))

/-! ### Operations of Machine/Observe -/

theorem Canon.writeSheet {final} (h : Canon d) : Canon (d.writeSheet final) := by
  unfold Dev.writeSheet
  extract_lets _ _ _ _ _ _ _ _ d2
  have hd2 : Canon d2 := .bump (.foldl (.obsWrite h) .obsWrite)
  exact .upd (.ite (.set (.obsWrite hd2)) (.flag hd2))

theorem execCounterSheet_keepsForm : KeepsForm Machine.execCounterSheet := by
  unfold Machine.execCounterSheet
  refine .run (fun he => ?_)
  refine .ite ?_ he
  extract_lets _ d
  have hd : Canon d := .runTo he
  exact .writeSheet (.ite (.runTo hd) hd)

theorem execHalfRange_keepsForm {a} : KeepsForm (Machine.execHalfRange a) := by
  unfold Machine.execHalfRange
  refine .run (fun he => ?_)
  split
  · exact .ite (.bumpAt he) he
  · exact he

theorem Canon.bwWindow (h : Canon d) : Canon d.bwWindow := by
  unfold Dev.bwWindow; exact .upd (.set (.set (.foldUpTo (.reach h) (fun he1 => .set (.set he1)))))

theorem execBwWindow_keepsForm : KeepsForm Machine.execBwWindow := by
  unfold Machine.execBwWindow; exact .run (fun he => .ite (.bwWindow he) he)

theorem Canon.pmuClear (h : Canon d) : Canon d.pmuClear := by
  unfold Dev.pmuClear; exact .foldUpTo h (fun he => .foldUpTo he (fun he1 => .set (.set he1)))

theorem execPmuClear_keepsForm : KeepsForm Machine.execPmuClear := by
  unfold Machine.execPmuClear; exact .run (fun he => .hostW he .pmuClear)

theorem Canon.writePmuCtl {b i v} (h : Canon d) : Canon (d.writePmuCtl b i v) := by
  unfold Dev.writePmuCtl; exact .ite (.flag h) (.store h)

/-! ### Operations of Machine/Fabric -/

theorem Canon.setPair {i st} (h : Canon d) : Canon (d.setPair i st) := by unfold Dev.setPair; exact .upd h

theorem Canon.moveQuads {l target} (h : Canon d) : Canon (d.moveQuads l target) := by
  unfold Dev.moveQuads; exact .foldl h .upd

theorem Canon.park {i v} (h : Canon d) : Canon (d.park i v) := by unfold Dev.park; exact .set h

theorem Canon.foldPair {i} (h : Canon d) : Canon (d.foldPair i) := by
  unfold Dev.foldPair; exact .setPair (.moveQuads h)

theorem Canon.wakePair {i} (h : Canon d) : Canon (d.wakePair i) := by unfold Dev.wakePair; exact .setPair h

theorem Canon.foldAll (h : Canon d) : Canon d.foldAll := by
  unfold Dev.foldAll; exact .foldUpTo h (fun he => .ite (.foldPair he) he)

theorem Canon.unfoldAll (h : Canon d) : Canon d.unfoldAll := by
  unfold Dev.unfoldAll; exact .ite h (.foldUpTo h (fun he => .ite (.wakePair he) he))

theorem Canon.settlePair {i} (h : Canon d) : Canon (d.settlePair i) := by
  unfold Dev.settlePair
  extract_lets
  refine .ite h ?_
  split
  · exact .bump (.park (.setPair h))
  · exact .ite (.bump (.setPair h)) (.moveQuads h)
  · exact .ite (.upd (.setPair h)) (.moveQuads h)
  · exact h

theorem Canon.judgePair {us i} (h : Canon d) : Canon (Dev.judgePair us i d) := by
  unfold Dev.judgePair
  extract_lets _ _ _ _ _ _ d
  have hd : Canon d := .upd h
  split
  · exact .ite hd (.ite (.upd (.foldPair hd)) hd)
  · exact .ite (.wakePair h) h
  · exact h

theorem Canon.foldWindow (h : Canon d) : Canon d.foldWindow := by
  unfold Dev.foldWindow
  exact .upd (.release (.foldUpTo (.foldUpTo (.reach h) (fun he1 => .set (.set he1))) .judgePair))

theorem execFoldWindow_keepsForm : KeepsForm Machine.execFoldWindow := by
  unfold Machine.execFoldWindow; exact .run (fun he => .ite (.foldWindow he) he)

theorem execUnfoldLocked_keepsForm {p} : KeepsForm (Machine.execUnfoldLocked p) := by
  unfold Machine.execUnfoldLocked
  exact .run (fun he => .ite (.setPair (.moveQuads (.park (.runCycles (.fst (.draw he)))))) he)

theorem Canon.releaseHeld {q} (h : Canon d) : Canon (d.releaseHeld q) := by
  unfold Dev.releaseHeld; exact .foldl (.upd h) .leaveEdge

theorem Canon.startMove {q} (h : Canon d) : Canon (d.startMove q) := by
  unfold Dev.startMove
  split
  · exact h
  · exact .set (.upd h)

theorem Canon.quadMove {q} (h : Canon d) : Canon (d.quadMove q) := by
  unfold Dev.quadMove; exact .ite (.foldl (.toFrame h) .startMove) h

theorem execQuadMove_keepsForm {q} : KeepsForm (Machine.execQuadMove q) := by
  unfold Machine.execQuadMove; exact .run .quadMove

theorem Canon.endMove {q} (h : Canon d) : Canon (d.endMove q) := by
  unfold Dev.endMove
  split
  · exact h
  · exact .releaseHeld (.bumpIn (.set (.set (.upd h))))

theorem Canon.quadDrained {q} (h : Canon d) : Canon (d.quadDrained q) := by
  unfold Dev.quadDrained
  split
  · exact h
  · exact .ite h (.settlePair (.foldl h .endMove))

theorem execQuadDrainEnd_keepsForm {q} : KeepsForm (Machine.execQuadDrainEnd q) := by
  unfold Machine.execQuadDrainEnd; exact .run .quadDrained

theorem Canon.abandonMove {q} (h : Canon d) : Canon (d.abandonMove q) := by
  unfold Dev.abandonMove
  split
  · exact h
  · exact .releaseHeld (.flag (.flag (.set (.upd h))))

theorem Canon.quadAbandoned {q} (h : Canon d) : Canon (d.quadAbandoned q) := by
  unfold Dev.quadAbandoned
  split
  · exact h
  · extract_lets d d1
    have hd : Canon d := .reach h
    have hd1 : Canon d1 := .foldl hd .abandonMove
    exact .ite (.settlePair (.ite (.upd (.setPair hd1)) hd1)) hd

theorem execQuadMoveAbandoned_keepsForm {q} : KeepsForm (Machine.execQuadMoveAbandoned q) := by
  unfold Machine.execQuadMoveAbandoned; exact .run .quadAbandoned

/-! ### Operations of Machine/Pair -/

theorem Canon.stlCount {k} (h : Canon d) : Canon (d.stlCount k) := by unfold Dev.stlCount; exact .bump h

theorem Canon.stlAlarm {f} (h : Canon d) : Canon (d.stlAlarm f) := by
  unfold Dev.stlAlarm; exact .alertActive (.alert (.flag h))

theorem Canon.toRole {r} (h : Canon d) : Canon (d.toRole r) := by unfold Dev.toRole; exact .set h

theorem Canon.showLease (h : Canon d) : Canon d.showLease := by unfold Dev.showLease; exact .set h

theorem Canon.showReady (h : Canon d) : Canon d.showReady := by unfold Dev.showReady; exact .set h

theorem Canon.sendHello (h : Canon d) : Canon d.sendHello := by unfold Dev.sendHello; exact .stSend h

theorem Canon.modeEvent {old new cause} (h : Canon d) : Canon (d.modeEvent old new cause) := by
  unfold Dev.modeEvent; exact .event h

theorem Canon.toMode {target cause} (h : Canon d) : Canon (d.toMode target cause) := by
  unfold Dev.toMode; exact .modeEvent (.bumpIn (.set (.set (.set (.set h)))))

theorem Canon.beginTrans {t} (h : Canon d) : Canon (d.beginTrans t) := by
  unfold Dev.beginTrans; exact .set (.set (.upd h))

theorem Canon.endTrans {status} (h : Canon d) : Canon (d.endTrans status) := by
  unfold Dev.endTrans
  split
  · exact h
  · extract_lets _ d
    have hd : Canon d := .upd h
    split
    · exact .endCmd hd
    · exact hd

theorem Canon.dropTrigger {cause} (h : Canon d) : Canon (d.dropTrigger cause) := by
  unfold Dev.dropTrigger; exact .event h

theorem Canon.squelch (h : Canon d) : Canon d.squelch := by unfold Dev.squelch; exact .upd h

theorem Canon.enterStandby {cause} (h : Canon d) : Canon (d.enterStandby cause) := by
  unfold Dev.enterStandby
  exact .sendHello (.showLease (.toMode (.toRole (.foldUpTo (.set (.set (.set (.upd (.squelch h))))) .set))))

theorem Canon.sendDelta {f} (h : Canon d) : Canon (d.sendDelta f) := by
  unfold Dev.sendDelta; exact .stSend (.stSend (.upd h))

theorem Canon.releaseLease {p} (h : Canon d) : Canon (d.releaseLease p) := by
  unfold Dev.releaseLease; exact .showLease (.set (.upd (.stSend (.sendDelta (.squelch h)))))

theorem Canon.runRelease {p} (h : Canon d) : Canon (d.runRelease p) := by
  unfold Dev.runRelease
  extract_lets d
  have hd : Canon d := .releaseLease h
  split
  · exact .ite (.endTrans (.enterStandby hd)) hd
  · exact .enterStandby hd

theorem Canon.fullMeters (h : Canon d) : Canon d.fullMeters := by unfold Dev.fullMeters; exact .upd h

theorem Canon.tagsAtV (h : Canon d) : Canon d.tagsAtV := by unfold Dev.tagsAtV; exact .upd h

theorem Canon.emptyQueues (h : Canon d) : Canon d.emptyQueues := by
  unfold Dev.emptyQueues; exact .foldl h (fun he => .ite (.fst (.emptyQueue he)) he)

theorem Canon.raiseEpoch (h : Canon d) : Canon d.raiseEpoch := by
  unfold Dev.raiseEpoch; exact .resumeSlots (.foldUpTo h (fun he => .setScribe (.set he)))

theorem Canon.takeOver {cause role start} (h : Canon d) : Canon (d.takeOver cause role start) := by
  unfold Dev.takeOver
  extract_lets _ d1
  have hd1 : Canon d1 := .tagsAtV (.fullMeters (.emptyQueues (.cirTakeover (.raiseEpoch (.toMode h)))))
  exact .sendHello (.toRole (.set (.set (.set (.upd (.foldl (.ite hd1 (.holdover hd1)) .addTodo))))))

theorem Canon.startTx (h : Canon d) : Canon d.startTx := by
  unfold Dev.startTx
  split
  · exact .ite (.upd h) h
  · exact h

/-! ### Operations of Machine/Modes -/

theorem Canon.refuseCmd {ring tag op} (h : Canon d) : Canon (d.refuseCmd ring tag op) := by
  unfold Dev.refuseCmd; exact .endCmd h

theorem Canon.refuseTrig {x} (h : Canon d) : Canon (d.refuseTrig x) := by
  unfold Dev.refuseTrig
  split
  · exact .refuseCmd h
  · exact .refuseCmd h
  · exact h

theorem Canon.actionVoid (h : Canon d) : Canon d.actionVoid := by unfold Dev.actionVoid; exact .bump h

theorem Canon.preempt (h : Canon d) : Canon d.preempt := by
  unfold Dev.preempt
  split
  · exact h
  · exact .upd h

theorem Canon.resign {cause} (h : Canon d) : Canon (d.resign cause) := by
  unfold Dev.resign; exact .ite (.stSend (.upd h)) h

theorem Canon.decideVigil {cause cmd} (h : Canon d) : Canon (d.decideVigil cause cmd) := by
  unfold Dev.decideVigil; exact .upd (.beginTrans (.resign h))

theorem Canon.decideTest {ring tag} (h : Canon d) : Canon (d.decideTest ring tag) := by
  unfold Dev.decideTest
  extract_lets _ d1
  have hd1 : Canon d1 := .beginTrans (.resign h)
  exact .ite (.upd hd1) hd1

theorem Canon.decideSwitch {p cmd} (h : Canon d) : Canon (d.decideSwitch p cmd) := by
  unfold Dev.decideSwitch; exact .upd (.beginTrans h)

theorem Canon.takeShutdown {x} (h : Canon d) : Canon (d.takeShutdown x) := by
  unfold Dev.takeShutdown
  extract_lets _ _ _ _ _ d1
  have hd1 : Canon d1 := .upd (.preempt (.ite h (.bump h)))
  exact .ite (.ite h (.actionVoid h)) (.ite (.set (.set hd1)) (.decideVigil (.ite (.set hd1) hd1)))

theorem Canon.takeSetMode {m ring tag} (h : Canon d) : Canon (d.takeSetMode m ring tag) := by
  unfold Dev.takeSetMode; exact .ite (.refuseCmd h) (.ite (.decideVigil (.upd h)) (.decideTest h))

theorem Canon.takeSwitch {cmd} (h : Canon d) : Canon (d.takeSwitch cmd) := by
  unfold Dev.takeSwitch; exact .ite (.refuseTrig h) (.decideSwitch h)

theorem Canon.takeRelease (h : Canon d) : Canon d.takeRelease := by
  unfold Dev.takeRelease; exact .ite (.actionVoid h) (.decideSwitch h)

theorem Canon.takeWake (h : Canon d) : Canon d.takeWake := by
  unfold Dev.takeWake; exact .ite (.beginTrans h) (.actionVoid h)

theorem Canon.takeTrig {x} (h : Canon d) : Canon (d.takeTrig x) := by
  unfold Dev.takeTrig
  split
  · exact .takeShutdown h
  · exact .takeShutdown h
  · exact .takeRelease h
  · exact .takeSwitch h
  · exact .takeSetMode h
  · exact .takeWake h

theorem Canon.dropAsked (h : Canon d) : Canon d.dropAsked := by
  unfold Dev.dropAsked; exact .foldl (.upd h) (fun he => .refuseTrig (.dropTrigger he))

theorem Canon.arbitrate (h : Canon d) : Canon d.arbitrate := by
  unfold Dev.arbitrate
  split
  · exact h
  · exact .dropAsked (.upd (.takeTrig (.upd h)))

theorem Canon.askTrig {x} (h : Canon d) : Canon (d.askTrig x) := by unfold Dev.askTrig; exact .upd h

theorem execModeTrigger_keepsForm : KeepsForm Machine.execModeTrigger := by
  unfold Machine.execModeTrigger; exact .run (fun he => .ite (.arbitrate he) he)

theorem execSetMode_keepsForm {ring} : KeepsForm (Machine.execSetMode ring) := by
  unfold Machine.execSetMode
  exact .run (fun he => .command he (fun he1 => .ite (.arbitrate (.askTrig (.keepRunning he1))) (.endCmd he1)))

theorem execSwitchOver_keepsForm {ring} : KeepsForm (Machine.execSwitchOver ring) := by
  unfold Machine.execSwitchOver
  exact .run (fun he => .command he (fun he1 => .ite (.ite (.endCmd he1) (.upd (.keepRunning he1))) (.ite
      (.endCmd he1) (.arbitrate (.askTrig (.keepRunning he1))))))

theorem Canon.toBoundary (h : Canon d) : Canon d.toBoundary := by
  unfold Dev.toBoundary
  split
  · exact .runRelease (.runTo h)
  · exact .toFrame h

theorem execVigilEntry_keepsForm : KeepsForm Machine.execVigilEntry := by
  unfold Machine.execVigilEntry; exact .run (fun he => .ite (.upd (.squelch (.toBoundary he))) he)

theorem Canon.drainBegun (h : Canon d) : Canon d.drainBegun := by
  unfold Dev.drainBegun
  extract_lets _ _ _ d2
  have hd2 : Canon d2 := by
    unfold d2
    refine .foldl (.upd (.foldl h .flushPkts)) (fun he3 => ?_)
    split
    · exact .flushPkts (.setTx he3)
    · exact he3
  exact .upd (.foldl (.foldl hd2 (fun he5 => .foldUpTo he5 .flushPart)) (fun he8 => .foldl he8
      .flushPkts))

theorem Canon.drainReasm (h : Canon d) : Canon d.drainReasm := by
  unfold Dev.drainReasm
  extract_lets
  refine .foldl (.foldl h (fun he => .segCount (.dropReasm he))) (fun he2 => ?_)
  extract_lets _ d1
  have hd1 : Canon d1 := .foldl he2 .release1
  exact .ite hd1 (.bump (.setRx hd1))

theorem Canon.drainAll (h : Canon d) : Canon d.drainAll := by
  unfold Dev.drainAll
  exact .foldl (.drainReasm (.drainBegun (.bump (.foldl (.upd (.foldl h .set)) .release1)))) (fun he5 => .ite he5 (.ite (.flushQ he5) (.uplCount (.fst (.emptyQueue he5)))))

theorem Canon.writeClosed {n} (h : Canon d) : Canon (Dev.writeClosed n d) := by
  induction n generalizing d with
  | zero =>
    rw [Dev.writeClosed]
    exact h
  | succ f ih =>
    rw [Dev.writeClosed]
    exact .ite h (ih (.writeRecord h))

theorem Canon.closeMode (h : Canon d) : Canon d.closeMode := by unfold Dev.closeMode; exact .upd h

theorem Canon.completeAll (h : Canon d) : Canon d.completeAll := by
  unfold Dev.completeAll; exact .foldUpTo h (fun he => .foldUpTo he .complete)

theorem Canon.vigilDrained (h : Canon d) : Canon d.vigilDrained := by
  unfold Dev.vigilDrained
  extract_lets _ _ d2 d3
  have hd2 : Canon d2 := .writeClosed (.closeMode (.writeClosed (.modeEvent (.settleWrites (.writeSheet
      (.drainAll h))))))
  have hd3 : Canon d3 := by
    unfold d3
    split
    · exact .endCmd hd2
    · exact hd2
  exact .upd (.completeAll (.foldl hd3 .refuseCmd))

theorem execVigilDrained_keepsForm : KeepsForm Machine.execVigilDrained := by
  unfold Machine.execVigilDrained; exact .run (fun he => .ite (.vigilDrained he) he)

theorem Canon.refreshAlerts (h : Canon d) : Canon d.refreshAlerts := by
  unfold Dev.refreshAlerts
  extract_lets off
  have hoff : ∀ {x0 x1 x2}, Canon x2 → Canon (off x0 x1 x2) := fun he => .ite he (.alertActive he)
  exact hoff (hoff (hoff (hoff (hoff h))))

theorem Canon.powerDown (h : Canon d) : Canon d.powerDown := by
  unfold Dev.powerDown; exact .refreshAlerts (.upd (.foldUpTo h .set))

theorem Canon.payAll (h : Canon d) : Canon d.payAll := by
  unfold Dev.payAll
  exact .foldUpTo (.settleWrites h) (fun he => .ite (.showOwed (.foldUpTo he .refreshOne)) he)

theorem execVigilPowerDown_keepsForm : KeepsForm Machine.execVigilPowerDown := by
  unfold Machine.execVigilPowerDown
  exact .run (fun he => .ite (.powerDown (.bumpIn (.set (.set (.set (.set (.foldUpTo (.payAll he) (fun he2 => .ite
      (.set he2) he2)))))))) he)

theorem Canon.beginBoot {warm} (h : Canon d) : Canon (d.beginBoot warm) := by
  unfold Dev.beginBoot; exact .bump (.set (.set (.set (.set (.set (.set (.updBoot (.dropImage h))))))))

theorem Canon.dropUnpowered (h : Canon d) : Canon d.dropUnpowered := by unfold Dev.dropUnpowered; exact .upd h

theorem execWake_keepsForm : KeepsForm Machine.execWake := by
  unfold Machine.execWake; exact .run (fun he => .ite (.beginBoot (.upd (.dropUnpowered (.set (.bump he))))) he)

theorem execTestEntry_keepsForm : KeepsForm Machine.execTestEntry := by
  unfold Machine.execTestEntry
  exact .run (fun he => .ite (.foldUpTo (.endTrans (.sendHello (.upd (.set (.toRole (.toMode (.toBoundary he)))))))
      .testStart) he)

theorem Canon.loseLease (h : Canon d) : Canon d.loseLease := by
  unfold Dev.loseLease
  extract_lets _ d
  have hd : Canon d := .dropAsked h
  refine .ite (.dropTrigger h) ?_
  split
  · exact .enterStandby (.endTrans (.dropTrigger hd))
  · exact .enterStandby hd

theorem Canon.expireLease (h : Canon d) : Canon d.expireLease := by
  unfold Dev.expireLease; exact .upd (.stlAlarm (.set (.squelch (.runTo h))))

theorem execLeaseExpiry_keepsForm : KeepsForm Machine.execLeaseExpiry := by
  unfold Machine.execLeaseExpiry; exact .run (fun he => .ite (.loseLease (.expireLease he)) he)

/-! ### Operations of Machine/Quill -/

theorem Canon.setSample {k x} (h : Canon d) : Canon (d.setSample k x) := by unfold Dev.setSample; exact .upd h

theorem Canon.takeSample {k raw} (h : Canon d) : Canon (d.takeSample k raw) := by
  unfold Dev.takeSample; exact .ite (.setSample h) (.setSample h)

theorem Canon.failSample {k} (h : Canon d) : Canon (d.failSample k) := by
  unfold Dev.failSample; exact .ite (.flag (.setSample h)) (.setSample h)

theorem Canon.takeSamples {first l} (h : Canon d) : Canon (d.takeSamples first l) := by
  unfold Dev.takeSamples; exact .foldl h .takeSample

theorem Canon.takeAdc {l} (h : Canon d) : Canon (d.takeAdc l) := by
  unfold Dev.takeAdc
  refine .foldl h (fun he => ?_)
  extract_lets
  refine .ite (.setSample he) ?_
  split
  · exact .takeSample he
  · exact .failSample (.bump he)

theorem Canon.Fst.vigilSeconds (h : Canon d) : Canon.Fst d.vigilSeconds := by
  unfold Dev.vigilSeconds; exact .ite (.mk h) (.ite (.mk h) (.mk (.fst (.draw h))))

theorem Canon.tripSample {l} (h : Canon d) : Canon (d.tripSample l) := by
  unfold Dev.tripSample
  extract_lets _ _ _ _ d
  have hd : Canon d := .upd h
  exact .ite (.alertActive hd) hd

theorem Canon.showSeq {st} (h : Canon d) : Canon (d.showSeq st) := by
  unfold Dev.showSeq; exact .set (.set (.set (.fst (.draw h))))

theorem Canon.keepFilters {old} (h : Canon d) : Canon (d.keepFilters old) := by unfold Dev.keepFilters; exact .upd h

theorem Canon.sampleLoop {x} (h : Canon d) : Canon (d.sampleLoop x) := by
  unfold Dev.sampleLoop
  extract_lets _ k _ _ z
  have hk : Canon.Fst k := .quillPatch h
  have hz : Canon.Fst z := .quillPatch (.takeSample (.fst (.vigilSeconds (.takeAdc (.takeSamples (.takeSamples
      (.takeSamples (.fst hk))))))))
  exact .ite (.fst hk) (.ite (.showSeq (.fst hz)) (.keepFilters (.fst hz)))

theorem execQuillSample_keepsForm {x} : KeepsForm (Machine.execQuillSample x) := by
  unfold Machine.execQuillSample
  refine .run (fun he => ?_)
  refine .ite he ?_
  extract_lets d
  have hd : Canon d := .tripSample (.reach he)
  exact .ite (.sampleLoop hd) hd

theorem Canon.pollStart {m} (h : Canon d) : Canon (d.pollStart m) := by
  unfold Dev.pollStart
  extract_lets d
  have hd : Canon d := by
    unfold d
    split
    · exact .reach h
    · exact h
  exact .upd hd

theorem execOpticsPoll_keepsForm {m x} : KeepsForm (Machine.execOpticsPoll m x) := by
  unfold Machine.execOpticsPoll
  refine .run (fun he => ?_)
  refine .ite ?_ he
  extract_lets _ d
  have hd : Canon d := .pollStart he
  split
  · exact .takeSample (.takeSample (.takeSample (.takeSample hd)))
  · exact .foldUpTo (.bump hd) .failSample

theorem Canon.setQstate {i x} (h : Canon d) : Canon (d.setQstate i x) := by unfold Dev.setQstate; exact .upd h

theorem Canon.raiseAlarm {b} (h : Canon d) : Canon (d.raiseAlarm b) := by
  unfold Dev.raiseAlarm
  extract_lets _ d
  have hd : Canon d := .flagBit (.set h)
  exact .ite hd (.alertActive (.alert hd))

theorem Canon.ruleEvent {i raised} (h : Canon d) : Canon (d.ruleEvent i raised) := by
  unfold Dev.ruleEvent; exact .event h

theorem Canon.lowerThrottle (h : Canon d) : Canon d.lowerThrottle := by
  unfold Dev.lowerThrottle; exact .set (.set (.upd h))

theorem Canon.InPass.action {p f} (hp : Canon.InPass p) (hf : ∀ {x0}, Canon.InPass x0 → Canon.InPass (f x0)) :
    Canon.InPass (Pass.action p f) := by
  unfold Pass.action
  extract_lets k
  have hk : Canon.Fst k := .quillPatch (.ofPass hp)
  exact .ite (hf (.mk (.fst hk))) (.mk (.fst hk))

theorem Canon.InPass.act {p i member} (hp : Canon.InPass p) : Canon.InPass (Pass.act p i member) := by
  unfold Pass.act
  extract_lets d _ _ _ d1
  have hd : Canon d := .ofPass hp
  have hd1 : Canon d1 := .upd hd
  split
  · exact .ite (.mk (.ruleEvent (.raiseAlarm hd))) (.mk (.actionVoid hd))
  · exact .ite (.mk (.actionVoid hd)) (.ite (.mk (.set (.set hd1))) (.mk hd1))
  · split
    · exact .ite (.mk (.bump hd)) (.mk (.actionVoid hd))
    · exact .mk (.actionVoid hd)
  · exact .ite (.mk (.actionVoid hd)) hp
  · exact .ite (.mk (.actionVoid hd)) hp
  · exact .ite (.mk (.askTrig hd)) (.mk (.actionVoid hd))
  · exact .mk (.askTrig hd)
  · exact .ite (.mk (.askTrig hd)) (.mk (.actionVoid hd))
  · exact .mk hd

theorem Canon.InPass.raise {p i member} (hp : Canon.InPass p) : Canon.InPass (Pass.raise p i member) := by
  unfold Pass.raise; exact .action (.mk (.flag (.ofPass hp))) .act

theorem Canon.InPass.unact {p i member} (hp : Canon.InPass p) : Canon.InPass (Pass.unact p i member) := by
  unfold Pass.unact
  extract_lets d
  have hd : Canon d := .ofPass hp
  split
  · exact .ite (.mk (.ruleEvent (.alertActive (.ite hd (.set hd))))) (.mk hd)
  · exact .mk (.ite hd (.lowerThrottle hd))
  · split
    · exact .ite (.mk hd) (.mk hd)
    · exact .mk hd
  · exact .mk hd

theorem Canon.InPass.clear {p i member} (hp : Canon.InPass p) : Canon.InPass (Pass.clear p i member) := by
  unfold Pass.clear; exact .action (.mk (.bump (.ofPass hp))) .unact

theorem Canon.InPass.member {i p e} (hp : Canon.InPass p) : Canon.InPass (Pass.member i p e) := by
  unfold Pass.member
  extract_lets _ _ _ _ _ _ p1
  have hp1 : Canon.InPass p1 := .mk (.setQstate (.ofPass hp))
  exact .ite (.raise hp1) (.ite (.clear hp1) hp1)

theorem Canon.InPass.clearOld {p i} (hp : Canon.InPass p) : Canon.InPass (Pass.clearOld p i) := by
  unfold Pass.clearOld
  extract_lets _ _ p1
  have hp1 : Canon.InPass p1 := .mk (.setQstate (.ofPass hp))
  exact .ite hp1 (.ite (.foldl hp1 .clear) (.clear hp1))

theorem Canon.InPass.takeHeld {p i} (hp : Canon.InPass p) : Canon.InPass (Pass.takeHeld p i) := by
  unfold Pass.takeHeld
  split
  · exact hp
  · exact .mk (.upd (.ofPass (.clearOld hp)))

theorem Canon.InPass.rule {p i} (hp : Canon.InPass p) : Canon.InPass (Pass.rule p i) := by
  unfold Pass.rule
  extract_lets p1 _ _ _ p2
  have hp1 : Canon.InPass p1 := .takeHeld hp
  have hp2 : Canon.InPass p2 := .mk (.setQstate (.ofPass hp1))
  exact .ite hp1 (.ite (.foldl hp1 .member) (.ite (.raise hp2) (.ite (.clear hp2) hp2)))

theorem Canon.finish {p} (hp : Canon.InPass p) : Canon (Pass.finish p) := by
  unfold Pass.finish
  extract_lets _ _ _ _ _ _ _ _ d1
  have hd1 : Canon d1 := .set (.set (.upd (.ofPass hp)))
  exact .ite hd1 (.ite (.foldAll hd1) (.ite (.unfoldAll hd1) hd1))

theorem execQuillPass_keepsForm : KeepsForm Machine.execQuillPass := by
  unfold Machine.execQuillPass
  refine .run (fun he => ?_)
  refine .ite ?_ he
  extract_lets k
  have hk : Canon.Fst k := .quillPatch (.bump he)
  exact .ite (.showSeq (.finish (.foldl (.mk (.fst hk)) .rule))) (.fst hk)

theorem execQuillParityRestart_keepsForm : KeepsForm Machine.execQuillParityRestart := by
  unfold Machine.execQuillParityRestart
  refine .run (fun he => ?_)
  refine .ite ?_ he
  extract_lets _ _ _ _ _ d2
  have hd2 : Canon d2 := .set (.set (.set (.upd (.upd he))))
  exact .ite (.set hd2) (.fst (.quillPatch hd2))

theorem execThermalTrip_keepsForm : KeepsForm Machine.execThermalTrip := by
  unfold Machine.execThermalTrip; exact .run (fun he => .ite (.askTrig (.alertActive (.alert (.flag (.upd he))))) he)

theorem Canon.putRule {i r} (h : Canon d) : Canon (d.putRule i r) := by unfold Dev.putRule; exact .mirror (.upd h)

theorem Canon.putFilter {k r} (h : Canon d) : Canon (d.putFilter k r) := by
  unfold Dev.putFilter; exact .setSample (.upd h)

theorem Canon.qulRefuse (h : Canon d) : Canon d.qulRefuse := by unfold Dev.qulRefuse; exact .flag (.flag h)

theorem Canon.Fst.qulRec {table i} (h : Canon d) : Canon.Fst (d.qulRec table i) := by
  unfold Dev.qulRec
  split
  · exact .mk h
  · exact .mk h
  · exact .mk h
  · exact .ite (.mk (.fst (.draw h))) (.mk h)

theorem Canon.qulAccess {index table write} (h : Canon d) : Canon (d.qulAccess index table write) := by
  unfold Dev.qulAccess
  refine .ite h ?_
  extract_lets d
  have hd : Canon d := .set (.set (.set h))
  exact .ite (.ite (.qulRefuse hd) (.ite (.putFilter hd) (.putRule hd))) (.ite hd (.showData (.fst (.qulRec hd))))

theorem execQulIndRead_keepsForm {index table} : KeepsForm (Machine.execQulIndRead index table) := by
  unfold Machine.execQulIndRead; exact .run (fun he => .hostW he .qulAccess)

theorem execQulIndWrite_keepsForm {index table} : KeepsForm (Machine.execQulIndWrite index table) := by
  unfold Machine.execQulIndWrite; exact .run (fun he => .hostW he .qulAccess)

/-! ### Operations of Machine/Records -/

theorem Canon.portFree (h : Canon d) : Canon d.portFree := by unfold Dev.portFree; exact .ite (.prefixDone h) h

theorem Canon.Opt.putFwd {table index r} (h : Canon d) : Canon.Opt (d.putFwd table index r) := by
  unfold Dev.putFwd
  refine .ite .none ?_
  refine .ite ?_ (.some (.fwdPut h))
  split
  · exact .some (.setPrefix h)
  · exact .map (.insertPrefix h) .portFree

theorem Canon.Opt.tablePut {block table index r} (h : Canon d) : Canon.Opt (d.tablePut block table index r) := by
  unfold Dev.tablePut
  exact .ite (.ite (.some (.writeCont h)) .none) (.ite (.ite (.some (.tmgWrite h)) .none) (.ite (.ite .none (.some
      (.putParRule h))) (.ite (.putFwd (.portFree h)) (.ite (.ite .none (.some (.setOwner h))) (.ite (.ite .none
          (.ite (.some (.putFilter h)) (.ite (.some (.putRule h)) .none))) .none)))))

theorem Canon.tableRefuse {block table index} (h : Canon d) : Canon (d.tableRefuse block table index) := by
  unfold Dev.tableRefuse
  exact .ite (.gntRefuse h) (.ite (.tmgRefuse h) (.ite (.parRefuse h) (.ite (.fwdRefuse h) (.ite (.bufRefuse h)
      (.ite (.qulRefuse h) h)))))

theorem Canon.Fst.tableRun {block table first size n n1 l} (h : Canon d) :
    Canon.Fst (Dev.tableRun block table first size n n1 l d) := by
  induction n generalizing n1 l d with
  | zero =>
    rw [Dev.tableRun]
    exact .mk h
  | succ f ih =>
    rw [Dev.tableRun]
    split
    · rename_i e heq1
      have he := Canon.of_some heq1 (.tablePut h)
      exact ih he
    · exact .mk h

theorem Canon.tableWrite {ring tag l} (h : Canon d) : Canon (d.tableWrite ring tag l) := by
  unfold Dev.tableWrite
  extract_lets _ _ _ _ _ _ fin
  have hfin : ∀ {x0 x1 x2 x3}, Canon x0 → Canon (fin x0 x1 x2 x3) := fun he => .endCmd he
  refine .ite (hfin h) ?_
  split
  · exact hfin h
  · extract_lets r
    have hr : Canon.Fst r := .tableRun h
    exact .ite (hfin (.tableRefuse (.fst hr))) (hfin (.fst hr))

theorem execTableWrite_keepsForm {ring} : KeepsForm (Machine.execTableWrite ring) := by
  unfold Machine.execTableWrite; exact .run (fun he => .command he .tableWrite)

theorem Canon.mirrorState {off stride at_ len f i} (h : Canon d) :
    Canon (Dev.mirrorState off stride at_ len f i d) := by
  unfold Dev.mirrorState; exact .mirror h

theorem Canon.mirrorQuill (h : Canon d) : Canon d.mirrorQuill := by
  unfold Dev.mirrorQuill
  exact .foldUpTo (.foldUpTo h (fun he => .mirror (.fst (.qulRec he)))) (fun he3 => .mirror (.fst (.qulRec he3)))

theorem Canon.mirrorStates (h : Canon d) : Canon d.mirrorStates := by
  unfold Dev.mirrorStates
  exact .mirrorQuill (.foldUpTo (.foldUpTo (.foldUpTo (.foldUpTo (.foldUpTo (.foldUpTo h .mirrorState) .mirrorState) .mirrorState) .mirrorState)
          .mirrorRule) .mirrorState)

theorem execMirrorStateRewrite_keepsForm : KeepsForm Machine.execMirrorStateRewrite := by
  unfold Machine.execMirrorStateRewrite; exact .run (fun he => .ite (.settleWrites (.mirrorStates he)) he)

/-! ### Operations of Machine/TermRx -/

theorem Canon.rxTake {c n} (h : Canon d) : Canon (d.rxTake c n) := by unfold Dev.rxTake; exact .setRx h

theorem Canon.addRei {c n} (h : Canon d) : Canon (d.addRei c n) := by
  unfold Dev.addRei; exact .ite h (.foldl h .setEmu)

theorem Canon.resyncSlots {c} (h : Canon d) : Canon (d.resyncSlots c) := by unfold Dev.resyncSlots; exact .upd h

theorem Canon.takeHeader {c l at_} (h : Canon d) : Canon (d.takeHeader c l at_) := by
  unfold Dev.takeHeader
  extract_lets _ _ _ _ d1 _ _ _ _ d4 _ d5
  have hd1 : Canon d1 := .set (.set (.ite h (.addRei (.flag (.rxCount h)))))
  have hd4 : Canon d4 := .foldl (.setRx (.ite (.resyncSlots hd1) hd1)) (fun he4 => .ite (.setEmu he4) he4)
  have hd5 : Canon d5 := .ite (.upd hd4) hd4
  exact .ite (.upd hd5) hd5

theorem Canon.frameHeaderRx {c ago} (h : Canon d) : Canon (d.frameHeaderRx c ago) := by
  unfold Dev.frameHeaderRx
  extract_lets _ _ d
  have hd : Canon d := .rxTake h
  exact .ite h (.ite (.takeHeader hd) (.flag hd))

theorem execFrameHeaderRx_keepsForm {c ago} : KeepsForm (Machine.execFrameHeaderRx c ago) := by
  unfold Machine.execFrameHeaderRx; exact .run (fun he => .ite (.frameHeaderRx he) he)

theorem Canon.takeGrant {c t target l} (h : Canon d) : Canon (d.takeGrant c t target l) := by
  unfold Dev.takeGrant
  extract_lets _ _ _ d
  have hd : Canon d := .ite (.emuTo h) (.ite (.emuTo h) h)
  exact .ite hd (.setEmu hd)

theorem Canon.takeRange {c t target e} (h : Canon d) : Canon (d.takeRange c t target e) := by
  unfold Dev.takeRange; exact .ite (.setEmu h) h

theorem Canon.takeRun {c target r} (h : Canon d) : Canon (Dev.takeRun c target d r) := by
  unfold Dev.takeRun
  extract_lets
  refine .foldl h (fun he => ?_)
  extract_lets mine
  clear_value mine
  split
  · exact .ite (.flag he) (.ite (.takeRange he) (.takeGrant he))
  · exact he

theorem Canon.subframeHeaderRx {c} (h : Canon d) : Canon (d.subframeHeaderRx c) := by
  unfold Dev.subframeHeaderRx
  extract_lets _ _ _ _ _ _ _ _ _ _ d2
  have hd2 : Canon d2 := .setRx (.rxTake h)
  exact .ite h (.ite (.setRx (.flag (.rxTake h))) (.ite h (.ite (.foldl hd2 .takeRun) hd2)))

theorem execSubframeHeaderRx_keepsForm {c} : KeepsForm (Machine.execSubframeHeaderRx c) := by
  unfold Machine.execSubframeHeaderRx; exact .run (fun he => .ite (.subframeHeaderRx he) he)

theorem Canon.dropDown {c t} (h : Canon d) : Canon (d.dropDown c t) := by
  unfold Dev.dropDown
  split
  · exact h
  · exact .foldl (.setRx h) .release1

theorem Canon.dropDownAll {c} (h : Canon d) : Canon (d.dropDownAll c) := by
  unfold Dev.dropDownAll; exact .foldl h .dropDown

theorem Canon.joinDown {c t s b fails} (h : Canon d) : Canon (d.joinDown c t s b fails) := by
  unfold Dev.joinDown
  extract_lets _ d _ a d1
  have hd : Canon d := .ite (.segCount (.dropDown h)) h
  have ha : Canon.Fst a := .alloc hd
  have hd1 : Canon d1 := .ite (.fst ha) (.octets (.segCount (.fst ha)))
  refine .ite (.segCount (.dropDown hd)) ?_
  refine .ite (.dropDown hd) ?_
  split
  · exact .dropDown (.fst ha)
  · exact .ite (.toPipe (.setRx hd1)) (.setRx hd1)

theorem Canon.mgmtSegment {c s l} (h : Canon d) : Canon (d.mgmtSegment c s l) := by
  unfold Dev.mgmtSegment; exact .ite (.segCount h) (.inboxPut (.octets (.segCount h)))

theorem Canon.downSegment {c s l} (h : Canon d) : Canon (d.downSegment c s l) := by
  unfold Dev.downSegment
  refine .ite (.mgmtSegment h) ?_
  refine .ite (.segCount h) ?_
  split
  · exact .segCount h
  · refine .ite (.dropDown (.segCount h)) ?_
    extract_lets _ _ _ r e
    have hr : Canon.Fst r := .openSeg h
    have he : Canon e := .ite (.fst hr) (.flag (.fst hr))
    split
    · refine .ite (.dropDown he) ?_
      split
      · exact .joinDown he
      · exact .dropDown he
    · exact .joinDown (.fst hr)

theorem Canon.setSkip {c v} (h : Canon d) : Canon (d.setSkip c v) := by unfold Dev.setSkip; exact .setRx h

theorem Canon.segmentRx {c} (h : Canon d) : Canon (d.segmentRx c) := by
  unfold Dev.segmentRx
  extract_lets _ _ q
  refine .ite h ?_
  refine .ite (.bump (.rxTake h)) ?_
  refine .ite (.ite h (.setRx (.rxTake h))) ?_
  clear_value q
  split
  · exact h
  · exact .ite (.ite (.rxTake h) (.bump (.rxTake h))) (.ite (.setSkip (.rxTake h)) (.ite (.rxTake (.setSkip
        (.dropDownAll (.segCount h)))) (.ite h (.setSkip (.rxTake (.downSegment h))))))

theorem execSegmentRx_keepsForm {c} : KeepsForm (Machine.execSegmentRx c) := by
  unfold Machine.execSegmentRx; exact .run (fun he => .ite (.segmentRx he) he)

/-! ### Operations of Machine/Stitch -/

theorem Canon.partnerFlags {fl} (h : Canon d) : Canon (d.partnerFlags fl) := by unfold Dev.partnerFlags; exact .set h

theorem Canon.endForwarded {status} (h : Canon d) : Canon (d.endForwarded status) := by
  unfold Dev.endForwarded
  split
  · exact .endCmd (.upd h)
  · exact h

theorem Canon.linkGone (h : Canon d) : Canon d.linkGone := by unfold Dev.linkGone; exact .endForwarded (.set (.upd h))

theorem Canon.unsync (h : Canon d) : Canon d.unsync := by
  unfold Dev.unsync; exact .showReady (.stSend (.upd (.flag (.set h))))

theorem Canon.handBack (h : Canon d) : Canon d.handBack := by
  unfold Dev.handBack; exact .ite (.arbitrate (.askTrig (.stlCount (.upd h)))) h

theorem Canon.dualActive {h1} (h : Canon d) : Canon (d.dualActive h1) := by
  unfold Dev.dualActive
  extract_lets _ _ d
  have hd : Canon d := .ite h (.stlAlarm h)
  exact .ite (.ite (.enterStandby (.fst (.draw hd))) (.squelch hd)) hd

theorem Canon.takeHello {h1} (h : Canon d) : Canon (d.takeHello h1) := by
  unfold Dev.takeHello
  extract_lets _ _ d
  have hd : Canon d := .partnerFlags (.upd h)
  exact .ite (.dualActive hd) (.ite (.upd hd) hd)

theorem execHello_keepsForm {h1} : KeepsForm (Machine.execHello h1) := by
  unfold Machine.execHello
  exact .run (fun he => .ite (.ite (.handBack (.takeHello he)) (.stlAlarm (.linkGone (.upd he)))) he)

theorem Canon.takeRenew {f epoch fl} (h : Canon d) : Canon (d.takeRenew f epoch fl) := by
  unfold Dev.takeRenew; exact .stlCount (.stSend (.showLease (.partnerFlags (.upd h))))

theorem execRenew_keepsForm {f epoch fl} : KeepsForm (Machine.execRenew f epoch fl) := by
  unfold Machine.execRenew; exact .run (fun he => .ite (.takeRenew he) he)

theorem Canon.takeAck {f fl} (h : Canon d) : Canon (d.takeAck f fl) := by
  unfold Dev.takeAck
  extract_lets _ d _ _ _ _ d1
  have hd : Canon d := .partnerFlags (.upd h)
  have hd1 : Canon d1 := .upd hd
  exact .ite (.showLease (.toRole (.set (.ite (.upd hd1) hd1)))) hd

theorem execStitchAck_keepsForm {f fl} : KeepsForm (Machine.execStitchAck f fl) := by
  unfold Machine.execStitchAck; exact .run (fun he => .ite (.handBack (.takeAck he)) he)

theorem execResign_keepsForm {cause} : KeepsForm (Machine.execResign cause) := by
  unfold Machine.execResign
  exact .run (fun he => .ite (.showLease (.toRole (.set (.set (.upd (.ite (.upd he) he)))))) he)

theorem Canon.copyTerm {g l} (h : Canon d) : Canon (d.copyTerm g l) := by
  unfold Dev.copyTerm
  extract_lets _ _ _ w d
  have hd : Canon d := by
    unfold d
    clear_value w
    split
    · exact .ite h (.setWhite h)
    · exact h
  exact .setTerm (.ite (.setPreset hd) (.ite (.setPreset hd) hd))

theorem Canon.copyRuling {g l} (h : Canon d) : Canon (d.copyRuling g l) := by unfold Dev.copyRuling; exact .setTerm h

theorem Canon.copyCont {k l} (h : Canon d) : Canon (d.copyCont k l) := by unfold Dev.copyCont; exact .setCont h

theorem Canon.copyTxn {g l} (h : Canon d) : Canon (d.copyTxn g l) := by
  unfold Dev.copyTxn; exact .ite (.setTerm h) (.setTerm h)

theorem Canon.copySlot {i l} (h : Canon d) : Canon (d.copySlot i l) := by unfold Dev.copySlot; exact .setSlot h

theorem Canon.loadReg {r i v} (h : Canon d) : Canon (d.loadReg r i v) := by
  unfold Dev.loadReg; exact .foldl h .set

theorem Canon.copyCircuit {i l} (h : Canon d) : Canon (d.copyCircuit i l) := by
  unfold Dev.copyCircuit; exact .setCir (.loadReg (.loadReg (.loadReg h)))

theorem Canon.applyRec {r} (h : Canon d) : Canon (d.applyRec r) := by
  unfold Dev.applyRec
  extract_lets
  split
  · exact .ite (.copyTerm h) h
  · exact .ite (.setWhite h) h
  · exact .ite (.copyRuling h) h
  · exact .ite (.writeCont h) h
  · exact .ite (.copyCont h) h
  · exact .ite (.loadReg h) h
  · exact .ite (.copyTxn h) h
  · exact .ite (.copySlot h) h
  · exact .ite (.copyCircuit h) h
  · exact h

theorem Canon.applyCopy (h : Canon d) : Canon d.applyCopy := by
  unfold Dev.applyCopy; exact .ite h (.foldl (.upd h) .applyRec)

theorem Canon.takeRecs {bulk l} (h : Canon d) : Canon (d.takeRecs bulk l) := by unfold Dev.takeRecs; exact .upd h

theorem execDelta_keepsForm {f recs} : KeepsForm (Machine.execDelta f recs) := by
  unfold Machine.execDelta; exact .run (fun he => .ite (.takeRecs he) he)

theorem execBulk_keepsForm {recs last} : KeepsForm (Machine.execBulk recs last) := by
  unfold Machine.execBulk
  refine .run (fun he => ?_)
  refine .ite ?_ he
  extract_lets d
  have hd : Canon d := .takeRecs he
  exact .ite (.upd hd) hd

theorem Canon.takeCommit {count crc} (h : Canon d) : Canon (d.takeCommit count crc) := by
  unfold Dev.takeCommit; exact .ite (.ite (.showReady (.set (.upd h))) (.upd h)) (.unsync h)

theorem execCommit_keepsForm {f count crc} : KeepsForm (Machine.execCommit f count crc) := by
  unfold Machine.execCommit; exact .run (fun he => .ite (.takeCommit he) he)

theorem execStitchLearn_keepsForm {us} : KeepsForm (Machine.execStitchLearn us) := by
  unfold Machine.execStitchLearn; exact .run (fun he => .ite (.foldl he .applyUpdate) he)

theorem execStitchKey_keepsForm {slot wrapped} : KeepsForm (Machine.execStitchKey slot wrapped) := by
  unfold Machine.execStitchKey
  refine .run (fun he => ?_)
  refine .ite ?_ he
  split
  · exact .loadSlot he
  · exact .flag (.setSlot he)

theorem execResyncReq_keepsForm : KeepsForm Machine.execResyncReq := by
  unfold Machine.execResyncReq; exact .run (fun he => .ite (.upd he) he)

theorem Canon.Fst.mapBurst {sub loc l} (h : Canon d) : Canon.Fst (d.mapBurst sub loc l) := by
  unfold Dev.mapBurst; exact .mk (.fst (.draw h))

theorem Canon.Fst.mapRun {sub r l} (hr : Canon.Fst r) : Canon.Fst (Dev.mapRun sub r l) := by
  unfold Dev.mapRun
  extract_lets es
  clear_value es
  split
  · exact hr
  · exact .ite hr (.mk (.fst (.mapBurst (.fst hr))))

theorem Canon.Fst.dropOverlaps {c r b} (hr : Canon.Fst r) : Canon.Fst (Dev.dropOverlaps c r b) := by
  unfold Dev.dropOverlaps; exact .ite (.mk (.flag (.fst hr))) (.mk (.fst hr))

theorem Canon.startDelta {c} (h : Canon d) : Canon (d.startDelta c) := by
  unfold Dev.startDelta; exact .ite (.acquireDelta (.set h)) h

theorem Canon.takeMap {c target entries} (h : Canon d) : Canon (d.takeMap c target entries) := by
  unfold Dev.takeMap
  exact .setBrx (.schedule (.fst (.foldl (.mk (.fst (.foldl (.mk (.startDelta h)) .mapRun)))
      .dropOverlaps)))

theorem execStitchMap_keepsForm {c target entries} : KeepsForm (Machine.execStitchMap c target entries) := by
  unfold Machine.execStitchMap; exact .run (fun he => .ite (.takeMap he) he)

theorem execTimeReq_keepsForm {t1} : KeepsForm (Machine.execTimeReq t1) := by
  unfold Machine.execTimeReq; exact .run (fun he => .ite (.stSend he) he)

theorem execTimeResp_keepsForm {t1 t2 t3} : KeepsForm (Machine.execTimeResp t1 t2 t3) := by
  unfold Machine.execTimeResp; exact .run (fun he => .ite (.upd he) he)

theorem execMsgLost_keepsForm {type sent} : KeepsForm (Machine.execMsgLost type sent) := by
  unfold Machine.execMsgLost
  refine .run (fun he => ?_)
  refine .ite ?_ he
  extract_lets d _ d1
  have hd : Canon d := .flag he
  have hd1 : Canon d1 := .stlCount hd
  refine .ite ?_ (.ite (.unsync hd) hd)
  refine .ite ?_ hd1
  split
  · exact .upd hd1
  · exact hd1

theorem Canon.sendAgain (h : Canon d) : Canon d.sendAgain := by
  unfold Dev.sendAgain; exact .foldl (.upd h) .stSend

theorem Canon.stHeaders {e} (h : Canon d) : Canon (d.stHeaders e) := by unfold Dev.stHeaders; exact .ite (.upd h) h

theorem execStitchLinkChange_keepsForm {hdrs} : KeepsForm (Machine.execStitchLinkChange hdrs) := by
  unfold Machine.execStitchLinkChange
  refine .run (fun he => ?_)
  refine .ite ?_ he
  extract_lets _ _ d1
  have hd1 : Canon d1 := .stitchLanes (.foldl he .stHeaders)
  exact .ite (.linkGone hd1) (.ite (.sendHello (.upd hd1)) hd1)

theorem Canon.takeLease {p} (h : Canon d) : Canon (d.takeLease p) := by
  unfold Dev.takeLease
  exact .ite (.dropTrigger h) (.ite (.endForwarded (.stlCount (.takeOver (.applyCopy (.dropAsked h)))))
      (.endForwarded (.stlAlarm h)))

theorem execRelease_keepsForm {p} : KeepsForm (Machine.execRelease p) := by
  unfold Machine.execRelease; exact .run (fun he => .ite (.takeLease he) he)

theorem Canon.lossTakeover (h : Canon d) : Canon d.lossTakeover := by
  unfold Dev.lossTakeover
  split
  · exact h
  · exact .ite (.dropTrigger h) (.startTx (.endForwarded (.stlCount (.takeOver (.applyCopy (.runTo (.stlAlarm
        (.runTo (.dropAsked h)))))))))

theorem execLossTakeover_keepsForm : KeepsForm Machine.execLossTakeover := by
  unfold Machine.execLossTakeover; exact .run (fun he => .ite (.lossTakeover he) he)

theorem Canon.suspect {c} (h : Canon d) : Canon (d.suspect c) := by
  unfold Dev.suspect
  extract_lets d
  have hd : Canon d := .stlAlarm (.set h)
  exact .ite (.foldl hd (fun he1 => .ite (.enterHold he1) he1)) hd

theorem execTxSuspect_keepsForm {c optics} : KeepsForm (Machine.execTxSuspect c optics) := by
  unfold Machine.execTxSuspect
  refine .run (fun he => ?_)
  refine .ite ?_ he
  refine .ite (.ite (.handBack (.suspect he)) he) ?_
  split
  · exact .handBack (.suspect (.runTo he))
  · exact he

theorem execRevival_keepsForm : KeepsForm Machine.execRevival := by
  unfold Machine.execRevival
  exact .run (fun he => .ite (.ite (.dropTrigger he) (.startTx (.stlCount (.takeOver (.runTo (.runTo
      (.dropAsked he))))))) (.ite (.showLease (.toRole (.upd (.runTo (.runTo he))))) he))

theorem execLinkWaitExpired_keepsForm : KeepsForm Machine.execLinkWaitExpired := by
  unfold Machine.execLinkWaitExpired; exact .run (fun he => .ite (.upd (.reach he)) he)

/-! ### Operations of Machine/Boot -/

theorem Canon.coldReset (h : Canon d) : Canon d.coldReset := by
  unfold Dev.coldReset
  exact .beginBoot (.upd (.reset h.2))

theorem execColdReset_keepsForm : KeepsForm Machine.execColdReset := by
  unfold Machine.execColdReset; exact .run (fun he => .ite (.coldReset he) he)

theorem Canon.writeReset {code} (h : Canon d) : Canon (d.writeReset code) := by
  unfold Dev.writeReset; exact .ite (.coldReset h) h

theorem execBootReset_keepsForm {code} : KeepsForm (Machine.execBootReset code) := by
  unfold Machine.execBootReset; exact .run .writeReset

theorem execPowerFail_keepsForm : KeepsForm Machine.execPowerFail := by
  unfold Machine.execPowerFail; exact .run (fun he => .set (.set (.updBoot (.coldReset he))))

theorem execSupplyAndClockGood_keepsForm : KeepsForm Machine.execSupplyAndClockGood := by
  unfold Machine.execSupplyAndClockGood; exact .run (fun he => .ite he (.coldReset he))

theorem Canon.showFuses (h : Canon d) : Canon d.showFuses := by
  unfold Dev.showFuses; exact .set (.set (.set (.set h)))

theorem execFusesSensed_keepsForm {f} : KeepsForm (Machine.execFusesSensed f) := by
  unfold Machine.execFusesSensed; exact .run (fun he => .ite (.set (.showFuses (.updBoot (.updBoot he)))) he)

theorem Canon.clearConfig (h : Canon d) : Canon d.clearConfig := by unfold Dev.clearConfig; exact .upd (.powerDown h)

theorem Canon.failSlot {i code record offset} (h : Canon d) : Canon (d.failSlot i code record offset) := by
  unfold Dev.failSlot
  extract_lets _ _ _ _ d2
  have hd2 : Canon d2 := .set (.set (.set (.updBoot (.set (.set (.set h))))))
  exact .ite (.alertActive (.alert (.bump (.set hd2)))) (.set (.bump (.set hd2)))

theorem Canon.stackInit {n failed} (h : Canon d) : Canon (d.stackInit n failed) := by
  unfold Dev.stackInit; exact .ite (.alertActive (.alert (.flag (.set h)))) (.set h)

theorem Canon.stacksReady {failed} (h : Canon d) : Canon (d.stacksReady failed) := by
  unfold Dev.stacksReady; exact .foldUpTo h (fun he => .ite (.stackInit he) (.ite (.set he) he))

theorem execSlotReadDone_keepsForm {r} : KeepsForm (Machine.execSlotReadDone r) := by
  unfold Machine.execSlotReadDone
  refine .run (fun he => ?_)
  refine .ite ?_ he
  extract_lets _ d
  have hd : Canon d := .stacksReady (.upd he)
  split
  · exact hd
  · split
    · exact .failSlot hd
    · exact .set (.set (.set (.set (.updBoot hd))))

theorem Canon.Fst.applyMode {l} (h : Canon d) : Canon.Fst (d.applyMode l) := by
  unfold Dev.applyMode; exact .ite (.mk h) (.mk (.set (.set h)))

theorem Canon.applyBundle (h : Canon d) : Canon d.applyBundle := by
  unfold Dev.applyBundle; exact .foldl h (fun he => .ite (.upd he) (.ite (.upd he) (.ite (.loadSlot he) he)))

theorem Canon.Fst.applyGroups {l} (h : Canon d) : Canon.Fst (d.applyGroups l) := by
  unfold Dev.applyGroups
  extract_lets _ _ _ _ _ d2
  have hd2 : Canon d2 := .upd (.foldUpTo (.foldUpTo h .set) .set)
  exact .ite (.mk hd2) (.mk hd2)

theorem Canon.Opt.applyTriple {a v mask} (h : Canon d) : Canon.Opt (d.applyTriple a v mask) := by
  unfold Dev.applyTriple
  split
  · exact .some h
  · extract_lets
    refine .ite ?_ .none
    refine .some ?_
    refine .ite h ?_
    split
    · exact .flag h
    · exact (.foldl h .set)

theorem Canon.Fst.applyTriples {n l} (h : Canon d) : Canon.Fst (Dev.applyTriples n l d) := by
  induction n generalizing l d with
  | zero =>
    rw [Dev.applyTriples]
    exact .mk h
  | succ f ih =>
    rw [Dev.applyTriples]
    split
    · rename_i e heq1
      have he := Canon.of_some heq1 (.applyTriple h)
      exact ih he
    · exact .mk h

theorem Canon.Fst.applyTable {l} (h : Canon d) : Canon.Fst (d.applyTable l) := by
  unfold Dev.applyTable; exact .ite (.mk h) (.mk (.fst (.tableRun h)))

theorem Canon.Opt.applyWhite {l} (h : Canon d) : Canon.Opt (d.applyWhite l) := by
  unfold Dev.applyWhite
  refine .ite .none ?_
  split
  · exact .none
  · extract_lets _ d
    have hd : Canon d := .setWhite h
    exact .ite (.some (.flag hd)) (.some (.pinnedKeys hd))

theorem Canon.Fst.applyWhites {n l} (h : Canon d) : Canon.Fst (Dev.applyWhites n l d) := by
  induction n generalizing l d with
  | zero =>
    rw [Dev.applyWhites]
    exact .mk h
  | succ f ih =>
    rw [Dev.applyWhites]
    split
    · rename_i e heq1
      have he := Canon.of_some heq1 (.applyWhite h)
      exact ih he
    · exact .mk h

theorem Canon.applyEmu {l} (h : Canon d) : Canon (d.applyEmu l) := by
  unfold Dev.applyEmu
  refine .foldl h (fun he => ?_)
  extract_lets _ _ d
  have hd : Canon d := .set he
  split
  · exact .setEmu hd
  · exact .flag hd

theorem Canon.applyPair {l} (h : Canon d) : Canon (d.applyPair l) := by unfold Dev.applyPair; exact .set (.upd h)

theorem Canon.Fst.applyPatch {l} (h : Canon d) : Canon.Fst (d.applyPatch l) := by
  unfold Dev.applyPatch
  exact .ite (.mk h) (.ite (.mk (.foldUpTo (.upd h) (fun he1 => .ite (.loadReg he1) he1))) (.mk (.foldUpTo h
      (fun he2 => .ite (.foldUpTo (.setScribe he2) (fun he4 => .ite (.foldl he4 .set) he4)) he2))))

theorem Canon.Fst.applyQuill {l} (h : Canon d) : Canon.Fst (d.applyQuill l) := by
  unfold Dev.applyQuill
  refine .foldl (.mk h) (fun he => ?_)
  extract_lets
  split
  · exact he
  · exact .ite (.ite he (.mk (.putFilter (.fst he)))) (.ite (.mk (.fst he)) (.ite he (.mk (.putRule (.fst he)))))

theorem Canon.quillDefaults (h : Canon d) : Canon d.quillDefaults := by
  unfold Dev.quillDefaults
  exact .foldUpTo (.foldUpTo h (fun he => .ite he (.putRule he))) (fun he2 => .ite he2 (.putFilter he2))

theorem Canon.Fst.applyFuse {l} (h : Canon d) : Canon.Fst (d.applyFuse l) := by
  unfold Dev.applyFuse; exact .ite (.mk (.updBoot h)) (.mk h)

theorem Canon.Fst.applyImgRec {r} (h : Canon d) : Canon.Fst (d.applyImgRec r) := by
  unfold Dev.applyImgRec
  refine .ite (.mk h) ?_
  split
  · exact .applyMode h
  · exact .mk h
  · exact .applyGroups h
  · exact .ite (.mk h) (.applyTriples h)
  · exact .applyTable h
  · exact .ite (.mk h) (.applyWhites h)
  · exact .mk (.applyEmu h)
  · exact .mk (.applyPair h)
  · exact .applyPatch h
  · exact .applyQuill h
  · exact .mk (.upd h)
  · exact .applyFuse h
  · exact .mk h

theorem Canon.Fst.applyRecords {n n1 l} (h : Canon d) : Canon.Fst (Dev.applyRecords n n1 l d) := by
  induction l generalizing n n1 d with
  | nil =>
    rw [Dev.applyRecords]
    exact .mk h
  | cons r rest ih =>
    rw [Dev.applyRecords]
    refine .ite (.mk h) ?_
    extract_lets a
    have ha : Canon.Fst a := .applyImgRec h
    split
    · exact .mk (.fst ha)
    · exact ih (.fst ha)

theorem Canon.checkCircuits (h : Canon d) : Canon d.checkCircuits := by
  unfold Dev.checkCircuits; exact .foldUpTo h (fun he => .ite (.flag (.foldl he .set)) he)

theorem Canon.placeBuckets (h : Canon d) : Canon d.placeBuckets := by
  unfold Dev.placeBuckets
  exact .ite (.foldUpTo h .upd) (.foldUpTo h (fun he1 => .set (.set (.ite (.bumpAt he1) he1))))

theorem Canon.showConfig (h : Canon d) : Canon d.showConfig := by
  unfold Dev.showConfig
  exact .showPages (.foldUpTo (.foldUpTo h (fun he => .set (.set he))) .showLoad)

theorem Canon.clearMirrors (h : Canon d) : Canon d.clearMirrors := .filterObs h rfl rfl

theorem Canon.mirrorOwners (h : Canon d) : Canon d.mirrorOwners := by
  unfold Dev.mirrorOwners; exact .foldUpTo h (fun he => .ite he (.mirror he))

theorem Canon.hotOut (h : Canon d) : Canon d.hotOut := by
  unfold Dev.hotOut; exact .showMig (.upd (.foldl h (fun he => .ite (.stackOut (.set he)) he)))

theorem Canon.startLanes (h : Canon d) : Canon d.startLanes := by
  unfold Dev.startLanes
  exact .foldUpTo (.upd (.foldUpTo (.settleWrites (.mirrorOwners (.hotOut (.showConfig (.placeBuckets (.foldUpTo h
      .set)))))) (fun he3 => .ite (.armTrig he3) he3))) (fun he6 => .ite (.laneOn he6) he6)

theorem Canon.checkConfig {i modes} (h : Canon d) : Canon (d.checkConfig i modes) := by
  unfold Dev.checkConfig
  extract_lets e
  have he : Canon e := .checkCircuits (.quillDefaults h)
  exact .ite (.set (.startLanes he)) (.failSlot (.clearConfig (.fst (.draw (.fst (.draw he))))))

theorem execRecordsApplied_keepsForm : KeepsForm Machine.execRecordsApplied := by
  unfold Machine.execRecordsApplied
  refine .run (fun he => ?_)
  refine .ite ?_ he
  extract_lets _ _ _ _ r
  have hr : Canon.Fst r := .applyRecords (.applyBundle (.clearMirrors (.upd (.dropImage he))))
  split
  · exact .failSlot (.clearConfig (.fst hr))
  · exact .checkConfig (.fst hr)

theorem Canon.blowFuse {bad op} (h : Canon d) : Canon (Dev.blowFuse bad d op) := by
  unfold Dev.blowFuse
  extract_lets w d
  have hw : Canon.Fst w := .ite (.draw h) (.mk h)
  have hd : Canon d := .ite (.alert (.bump (.fst hw))) (.fst hw)
  exact .ite hd (.updBoot hd)

theorem Canon.enterPair (h : Canon d) : Canon d.enterPair := by
  unfold Dev.enterPair
  extract_lets _ _ _ d
  have hd : Canon d := .squelch (.upd h)
  exact .ite h (.sendHello (.ite (.toRole hd) hd))

theorem execBootLock_keepsForm {fuseBad} : KeepsForm (Machine.execBootLock fuseBad) := by
  unfold Machine.execBootLock
  refine .run (fun he => ?_)
  refine .ite ?_ he
  extract_lets _ _ _ _ d2
  have hd2 : Canon d2 := .enterPair (.toMode (.upd (.set (.set he))))
  exact .showFuses (.updBoot (.foldl (.ite (.acquire hd2) hd2) .blowFuse))

theorem execTodWaitEnd_keepsForm : KeepsForm Machine.execTodWaitEnd := by
  unfold Machine.execTodWaitEnd; exact .run (fun he => .ite (.upd (.set he)) he)

theorem Canon.Fst.drawBytes {n} (h : Canon d) : Canon.Fst (d.drawBytes n) := by
  unfold Dev.drawBytes; exact .mk (.upd h)

theorem Canon.flashGo {op a} (h : Canon d) : Canon (d.flashGo op a) := by
  unfold Dev.flashGo; exact .ite h (.ite (.flag h) (.updBoot (.set (.set (.bump (.set (.set h)))))))

theorem Canon.bootW {f} (h : Canon d) (hf : ∀ {x0}, Canon x0 → Canon (f x0)) : Canon (d.bootW f) := by
  unfold Dev.bootW; exact .ite h (hf h)

theorem execFlashReadPage_keepsForm {a} : KeepsForm (Machine.execFlashReadPage a) := by
  unfold Machine.execFlashReadPage; exact .run (fun he => .bootW he .flashGo)

theorem execFlashProgramPage_keepsForm {a} : KeepsForm (Machine.execFlashProgramPage a) := by
  unfold Machine.execFlashProgramPage; exact .run (fun he => .bootW he .flashGo)

theorem execFlashErase_keepsForm {a} : KeepsForm (Machine.execFlashErase a) := by
  unfold Machine.execFlashErase; exact .run (fun he => .bootW he .flashGo)

theorem Canon.showPage {l} (h : Canon d) : Canon (d.showPage l) := by
  unfold Dev.showPage; exact .foldUpTo h .set

theorem Canon.flashPut {a l} (h : Canon d) : Canon (d.flashPut a l) := ⟨h.1, Mem.wf_writeN _ _ _ h.2⟩

theorem Canon.programPage {a} (h : Canon d) : Canon (d.programPage a) := by
  unfold Dev.programPage; exact .flashPut (.fst (.drawBytes h))

theorem Canon.flashDone {op a err} (h : Canon d) : Canon (d.flashDone op a err) := by
  unfold Dev.flashDone
  refine .ite ?_ ?_
  · extract_lets r
    have hr : Canon.Fst r := .drawBytes h
    exact .flag (.ite (.showPage (.fst hr)) (.flashPut (.fst hr)))
  · split
    · exact .showPage h
    · exact .programPage h
    · exact .flashPut h

theorem execFlashOpDone_keepsForm {err} : KeepsForm (Machine.execFlashOpDone err) := by
  unfold Machine.execFlashOpDone
  refine .run (fun he => ?_)
  split
  · exact he
  · exact .flashDone (.set (.set (.updBoot he)))

/-! ### Operations of Machine/Micro -/

theorem Canon.dropRunning {c} (h : Canon d) : Canon (d.dropRunning c) := by
  unfold Dev.dropRunning
  extract_lets
  split
  · exact h
  · exact .runEnded (.setScribe h)
  · exact .runEnded (.inboxPop h)

theorem Canon.showHalt (h : Canon d) : Canon d.showHalt := by unfold Dev.showHalt; exact .alertActive h

theorem Canon.abandon {c entry class_ loc} (h : Canon d) : Canon (d.abandon c entry class_ loc) := by
  unfold Dev.abandon
  extract_lets _ _ _ _ d2
  have hd2 : Canon d2 := .set (.set (.set (.setScribe (.traceMicro (.flag h)))))
  exact .ite (.bump (.set hd2)) hd2

theorem Canon.routineRestart {c} (h : Canon d) : Canon (d.routineRestart c) := by
  unfold Dev.routineRestart
  split
  · exact h
  · exact .ite h (.set (.fst (.draw (.abandon h))))

theorem execRoutineRestart_keepsForm {c} : KeepsForm (Machine.execRoutineRestart c) := by
  unfold Machine.execRoutineRestart; exact .run .routineRestart

theorem execWatchdog_keepsForm {c} : KeepsForm (Machine.execWatchdog c) := by
  unfold Machine.execWatchdog; exact .run (fun he => .ite (.dropRunning (.flag (.runCycles he))) he)

theorem Canon.patchReload {c addr} (h : Canon d) : Canon (d.patchReload c addr) := by
  unfold Dev.patchReload
  refine .ite h ?_
  extract_lets _ d d1 _ _ _ _ _ _ d3
  have hd : Canon d := .flag h
  have hd1 : Canon d1 := by
    unfold d1
    split
    · exact hd
    · exact .ite (.traceMicro (.flag (.dropRunning hd))) (.abandon hd)
  have hd3 : Canon d3 := .setScribe (.bump (.runCycles (.fst (.draw hd1))))
  exact .ite (.showHalt (.alert (.set (.runEnded hd3)))) hd3

theorem execPatchReloadDone_keepsForm {c addr} : KeepsForm (Machine.execPatchReloadDone c addr) := by
  unfold Machine.execPatchReloadDone; exact .run .patchReload

theorem Canon.scribeRestart {c} (h : Canon d) : Canon (d.scribeRestart c) := by
  unfold Dev.scribeRestart
  exact .ite (.showHalt (.bump (.set (.setScribe (.foldl h .inboxPop))))) (.flag h)

theorem execScribeRestart_keepsForm {c} : KeepsForm (Machine.execScribeRestart c) := by
  unfold Machine.execScribeRestart; exact .run (fun he => .hostW he .scribeRestart)

theorem Canon.writeTrcCfg {v} (h : Canon d) : Canon (d.writeTrcCfg v) := by
  unfold Dev.writeTrcCfg; exact .ite (.flag h) (.set (.set (.upd (.store h))))

theorem execTraceConfig_keepsForm {v} : KeepsForm (Machine.execTraceConfig v) := by
  unfold Machine.execTraceConfig; exact .run (fun he => .hostW he .writeTrcCfg)

theorem Canon.scrRead {index table} (h : Canon d) : Canon (d.scrRead index table) := by
  unfold Dev.scrRead
  refine .ite h ?_
  extract_lets d
  have hd : Canon d := .set (.set h)
  exact .ite (.flag hd) (.showData hd)

theorem execScrIndRead_keepsForm {index table} : KeepsForm (Machine.execScrIndRead index table) := by
  unfold Machine.execScrIndRead; exact .run (fun he => .hostW he .scrRead)

/-! ### Operations of Machine/RegWrite -/

theorem Canon.portWrite {r busy go v act} (h : Canon d) (hact : ∀ {x0}, Canon x0 → Canon (act x0)) :
    Canon (d.portWrite r busy go v act) := by
  unfold Dev.portWrite
  refine .ite h ?_
  extract_lets d
  have hd : Canon d := .store h
  exact .ite (hact hd) hd

theorem Canon.writeBrxCfg {c v} (h : Canon d) : Canon (d.writeBrxCfg c v) := by
  unfold Dev.writeBrxCfg; exact .storeUp h

theorem Canon.writeFoldCfg {v} (h : Canon d) : Canon (d.writeFoldCfg v) := by
  unfold Dev.writeFoldCfg; exact .ite (.flag h) (.storeHeld h)

theorem Canon.writeQos {p v} (h : Canon d) : Canon (d.writeQos p v) := by
  unfold Dev.writeQos; exact .ite (.flag h) (.store h)

theorem Canon.writeThrottle {v} (h : Canon d) : Canon (d.writeThrottle v) := by
  unfold Dev.writeThrottle
  extract_lets _ _ d
  have hd : Canon d := .upd h
  exact .ite hd (.set (.set hd))

theorem Canon.writeRetire {v} (h : Canon d) : Canon (d.writeRetire v) := by
  unfold Dev.writeRetire; exact .ite (.retireCmd (.ite (.set h) h)) (.store h)

theorem Canon.writeMap {n v} (h : Canon d) : Canon (d.writeMap n v) := by
  unfold Dev.writeMap; exact .ite (.store h) (.flag (.rwlWrite h))

theorem Canon.writeSetNs {v} (h : Canon d) : Canon (d.writeSetNs v) := by
  unfold Dev.writeSetNs
  extract_lets d
  have hd : Canon d := .store h
  exact .ite (.goStep hd) hd

theorem Canon.writeGctl {v} (h : Canon d) : Canon (d.writeGctl v) := by
  unfold Dev.writeGctl
  extract_lets d
  have hd : Canon d := .store h
  exact .ite (.pmuClear hd) hd

theorem Canon.writeRxCfg {n v} (h : Canon d) : Canon (d.writeRxCfg n v) := by
  unfold Dev.writeRxCfg; exact .ite (.storeUp h) (.store h)

theorem Canon.writeFlush {v} (h : Canon d) : Canon (d.writeFlush v) := by
  unfold Dev.writeFlush; exact .ite (.fwdFlush h) (.ite (.flag h) (.store h))

theorem Canon.writeScrStat {c v} (h : Canon d) : Canon (d.writeScrStat c v) := by
  unfold Dev.writeScrStat
  extract_lets d
  have hd : Canon d := .store h
  exact .ite (.scribeRestart hd) hd

theorem Canon.writeFlCtl {v} (h : Canon d) : Canon (d.writeFlCtl v) := by
  unfold Dev.writeFlCtl; exact .ite h (.ite (.flashGo h) (.store h))

theorem Canon.writeEmu {r c t v} (h : Canon d) : Canon (d.writeEmu r c t v) := by
  unfold Dev.writeEmu
  exact .ite (.writeEmuSer h) (.ite (.writeEmuDly h) (.ite (.writeEmuCont h) (.routine h .writeEmuCtl)))

theorem Canon.writePort {r i v} (h : Canon d) : Canon (d.writePort r i v) := by
  unfold Dev.writePort
  exact .ite (.portWrite h .qulAccess) (.ite (.portWrite h .presetAccess) (.ite
      (.portWrite h .gntAccess) (.ite (.portWrite h .tmgAccess) (.ite
          (.portWrite h .parAccess) (.ite (.portWrite h .fwdAccess) (.ite
              (.portWrite h .bufAccess) (.ite (.writeRetire h) (.ite (.portWrite h .keyAccess) (.ite (.portWrite h .scrRead) (.ite (.writeFlush h) (.ite
                      (.writeScrStat h) (.ite (.writeSetNs h) (.ite (.writeGctl h) h)))))))))))))

theorem Canon.writeSpecial {r i j v} (h : Canon d) : Canon (d.writeSpecial r i j v) := by
  unfold Dev.writeSpecial
  refine .ite (.writeCasBkt h) ?_
  refine .ite (.writeReset h) ?_
  refine .ite (.writeFlCtl h) ?_
  refine .ite (.ite h (.store h)) ?_
  refine .ite (.writeFoldCfg h) ?_
  refine .ite ?_ ?_
  · extract_lets e
    have he : Canon e := .store h
    exact .ite (.flag he) he
  · refine .ite ?_ (.ite (.writeTimCfg h) (.ite (.writeCryCfg h) (.ite (.writePtpCfg h) (.ite (.writeCons h) (.ite
        (.writePmuCtl h) (.ite (.writeRingCfg h) (.ite (.writeSqTail h) (.ite (.writeCqHead h) (.ite
            (.writeSlnCtl h) (.ite (.writePatCfg h) (.ite (.writeTxCfg h) (.ite (.writeRxCfg h) (.ite
                (.writeBrxCfg h) (.ite (.writeGntCfg h) (.ite (.writeCirCfg h) (.ite (.writeCirTiming h) (.ite
                    (.writeCirCf h) (.ite (.writeThrottle h) (.ite (.writeQos h) (.ite (.writeRange h) (.ite
                        (.writeMap h) (.writeTrcCfg h))))))))))))))))))))))
    extract_lets e
    have he : Canon e := .store h
    exact .ite (.flag he) he

theorem Canon.regWrite {r i j v} (h : Canon d) : Canon (d.regWrite r i j v) := by
  unfold Dev.regWrite
  exact .ite (.writePort h) (.ite (.writeSpecial h) (.ite (.writeTrig h) (.ite (.writeEmu h) (.ite (.storeHeld h)
      (.ite (.refreshAlerts (.store h)) (.store h))))))

theorem Canon.writeAt {a v} (h : Canon d) : Canon (d.writeAt a v) := by
  unfold Dev.writeAt
  split
  · exact .ite h (.regWrite h)
  · exact h

theorem Canon.hostWrite {a v} (h : Canon d) : Canon (d.hostWrite a v) := by
  unfold Dev.hostWrite; exact .ite (.bootW h .writeAt) (.hostW h .writeAt)

theorem Canon.sendConfig {a v} (h : Canon d) : Canon (d.sendConfig a v) := by
  unfold Dev.sendConfig; exact .ite (.stSend h) h

theorem Canon.accessError {a size write} (h : Canon d) : Canon (d.accessError a size write) := by
  unfold Dev.accessError; exact .event h

theorem Canon.writeFault {a} (h : Canon d) : Canon (d.writeFault a) := by unfold Dev.writeFault; exact .event h

theorem execRegisterWrite_keepsForm {a size v fails} : KeepsForm (Machine.execRegisterWrite a size v fails) := by
  unfold Machine.execRegisterWrite
  exact .run (fun he => .ite he (.ite (.accessError he) (.ite (.writeFault he) (.sendConfig (.hostWrite he)))))

theorem Canon.readAt {a} (h : Canon d) : Canon (d.readAt a) := by
  unfold Dev.readAt
  split
  · exact .readOut (.ite (.nowRead h) (.ite (.capPop h) (.ite (.patSettle h) h)))
  · exact .readOut h

theorem execRegisterRead_keepsForm {a size fails} : KeepsForm (Machine.execRegisterRead a size fails) := by
  unfold Machine.execRegisterRead
  exact .run (fun he => .ite he (.ite (.readOut (.accessError he)) (.ite (.readOut he) (.readAt he))))

theorem Canon.writeWords {a n l} (h : Canon d) : Canon (Dev.writeWords a n l d) := by
  induction n generalizing a l d with
  | zero =>
    rw [Dev.writeWords]
    exact h
  | succ f ih =>
    rw [Dev.writeWords]
    exact ih (.writeAt h)

theorem execStitchConfig_keepsForm {a data} : KeepsForm (Machine.execStitchConfig a data) := by
  unfold Machine.execStitchConfig; exact .run (fun he => .ite (.writeWords he) he)

/-! ### Operations of Machine/TermTx -/

theorem Canon.emuAnswer {g sub m expects} (h : Canon d) : Canon (d.emuAnswer g sub m expects) := by
  unfold Dev.emuAnswer; exact .setEmu h

theorem Canon.emuRange {c t near l} (h : Canon d) : Canon (d.emuRange c t near l) := by
  unfold Dev.emuRange
  extract_lets _ _ _ d
  have hd : Canon d := .setEmu h
  exact .ite hd (.emuTo hd)

/-- `unwrap` is made a variable first: the kernel would run it to compare two forms of the match on its answer. -/
theorem Canon.Fst.emuEffect {c t sub type l} (h : Canon d) : Canon.Fst (d.emuEffect c t sub type l) := by
  unfold Dev.emuEffect
  obtain ⟨unwrap, hu⟩ : ∃ u, u = Crypto.unwrap := ⟨_, rfl⟩
  rw [← hu]
  extract_lets _ _ _ _ d d1
  have hd : Canon d := .setEmu h
  have hd1 : Canon d1 := .set (.setEmu h)
  split
  · exact .mk (.emuRange h)
  · exact .mk (.ite (.emuTo hd) hd)
  · exact .mk (.ite hd1 (.emuTo hd1))
  · exact .mk (.setEmu h)
  · split
    · exact .mk (.flag h)
    · split
      · exact .mk (.flag h)
      · exact .mk (.loadSlot h)
  · exact .mk (.ite (.setEmu h) h)
  · exact .mk (.setEmu h)
  · exact .mk (.setEmu h)
  · exact .mk (.setEmu h)
  · exact .mk (.ite (.set (.setEmu h)) h)
  · exact .mk h

theorem Canon.emuMessage {c t sub l} (h : Canon d) : Canon (d.emuMessage c t sub l) := by
  unfold Dev.emuMessage
  extract_lets _ _ _ _ d _ _ _ _ m d1
  have hd : Canon d := .trmCount h
  have hd1 : Canon d1 := .fst (.ite (.emuEffect hd) (.mk hd))
  split
  · exact .emuAnswer hd
  · clear_value m
    split
    · exact hd1
    · exact .emuAnswer (.setEmu hd1)

theorem Canon.discOpen {c sub l t} (h : Canon d) : Canon (Dev.discOpen c sub l d t) := by
  unfold Dev.discOpen
  extract_lets _ _ _ _ _ _ _ _ d
  have hd : Canon d := by
    unfold d
    split
    · exact .setEmu (.fst (.emuDraw (.setEmu h)))
    · exact .ite (.setEmu (.fst (.emuDraw (.setEmu h)))) h
  refine .ite h ?_
  split
  · exact .setEmu (.fst (.emuDraw hd))
  · exact .setEmu hd
  · exact hd

theorem Canon.emuAssign {c t sub l} (h : Canon d) : Canon (d.emuAssign c t sub l) := by
  unfold Dev.emuAssign; exact .emuTo (.set (.set (.setEmu h)))

theorem Canon.emuBroadcast {c sub l} (h : Canon d) : Canon (d.emuBroadcast c sub l) := by
  unfold Dev.emuBroadcast
  extract_lets one
  have hone : ∀ n f, (∀ e t, Canon e → Canon (f e t)) → Canon (one n f) := by
    intro n f hf
    unfold one
    split
    · exact hf _ _ (.trmCount h)
    · exact .msgDiscard h
  clear_value one
  split
  · exact .foldl (.trmCount h) fun he => .discOpen he
  · refine hone _ _ fun _ _ he => ?_
    exact .ite he (.emuAssign he)
  · refine hone _ _ fun _ _ he => ?_
    exact .ite he (.emuTo he)
  · refine hone _ _ fun _ _ he => ?_
    exact .ite (.emuTo he) he
  · exact .msgDiscard h

theorem Canon.termRx {c} (h : Canon d) : Canon (d.termRx c) := by
  unfold Dev.termRx
  extract_lets _ d
  have hd : Canon d := .inboxPop h
  split
  · exact h
  · refine .ite (.emuBroadcast hd) ?_
    split
    · exact .msgDiscard hd
    · refine .ite hd ?_
      refine .ite (.msgDiscard hd) ?_
      extract_lets k
      have hk : Canon.Fst k := .checkMsg hd
      exact .ite (.emuMessage (.fst hk)) (.fst hk)

theorem execTermRx_keepsForm {c} : KeepsForm (Machine.execTermRx c) := by
  unfold Machine.execTermRx; exact .run (fun he => .ite (.routine he .termRx) he)

theorem Canon.calibrate {c} (h : Canon d) : Canon (d.calibrate c) := by
  unfold Dev.calibrate; exact .ite h (.set (.set (.set (.fst (.draw (.fst (.draw h)))))))

theorem Canon.emuApplyEqd {c t} (h : Canon d) : Canon (d.emuApplyEqd c t) := by
  unfold Dev.emuApplyEqd
  extract_lets
  split
  · exact .trmCount (.set (.setEmu h))
  · exact h

theorem Canon.emuFrame {c t f} (h : Canon d) : Canon (d.emuFrame c t f) := by
  unfold Dev.emuFrame
  extract_lets _ _ lv d _ d1 _ d2 _ d3
  have hd : Canon d := by
    unfold d
    clear_value lv
    split
    · exact .set (.setEmu h)
    · exact h
  have hd1 : Canon d1 := by
    unfold d1
    split
    · exact .ite (.setEmu hd) hd
    · exact hd
  have hd2 : Canon d2 := .ite (.emuTo (.setEmu hd1)) hd1
  have hd3 : Canon d3 := .setEmu hd2
  exact .ite (.ite (.emuTo hd3) hd3) hd2

theorem Canon.tickEmu {c first t} (h : Canon d) : Canon (Dev.tickEmu c first d t) := by
  unfold Dev.tickEmu
  extract_lets _ _ _ d
  have hd : Canon d := by
    unfold d
    split
    · exact .ite (.emuTo h) h
    · exact .ite h (.emuHold h)
    · exact .ite h (.emuHold h)
    · exact .ite h (.emuHold h)
    · exact .ite (.emuTo (.set (.setEmu h))) (.ite (.set (.setEmu h)) h)
    · exact h
  exact .emuFrame (.ite (.emuApplyEqd hd) hd)

theorem execTermTick_keepsForm {c} : KeepsForm (Machine.execTermTick c) := by
  unfold Machine.execTermTick
  exact .run (fun he => .ite (.routine he (fun he1 => .foldl (.foldl (.formRegions (.calibrate (.setScribe he1)))
      .settleDly) .tickEmu)) he)

theorem execHoldoverExpired_keepsForm {c t} : KeepsForm (Machine.execHoldoverExpired c t) := by
  unfold Machine.execHoldoverExpired; exact .run (fun he => .ite (.emuTo he) he)

theorem execRangeWaitExpired_keepsForm {c t} : KeepsForm (Machine.execRangeWaitExpired c t) := by
  unfold Machine.execRangeWaitExpired; exact .run (fun he => .ite (.emuTo (.runTo he)) he)

theorem execDeactivateTimeout_keepsForm {c t} : KeepsForm (Machine.execDeactivateTimeout c t) := by
  unfold Machine.execDeactivateTimeout
  refine .run (fun he => ?_)
  split
  · exact .ite (.emuTo (.runTo he)) he
  · exact he

theorem Canon.dlyFor {c t eqd sub} (h : Canon d) : Canon (d.dlyFor c t eqd sub) := by
  unfold Dev.dlyFor; exact .settleDly h

theorem Canon.Fst.emuSegment {c t m} (h : Canon d) : Canon.Fst (d.emuSegment c t m) := by
  unfold Dev.emuSegment
  extract_lets _ _ k d d1
  have hk : Canon.Fst k := .consume h
  have hd : Canon d := .sendOut (.octets (.trmCount (.fst hk)))
  have hd1 : Canon d1 := .ite (.set hd) hd
  split
  · exact .mk (.fst hk)
  · exact .mk (.ite (.trmCount hd1) hd1)

theorem Canon.Fst.nextBound {g j} (h : Canon d) : Canon.Fst (d.nextBound g j) := by
  unfold Dev.nextBound
  extract_lets
  split
  · exact .mk h
  · refine .ite (.mk h) ?_
    split
    · exact .mk h
    · exact .mk (.tracePkt (.headWait (.chargeQueue (.fst (.popQ h)))))

theorem Canon.Fst.fillQueue {c t j n n1} (h : Canon d) : Canon.Fst (Dev.fillQueue c t j n d n1) := by
  induction n generalizing d n1 with
  | zero =>
    rw [Dev.fillQueue]
    exact .mk h
  | succ f ih =>
    rw [Dev.fillQueue]
    split
    · exact .mk (.fst (.nextBound h))
    · extract_lets drop _ _ _ _ k
      have hdrop : ∀ {x0}, Canon x0 → Canon (drop x0) := fun he => .release1 (.setBind he)
      have hk : Canon.Fst k := .consume (.fst (.nextBound h))
      refine .ite (ih (hdrop (.txCount (.fst (.nextBound h))))) ?_
      refine .ite (.mk (.setBind (.fst (.nextBound h)))) ?_
      split
      · exact ih (hdrop (.fst hk))
      · extract_lets _ d
        have hd : Canon d := .sendOut (.octets (.bump (.fst hk)))
        exact .mk (.fst (ih (.ite (hdrop hd) (.setBind hd))))

theorem Canon.Fst.fillSyn {c t j label peer router at0 pre n n1 n2} (h : Canon d) :
    Canon.Fst (Dev.fillSyn c t j label peer router at0 pre n d n1 n2) := by
  induction n generalizing d n1 n2 with
  | zero =>
    rw [Dev.fillSyn]
    exact .mk h
  | succ f ih =>
    rw [Dev.fillSyn]
    refine .ite (.mk h) ?_
    extract_lets _ k
    have hk : Canon.Fst k := .consume h
    split
    · exact .mk (.fst hk)
    · exact .mk (.fst (ih (.sendOut (.octets (.bump (.trmCount (.setBind (.fst hk))))))))

theorem Canon.Fst.fillCircuit {i sub len} (h : Canon d) : Canon.Fst (d.fillCircuit i sub len) := by
  unfold Dev.fillCircuit; exact .mk (.sendOut (.setCir (.formTo h)))

theorem Canon.Fst.fillMsgs {c t sub n m} (h : Canon d) : Canon.Fst (Dev.fillMsgs c t sub n d m) := by
  induction n generalizing d m with
  | zero => rw [Dev.fillMsgs]; exact .mk h
  | succ n ih =>
    rw [Dev.fillMsgs]
    refine .ite (.mk h) ?_
    extract_lets ready r
    have hr : Canon.OptFst r := by
      unfold r
      clear_value ready
      split
      · exact .some (.mk (.setEmu h))
      · exact .some (.mk (.setEmu h))
      · exact .none
    clear_value r
    split
    · exact .mk h
    · exact .mk (.fst (ih (.fst (.emuSegment (.of_some_pair rfl hr)))))

theorem Canon.Fst.fillShares {c t sub at0 pre owed b n l} (h : Canon d) :
    Canon.Fst (Dev.fillShares c t sub at0 pre owed b n d l) := by
  induction l generalizing n d b with
  | nil =>
    rw [Dev.fillShares]
    exact .mk h
  | cons s r ih =>
    rw [Dev.fillShares]
    split
    · exact .mk (.fst (ih (.fst (.fillCircuit h))))
    · extract_lets _ d _ bound x
      have hd : Canon d := .fst (.ite (.fillMsgs h) (.mk h))
      have hx : Canon.Fst x := by
        unfold x
        clear_value bound
        split
        · exact .mk hd
        · refine .ite (.fillQueue hd) ?_
          split
          · exact .mk hd
          · exact .fillSyn hd
      exact .mk (.fst (ih (.fst hx)))

theorem Canon.Fst.reportBody {c t} (h : Canon d) : Canon.Fst (d.reportBody c t) := by
  unfold Dev.reportBody
  extract_lets
  split
  · exact .mk h
  · exact .mk (.setEmu h)

theorem Canon.transmit {c at_ cold loc f hdr l} (h : Canon d) : Canon (d.transmit c at_ cold loc f hdr l) := by
  unfold Dev.transmit; exact .ite (.flag h) (.trmCount (.trmCount (.upd h)))

theorem Canon.sendDisc {c t x} (h : Canon d) : Canon (d.sendDisc c t x) := by
  unfold Dev.sendDisc
  exact .transmit (.octets (.trmCount (.trmCount (.setScribe (.setEmu (.set (.runTo (.dlyFor h))))))))

theorem Canon.sendRanging {c t sub start} (h : Canon d) : Canon (d.sendRanging c t sub start) := by
  unfold Dev.sendRanging; exact .transmit (.trmCount (.fst (.emuSegment (.setEmu (.set (.runTo (.dlyFor h)))))))

theorem Canon.Fst.fillAnswers {c t sub n} (h : Canon d) : Canon.Fst (d.fillAnswers c t sub n) := by
  unfold Dev.fillAnswers
  extract_lets
  refine .ite (.mk h) ?_
  split
  · exact .mk h
  · exact .mk (.fst (.emuSegment (.setEmu h)))

theorem Canon.sendBurst {c t b} (h : Canon d) : Canon (d.sendBurst c t b) := by
  unfold Dev.sendBurst
  extract_lets _ _ _ _ _ _ _ _ _ _ _ _ d3 _ _ _ _ _ d5 _ _ _ d6
  have hd3 : Canon d3 := .setEmu (.runTo (.dlyFor (.ite (.emuApplyEqd h) h)))
  have hd5 : Canon d5 := .foldUpTo (.fst (.fillShares (.fst (.fillAnswers (.ite (.set hd3) hd3))))) .flag
  have hd6 : Canon d6 := .trigBurst (.transmit (.fst (.ite (.mk (.fst (.reportBody hd5))) (.mk hd5))))
  exact .ite (.emuTo hd6) hd6

theorem Canon.sendGranted {c t b} (h : Canon d) : Canon (d.sendGranted c t b) := by
  unfold Dev.sendGranted
  extract_lets _ d
  have hd : Canon d := .emuFrame h
  exact .ite (.sendBurst hd) (.setEmu hd)

theorem Canon.burstTx {c t} (h : Canon d) : Canon (d.burstTx c t) := by
  unfold Dev.burstTx
  extract_lets
  split
  · split
    · exact .sendDisc h
    · exact h
  · split
    · exact .sendRanging h
    · exact h
  · split
    · exact .sendGranted h
    · exact h
  · split
    · exact .sendGranted h
    · exact h
  · split
    · exact .sendGranted h
    · exact h
  · exact h

theorem execBurstTx_keepsForm {c t} : KeepsForm (Machine.execBurstTx c t) := by
  unfold Machine.execBurstTx; exact .run (fun he => .ite (.burstTx he) he)

/-! ### Operations of Machine/Frame -/

theorem Canon.leaseAtBoundary (h : Canon d) : Canon d.leaseAtBoundary := by
  unfold Dev.leaseAtBoundary
  refine .ite (.loseLease (.expireLease h)) ?_
  split
  · exact .ite (.runRelease h) h
  · exact h

theorem Canon.expireMarks {c} (h : Canon d) : Canon (d.expireMarks c) := by
  unfold Dev.expireMarks; exact .foldl h (fun he => .ite he (.setTerm he))

theorem Canon.applyChannel {c} (h : Canon d) : Canon (Dev.applyChannel c d) := by
  unfold Dev.applyChannel
  exact .shadowIdle (.applyTrmCfg (.expireMarks (.settleBrx (.release (.release (.release (.release h)))))))

theorem Canon.activeMessages (h : Canon d) : Canon d.activeMessages := by
  unfold Dev.activeMessages
  extract_lets _ _ d _ _ _ d2
  have hd : Canon d := .stlCount (.stSend h)
  have hd2 : Canon d2 := by
    unfold d2
    split
    · exact .stSend (.upd hd)
    · exact hd
  exact .ite h (.sendDelta hd2)

theorem Canon.sendLearns (h : Canon d) : Canon d.sendLearns := by
  unfold Dev.sendLearns; exact .ite h (.stSend (.upd h))

theorem Canon.frameMessages (h : Canon d) : Canon d.frameMessages := by
  unfold Dev.frameMessages
  extract_lets d
  have hd : Canon d := .sendAgain h
  exact .ite (.sendLearns (.activeMessages hd)) (.ite (.stSend hd) (.upd hd))

theorem Canon.mirrorBurst {g} (h : Canon d) : Canon (d.mirrorBurst g) := by unfold Dev.mirrorBurst; exact .obsWrite h

theorem Canon.mirrorBursts (h : Canon d) : Canon d.mirrorBursts := by
  unfold Dev.mirrorBursts; exact .foldl (.upd h) .mirrorBurst

theorem Canon.applyAtBoundary (h : Canon d) : Canon d.applyAtBoundary := by
  unfold Dev.applyAtBoundary; exact .mirrorBursts (.foldUpTo (.applyCircuits h) .applyChannel)

theorem Canon.trigAt {k t a} (h : Canon d) : Canon (d.trigAt k t a) := by
  unfold Dev.trigAt; exact .assertTrig (.runTo h)

theorem execTriggerFire_keepsForm {k} : KeepsForm (Machine.execTriggerFire k) := by
  unfold Machine.execTriggerFire
  refine .run (fun he => ?_)
  extract_lets
  refine .ite he ?_
  split
  · exact .ite he (.assertTrig (.runTo he))
  · exact .assertTrig (.runTo he)
  · split
    · exact .trigAt he
    · split
      · exact he
      · exact .ite (.trigAt he) he
  · split
    · exact .trigAt he
    · split
      · exact he
      · exact .ite (.trigAt he) he
  · exact he

theorem Canon.frameStart (h : Canon d) : Canon d.frameStart := by
  unfold Dev.frameStart
  exact .trigFrame (.foldUpTo (.frameMessages (.applyAtBoundary (.showReady (.applyCopy (.startTx (.leaseAtBoundary
      (.toNewFrame (.upd h)))))))) .beginFrame)

theorem execFrameStart_keepsForm : KeepsForm Machine.execFrameStart := by
  unfold Machine.execFrameStart; exact .run (fun he => .ite (.frameStart he) he)

theorem Canon.idle (h : Canon d) : Canon d.idle := by unfold Dev.idle; exact .ite (.cycles h) (.tick h)

/-! ### Operations of Machine/Replay -/

theorem execWordFailed_keepsForm {src w} : KeepsForm (Machine.execWordFailed src w) := by
  unfold Machine.execWordFailed; exact .run (fun he => .ite (.flag (.setLink he)) he)

theorem Canon.invalidRec {base table index} (h : Canon d) : Canon (d.invalidRec base table index) := by
  unfold Dev.invalidRec
  exact .ite (.ite (.fwdInvalid h) h) (.ite (.ite (.mirrorRule (.upd h)) h) (.ite (.ite (.writeCont h) h) (.ite
      (.tmgWrite h) (.ite (.putRule h) h))))

theorem Canon.invalidate {base table index} (h : Canon d) : Canon (d.invalidate base table index) := by
  unfold Dev.invalidate
  exact .ite (.ite (.endTerm h) h) (.ite (.ite (.set (.set (.hold h))) h) (.ite (.ite (.setSlot h) h) (.ite (.ite
      (.presetState h) h) (.invalidRec h))))

theorem Canon.loseSegment {c} (h : Canon d) : Canon (d.loseSegment c) := by
  unfold Dev.loseSegment; exact .ite h (.upd (.segmentOut h))

theorem Canon.losePacket {src dir pipe} (h : Canon d) : Canon (d.losePacket src dir pipe) := by
  unfold Dev.losePacket
  extract_lets
  split
  · exact .foldl (.setLink h) .release1
  · exact .foldl (.setLink h) .release1
  · split
    · exact h
    · exact .foldl (.upd h) .release1

theorem Canon.uncorrectable {src dir x} (h : Canon d) : Canon (d.uncorrectable src dir x) := by
  unfold Dev.uncorrectable
  split
  · exact .losePacket h
  · exact .ite (.macTx h) h
  · exact .loseSegment h
  · exact .ite h (.invalidate (.event h))
  · exact .ite h (.readOut h)
  · exact .ite h (.event h)

theorem Canon.resume {src dir} (h : Canon d) : Canon (d.resume src dir) := by
  unfold Dev.resume; exact .goOn (.setLink h)

theorem execReplayedWord_keepsForm {src dir bad} : KeepsForm (Machine.execReplayedWord src dir bad) := by
  unfold Machine.execReplayedWord
  refine .run (fun he => ?_)
  refine .ite ?_ he
  split
  · exact .resume he
  · exact .resume (.uncorrectable (.alertActive (.alert (.flag he))))

theorem execReplayAck_keepsForm {src dir} : KeepsForm (Machine.execReplayAck src dir) := by
  unfold Machine.execReplayAck; exact .run (fun he => .goOn (.setLink he))

end

end Sys2Proof.Machine

/-!
PROOFS of the memory invariant over `exec` and `step`: the commands one by one, then the statements.
-/

namespace Sys2Proof.Machine

open Sys2Proof

/-- Every command keeps both memories canonical. -/
theorem exec_keepsForm (c : Instr) : KeepsForm (exec c) := by
  cases c with
  | registerWrite => exact execRegisterWrite_keepsForm
  | coldReset => exact execColdReset_keepsForm
  | bootReset => exact execBootReset_keepsForm
  | powerFail => exact execPowerFail_keepsForm
  | fusesSensed => exact execFusesSensed_keepsForm
  | slotReadDone => exact execSlotReadDone_keepsForm
  | recordsApplied => exact execRecordsApplied_keepsForm
  | bootLock => exact execBootLock_keepsForm
  | todWaitEnd => exact execTodWaitEnd_keepsForm
  | flashReadPage => exact execFlashReadPage_keepsForm
  | flashProgramPage => exact execFlashProgramPage_keepsForm
  | flashErase => exact execFlashErase_keepsForm
  | flashOpDone => exact execFlashOpDone_keepsForm
  | quadMove => exact execQuadMove_keepsForm
  | quadDrainEnd => exact execQuadDrainEnd_keepsForm
  | quadMoveAbandoned => exact execQuadMoveAbandoned_keepsForm
  | wordFailed => exact execWordFailed_keepsForm
  | replayedWord => exact execReplayedWord_keepsForm
  | replayAck => exact execReplayAck_keepsForm
  | modeTrigger => exact execModeTrigger_keepsForm
  | vigilEntry => exact execVigilEntry_keepsForm
  | vigilDrained => exact execVigilDrained_keepsForm
  | vigilPowerDown => exact execVigilPowerDown_keepsForm
  | wake => exact execWake_keepsForm
  | testEntry => exact execTestEntry_keepsForm
  | leaseExpiry => exact execLeaseExpiry_keepsForm
  | frameStart => exact execFrameStart_keepsForm
  | subframeStart => exact execSubframeStart_keepsForm
  | segmentTx => exact execSegmentTx_keepsForm
  | framerConfigApply => exact execFramerConfigApply_keepsForm
  | blockReceived => exact execBlockReceived_keepsForm
  | oof => exact execOof_keepsForm
  | retainExpired => exact execRetainExpired_keepsForm
  | lof => exact execLof_keepsForm
  | codewordDecode => exact execCodewordDecode_keepsForm
  | frameHeaderRx => exact execFrameHeaderRx_keepsForm
  | subframeHeaderRx => exact execSubframeHeaderRx_keepsForm
  | segmentRx => exact execSegmentRx_keepsForm
  | presetLoad => exact execPresetLoad_keepsForm
  | burstReceived => exact execBurstReceived_keepsForm
  | burstMissing => exact execBurstMissing_keepsForm
  | guardIntrusion => exact execGuardIntrusion_keepsForm
  | presetStale => exact execPresetStale_keepsForm
  | subframeTick => exact execSubframeTick_keepsForm
  | discRx => exact execDiscRx_keepsForm
  | rangeRx => exact execRangeRx_keepsForm
  | activate => exact execActivate_keepsForm
  | msgRx => exact execMsgRx_keepsForm
  | msgRetry => exact execMsgRetry_keepsForm
  | track => exact execTrack_keepsForm
  | loss => exact execLoss_keepsForm
  | recoveryEnd => exact execRecoveryEnd_keepsForm
  | gasp => exact execGasp_keepsForm
  | rogue => exact execRogue_keepsForm
  | holdExpired => exact execHoldExpired_keepsForm
  | recallStep => exact execRecallStep_keepsForm
  | moveSource => exact execMoveSource_keepsForm
  | sideMoveEffective => exact execSideMoveEffective_keepsForm
  | moveTarget => exact execMoveTarget_keepsForm
  | doze => exact execDoze_keepsForm
  | keys => exact execKeys_keepsForm
  | alarm => exact execAlarm_keepsForm
  | hostCmd => exact execHostCmd_keepsForm
  | takeover => exact execTakeover_keepsForm
  | termRx => exact execTermRx_keepsForm
  | termTick => exact execTermTick_keepsForm
  | holdoverExpired => exact execHoldoverExpired_keepsForm
  | rangeWaitExpired => exact execRangeWaitExpired_keepsForm
  | deactivateTimeout => exact execDeactivateTimeout_keepsForm
  | snapshot => exact execSnapshot_keepsForm
  | reportProcess => exact execReportProcess_keepsForm
  | gntIndRead => exact execGntIndRead_keepsForm
  | gntIndWrite => exact execGntIndWrite_keepsForm
  | pipelinePacket => exact execPipelinePacket_keepsForm
  | learnApply => exact execLearnApply_keepsForm
  | pendingFilterTimeout => exact execPendingFilterTimeout_keepsForm
  | agingSweep => exact execAgingSweep_keepsForm
  | fwdFlush => exact execFwdFlush_keepsForm
  | fwdIndRead => exact execFwdIndRead_keepsForm
  | fwdIndWrite => exact execFwdIndWrite_keepsForm
  | fwdIndRemove => exact execFwdIndRemove_keepsForm
  | prefixRelocationDone => exact execPrefixRelocationDone_keepsForm
  | schedulerSelect => exact execSchedulerSelect_keepsForm
  | refill => exact execRefill_keepsForm
  | meterSweep => exact execMeterSweep_keepsForm
  | queueReparent => exact execQueueReparent_keepsForm
  | tmgIndRead => exact execTmgIndRead_keepsForm
  | tmgIndWrite => exact execTmgIndWrite_keepsForm
  | spillStep => exact execSpillStep_keepsForm
  | prefetch => exact execPrefetch_keepsForm
  | pageLand => exact execPageLand_keepsForm
  | bufIndRead => exact execBufIndRead_keepsForm
  | bufIndWrite => exact execBufIndWrite_keepsForm
  | memReadComplete => exact execMemReadComplete_keepsForm
  | memWriteAck => exact execMemWriteAck_keepsForm
  | refreshInterval => exact execRefreshInterval_keepsForm
  | stackTempSample => exact execStackTempSample_keepsForm
  | stackReturn => exact execStackReturn_keepsForm
  | pageTimeout => exact execPageTimeout_keepsForm
  | unitRetire => exact execUnitRetire_keepsForm
  | migrationStep => exact execMigrationStep_keepsForm
  | macFrameRx => exact execMacFrameRx_keepsForm
  | pauseTimerExpiry => exact execPauseTimerExpiry_keepsForm
  | pauseStorm => exact execPauseStorm_keepsForm
  | pauseStormEnd => exact execPauseStormEnd_keepsForm
  | macFrameTx => exact execMacFrameTx_keepsForm
  | linkUp => exact execLinkUp_keepsForm
  | linkDown => exact execLinkDown_keepsForm
  | circuitRegionRx => exact execCircuitRegionRx_keepsForm
  | circuitFrameRx => exact execCircuitFrameRx_keepsForm
  | regionMiss => exact execRegionMiss_keepsForm
  | burstTx => exact execBurstTx_keepsForm
  | emuEnable => exact execEmuEnable_keepsForm
  | emuDisable => exact execEmuDisable_keepsForm
  | emuGasp => exact execEmuGasp_keepsForm
  | emuGaspTimeout => exact execEmuGaspTimeout_keepsForm
  | emuAlarm => exact execEmuAlarm_keepsForm
  | emuAlarmResend => exact execEmuAlarmResend_keepsForm
  | emuDoze => exact execEmuDoze_keepsForm
  | emuCountApply => exact execEmuCountApply_keepsForm
  | bucketMove => exact execBucketMove_keepsForm
  | bucketHoldEnd => exact execBucketHoldEnd_keepsForm
  | laneEnable => exact execLaneEnable_keepsForm
  | laneDisable => exact execLaneDisable_keepsForm
  | lanePowerupDone => exact execLanePowerupDone_keepsForm
  | laneCalDone => exact execLaneCalDone_keepsForm
  | laneLock => exact execLaneLock_keepsForm
  | laneFault => exact execLaneFault_keepsForm
  | faultRetry => exact execFaultRetry_keepsForm
  | los => exact execLos_keepsForm
  | retrain => exact execRetrain_keepsForm
  | injOne => exact execInjOne_keepsForm
  | rateInjection => exact execRateInjection_keepsForm
  | presetRead => exact execPresetRead_keepsForm
  | presetWrite => exact execPresetWrite_keepsForm
  | presetErase => exact execPresetErase_keepsForm
  | parIndRead => exact execParIndRead_keepsForm
  | parIndWrite => exact execParIndWrite_keepsForm
  | fragTimeout => exact execFragTimeout_keepsForm
  | keyStatusRead => exact execKeyStatusRead_keepsForm
  | keyPortImport => exact execKeyPortImport_keepsForm
  | keyPortErase => exact execKeyPortErase_keepsForm
  | keyZeroize => exact execKeyZeroize_keepsForm
  | jobComplete => exact execJobComplete_keepsForm
  | jobPreempt => exact execJobPreempt_keepsForm
  | servoSample => exact execServoSample_keepsForm
  | sourceLoss => exact execSourceLoss_keepsForm
  | clockStep => exact execClockStep_keepsForm
  | ppsInEdge => exact execPpsInEdge_keepsForm
  | ptpMessageRx => exact execPtpMessageRx_keepsForm
  | ptpMessageTx => exact execPtpMessageTx_keepsForm
  | triggerFire => exact execTriggerFire_keepsForm
  | triggerEnd => exact execTriggerEnd_keepsForm
  | ppsOutPulse => exact execPpsOutPulse_keepsForm
  | capEdge => exact execCapEdge_keepsForm
  | capturePop => exact execCapturePop_keepsForm
  | nowRead => exact execNowRead_keepsForm
  | hello => exact execHello_keepsForm
  | renew => exact execRenew_keepsForm
  | stitchAck => exact execStitchAck_keepsForm
  | release => exact execRelease_keepsForm
  | resign => exact execResign_keepsForm
  | delta => exact execDelta_keepsForm
  | commit => exact execCommit_keepsForm
  | stitchMap => exact execStitchMap_keepsForm
  | stitchLearn => exact execStitchLearn_keepsForm
  | stitchKey => exact execStitchKey_keepsForm
  | stitchConfig => exact execStitchConfig_keepsForm
  | timeReq => exact execTimeReq_keepsForm
  | timeResp => exact execTimeResp_keepsForm
  | resyncReq => exact execResyncReq_keepsForm
  | bulk => exact execBulk_keepsForm
  | msgLost => exact execMsgLost_keepsForm
  | stitchLinkChange => exact execStitchLinkChange_keepsForm
  | lossTakeover => exact execLossTakeover_keepsForm
  | txSuspect => exact execTxSuspect_keepsForm
  | revival => exact execRevival_keepsForm
  | linkWaitExpired => exact execLinkWaitExpired_keepsForm
  | routineRestart => exact execRoutineRestart_keepsForm
  | watchdog => exact execWatchdog_keepsForm
  | patchReloadDone => exact execPatchReloadDone_keepsForm
  | scribeRestart => exact execScribeRestart_keepsForm
  | traceConfig => exact execTraceConfig_keepsForm
  | scrIndRead => exact execScrIndRead_keepsForm
  | quillSample => exact execQuillSample_keepsForm
  | opticsPoll => exact execOpticsPoll_keepsForm
  | quillPass => exact execQuillPass_keepsForm
  | quillParityRestart => exact execQuillParityRestart_keepsForm
  | thermalTrip => exact execThermalTrip_keepsForm
  | foldWindow => exact execFoldWindow_keepsForm
  | unfoldLocked => exact execUnfoldLocked_keepsForm
  | qulIndRead => exact execQulIndRead_keepsForm
  | qulIndWrite => exact execQulIndWrite_keepsForm
  | sqDoorbell => exact execSqDoorbell_keepsForm
  | cqHeadWrite => exact execCqHeadWrite_keepsForm
  | ringStop => exact execRingStop_keepsForm
  | nop => exact execNop_keepsForm
  | admitEntry => exact execAdmitEntry_keepsForm
  | disable => exact execDisable_keepsForm
  | enable => exact execEnable_keepsForm
  | deactivate => exact execDeactivate_keepsForm
  | moveSide => exact execMoveSide_keepsForm
  | rerange => exact execRerange_keepsForm
  | dozeAllow => exact execDozeAllow_keepsForm
  | recallClear => exact execRecallClear_keepsForm
  | tableWrite => exact execTableWrite_keepsForm
  | keyImport => exact execKeyImport_keepsForm
  | keyErase => exact execKeyErase_keepsForm
  | setMode => exact execSetMode_keepsForm
  | switchOver => exact execSwitchOver_keepsForm
  | job => exact execJob_keepsForm
  | commandComplete => exact execCommandComplete_keepsForm
  | blotterEvent => exact execBlotterEvent_keepsForm
  | blotterEntryClose => exact execBlotterEntryClose_keepsForm
  | blotterWrite => exact execBlotterWrite_keepsForm
  | evtConsWrite => exact execEvtConsWrite_keepsForm
  | msiSend => exact execMsiSend_keepsForm
  | counterSheet => exact execCounterSheet_keepsForm
  | halfRange => exact execHalfRange_keepsForm
  | bwWindow => exact execBwWindow_keepsForm
  | pmuClear => exact execPmuClear_keepsForm
  | supplyAndClockGood => exact execSupplyAndClockGood_keepsForm
  | mailboxCommand => exact execMailboxCommand_keepsForm
  | hostMemoryWrite => exact execHostMemoryWrite_keepsForm
  | registerRead => exact execRegisterRead_keepsForm
  | signalReturns => exact execSignalReturns_keepsForm
  | cdrLockLost => exact execCdrLockLost_keepsForm
  | patSyncSet => exact execPatSyncSet_keepsForm
  | patSyncCleared => exact execPatSyncCleared_keepsForm
  | laneOffReached => exact execLaneOffReached_keepsForm
  | blotterIrqAge => exact execBlotterIrqAge_keepsForm
  | mirrorStateRewrite => exact execMirrorStateRewrite_keepsForm

theorem exec_canonical {c : Instr} {s t : State} (h : exec c s = .next t) (hs : s.canonical = true) :
    t.canonical = true := canonical_iff.mpr (exec_keepsForm c s t h (canonical_iff.mp hs))

/-- A command that answers leaves the queue as it stands. -/
theorem exec_pending {c : Instr} {s t : State} (h : exec c s = .next t) : t.pending = s.pending := by
  obtain ⟨f, hf⟩ := exec_eq_run c
  rw [hf] at h
  obtain ⟨-, hr⟩ | ⟨-, hr⟩ := run_cases c s f
  · rw [hr] at h
    cases h
    rfl
  · rw [hr] at h
    cases h

/-- Settles O33: an idle step and every command keep the memories canonical, and a step takes at most the front of the
queue. -/
theorem stepKeepsMemoryForm : Obligations.StepKeepsMemoryForm := by
  rintro ⟨pending, d⟩ t h
  cases pending with
  | nil =>
    rw [step_nil] at h
    cases h
    exact ⟨fun hs => canonical_iff.mpr (.idle (canonical_iff.mp hs)), id⟩
  | cons c q =>
    rw [step_cons] at h
    refine ⟨fun hs => exec_canonical h (canonical_iff.mpr (canonical_iff.mp hs)), fun hf => ?_⟩
    have hq : q.all Instr.wf = true := (Bool.and_eq_true_iff.mp hf).2
    rw [State.fed, exec_pending h]
    exact hq

/-- Settles O32: a well-formed command answers, and `exec` keeps the memories canonical and the queue as it is. -/
theorem memoryCommandsKeepTheirForm : Obligations.MemoryCommandsKeepTheirForm := by
  intro c s hw hs _
  obtain ⟨e, he⟩ := wellFormedCommandsComplete c s hw
  exact ⟨_, he, exec_canonical he hs, exec_pending he⟩

end Sys2Proof.Machine
